-- ==== Sys2Proof/Word.lean ====
section
/-! DEFINITION. The word types of the Decyar W1 and the sparse map every part of the state is kept in. -/
namespace Sys2Proof

/-- A g register, an address, a system register (R57). -/
abbrev Word := BitVec 64

/-- A v register (R57). -/
abbrev VecReg := BitVec 512

/-- A byte of memory. -/
abbrev Byte := BitVec 8

/-- A sparse map from numbers to values: the entries that differ from a default, keys strictly rising. -/
abbrev FMap (α : Type) := List (Nat × α)

end Sys2Proof
end

