-- ==== Sys2Proof/Config.lean ====
section
/-! DEFINITION. What the spec leaves open, as functions without a body: nothing can be proved of their values.
Each is named in the assumption log (rows 2, 3, 5 and 8). -/
namespace Sys2Proof.Config

/-- The n-th free value of a given width (log entry 2). -/
opaque freeValue (w : Nat) : Nat → BitVec w

/-- Which of several possible steps happens at draw n (log entry 3). -/
opaque pick : Nat → Nat

/-- Ticks that pass before step n (log entry 5). -/
opaque elapsed : Nat → Nat

/-- Cycles that pass before step n (log entry 5). -/
opaque cycled : Nat → Nat

/-- SHAKE256 of a bit string given by length and value, with an output width (log entry 8; R422, R423). -/
opaque shake256 (w : Nat) : Nat → Nat → BitVec w

/-- KMAC256 under a key over a bit string given by length and value, with a customisation string's number: 0 QNMO-RING,
1 the empty string (R434, R435, R437; log entry 8). -/
opaque kmac256 (w : Nat) : BitVec 256 → Nat → Nat → Nat → BitVec w

/-- AES-256-GCM decryption: key, nonce, additional data, ciphertext, tag; none when the tag does not verify (R437; log entry 8). -/
opaque gcmOpen : BitVec 256 → BitVec 96 → BitVec 128 → BitVec 256 → BitVec 128 → Option (BitVec 256)

/-- ML-DSA-65 key generation from a seed: the public and the private key (R422; log entry 8). -/
opaque keyGen : BitVec 256 → BitVec 15616 × BitVec 32256

/-- An ML-DSA-65 signature under a private key of a bit string given by length and value (R439, R442; log entry 8). -/
opaque sign : BitVec 32256 → Nat → Nat → BitVec 26472

/-- The ML-DSA-65 signature that an image of so many bytes and this value carries verifies under a public key (R424, R425; log entry 8). -/
opaque verifies : BitVec 15616 → Nat → Nat → Bool

/-- The public key that a firmware image of so many bytes and this value carries (R424; log entry 8). -/
opaque carriedKey : Nat → Nat → BitVec 15616

/-- The fused trust anchor: the digest of the firmware-signing public key (R422; log entry 8). -/
opaque trustAnchor : BitVec 256

/-- The fused secret of the wafer (R422; log entry 8). -/
opaque uds : BitVec 256

/-- The n-th output of the reseeded DRBG, 512 bits (R427; log entry 8). -/
opaque drbg : Nat → BitVec 512

/-- The n-th reseed succeeds (R427, R428; log entry 8). -/
opaque reseedOk : Nat → Bool

/-- The tag of a sealed message verifies at the receiving gate at draw n (R431; log entry 8). -/
opaque sealOk : Nat → Bool

/-- Some flits of a message have arrived, and not all, when the hack reaches its destination, at draw n (R307; log entry 3). -/
opaque partArrived : Nat → Bool

/-- The word issued in the cycle after a store to it was fetched before the store, at draw n (R213; log entry 3). -/
opaque fetchedBefore : Nat → Bool

/-- What another wafer answers to a request that crosses a link, at draw n: 0 it performs it, else a code (R323, R325; log entry 39). -/
opaque farAnswer : Nat → BitVec 8

/-- The bytes of firmware images that boot measures: 0 SEC firmware, 3 island runtime, 64 + i boot firmware of island i (R424; log
entries 8 and 114). -/
opaque firmware : Nat → Nat

/-- Their lengths in bytes (log entry 8). -/
opaque firmwareLen : Nat → Nat

/-- The tile monitor image by byte, at SPM offset 0x17_0000; of its length, firmware image 2, boot and CREATE measure them (R419, R424; log
entry 8). -/
opaque monitorImage : Nat → BitVec 8

/-- An image is verified (R424): the digest of the key that it carries is the trust anchor, and its signature verifies under that key. -/
def imageOk (n v : Nat) : Bool :=
  let k := carriedKey n v
  shake256 256 15616 k.toNat == trustAnchor && verifies k n v

/-- The firmware-signing public key, as the SEC firmware carries it (R422, R424). -/
def signingKey : BitVec 15616 := carriedKey (firmwareLen 0) (firmware 0)

end Sys2Proof.Config
end

