-- ==== Sys2Proof/Syntax.lean ====
section
/-! DEFINITION. The one inductive of steps: one constructor per row of spec/opcode_table.json, in the table's order.
The first 221 rows are instruction words, their arguments the fields of the word (R54, R69 to R75, R98 onwards).
The other 117 rows are events of the wafer. The objects an event acts on stand in the state beside it (EvArgs in Machine/State.lean;
the model's own naming, log entry 3); the comment of each event names them: t a site, id a retention entry, r a region, k a kernel or register number, n a position in a list,
who a requester of a translation, cl a cluster, f a field, isl an island, p an edge port, g a port group, b a bay. -/
namespace Sys2Proof

/-- A step of the table of operations and events. -/
inductive Instr where
  /-- ADD (R138): Writes ga + gb to gd, wrapping. -/
  | add (rd : BitVec 6) (ra : BitVec 6) (rb : BitVec 6) (wa : BitVec 1) (wb : BitVec 1)
  /-- SUB (R138): Writes ga − gb to gd, wrapping. -/
  | sub (rd : BitVec 6) (ra : BitVec 6) (rb : BitVec 6) (wa : BitVec 1) (wb : BitVec 1)
  /-- AND (R138): Writes the bitwise AND of ga and gb to gd. -/
  | andG (rd : BitVec 6) (ra : BitVec 6) (rb : BitVec 6) (wa : BitVec 1) (wb : BitVec 1)
  /-- OR (R138): Writes the bitwise OR of ga and gb to gd. -/
  | orG (rd : BitVec 6) (ra : BitVec 6) (rb : BitVec 6) (wa : BitVec 1) (wb : BitVec 1)
  /-- XOR (R138): Writes the bitwise XOR of ga and gb to gd. -/
  | xorG (rd : BitVec 6) (ra : BitVec 6) (rb : BitVec 6) (wa : BitVec 1) (wb : BitVec 1)
  /-- ANDN (R138): Writes ga AND NOT gb to gd. -/
  | andn (rd : BitVec 6) (ra : BitVec 6) (rb : BitVec 6) (wa : BitVec 1) (wb : BitVec 1)
  /-- SHL (R138): Shifts ga left by gb[5:0] into gd. -/
  | shl (rd : BitVec 6) (ra : BitVec 6) (rb : BitVec 6) (wa : BitVec 1) (wb : BitVec 1)
  /-- SHR (R138): Shifts ga right logically by gb[5:0] into gd. -/
  | shr (rd : BitVec 6) (ra : BitVec 6) (rb : BitVec 6) (wa : BitVec 1) (wb : BitVec 1)
  /-- SAR (R138): Shifts ga right arithmetically by gb[5:0] into gd. -/
  | sar (rd : BitVec 6) (ra : BitVec 6) (rb : BitVec 6) (wa : BitVec 1) (wb : BitVec 1)
  /-- ROT (R138): Rotates ga left by gb[5:0] into gd. -/
  | rot (rd : BitVec 6) (ra : BitVec 6) (rb : BitVec 6) (wa : BitVec 1) (wb : BitVec 1)
  /-- SLT (R138): Sets gd to 1 when ga is less than gb as signed values. -/
  | slt (rd : BitVec 6) (ra : BitVec 6) (rb : BitVec 6) (wa : BitVec 1) (wb : BitVec 1)
  /-- SLTU (R138): Sets gd to 1 when ga is less than gb as unsigned values. -/
  | sltu (rd : BitVec 6) (ra : BitVec 6) (rb : BitVec 6) (wa : BitVec 1) (wb : BitVec 1)
  /-- SEQ (R138): Sets gd to 1 when ga equals gb. -/
  | seq (rd : BitVec 6) (ra : BitVec 6) (rb : BitVec 6) (wa : BitVec 1) (wb : BitVec 1)
  /-- SEL (R139): Reads rd as a condition and replaces it with ga when non-zero, else gb. -/
  | sel (rd : BitVec 6) (ra : BitVec 6) (rb : BitVec 6) (wa : BitVec 1) (wb : BitVec 1)
  /-- MIN (R138): Writes the signed lesser of ga and gb. -/
  | min (rd : BitVec 6) (ra : BitVec 6) (rb : BitVec 6) (wa : BitVec 1) (wb : BitVec 1)
  /-- MAX (R138): Writes the signed greater of ga and gb. -/
  | max (rd : BitVec 6) (ra : BitVec 6) (rb : BitVec 6) (wa : BitVec 1) (wb : BitVec 1)
  /-- MINU (R138): Writes the unsigned lesser of ga and gb. -/
  | minu (rd : BitVec 6) (ra : BitVec 6) (rb : BitVec 6) (wa : BitVec 1) (wb : BitVec 1)
  /-- MAXU (R138): Writes the unsigned greater of ga and gb. -/
  | maxu (rd : BitVec 6) (ra : BitVec 6) (rb : BitVec 6) (wa : BitVec 1) (wb : BitVec 1)
  /-- ADDI (R140): Adds a sign-extended 13-bit immediate to ga. -/
  | addi (rd : BitVec 6) (ra : BitVec 6) (wa : BitVec 1) (imm : BitVec 13)
  /-- ANDI (R140): ANDs ga with a sign-extended 13-bit immediate. -/
  | andi (rd : BitVec 6) (ra : BitVec 6) (wa : BitVec 1) (imm : BitVec 13)
  /-- ORI (R140): ORs ga with a sign-extended 13-bit immediate. -/
  | ori (rd : BitVec 6) (ra : BitVec 6) (wa : BitVec 1) (imm : BitVec 13)
  /-- XORI (R140): XORs ga with a sign-extended 13-bit immediate. -/
  | xori (rd : BitVec 6) (ra : BitVec 6) (wa : BitVec 1) (imm : BitVec 13)
  /-- SHLI (R141): Shifts ga left by an immediate amount. -/
  | shli (rd : BitVec 6) (ra : BitVec 6) (wa : BitVec 1) (n : BitVec 6)
  /-- SHRI (R141): Shifts ga right logically by an immediate amount. -/
  | shri (rd : BitVec 6) (ra : BitVec 6) (wa : BitVec 1) (n : BitVec 6)
  /-- SARI (R141): Shifts ga right arithmetically by an immediate amount. -/
  | sari (rd : BitVec 6) (ra : BitVec 6) (wa : BitVec 1) (n : BitVec 6)
  /-- ROTI (R141): Rotates ga left by an immediate amount. -/
  | roti (rd : BitVec 6) (ra : BitVec 6) (wa : BitVec 1) (n : BitVec 6)
  /-- SLTI (R142): Sets gd to 1 when ga is signed-less than a 12-bit immediate. -/
  | slti (rd : BitVec 6) (ra : BitVec 6) (wa : BitVec 1) (k : BitVec 12)
  /-- SLTIU (R142): Sets gd to 1 when ga is unsigned-less than the sign-extended immediate. -/
  | sltiu (rd : BitVec 6) (ra : BitVec 6) (wa : BitVec 1) (k : BitVec 12)
  /-- LIH (R143): Sets gd to the sign-extended 20-bit immediate times 4,096. -/
  | lih (rd : BitVec 6) (imm : BitVec 20)
  /-- ADR (R144): Writes a PC-relative address to gd. -/
  | adr (rd : BitVec 6) (imm : BitVec 20)
  /-- MUL (R145): Writes the low 64 bits of ga · gb. -/
  | mul (rd : BitVec 6) (ra : BitVec 6) (rb : BitVec 6) (wa : BitVec 1) (wb : BitVec 1)
  /-- MULH (R145): Writes the high 64 bits of the signed product. -/
  | mulh (rd : BitVec 6) (ra : BitVec 6) (rb : BitVec 6) (wa : BitVec 1) (wb : BitVec 1)
  /-- MULHU (R145): Writes the high 64 bits of the unsigned product. -/
  | mulhu (rd : BitVec 6) (ra : BitVec 6) (rb : BitVec 6) (wa : BitVec 1) (wb : BitVec 1)
  /-- DIV (R145): Signed division on the local or stream divider, 34 cycles. -/
  | div (rd : BitVec 6) (ra : BitVec 6) (rb : BitVec 6) (wa : BitVec 1) (wb : BitVec 1)
  /-- DIVU (R145): Unsigned division. -/
  | divu (rd : BitVec 6) (ra : BitVec 6) (rb : BitVec 6) (wa : BitVec 1) (wb : BitVec 1)
  /-- REM (R145): Signed remainder. -/
  | rem (rd : BitVec 6) (ra : BitVec 6) (rb : BitVec 6) (wa : BitVec 1) (wb : BitVec 1)
  /-- REMU (R145): Unsigned remainder. -/
  | remu (rd : BitVec 6) (ra : BitVec 6) (rb : BitVec 6) (wa : BitVec 1) (wb : BitVec 1)
  /-- CLZ (R148): Counts leading zero bits of ga. -/
  | clz (rd : BitVec 6) (ra : BitVec 6) (wa : BitVec 1)
  /-- CTZ (R148): Counts trailing zero bits of ga. -/
  | ctz (rd : BitVec 6) (ra : BitVec 6) (wa : BitVec 1)
  /-- POPC (R148): Counts one bits of ga. -/
  | popc (rd : BitVec 6) (ra : BitVec 6) (wa : BitVec 1)
  /-- EXT (R149): Extracts a bit field of ga described by gb. -/
  | ext (rd : BitVec 6) (ra : BitVec 6) (rb : BitVec 6) (wa : BitVec 1) (wb : BitVec 1)
  /-- INS (R149): Inserts ga into a bit field of rd described by gb. -/
  | ins (rd : BitVec 6) (ra : BitVec 6) (rb : BitVec 6) (wa : BitVec 1) (wb : BitVec 1)
  /-- BSWAP (R148): Reverses the byte order of ga. -/
  | bswap (rd : BitVec 6) (ra : BitVec 6) (wa : BitVec 1)
  /-- CLMUL (R150): Writes the low half of the carry-less product. -/
  | clmul (rd : BitVec 6) (ra : BitVec 6) (rb : BitVec 6) (wa : BitVec 1) (wb : BitVec 1)
  /-- CLMULH (R150): Writes the high half of the carry-less product. -/
  | clmulh (rd : BitVec 6) (ra : BitVec 6) (rb : BitVec 6) (wa : BitVec 1) (wb : BitVec 1)
  /-- J (R109): Jumps by a 26-bit word displacement. -/
  | j (disp : BitVec 26)
  /-- JAL (R109): Writes the return address to g1 and jumps. -/
  | jal (disp : BitVec 26)
  /-- PBR (R109): Prepares a branch target in tN. -/
  | pbr (t : BitVec 2) (imm : BitVec 20)
  /-- BR (R109): Branches to the target in tN. -/
  | br (t : BitVec 2)
  /-- RET (R109): Branches to the address in ga. -/
  | ret (ra : BitVec 6)
  /-- BC_EQ (R109): Branches to tN when ga equals gb. -/
  | bcEq (ra : BitVec 6) (rb : BitVec 6) (t : BitVec 2)
  /-- BC_NE (R109): Branches to tN when ga differs from gb. -/
  | bcNe (ra : BitVec 6) (rb : BitVec 6) (t : BitVec 2)
  /-- BC_LT (R109): Branches to tN when ga is signed-less than gb. -/
  | bcLt (ra : BitVec 6) (rb : BitVec 6) (t : BitVec 2)
  /-- BC_GE (R109): Branches to tN when ga is signed-greater or equal to gb. -/
  | bcGe (ra : BitVec 6) (rb : BitVec 6) (t : BitVec 2)
  /-- BC_LTU (R109): Branches to tN when ga is unsigned-less than gb. -/
  | bcLtu (ra : BitVec 6) (rb : BitVec 6) (t : BitVec 2)
  /-- BC_GEU (R109): Branches to tN when ga is unsigned-greater or equal to gb. -/
  | bcGeu (ra : BitVec 6) (rb : BitVec 6) (t : BitVec 2)
  /-- B_EQ (R109): Branches by displacement when ga equals gb. -/
  | bEq (ra : BitVec 6) (rb : BitVec 6) (disp : BitVec 11)
  /-- B_NE (R109): Branches by displacement when ga differs from gb. -/
  | bNe (ra : BitVec 6) (rb : BitVec 6) (disp : BitVec 11)
  /-- B_LT (R109): Branches by displacement when ga is signed-less than gb. -/
  | bLt (ra : BitVec 6) (rb : BitVec 6) (disp : BitVec 11)
  /-- B_GE (R109): Branches by displacement when ga is signed-greater or equal to gb. -/
  | bGe (ra : BitVec 6) (rb : BitVec 6) (disp : BitVec 11)
  /-- B_LTU (R109): Branches by displacement when ga is unsigned-less than gb. -/
  | bLtu (ra : BitVec 6) (rb : BitVec 6) (disp : BitVec 11)
  /-- B_GEU (R109): Branches by displacement when ga is unsigned-greater or equal to gb. -/
  | bGeu (ra : BitVec 6) (rb : BitVec 6) (disp : BitVec 11)
  /-- B_AL (R109): Branches by displacement always. -/
  | bAl (disp : BitVec 11)
  /-- START (R127): Starts the lowest free helper context at ga with stack gb. -/
  | startCtx (rd : BitVec 6) (ra : BitVec 6) (rb : BitVec 6) (wa : BitVec 1) (wb : BitVec 1)
  /-- END (R128): Ends the issuing helper context, freeing or draining it. -/
  | endCtx
  /-- YIELD (R128): Gives up the next issue opportunity and moves the round-robin pointer. -/
  | yield
  /-- TRAP (R129): Raises the user trap with operand n. -/
  | trapN (n : BitVec 6)
  /-- SYSC (R129): Raises the system-call trap with operand n. -/
  | sysc (n : BitVec 6)
  /-- MRET (R119): Returns from monitor mode to TEPC in the mode TSTAT.PM gives. -/
  | mret
  /-- RDSYS (R70): Reads a system register into gd. -/
  | rdsys (rd : BitVec 6) (s : BitVec 12)
  /-- WRSYS (R70): Writes the register named in rd to a system register. -/
  | wrsys (rs : BitVec 6) (s : BitVec 12)
  /-- BRK (R129): Raises the breakpoint trap with operand n. -/
  | brk (n : BitVec 6)
  /-- MKFULL (R133): Sets a register's full/empty bit to full. -/
  | mkfull (rd : BitVec 6) (k : BitVec 6)
  /-- MKEMPTY (R133): Sets a register's full/empty bit to empty. -/
  | mkempty (rd : BitVec 6) (k : BitVec 6)
  /-- MIRR (R134): Loads MIRR from ga and fills the mirrored register copies. -/
  | mirr (ra : BitVec 6) (wa : BitVec 1)
  /-- RDCTX (R135): Reads the status word of context ga. -/
  | rdctx (rd : BitVec 6) (ra : BitVec 6) (wa : BitVec 1)
  /-- LB (R214): Loads a sign-extended byte. -/
  | lb (rd : BitVec 6) (ra : BitVec 6) (wa : BitVec 1) (n : BitVec 1) (off : BitVec 9)
  /-- LBU (R214): Loads a zero-extended byte. -/
  | lbu (rd : BitVec 6) (ra : BitVec 6) (wa : BitVec 1) (n : BitVec 1) (off : BitVec 9)
  /-- LH (R214): Loads a sign-extended halfword. -/
  | lh (rd : BitVec 6) (ra : BitVec 6) (wa : BitVec 1) (n : BitVec 1) (off : BitVec 9)
  /-- LHU (R214): Loads a zero-extended halfword. -/
  | lhu (rd : BitVec 6) (ra : BitVec 6) (wa : BitVec 1) (n : BitVec 1) (off : BitVec 9)
  /-- LW (R214): Loads a sign-extended word. -/
  | lw (rd : BitVec 6) (ra : BitVec 6) (wa : BitVec 1) (n : BitVec 1) (off : BitVec 9)
  /-- LWU (R214): Loads a zero-extended word. -/
  | lwu (rd : BitVec 6) (ra : BitVec 6) (wa : BitVec 1) (n : BitVec 1) (off : BitVec 9)
  /-- LD (R214): Loads a doubleword. -/
  | ld (rd : BitVec 6) (ra : BitVec 6) (wa : BitVec 1) (n : BitVec 1) (off : BitVec 9)
  /-- SB (R214): Stores a byte. -/
  | sb (rs : BitVec 6) (ra : BitVec 6) (wa : BitVec 1) (off : BitVec 11)
  /-- SH (R214): Stores a halfword. -/
  | sh (rs : BitVec 6) (ra : BitVec 6) (wa : BitVec 1) (off : BitVec 11)
  /-- SW (R214): Stores a word. -/
  | sw (rs : BitVec 6) (ra : BitVec 6) (wa : BitVec 1) (off : BitVec 11)
  /-- SD (R214): Stores a doubleword. -/
  | sd (rs : BitVec 6) (ra : BitVec 6) (wa : BitVec 1) (off : BitVec 11)
  /-- AMOADD (R219): Atomically adds gb at ga, returning the old value. -/
  | amoadd (rd : BitVec 6) (ra : BitVec 6) (rb : BitVec 6) (wa : BitVec 1) (wb : BitVec 1) (z : BitVec 1)
  /-- AMOAND (R219): Atomic AND. -/
  | amoand (rd : BitVec 6) (ra : BitVec 6) (rb : BitVec 6) (wa : BitVec 1) (wb : BitVec 1) (z : BitVec 1)
  /-- AMOOR (R219): Atomic OR. -/
  | amoor (rd : BitVec 6) (ra : BitVec 6) (rb : BitVec 6) (wa : BitVec 1) (wb : BitVec 1) (z : BitVec 1)
  /-- AMOXOR (R219): Atomic XOR. -/
  | amoxor (rd : BitVec 6) (ra : BitVec 6) (rb : BitVec 6) (wa : BitVec 1) (wb : BitVec 1) (z : BitVec 1)
  /-- AMOMIN (R219): Atomic signed minimum. -/
  | amomin (rd : BitVec 6) (ra : BitVec 6) (rb : BitVec 6) (wa : BitVec 1) (wb : BitVec 1) (z : BitVec 1)
  /-- AMOMAX (R219): Atomic signed maximum. -/
  | amomax (rd : BitVec 6) (ra : BitVec 6) (rb : BitVec 6) (wa : BitVec 1) (wb : BitVec 1) (z : BitVec 1)
  /-- AMOMINU (R219): Atomic unsigned minimum. -/
  | amominu (rd : BitVec 6) (ra : BitVec 6) (rb : BitVec 6) (wa : BitVec 1) (wb : BitVec 1) (z : BitVec 1)
  /-- AMOMAXU (R219): Atomic unsigned maximum. -/
  | amomaxu (rd : BitVec 6) (ra : BitVec 6) (rb : BitVec 6) (wa : BitVec 1) (wb : BitVec 1) (z : BitVec 1)
  /-- AMOSWAP (R219): Atomic swap. -/
  | amoswap (rd : BitVec 6) (ra : BitVec 6) (rb : BitVec 6) (wa : BitVec 1) (wb : BitVec 1) (z : BitVec 1)
  /-- AMOCAS (R219): Atomic compare-and-swap against rd. -/
  | amocas (rd : BitVec 6) (ra : BitVec 6) (rb : BitVec 6) (wa : BitVec 1) (wb : BitVec 1) (z : BitVec 1)
  /-- AMOADDF (R220): Atomic floating-point add rounded at the home, flags returned. -/
  | amoaddf (rd : BitVec 6) (ra : BitVec 6) (rb : BitVec 6) (wa : BitVec 1) (wb : BitVec 1) (z : BitVec 1)
  /-- FENCE_REL (R221): Release fence of the given scope. -/
  | fenceRel (s : BitVec 3)
  /-- FENCE_ACQ (R221): Acquire fence of the given scope. -/
  | fenceAcq (s : BitVec 3)
  /-- FENCE_FULL (R221): Full fence of the given scope. -/
  | fenceFull (s : BitVec 3)
  /-- TPROBE (R270): Translates ga for an access kind without posting a fault. -/
  | tprobe (rd : BitVec 6) (ra : BitVec 6) (rb : BitVec 6) (wa : BitVec 1) (wb : BitVec 1)
  /-- LRENEW (R270): Walks ga afresh from memory and replaces cached entries. -/
  | lrenew (rd : BitVec 6) (ra : BitVec 6) (rb : BitVec 6) (wa : BitVec 1) (wb : BitVec 1)
  /-- TDROP (R270): Drops the tile's TLB and invariant-cache entries in a VA range. -/
  | tdrop (ra : BitVec 6) (rb : BitVec 6) (wa : BitVec 1) (wb : BitVec 1)
  /-- RDTIME (R281): Reads the field's chronometer. -/
  | rdtime (rd : BitVec 6)
  /-- RDTSR (R281): Reads the context's RSTAMP. -/
  | rdtsr (rd : BitVec 6)
  /-- TWAIT (R281): Waits until the chronometer reaches ga. -/
  | twait (ra : BitVec 6) (wa : BitVec 1)
  /-- RDNBR (R98): Reads a neighbour-pointer register. -/
  | rdnbr (rd : BitVec 6) (e : BitVec 2)
  /-- RDHOP (R98): Reads a hop register. -/
  | rdhop (rd : BitVec 6) (e : BitVec 2)
  /-- RDMAP (R99): Returns the mapping state of a region tile. -/
  | rdmap (rd : BitVec 6) (ra : BitVec 6) (wa : BitVec 1)
  /-- RTWR (R100): Writes a REPTAB entry after the slice's accesses complete. -/
  | rtwr (ra : BitVec 6) (rb : BitVec 6) (wa : BitVec 1) (wb : BitVec 1)
  /-- RTRD (R98): Reads a REPTAB entry. -/
  | rtrd (rd : BitVec 6) (ra : BitVec 6) (wa : BitVec 1)
  /-- SEND (R303): Sends PORT or PUT messages to the tile named in the MDW. -/
  | send (ra : BitVec 6) (rb : BitVec 6) (wa : BitVec 1) (wb : BitVec 1)
  /-- SENDH (R303): Sends active messages to a handler of the named tile. -/
  | sendh (ra : BitVec 6) (rb : BitVec 6) (wa : BitVec 1) (wb : BitVec 1)
  /-- SEND_N (R303): Sends to the north neighbour. -/
  | sendN (ra : BitVec 6) (rb : BitVec 6) (wa : BitVec 1) (wb : BitVec 1)
  /-- SEND_E (R303): Sends to the east neighbour. -/
  | sendE (ra : BitVec 6) (rb : BitVec 6) (wa : BitVec 1) (wb : BitVec 1)
  /-- SEND_S (R303): Sends to the south neighbour. -/
  | sendS (ra : BitVec 6) (rb : BitVec 6) (wa : BitVec 1) (wb : BitVec 1)
  /-- SEND_W (R303): Sends to the west neighbour. -/
  | sendW (ra : BitVec 6) (rb : BitVec 6) (wa : BitVec 1) (wb : BitVec 1)
  /-- QCFG (R304): Binds or unbinds a port register, flushing gathered elements. -/
  | qcfg (ra : BitVec 6) (n : BitVec 3) (wa : BitVec 1)
  /-- HSET (R305): Writes a handler-table entry and returns parked items. -/
  | hset (ra : BitVec 6) (n : BitVec 6) (wa : BitVec 1)
  /-- HCLR (R305): Clears a handler-table entry. -/
  | hclr (n : BitVec 6)
  /-- HSEAL (R305): Seals the handler table. -/
  | hseal
  /-- HOPEN (R305): Opens the handler table. -/
  | hopen
  /-- RCARM (R306): Configures and arms a receive counter. -/
  | rcarm (ra : BitVec 6) (n : BitVec 4) (wa : BitVec 1)
  /-- RCRD (R306): Reads a receive counter's status word. -/
  | rcrd (rd : BitVec 6) (n : BitVec 4)
  /-- TSEND (R303): Arms a triggered send on a receive counter. -/
  | tsend (n : BitVec 4) (ra : BitVec 6) (rb : BitVec 6) (wa : BitVec 1) (wb : BitVec 1)
  /-- TCANCEL (R306): Frees the triggered sends waiting on a counter. -/
  | tcancel (rd : BitVec 6) (n : BitVec 4)
  /-- HMSG (R302): Sends HOST messages to the home island. -/
  | hmsg (ra : BitVec 6) (rb : BitVec 6) (wa : BitVec 1) (wb : BitVec 1)
  /-- SOPEN (R338): Opens a stream end from an SPB. -/
  | sopen (ra : BitVec 6) (n : BitVec 2) (wa : BitVec 1)
  /-- SCLOSE (R338): Returns a stream end's status and closes or aborts it. -/
  | sclose (rd : BitVec 6) (n : BitVec 2)
  /-- XCOPY (R328): Checks and pushes a transfer command. -/
  | xcopy (rc : BitVec 6) (ra : BitVec 6) (rb : BitVec 6) (wa : BitVec 1) (wb : BitVec 1)
  /-- XPOP (R332): Claims the oldest claimable transfer record. -/
  | xpop (rd : BitVec 6)
  /-- BINIT (R352): Initialises a barrier with expected counts, with the busy check. -/
  | binit (rd : BitVec 6) (ra : BitVec 6) (n : BitVec 6) (wa : BitVec 1)
  /-- BINIT_F (R352): Initialises a barrier without the busy check. -/
  | binitF (rd : BitVec 6) (ra : BitVec 6) (n : BitVec 6) (wa : BitVec 1)
  /-- BEXP (R352): Adds expected bytes and arrivals to an armed barrier. -/
  | bexp (ra : BitVec 6) (n : BitVec 6) (wa : BitVec 1)
  /-- BARV (R353): Makes a released arrival at a barrier of a region tile. -/
  | barv (ra : BitVec 6) (rb : BitVec 6) (wa : BitVec 1) (wb : BitVec 1)
  /-- BWAIT (R353): Waits for a barrier to complete and returns its status. -/
  | bwait (rd : BitVec 6) (n : BitVec 6)
  /-- BTEST (R353): Returns a barrier's status without waiting. -/
  | btest (rd : BitVec 6) (n : BitVec 6)
  /-- BINV (R352): Invalidates a barrier to idle. -/
  | binv (n : BitVec 6)
  /-- COLL (R354): Contributes to a collective reduction over a rectangle. -/
  | coll (rd : BitVec 6) (ra : BitVec 6) (rb : BitVec 6) (wa : BitVec 1) (wb : BitVec 1)
  /-- TFORM (R371): Starts forming a train as its leader. -/
  | tform (rd : BitVec 6) (ra : BitVec 6) (wa : BitVec 1)
  /-- TJOIN (R371): Joins a forming train as a follower. -/
  | tjoin (rd : BitVec 6) (ra : BitVec 6) (wa : BitVec 1)
  /-- TLEAVE (R372): Detaches a follower when ga is non-zero. -/
  | tleave (ra : BitVec 6) (t : BitVec 2) (wa : BitVec 1)
  /-- TMARK (R373): Emits a rejoin marker along the lane. -/
  | tmark (n : BitVec 6)
  /-- TREJOIN (R373): Puts a detached follower into rejoin-wait for a marker. -/
  | trejoin (rd : BitVec 6) (n : BitVec 6)
  /-- TSYNC (R374): Synchronises the attached train members as a full region fence. -/
  | tsync (rd : BitVec 6)
  /-- TGANG (R375): Waits until every attached member's matrix unit is empty. -/
  | tgang
  /-- TEND (R376): Dissolves the train. -/
  | tend
  /-- RDSKEW (R370): Reads the member's skew word. -/
  | rdskew (rd : BitVec 6)
  /-- KQ (R392): Submits a launch descriptor to the home island. -/
  | kq (rd : BitVec 6) (ra : BitVec 6) (wa : BitVec 1)
  /-- KEXIT (R393): Exits the tile from its kernel after its retention entries drain. -/
  | kexit (ra : BitVec 6) (wa : BitVec 1)
  /-- RPT (R177): Starts a repeater frame with an immediate count. -/
  | rpt (l : BitVec 4) (s : BitVec 4) (n : BitVec 16)
  /-- RPT_R (R177): Starts a repeater frame with a count from ga. -/
  | rptR (l : BitVec 4) (s : BitVec 4) (wa : BitVec 1) (ra : BitVec 6)
  /-- RPTX (R177): Starts a repeater frame with count and slot mask from ga. -/
  | rptx (l : BitVec 4) (s : BitVec 4) (wa : BitVec 1) (ra : BitVec 6)
  /-- VADD_F (R159): Floating-point vector add. -/
  | vaddF (vd : BitVec 5) (va : BitVec 5) (vb : BitVec 5) (m : BitVec 3) (t : BitVec 2)
  /-- VSUB_F (R159): Floating-point vector subtract. -/
  | vsubF (vd : BitVec 5) (va : BitVec 5) (vb : BitVec 5) (m : BitVec 3) (t : BitVec 2)
  /-- VMUL_F (R159): Floating-point vector multiply. -/
  | vmulF (vd : BitVec 5) (va : BitVec 5) (vb : BitVec 5) (m : BitVec 3) (t : BitVec 2)
  /-- VMIN_F (R159): Floating-point vector minimumNumber. -/
  | vminF (vd : BitVec 5) (va : BitVec 5) (vb : BitVec 5) (m : BitVec 3) (t : BitVec 2)
  /-- VMAX_F (R159): Floating-point vector maximumNumber. -/
  | vmaxF (vd : BitVec 5) (va : BitVec 5) (vb : BitVec 5) (m : BitVec 3) (t : BitVec 2)
  /-- VCMP_EQ_F (R160): Floating-point equal compare into a mask. -/
  | vcmpEqF (vd : BitVec 5) (va : BitVec 5) (vb : BitVec 5) (m : BitVec 3) (t : BitVec 2)
  /-- VCMP_LT_F (R160): Floating-point less-than compare into a mask. -/
  | vcmpLtF (vd : BitVec 5) (va : BitVec 5) (vb : BitVec 5) (m : BitVec 3) (t : BitVec 2)
  /-- VCMP_LE (R160): Floating-point less-or-equal compare into a mask. -/
  | vcmpLe (vd : BitVec 5) (va : BitVec 5) (vb : BitVec 5) (m : BitVec 3) (t : BitVec 2)
  /-- VCMP_UN (R160): Floating-point unordered compare into a mask. -/
  | vcmpUn (vd : BitVec 5) (va : BitVec 5) (vb : BitVec 5) (m : BitVec 3) (t : BitVec 2)
  /-- VFMA (R159): Fused a·b + d. -/
  | vfma (vd : BitVec 5) (va : BitVec 5) (vb : BitVec 5) (m : BitVec 3) (t : BitVec 2)
  /-- VFMS (R159): Fused a·b − d. -/
  | vfms (vd : BitVec 5) (va : BitVec 5) (vb : BitVec 5) (m : BitVec 3) (t : BitVec 2)
  /-- VFNMA (R159): Fused −(a·b) + d. -/
  | vfnma (vd : BitVec 5) (va : BitVec 5) (vb : BitVec 5) (m : BitVec 3) (t : BitVec 2)
  /-- VFNMS (R159): Fused −(a·b) − d. -/
  | vfnms (vd : BitVec 5) (va : BitVec 5) (vb : BitVec 5) (m : BitVec 3) (t : BitVec 2)
  /-- VADD_I (R162): Integer vector add. -/
  | vaddI (vd : BitVec 5) (va : BitVec 5) (vb : BitVec 5) (m : BitVec 3) (w : BitVec 2)
  /-- VSUB_I (R162): Integer vector subtract. -/
  | vsubI (vd : BitVec 5) (va : BitVec 5) (vb : BitVec 5) (m : BitVec 3) (w : BitVec 2)
  /-- VMUL_I (R162): Integer vector multiply, low half. -/
  | vmulI (vd : BitVec 5) (va : BitVec 5) (vb : BitVec 5) (m : BitVec 3) (w : BitVec 2)
  /-- VMULH (R162): Signed vector multiply, high half. -/
  | vmulh (vd : BitVec 5) (va : BitVec 5) (vb : BitVec 5) (m : BitVec 3) (w : BitVec 2)
  /-- VMULHU (R162): Unsigned vector multiply, high half. -/
  | vmulhu (vd : BitVec 5) (va : BitVec 5) (vb : BitVec 5) (m : BitVec 3) (w : BitVec 2)
  /-- VMIN_I (R162): Signed vector minimum. -/
  | vminI (vd : BitVec 5) (va : BitVec 5) (vb : BitVec 5) (m : BitVec 3) (w : BitVec 2)
  /-- VMAX_I (R162): Signed vector maximum. -/
  | vmaxI (vd : BitVec 5) (va : BitVec 5) (vb : BitVec 5) (m : BitVec 3) (w : BitVec 2)
  /-- VMINU (R162): Unsigned vector minimum. -/
  | vminu (vd : BitVec 5) (va : BitVec 5) (vb : BitVec 5) (m : BitVec 3) (w : BitVec 2)
  /-- VMAXU (R162): Unsigned vector maximum. -/
  | vmaxu (vd : BitVec 5) (va : BitVec 5) (vb : BitVec 5) (m : BitVec 3) (w : BitVec 2)
  /-- VCMP_EQ_I (R162): Integer equal compare into a mask. -/
  | vcmpEqI (vd : BitVec 5) (va : BitVec 5) (vb : BitVec 5) (m : BitVec 3) (w : BitVec 2)
  /-- VCMP_LT_I (R162): Signed less-than compare into a mask. -/
  | vcmpLtI (vd : BitVec 5) (va : BitVec 5) (vb : BitVec 5) (m : BitVec 3) (w : BitVec 2)
  /-- VCMP_LTU (R162): Unsigned less-than compare into a mask. -/
  | vcmpLtu (vd : BitVec 5) (va : BitVec 5) (vb : BitVec 5) (m : BitVec 3) (w : BitVec 2)
  /-- VAND (R163): Vector AND. -/
  | vand (vd : BitVec 5) (va : BitVec 5) (vb : BitVec 5) (m : BitVec 3) (w : BitVec 2)
  /-- VOR (R163): Vector OR. -/
  | vor (vd : BitVec 5) (va : BitVec 5) (vb : BitVec 5) (m : BitVec 3) (w : BitVec 2)
  /-- VXOR (R163): Vector XOR. -/
  | vxor (vd : BitVec 5) (va : BitVec 5) (vb : BitVec 5) (m : BitVec 3) (w : BitVec 2)
  /-- VANDN (R163): Vector AND-NOT. -/
  | vandn (vd : BitVec 5) (va : BitVec 5) (vb : BitVec 5) (m : BitVec 3) (w : BitVec 2)
  /-- VSEL (R163): Selects va or vb by the mask. -/
  | vsel (vd : BitVec 5) (va : BitVec 5) (vb : BitVec 5) (m : BitVec 3) (w : BitVec 2)
  /-- VSHL (R163): Vector shift left. -/
  | vshl (vd : BitVec 5) (va : BitVec 5) (vb : BitVec 5) (m : BitVec 3) (w : BitVec 2)
  /-- VSHR (R163): Vector logical shift right. -/
  | vshr (vd : BitVec 5) (va : BitVec 5) (vb : BitVec 5) (m : BitVec 3) (w : BitVec 2)
  /-- VSAR (R163): Vector arithmetic shift right. -/
  | vsar (vd : BitVec 5) (va : BitVec 5) (vb : BitVec 5) (m : BitVec 3) (w : BitVec 2)
  /-- VRCP (R161): Vector reciprocal. -/
  | vrcp (vd : BitVec 5) (va : BitVec 5) (m : BitVec 3) (t : BitVec 2)
  /-- VRSQ (R161): Vector reciprocal square root. -/
  | vrsq (vd : BitVec 5) (va : BitVec 5) (m : BitVec 3) (t : BitVec 2)
  /-- VSQRT (R161): Vector square root. -/
  | vsqrt (vd : BitVec 5) (va : BitVec 5) (m : BitVec 3) (t : BitVec 2)
  /-- VEXP2 (R161): Vector base-2 exponential. -/
  | vexp2 (vd : BitVec 5) (va : BitVec 5) (m : BitVec 3) (t : BitVec 2)
  /-- VLOG2 (R161): Vector base-2 logarithm. -/
  | vlog2 (vd : BitVec 5) (va : BitVec 5) (m : BitVec 3) (t : BitVec 2)
  /-- VTANH (R161): Vector hyperbolic tangent. -/
  | vtanh (vd : BitVec 5) (va : BitVec 5) (m : BitVec 3) (t : BitVec 2)
  /-- VCVT (R164): Converts 16 elements between formats. -/
  | vcvt (vd : BitVec 5) (va : BitVec 5) (n : BitVec 1) (m : BitVec 3) (e : BitVec 4) (s : BitVec 4)
  /-- VPERM (R165): Permutes elements of va and old vd by indices in vb. -/
  | vperm (vd : BitVec 5) (va : BitVec 5) (vb : BitVec 5) (m : BitVec 3) (w : BitVec 2)
  /-- VBCAST (R165): Broadcasts a g register into vector elements. -/
  | vbcast (vd : BitVec 5) (va : BitVec 5) (m : BitVec 3) (w : BitVec 2)
  /-- VEXT (R165): Extracts one element into a g register. -/
  | vext (vd : BitVec 5) (va : BitVec 5) (n : BitVec 5) (w : BitVec 2)
  /-- VINS (R165): Inserts a g register into one element. -/
  | vins (vd : BitVec 5) (va : BitVec 5) (n : BitVec 5) (w : BitVec 2)
  /-- VRED_ADD (R166): Reduces active elements by addition through a fixed tree. -/
  | vredAdd (vd : BitVec 5) (va : BitVec 5) (m : BitVec 3) (c : BitVec 4)
  /-- VRED_MAX (R166): Reduces active elements by maximum. -/
  | vredMax (vd : BitVec 5) (va : BitVec 5) (m : BitVec 3) (c : BitVec 4)
  /-- VRED_MIN (R166): Reduces active elements by minimum. -/
  | vredMin (vd : BitVec 5) (va : BitVec 5) (m : BitVec 3) (c : BitVec 4)
  /-- VCLMUL (R167): Carry-less folds four 128-bit segments. -/
  | vclmul (vd : BitVec 5) (va : BitVec 5) (vb : BitVec 5) (m : BitVec 3)
  /-- VLD (R168): Loads a 64-byte row into vd. -/
  | vld (vd : BitVec 5) (va : BitVec 5) (vb : BitVec 5) (m : BitVec 3) (w : BitVec 2) (n : BitVec 1)
  /-- VST (R168): Stores active elements of vd to a row. -/
  | vst (vd : BitVec 5) (va : BitVec 5) (vb : BitVec 5) (m : BitVec 3) (w : BitVec 2)
  /-- VLDT (R168): Loads and transposes 16 rows into 16 registers. -/
  | vldt (vd : BitVec 5) (va : BitVec 5) (vb : BitVec 5) (n : BitVec 1)
  /-- VGATHER (R168): Gathers elements by indices in vd+1. -/
  | vgather (vd : BitVec 5) (va : BitVec 5) (vb : BitVec 5) (m : BitVec 3) (w : BitVec 1) (n : BitVec 1)
  /-- VSCATTER (R168): Scatters elements by indices in vd+1. -/
  | vscatter (vd : BitVec 5) (va : BitVec 5) (vb : BitVec 5) (m : BitVec 3) (w : BitVec 1)
  /-- MCFG (R197): Pushes a command that loads MCFG at its start. -/
  | mcfg (ga : BitVec 6) (gb : BitVec 6)
  /-- MUNF (R188): Pushes a command that loads and checks the unfolding descriptor. -/
  | munf (ga : BitVec 6) (gb : BitVec 6)
  /-- MLDB (R198): Pushes a command that fills B-buffer or scale-store rows. -/
  | mldb (ga : BitVec 6) (gb : BitVec 6)
  /-- MZERO (R197): Pushes a command that zeroes an accumulator and its ASTAT. -/
  | mzero (acc : BitVec 2) (gb : BitVec 6)
  /-- MSTR (R199): Pushes a command that converts and stores an accumulator to SPM. -/
  | mstr (acc : BitVec 2) (ga : BitVec 6) (gb : BitVec 6) (k : BitVec 8)
  /-- MRD (R201): Reads two accumulator words or ASTAT. -/
  | mrd (acc : BitVec 2) (ga : BitVec 6) (gb : BitVec 6)
  /-- MWR (R201): Writes two accumulator words or ASTAT. -/
  | mwr (acc : BitVec 2) (ga : BitVec 6) (gb : BitVec 6)
  /-- MPOP (R200): Claims the oldest claimable matrix completion record. -/
  | mpop (ga : BitVec 6)
  /-- MSAVE (R203): Saves one part of the matrix state to SPM. -/
  | msave (ga : BitVec 6) (gb : BitVec 6)
  /-- MREST (R203): Restores one part of the matrix state from SPM. -/
  | mrest (ga : BitVec 6) (gb : BitVec 6)
  /-- MMAC (R202): Pushes a matrix multiply-accumulate reading the A panel from SPM. -/
  | mmac (acc : BitVec 2) (ga : BitVec 6) (gb : BitVec 6) (x : BitVec 4) (y : BitVec 4)
  /-- MMACU (R202): Pushes a multiply-accumulate whose A rows come from the unfolding unit. -/
  | mmacu (acc : BitVec 2) (gb : BitVec 6) (x : BitVec 4) (y : BitVec 4)
  /-- MMACS (R202): Pushes a multiply-accumulate whose A rows come from the stream port. -/
  | mmacs (acc : BitVec 2) (gb : BitVec 6) (x : BitVec 4) (y : BitVec 4)
  /-- PFX (R65): Modifier prefix that binds to the next arithmetic word as one pair. -/
  | pfx (rnd : BitVec 3) (scale : BitVec 6) (absb : BitVec 1) (absa : BitVec 1) (negb : BitVec 1) (nega : BitVec 1) (clamp : BitVec 1) (sat : BitVec 1)
  /-- POWER_ON (R455): Module power-on brings up rails, resets, boots and locks the chronometer. Operands: a = base, b = entries of ring 0. -/
  | powerOn
  /-- WAFER_RESET (R417): Resets every site, chronometer and region. Operands: none. -/
  | waferReset
  /-- TILE_RESET (R417): Reloads the tile monitor and frees every context. Operands: a = t. -/
  | tileReset
  /-- TILE_HEARTBEAT (R93): The cluster gate's heartbeat every 1,048,576 cycles; two missed answers make the site dead. Operands: a = t, flag = answered. -/
  | tileHeartbeat
  /-- TILE_DEATH (R96): An assigned tile becomes dead, the region is hacked and the name becomes an address hole. Operands: a = t. -/
  | tileDeath
  /-- SITE_FENCE (R90): The host's fence command takes a site to fenced. Operands: a = t. -/
  | siteFence
  /-- SERVICE_RETEST (R90): A passed service retest returns a fenced site to service and clears CEC. Operands: a = t. -/
  | serviceRetest
  /-- REHOME_WRITE (R95): A write of a rehome register assigns a spare site and reloads routes. Operands: a = r, b = k, w = v. -/
  | rehomeWrite
  /-- REGISTER_WRITE (R7): A write to a system register without behaviour of its own. Operands: a = isl, b = reg, w = v. -/
  | registerWrite
  /-- HACK_BROADCAST (R122): At the stop tick the hack reaches each tile and holds its contexts. Operands: a = r. -/
  | hackBroadcast
  /-- RESUME_TICK (R485): At the resume tick every tile of the region resumes. Operands: a = r. -/
  | resumeTick
  /-- RESTORE (R126): Checks and loads a tile image, returning each context to its saved state. Operands: a = t, b = img. -/
  | restore
  /-- EVACUATION (R398): The host saves a tile or whole kernel with SPM and moves it. Operands: a = r, b = t, flag = whole, w = address of the image. -/
  | evacuation
  /-- REPEATER_FILL (R176): The end of fill checks the body and starts the passes or goes idle. Operands: a = t, b = c. -/
  | repeaterFill
  /-- DISPATCH (R295): The head of the dispatch queue starts a free helper at its handler. Operands: a = t. -/
  | dispatch
  /-- MATRIX_COMMAND_START (R195): A queued matrix command starts once its path, rows and accumulator are free. Operands: a = t. -/
  | matrixCommandStart
  /-- MATRIX_COMMAND_COMPLETE (R195): A command completes after its drain, writing its record, flags and barrier arrival. Operands: a = t, b = n. -/
  | matrixCommandComplete
  /-- REMOTE_REQUEST (R219): A load, store, atomic or line request is performed at its home tile. Operands: a = t, b = id. -/
  | remoteRequest
  /-- REMOTE_REPLY (R216): The reply to a remote or edge load, atomic or fetch writes its destination. Operands: a = t, b = id. -/
  | remoteReply
  /-- ACKNOWLEDGEMENT (R288): An acknowledgement frees the retention entry of a message, store or atomic. Operands: a = t, b = id. -/
  | acknowledgement
  /-- MODULE_ACCESS (R487): An edge access is performed at its module. Operands: a = t, b = id. -/
  | moduleAccess
  /-- EDGE_PORT_ARRIVAL (R258): The boundary router refuses a request near its deadline or queues it for a slot. Operands: a = t, b = id. -/
  | edgePortArrival
  /-- EDGE_SLOT_SEND (R324): The port sends a queued request in an eligible slot. Operands: a = t, b = id. -/
  | edgeSlotSend
  /-- EDGE_REFUSAL (R258): A refused request returns, its DTLB entry is dropped and it is re-translated. Operands: a = t, b = id. -/
  | edgeRefusal
  /-- L2_TLB_LOOKUP (R255): A DTLB or ITLB miss looks up the cluster's L2 TLB. Operands: a = t, b = who. -/
  | l2TlbLookup
  /-- WALK (R259): A free walker starts a two-stage walk for an L2 TLB miss. Operands: a = t, b = who. -/
  | walk
  /-- WALKER_READ (R262): A walker read of a table entry or key tag returns and the walk proceeds. Operands: a = cl, b = n. -/
  | walkerRead
  /-- RETRY (R266): A RETRY reply reselects the faulting instruction to translate afresh. Operands: a = t, b = seq. -/
  | retryReply
  /-- FAIL (R266): A FAIL reply makes the waiting context take a precise trap with the code. Operands: a = t, b = seq, w = code. -/
  | failReply
  /-- TRANSLATION_EXPIRY (R257): A cached translation dies at its deadline. Operands: a = cl. -/
  | translationExpiry
  /-- CHRONOMETER_SET (R276): The reference sets an unset field copy, which becomes locked. Operands: a = f, b = v. -/
  | chronometerSet
  /-- CHRONOMETER_DISCIPLINE (R275): The discipliner slews, steps or holds the field's copy. Operands: a = f, i = err. -/
  | chronometerDiscipline
  /-- CLOCK_RESTORED (R276): After 1,000,000 ticks within ε the field returns to locked. Operands: a = f. -/
  | clockRestored
  /-- PORT_MESSAGE (R292): An accepted PORT message's elements join the matching input port. Operands: a = t, b = id. -/
  | portMessage
  /-- PUT_MESSAGE (R288): A PUT is written to the destination SPM and counted. Operands: a = t, b = id. -/
  | putMessage
  /-- AM_MESSAGE (R295): An accepted active message joins the dispatch queue. Operands: a = t, b = id. -/
  | amMessage
  /-- HOST_MESSAGE (R301): The island places a HOST message in the host-queue ring. Operands: a = t, b = id. -/
  | hostMessage
  /-- EVENT_MESSAGE (R407): The island writes an event entry to the event ring and interrupts. Operands: a = n. -/
  | eventMessage
  /-- TRIGGERED_SEND_INJECT (R300): A fired send, its payload read, is injected once retention entries are free. Operands: a = t. -/
  | triggeredSendInject
  /-- MESSAGE_REFUSAL (R288): A refusal makes the source keep the message and hold later ones. Operands: a = t, b = id. -/
  | messageRefusal
  /-- REFUSED_REINJECT (R288): 256 cycles after a refusal the message is injected again. Operands: a = t, b = id. -/
  | refusedReinject
  /-- LINK_REPLAY (R320): A flit failing its CRC is replayed from the port buffer. Operands: a = p, flag = the replay fails too, b = lane. -/
  | linkReplay
  /-- LANE_FAILURE (R321): A failed lane is replaced by the spare or fails the port. Operands: a = p, b = lane. -/
  | laneFailure
  /-- PORT_TRAINING (R321): Port training passes or fails. Operands: a = p, flag = passed, b = extra. -/
  | portTraining
  /-- ROLE_UNUSED (R322): PGCFG write setting the group unused, with module erasure. Operands: a = g. -/
  | roleUnused
  /-- ROLE_MEMORY (R322): PGCFG write setting the group to the memory role. Operands: a = g. -/
  | roleMemory
  /-- ROLE_LINK (R322): PGCFG write setting the group to the link role. Operands: a = g, flag = a partner is present. -/
  | roleLink
  /-- MODULE_SEATED (R322): A bay reports a seated module. Operands: a = b, b = g. -/
  | moduleSeated
  /-- MODULE_REMOVED (R458): A module removed under the memory role fails its ports. Operands: a = b. -/
  | moduleRemoved
  /-- MODULE_SCRUB_DONE (R457): The module's erasure ends and SCRUB clears. Operands: a = b. -/
  | moduleScrubDone
  /-- BAY_RELEASE (R456): A write of RELEASE requests the bay latch. Operands: a = b, flag = v. -/
  | bayRelease
  /-- TRANSFER_START (R331): A queued transfer command starts. Operands: a = t. -/
  | transferStart
  /-- TRANSFER_READ_REQUEST (R329): A pull's read request is served at the remote tile. Operands: a = t. -/
  | transferReadRequest
  /-- TRANSFER_SEGMENT (R329): A transfer segment or unit is written at its destination. Operands: a = t. -/
  | transferSegment
  /-- TRANSFER_COMPLETE (R331): A transfer command completes and writes its record. Operands: a = t. -/
  | transferComplete
  /-- STREAM_DIGEST (R339): A receiver's digest reaches the streaming tile. Operands: a = t, b = id. -/
  | streamDigest
  /-- STREAM_GO (R337): The source's go reaches a receiver, which starts running. Operands: a = t, b = n, c = dst. -/
  | streamGo
  /-- STREAM_ABORT (R337): An abort reaches a stream end, which fails or aborts. Operands: a = t, b = n, c = dst. -/
  | streamAbort
  /-- STREAM_LINE_REPLY (R340): An edge line of the stream arrives at the source. Operands: a = t, b = n. -/
  | streamLineReply
  /-- STREAM_MESSAGE_INJECT (R340): The source multicasts a message of 24 elements. Operands: a = t, b = n. -/
  | streamMessageInject
  /-- STREAM_MESSAGE (R340): A receiver accepts a stream message into its VC4 port. Operands: a = t, b = id, c = dst. -/
  | streamMessage
  /-- BARV_MESSAGE (R353): A barv message is applied at the target barrier. Operands: a = t, b = id. -/
  | barvMessage
  /-- COLL_CONTRIBUTION (R354): A collective partial arrives at its parent's level slot. Operands: a = t, b = id. -/
  | collContribution
  /-- COLL_RESULT (R354): A collective result arrives, writes gd and completes the barrier. Operands: a = t, b = id. -/
  | collResult
  /-- VC7_ELEMENT (R364): A VC7 element becomes poppable at the east neighbour. Operands: a = t. -/
  | vc7Element
  /-- TRAIN_FORMATION_REQUEST (R371): A formation request reaches a member tile. Operands: a = t, b = d. -/
  | trainFormationRequest
  /-- TRAIN_FORMED (R371): Formation completes and members become leader or attached. Operands: a = t. -/
  | trainFormed
  /-- TRAIN_STREAM_WORD (R363): An attached follower executes a forwarded stream word at its skew. Operands: a = t. -/
  | trainStreamWord
  /-- TRAIN_MARKER (R373): A marker reaching a member in rejoin-wait reattaches it. Operands: a = t, b = n. -/
  | trainMarker
  /-- TSYNC_LINE (R374): A member raises its tsync or tgang line when its condition holds. Operands: a = t. -/
  | tsyncLine
  /-- LAUNCH_REGISTER_WRITE (R385): The host writes a launch descriptor to the region's launch register. Operands: a = r, b = base. -/
  | launchRegisterWrite
  /-- KQ_REQUEST (R392): The island queues a kq launch request and returns a status. Operands: a = t, b = id. -/
  | kqRequest
  /-- PLACEMENT (R387): The island claims a rectangle for the queue head and starts loading. Operands: a = r. -/
  | placement
  /-- LOADING_DONE (R388): Loading ends and T_go is fixed or the kernel retires late. Operands: a = r, b = k. -/
  | loadingDone
  /-- TIMED_START (R389): At T_go every tile of the kernel resets its objects and starts context 0. Operands: a = r, b = k. -/
  | timedStart
  /-- KERNEL_KILL (R384): The host kills a kernel, which retires. Operands: a = r, b = k, flag = lost. -/
  | kernelKill
  /-- PREPARE (R399): A gang PREPARE queues a timed gang kernel on a wafer. Operands: a = r, b = base, c = deadline. -/
  | gangPrepare
  /-- ACK (R399): An island reports its gang kernel ready. Operands: a = r, b = k. -/
  | gangAck
  /-- ABORT (R399): A gang ABORT retires the kernel or, after T_go, is a gang fault. Operands: a = r, b = k. -/
  | gangAbort
  /-- GANG_TIMEOUT (R399): A bwait on a GBAR barrier not ready for GTO ticks raises a gang fault. Operands: a = t, b = c. -/
  | gangTimeout
  /-- CREATE (R419): Creates a region through its creation steps. Operands: a = ring. -/
  | createRegion
  /-- REGION_CREATED (R419): The last creation step completes and the region runs. Operands: a = r. -/
  | regionCreated
  /-- DESTROY (R403): Resets a region and releases its tiles. Operands: a = ring. -/
  | destroyRegion
  /-- HACK (R404): Adds the host hack cause to a region. Operands: a = ring. -/
  | hackRegion
  /-- RESUME (R404): Removes the host hack cause. Operands: a = ring. -/
  | resumeRegion
  /-- RESET (R417): Resets a region, killing its kernels and scrubbing its tiles. Operands: a = ring. -/
  | regionReset
  /-- REGION_RESET_DONE (R417): A region reset completes and the region runs again. Operands: a = r. -/
  | regionResetDone
  /-- MOVE (R415): Moves one border on the host's command. Operands: a = ring. -/
  | moveBorder
  /-- SHARE (R403): Loads a region's shares and targets for the next period. Operands: a = ring. -/
  | shareRegion
  /-- REGULATOR_PERIOD (R413): At each period end the regulator scores regions and applies shares. Operands: none. -/
  | regulatorPeriod
  /-- BORDER_MOVE_DONE (R416): The border move's steps end and the cause is removed. Operands: a = r. -/
  | borderMoveDone
  /-- TILE_RELEASE (R418): At its release tick a tile leaves or rejoins its region. Operands: a = t. -/
  | tileRelease
  /-- ISLAND_FAILURE (R410): A failed island's regions fail over to a new home island. Operands: a = isl. -/
  | islandFailure
  /-- SEVADDR_WRITE (R408): Names an island's site-event ring and zeroes its indices. Operands: a = isl, w = v, b = len. -/
  | sevaddrWrite
  /-- INSPECTION_REQUEST (R450): The owner adds the inspection cause through the inspection register. Operands: a = r, flag = byHyp. -/
  | inspectionRequest
  /-- INSPECTION_READY (R450): Once every tile is saved an inspection-ready event is written. Operands: a = r. -/
  | inspectionReady
  /-- KEYNEW (R432): Makes and binds an XTS key for a KID. Operands: a = ring. -/
  | keynew
  /-- KEYDEL (R432): Erases a KID's key. Operands: a = ring. -/
  | keydel
  /-- RETAG (R433): Sets key tag and owner of frames, scrubbing each. Operands: a = ring; with flag the frame b of the command under way. -/
  | retag
  /-- LATELAUNCH (R426): Verifies a runtime image, remeasures and restarts the islands. Operands: a = ring. -/
  | latelaunch
  /-- ATTEST (R439): Writes a signed attestation report. Operands: a = ring. -/
  | attest
  /-- REKEY (R435): Installs a new ring key and resets the sequence. Operands: a = ring. -/
  | rekey
  /-- RESYNC (R435): Resumes a halted ring against the published challenge. Operands: a = ring. -/
  | resync
  /-- USAGERING (R443): Names the ring to which usage records are written. Operands: a = ring. -/
  | usagering
  /-- SEC_HEARTBEAT (R421): The active security core's heartbeat every 10,000 ticks. Operands: flag = arrived. -/
  | secHeartbeat
  /-- SEC_TAKEOVER (R421): The standby core takes over after three missed heartbeats or a failure report. Operands: none. -/
  | secTakeover
  /-- ENTROPY_RETRY (R428): A failed reseed is retried 200 µs later. Operands: a = ring, b = tick. -/
  | entropyRetry
  /-- METERING_REPORT (R442): A tile reports its counts to the security cores at least every 65,536 cycles. Operands: a = t. -/
  | meteringReport
  /-- USAGE_RECORD (R442): At B + 100,000 ticks the SEC builds and signs a usage record. Operands: a = r. -/
  | usageRecord
  /-- THERMAL_ALERT (R454): An alert condition moves THERM to alert. Operands: none. -/
  | thermalAlert
  /-- THERMAL_NORMAL (R454): Alert conditions clear for 60 s and THERM returns to normal. Operands: none. -/
  | thermalNormal
  /-- THERMAL_SHUTDOWN (R454): A shutdown condition hacks every region. Operands: none. -/
  | thermalShutdown
  /-- POWER_REMOVAL (R454): Wafer power is removed 2 s after shutdown. Operands: a = tick. -/
  | powerRemoval
  /-- POSTED_FAULT_MESSAGE (R264): The island accepts a posted page-fault message into the stage-1 mailbox or the hypervisor fault mailbox, raises WIDX and interrupts, or refuses it when the mailbox is full. Operands: a = n. -/
  | postedFaultMessage
  /-- RING_RIDX_WRITE (R443): Software writes RIDX of a device-written ring, freeing space so that usage records the SEC holds are written and an out-of-range index stops being treated as full. Operands: a = ring, b = v. -/
  | ringRidxWrite
  /-- GANG_DEADLINE (R399): The gang deadline D passes on a wafer whose gang kernel is not ready, so that wafer never starts it and it retires with status aborted. Operands: a = r, b = k. -/
  | gangDeadline
  /-- RUNTIME_RESTART_DONE (R426): The runtime firmware restart of the islands after LATELAUNCH ends, and the islands stop refusing VC6 messages. Operands: none. -/
  | runtimeRestartDone
deriving DecidableEq, Repr

end Sys2Proof
end

