-- ==== Sys2Proof/WellFormed.lean ====
section
/-! DEFINITION. The limits that make a word of an assigned row legal (R56 to R60, R65, R70, R74, R75, R133, R156, R164 to R168, R197, R199).
Legality that depends on the context number (R60, R133) or on the pair of a modifier (R66) is decided at issue. -/
namespace Sys2Proof

/-- A g register a word may read: not an output port g60 to g63 (R58). -/
def srcReg (r : BitVec 6) : Bool := decide (r.toNat ≤ 59)

/-- A g register a word may write: not an input port g56 to g59 (R58). -/
def dstReg (r : BitVec 6) : Bool := decide (r.toNat ≤ 55 ∨ 60 ≤ r.toNat)

/-- A g register that is no port register: rd read as a source (R58), and the destinations of mrd, mpop, xpop, sclose (R197, R345). -/
def plainReg (r : BitVec 6) : Bool := decide (r.toNat ≤ 55)

/-- The register mkfull and mkempty name (R133). -/
def mkReg (rd k : BitVec 6) : Bool :=
  (k == 0#6 && decide (rd.toNat ≤ 55)) || (k == 1#6 && decide (rd.toNat ≤ 31))

/-- The system registers (R130). -/
def sysNumbers : List Nat :=
  [0x001, 0x002, 0x003, 0x004, 0x005, 0x008, 0x009, 0x00A, 0x010, 0x011, 0x012, 0x013, 0x014, 0x015,
   0x018, 0x019, 0x01A, 0x01B, 0x020, 0x021, 0x022, 0x023, 0x024, 0x025, 0x030, 0x031,
   0x101, 0x102, 0x103, 0x104, 0x105, 0x106, 0x107]

/-- A system register is assigned to the number (R70). -/
def sysAssigned (s : BitVec 12) : Bool := sysNumbers.contains s.toNat

/-- The read-only system registers (R130). -/
def sysReadOnly (s : BitVec 12) : Bool :=
  [0x002, 0x004, 0x005, 0x008, 0x009, 0x00A, 0x013, 0x030].contains s.toNat

/-- An even register number, naming a pair (R156). -/
def evenReg (v : BitVec 5) : Bool := v.toNat % 2 == 0

/-- FP64 operands are pairs (R156). -/
def pairOk (t : BitVec 2) (vs : List (BitVec 5)) : Bool := t != 1#2 || vs.all evenReg

/-- A compare names m1 to m7 (R74). -/
def maskDst (v : BitVec 5) : Bool := decide (1 ≤ v.toNat ∧ v.toNat ≤ 7)

/-- The legal combinations of vcvt (R74). -/
def cvtOk (e s : BitVec 4) (n : BitVec 1) : Bool :=
  e != s && e != 7#4 &&
  (n == 0#1 || e == 4#4 || e == 5#4 || (decide (8 ≤ e.toNat) && decide (8 ≤ s.toNat)))

/-- A 64-bit side of a vcvt is a pair (R156, R164). -/
def cvtPair (code : BitVec 4) (v : BitVec 5) : Bool :=
  !(code == 1#4 || code == 11#4 || code == 15#4) || evenReg v

/-- The codes of a reduction (R74, R166). -/
def redCode (c : BitVec 4) : Bool := decide (c.toNat ≤ 3 ∨ 8 ≤ c.toNat)

/-- The lane number of vext and vins lies below N (R165). -/
def laneOk (w : BitVec 2) (n : BitVec 5) : Bool := decide (n.toNat < 64 / 2 ^ w.toNat)

/-- The conversion selection of mstr (R199): SRCI, two reserved bits, N, D. -/
def mstrConv (k : BitVec 8) : Bool :=
  let d := k.toNat % 16
  let n := k.toNat / 16 % 2
  let rsv := k.toNat / 32 % 4
  let i := k.toNat / 128
  rsv == 0 &&
  ((i == 0 && [0, 2, 3, 4, 5, 8, 10].contains d && (n == 0 || d == 4 || d == 5)) ||
   (i == 1 && [0, 8, 9, 10].contains d && (n == 0 || d == 8 || d == 9)))

/-- The format pairs of the matrix unit (R75). -/
def matPair (x y : BitVec 4) : Bool :=
  (x == y && [0, 2, 3, 6, 8].contains x.toNat) ||
  ([4, 5].contains x.toNat && [4, 5].contains y.toNat)

/-- The limits on the fields of an instruction word. An event has none. -/
def Instr.wf : Instr → Bool
  | .add rd ra rb _ _ => dstReg rd && srcReg ra && srcReg rb
  | .sub rd ra rb _ _ => dstReg rd && srcReg ra && srcReg rb
  | .andG rd ra rb _ _ => dstReg rd && srcReg ra && srcReg rb
  | .orG rd ra rb _ _ => dstReg rd && srcReg ra && srcReg rb
  | .xorG rd ra rb _ _ => dstReg rd && srcReg ra && srcReg rb
  | .andn rd ra rb _ _ => dstReg rd && srcReg ra && srcReg rb
  | .shl rd ra rb _ _ => dstReg rd && srcReg ra && srcReg rb
  | .shr rd ra rb _ _ => dstReg rd && srcReg ra && srcReg rb
  | .sar rd ra rb _ _ => dstReg rd && srcReg ra && srcReg rb
  | .rot rd ra rb _ _ => dstReg rd && srcReg ra && srcReg rb
  | .slt rd ra rb _ _ => dstReg rd && srcReg ra && srcReg rb
  | .sltu rd ra rb _ _ => dstReg rd && srcReg ra && srcReg rb
  | .seq rd ra rb _ _ => dstReg rd && srcReg ra && srcReg rb
  | .sel rd ra rb _ _ => plainReg rd && srcReg ra && srcReg rb
  | .min rd ra rb _ _ => dstReg rd && srcReg ra && srcReg rb
  | .max rd ra rb _ _ => dstReg rd && srcReg ra && srcReg rb
  | .minu rd ra rb _ _ => dstReg rd && srcReg ra && srcReg rb
  | .maxu rd ra rb _ _ => dstReg rd && srcReg ra && srcReg rb
  | .addi rd ra _ _ => dstReg rd && srcReg ra
  | .andi rd ra _ _ => dstReg rd && srcReg ra
  | .ori rd ra _ _ => dstReg rd && srcReg ra
  | .xori rd ra _ _ => dstReg rd && srcReg ra
  | .shli rd ra _ _ => dstReg rd && srcReg ra
  | .shri rd ra _ _ => dstReg rd && srcReg ra
  | .sari rd ra _ _ => dstReg rd && srcReg ra
  | .roti rd ra _ _ => dstReg rd && srcReg ra
  | .slti rd ra _ _ => dstReg rd && srcReg ra
  | .sltiu rd ra _ _ => dstReg rd && srcReg ra
  | .lih rd _ => dstReg rd
  | .adr rd _ => dstReg rd
  | .mul rd ra rb _ _ => dstReg rd && srcReg ra && srcReg rb
  | .mulh rd ra rb _ _ => dstReg rd && srcReg ra && srcReg rb
  | .mulhu rd ra rb _ _ => dstReg rd && srcReg ra && srcReg rb
  | .div rd ra rb _ _ => dstReg rd && srcReg ra && srcReg rb
  | .divu rd ra rb _ _ => dstReg rd && srcReg ra && srcReg rb
  | .rem rd ra rb _ _ => dstReg rd && srcReg ra && srcReg rb
  | .remu rd ra rb _ _ => dstReg rd && srcReg ra && srcReg rb
  | .clz rd ra _ => dstReg rd && srcReg ra
  | .ctz rd ra _ => dstReg rd && srcReg ra
  | .popc rd ra _ => dstReg rd && srcReg ra
  | .ext rd ra rb _ _ => dstReg rd && srcReg ra && srcReg rb
  | .ins rd ra rb _ _ => plainReg rd && srcReg ra && srcReg rb
  | .bswap rd ra _ => dstReg rd && srcReg ra
  | .clmul rd ra rb _ _ => dstReg rd && srcReg ra && srcReg rb
  | .clmulh rd ra rb _ _ => dstReg rd && srcReg ra && srcReg rb
  | .j _ => true
  | .jal _ => true
  | .pbr _ _ => true
  | .br _ => true
  | .ret ra => srcReg ra
  | .bcEq ra rb _ => srcReg ra && srcReg rb
  | .bcNe ra rb _ => srcReg ra && srcReg rb
  | .bcLt ra rb _ => srcReg ra && srcReg rb
  | .bcGe ra rb _ => srcReg ra && srcReg rb
  | .bcLtu ra rb _ => srcReg ra && srcReg rb
  | .bcGeu ra rb _ => srcReg ra && srcReg rb
  | .bEq ra rb _ => srcReg ra && srcReg rb
  | .bNe ra rb _ => srcReg ra && srcReg rb
  | .bLt ra rb _ => srcReg ra && srcReg rb
  | .bGe ra rb _ => srcReg ra && srcReg rb
  | .bLtu ra rb _ => srcReg ra && srcReg rb
  | .bGeu ra rb _ => srcReg ra && srcReg rb
  | .bAl _ => true
  | .startCtx rd ra rb _ _ => dstReg rd && srcReg ra && srcReg rb
  | .endCtx => true
  | .yield => true
  | .trapN _ => true
  | .sysc _ => true
  | .mret => true
  | .rdsys rd s => sysAssigned s && dstReg rd
  | .wrsys rs s => plainReg rs && sysAssigned s && !sysReadOnly s
  | .brk _ => true
  | .mkfull rd k => mkReg rd k
  | .mkempty rd k => mkReg rd k
  | .mirr ra _ => srcReg ra
  | .rdctx rd ra _ => dstReg rd && srcReg ra
  | .lb rd ra _ _ _ => dstReg rd && srcReg ra
  | .lbu rd ra _ _ _ => dstReg rd && srcReg ra
  | .lh rd ra _ _ _ => dstReg rd && srcReg ra
  | .lhu rd ra _ _ _ => dstReg rd && srcReg ra
  | .lw rd ra _ _ _ => dstReg rd && srcReg ra
  | .lwu rd ra _ _ _ => dstReg rd && srcReg ra
  | .ld rd ra _ _ _ => dstReg rd && srcReg ra
  | .sb rs ra _ _ => plainReg rs && srcReg ra
  | .sh rs ra _ _ => plainReg rs && srcReg ra
  | .sw rs ra _ _ => plainReg rs && srcReg ra
  | .sd rs ra _ _ => plainReg rs && srcReg ra
  | .amoadd rd ra rb _ _ _ => dstReg rd && srcReg ra && srcReg rb
  | .amoand rd ra rb _ _ _ => dstReg rd && srcReg ra && srcReg rb
  | .amoor rd ra rb _ _ _ => dstReg rd && srcReg ra && srcReg rb
  | .amoxor rd ra rb _ _ _ => dstReg rd && srcReg ra && srcReg rb
  | .amomin rd ra rb _ _ _ => dstReg rd && srcReg ra && srcReg rb
  | .amomax rd ra rb _ _ _ => dstReg rd && srcReg ra && srcReg rb
  | .amominu rd ra rb _ _ _ => dstReg rd && srcReg ra && srcReg rb
  | .amomaxu rd ra rb _ _ _ => dstReg rd && srcReg ra && srcReg rb
  | .amoswap rd ra rb _ _ _ => dstReg rd && srcReg ra && srcReg rb
  | .amocas rd ra rb _ _ _ => plainReg rd && srcReg ra && srcReg rb
  | .amoaddf rd ra rb _ _ _ => dstReg rd && srcReg ra && srcReg rb
  | .fenceRel s => decide (s.toNat ≤ 4)
  | .fenceAcq s => decide (s.toNat ≤ 4)
  | .fenceFull s => decide (s.toNat ≤ 4)
  | .tprobe rd ra rb _ _ => dstReg rd && srcReg ra && srcReg rb
  | .lrenew rd ra rb _ _ => dstReg rd && srcReg ra && srcReg rb
  | .tdrop ra rb _ _ => srcReg ra && srcReg rb
  | .rdtime rd => dstReg rd
  | .rdtsr rd => dstReg rd
  | .twait ra _ => srcReg ra
  | .rdnbr rd _ => dstReg rd
  | .rdhop rd _ => dstReg rd
  | .rdmap rd ra _ => dstReg rd && srcReg ra
  | .rtwr ra rb _ _ => srcReg ra && srcReg rb
  | .rtrd rd ra _ => dstReg rd && srcReg ra
  | .send ra rb _ _ => srcReg ra && srcReg rb
  | .sendh ra rb _ _ => srcReg ra && srcReg rb
  | .sendN ra rb _ _ => srcReg ra && srcReg rb
  | .sendE ra rb _ _ => srcReg ra && srcReg rb
  | .sendS ra rb _ _ => srcReg ra && srcReg rb
  | .sendW ra rb _ _ => srcReg ra && srcReg rb
  | .qcfg ra _ _ => srcReg ra
  | .hset ra _ _ => srcReg ra
  | .hclr _ => true
  | .hseal => true
  | .hopen => true
  | .rcarm ra _ _ => srcReg ra
  | .rcrd rd _ => dstReg rd
  | .tsend _ ra rb _ _ => srcReg ra && srcReg rb
  | .tcancel rd _ => dstReg rd
  | .hmsg ra rb _ _ => srcReg ra && srcReg rb
  | .sopen ra _ _ => srcReg ra
  | .sclose rd _ => plainReg rd
  | .xcopy rc ra rb _ _ => plainReg rc && srcReg ra && srcReg rb
  | .xpop rd => plainReg rd
  | .binit rd ra _ _ => dstReg rd && srcReg ra
  | .binitF rd ra _ _ => dstReg rd && srcReg ra
  | .bexp ra _ _ => srcReg ra
  | .barv ra rb _ _ => srcReg ra && srcReg rb
  | .bwait rd _ => dstReg rd
  | .btest rd _ => dstReg rd
  | .binv _ => true
  | .coll rd ra rb _ _ => dstReg rd && srcReg ra && srcReg rb
  | .tform rd ra _ => dstReg rd && srcReg ra
  | .tjoin rd ra _ => dstReg rd && srcReg ra
  | .tleave ra _ _ => srcReg ra
  | .tmark _ => true
  | .trejoin rd _ => dstReg rd
  | .tsync rd => dstReg rd
  | .tgang => true
  | .tend => true
  | .rdskew rd => dstReg rd
  | .kq rd ra _ => dstReg rd && srcReg ra
  | .kexit ra _ => srcReg ra
  | .rpt _ _ _ => true
  | .rptR _ _ _ ra => srcReg ra
  | .rptx _ _ _ ra => srcReg ra
  | .vaddF vd va vb _ t => pairOk t [vd, va, vb]
  | .vsubF vd va vb _ t => pairOk t [vd, va, vb]
  | .vmulF vd va vb _ t => pairOk t [vd, va, vb]
  | .vminF vd va vb _ t => pairOk t [vd, va, vb]
  | .vmaxF vd va vb _ t => pairOk t [vd, va, vb]
  | .vcmpEqF vd va vb _ t => pairOk t [va, vb] && maskDst vd
  | .vcmpLtF vd va vb _ t => pairOk t [va, vb] && maskDst vd
  | .vcmpLe vd va vb _ t => pairOk t [va, vb] && maskDst vd
  | .vcmpUn vd va vb _ t => pairOk t [va, vb] && maskDst vd
  | .vfma vd va vb _ t => pairOk t [vd, va, vb]
  | .vfms vd va vb _ t => pairOk t [vd, va, vb]
  | .vfnma vd va vb _ t => pairOk t [vd, va, vb]
  | .vfnms vd va vb _ t => pairOk t [vd, va, vb]
  | .vaddI _ _ _ _ _ => true
  | .vsubI _ _ _ _ _ => true
  | .vmulI _ _ _ _ _ => true
  | .vmulh _ _ _ _ _ => true
  | .vmulhu _ _ _ _ _ => true
  | .vminI _ _ _ _ _ => true
  | .vmaxI _ _ _ _ _ => true
  | .vminu _ _ _ _ _ => true
  | .vmaxu _ _ _ _ _ => true
  | .vcmpEqI vd _ _ _ _ => maskDst vd
  | .vcmpLtI vd _ _ _ _ => maskDst vd
  | .vcmpLtu vd _ _ _ _ => maskDst vd
  | .vand _ _ _ _ _ => true
  | .vor _ _ _ _ _ => true
  | .vxor _ _ _ _ _ => true
  | .vandn _ _ _ _ _ => true
  | .vsel _ _ _ _ _ => true
  | .vshl _ _ _ _ _ => true
  | .vshr _ _ _ _ _ => true
  | .vsar _ _ _ _ _ => true
  | .vrcp vd va _ t => pairOk t [vd, va]
  | .vrsq vd va _ t => pairOk t [vd, va]
  | .vsqrt vd va _ t => pairOk t [vd, va]
  | .vexp2 vd va _ t => pairOk t [vd, va]
  | .vlog2 vd va _ t => pairOk t [vd, va]
  | .vtanh vd va _ t => pairOk t [vd, va]
  | .vcvt vd va n _ e s => cvtOk e s n && cvtPair e vd && cvtPair s va
  | .vperm _ _ _ _ _ => true
  | .vbcast _ _ _ _ => true
  | .vext _ _ n w => laneOk w n
  | .vins _ _ n w => laneOk w n
  | .vredAdd _ _ _ c => redCode c
  | .vredMax _ _ _ c => redCode c
  | .vredMin _ _ _ c => redCode c
  | .vclmul _ _ _ _ => true
  | .vld _ _ _ _ _ _ => true
  | .vst _ _ _ _ _ => true
  | .vldt vd _ _ _ => (vd == 0#5 || vd == 16#5)
  | .vgather vd _ _ _ _ _ => evenReg vd
  | .vscatter vd _ _ _ _ => evenReg vd
  | .mcfg ga gb => srcReg ga && srcReg gb
  | .munf ga gb => srcReg ga && srcReg gb
  | .mldb ga gb => srcReg ga && srcReg gb
  | .mzero _ gb => srcReg gb
  | .mstr _ ga gb k => srcReg ga && srcReg gb && mstrConv k
  | .mrd _ ga gb => plainReg ga && srcReg gb
  | .mwr _ ga gb => srcReg ga && srcReg gb
  | .mpop ga => plainReg ga
  | .msave ga gb => srcReg ga && srcReg gb
  | .mrest ga gb => srcReg ga && srcReg gb
  | .mmac _ ga gb x y => srcReg ga && srcReg gb && matPair x y
  | .mmacu _ gb x y => srcReg gb && matPair x y
  | .mmacs _ gb x y => srcReg gb && matPair x y
  | .pfx rnd _ _ _ _ _ _ _ => decide (rnd.toNat ≤ 5)
  | .powerOn => true
  | .waferReset => true
  | .tileReset => true
  | .tileHeartbeat => true
  | .tileDeath => true
  | .siteFence => true
  | .serviceRetest => true
  | .rehomeWrite => true
  | .registerWrite => true
  | .hackBroadcast => true
  | .resumeTick => true
  | .restore => true
  | .evacuation => true
  | .repeaterFill => true
  | .dispatch => true
  | .matrixCommandStart => true
  | .matrixCommandComplete => true
  | .remoteRequest => true
  | .remoteReply => true
  | .acknowledgement => true
  | .moduleAccess => true
  | .edgePortArrival => true
  | .edgeSlotSend => true
  | .edgeRefusal => true
  | .l2TlbLookup => true
  | .walk => true
  | .walkerRead => true
  | .retryReply => true
  | .failReply => true
  | .translationExpiry => true
  | .chronometerSet => true
  | .chronometerDiscipline => true
  | .clockRestored => true
  | .portMessage => true
  | .putMessage => true
  | .amMessage => true
  | .hostMessage => true
  | .eventMessage => true
  | .triggeredSendInject => true
  | .messageRefusal => true
  | .refusedReinject => true
  | .linkReplay => true
  | .laneFailure => true
  | .portTraining => true
  | .roleUnused => true
  | .roleMemory => true
  | .roleLink => true
  | .moduleSeated => true
  | .moduleRemoved => true
  | .moduleScrubDone => true
  | .bayRelease => true
  | .transferStart => true
  | .transferReadRequest => true
  | .transferSegment => true
  | .transferComplete => true
  | .streamDigest => true
  | .streamGo => true
  | .streamAbort => true
  | .streamLineReply => true
  | .streamMessageInject => true
  | .streamMessage => true
  | .barvMessage => true
  | .collContribution => true
  | .collResult => true
  | .vc7Element => true
  | .trainFormationRequest => true
  | .trainFormed => true
  | .trainStreamWord => true
  | .trainMarker => true
  | .tsyncLine => true
  | .launchRegisterWrite => true
  | .kqRequest => true
  | .placement => true
  | .loadingDone => true
  | .timedStart => true
  | .kernelKill => true
  | .gangPrepare => true
  | .gangAck => true
  | .gangAbort => true
  | .gangTimeout => true
  | .createRegion => true
  | .regionCreated => true
  | .destroyRegion => true
  | .hackRegion => true
  | .resumeRegion => true
  | .regionReset => true
  | .regionResetDone => true
  | .moveBorder => true
  | .shareRegion => true
  | .regulatorPeriod => true
  | .borderMoveDone => true
  | .tileRelease => true
  | .islandFailure => true
  | .sevaddrWrite => true
  | .inspectionRequest => true
  | .inspectionReady => true
  | .keynew => true
  | .keydel => true
  | .retag => true
  | .latelaunch => true
  | .attest => true
  | .rekey => true
  | .resync => true
  | .usagering => true
  | .secHeartbeat => true
  | .secTakeover => true
  | .entropyRetry => true
  | .meteringReport => true
  | .usageRecord => true
  | .thermalAlert => true
  | .thermalNormal => true
  | .thermalShutdown => true
  | .powerRemoval => true
  | .postedFaultMessage => true
  | .ringRidxWrite => true
  | .gangDeadline => true
  | .runtimeRestartDone => true

end Sys2Proof
end

