-- ==== Sys2Proof/Decode.lean ====
section
/-! DEFINITION. Decoding of instruction words (R52 to R76), total on every word, rejecting by name; after it the encoder.
Each word is cut at the field boundaries of its row; every fixed or reserved bit is compared (R56). -/
namespace Sys2Proof

/-- Why a word is not an instruction (R76). -/
inductive DecodeError where
  /-- the major opcode is 0x00 or unassigned (R68) -/
  | opcode (op : Nat)
  /-- no row of the opcode's group matches: selector not assigned, or a reserved field set (R56, R69 to R75) -/
  | selector (op : Nat)
  /-- the row matches and a limit of its fields is broken (R58, R66, R70, R74, R75) -/
  | limit
deriving DecidableEq, Repr

/-- Bits `lo` to `lo + n - 1` of an instruction word. -/
def cut (w : BitVec 32) (lo n : Nat) : BitVec n := w.extractLsb' lo n

/-- The rows of major opcode 0x01. -/
def decodeOp01 (w : BitVec 32) : Option Instr :=
  if cut w 0 6 == 0#6 then some (.add (cut w 20 6) (cut w 14 6) (cut w 8 6) (cut w 7 1) (cut w 6 1))
  else if cut w 0 6 == 1#6 then some (.sub (cut w 20 6) (cut w 14 6) (cut w 8 6) (cut w 7 1) (cut w 6 1))
  else if cut w 0 6 == 2#6 then some (.andG (cut w 20 6) (cut w 14 6) (cut w 8 6) (cut w 7 1) (cut w 6 1))
  else if cut w 0 6 == 3#6 then some (.orG (cut w 20 6) (cut w 14 6) (cut w 8 6) (cut w 7 1) (cut w 6 1))
  else if cut w 0 6 == 4#6 then some (.xorG (cut w 20 6) (cut w 14 6) (cut w 8 6) (cut w 7 1) (cut w 6 1))
  else if cut w 0 6 == 5#6 then some (.andn (cut w 20 6) (cut w 14 6) (cut w 8 6) (cut w 7 1) (cut w 6 1))
  else if cut w 0 6 == 6#6 then some (.shl (cut w 20 6) (cut w 14 6) (cut w 8 6) (cut w 7 1) (cut w 6 1))
  else if cut w 0 6 == 7#6 then some (.shr (cut w 20 6) (cut w 14 6) (cut w 8 6) (cut w 7 1) (cut w 6 1))
  else if cut w 0 6 == 8#6 then some (.sar (cut w 20 6) (cut w 14 6) (cut w 8 6) (cut w 7 1) (cut w 6 1))
  else if cut w 0 6 == 9#6 then some (.rot (cut w 20 6) (cut w 14 6) (cut w 8 6) (cut w 7 1) (cut w 6 1))
  else if cut w 0 6 == 10#6 then some (.slt (cut w 20 6) (cut w 14 6) (cut w 8 6) (cut w 7 1) (cut w 6 1))
  else if cut w 0 6 == 11#6 then some (.sltu (cut w 20 6) (cut w 14 6) (cut w 8 6) (cut w 7 1) (cut w 6 1))
  else if cut w 0 6 == 12#6 then some (.seq (cut w 20 6) (cut w 14 6) (cut w 8 6) (cut w 7 1) (cut w 6 1))
  else if cut w 0 6 == 13#6 then some (.sel (cut w 20 6) (cut w 14 6) (cut w 8 6) (cut w 7 1) (cut w 6 1))
  else if cut w 0 6 == 14#6 then some (.min (cut w 20 6) (cut w 14 6) (cut w 8 6) (cut w 7 1) (cut w 6 1))
  else if cut w 0 6 == 15#6 then some (.max (cut w 20 6) (cut w 14 6) (cut w 8 6) (cut w 7 1) (cut w 6 1))
  else if cut w 0 6 == 16#6 then some (.minu (cut w 20 6) (cut w 14 6) (cut w 8 6) (cut w 7 1) (cut w 6 1))
  else if cut w 0 6 == 17#6 then some (.maxu (cut w 20 6) (cut w 14 6) (cut w 8 6) (cut w 7 1) (cut w 6 1))
  else none

/-- The rows of major opcode 0x02. -/
def decodeOp02 (w : BitVec 32) : Option Instr :=
  some (.addi (cut w 20 6) (cut w 14 6) (cut w 13 1) (cut w 0 13))

/-- The rows of major opcode 0x03. -/
def decodeOp03 (w : BitVec 32) : Option Instr :=
  some (.andi (cut w 20 6) (cut w 14 6) (cut w 13 1) (cut w 0 13))

/-- The rows of major opcode 0x04. -/
def decodeOp04 (w : BitVec 32) : Option Instr :=
  some (.ori (cut w 20 6) (cut w 14 6) (cut w 13 1) (cut w 0 13))

/-- The rows of major opcode 0x05. -/
def decodeOp05 (w : BitVec 32) : Option Instr :=
  some (.xori (cut w 20 6) (cut w 14 6) (cut w 13 1) (cut w 0 13))

/-- The rows of major opcode 0x06. -/
def decodeOp06 (w : BitVec 32) : Option Instr :=
  if cut w 6 7 == 0#7 then some (.shli (cut w 20 6) (cut w 14 6) (cut w 13 1) (cut w 0 6))
  else if cut w 6 7 == 32#7 then some (.shri (cut w 20 6) (cut w 14 6) (cut w 13 1) (cut w 0 6))
  else if cut w 6 7 == 64#7 then some (.sari (cut w 20 6) (cut w 14 6) (cut w 13 1) (cut w 0 6))
  else if cut w 6 7 == 96#7 then some (.roti (cut w 20 6) (cut w 14 6) (cut w 13 1) (cut w 0 6))
  else none

/-- The rows of major opcode 0x07. -/
def decodeOp07 (w : BitVec 32) : Option Instr :=
  if cut w 12 1 == 0#1 then some (.slti (cut w 20 6) (cut w 14 6) (cut w 13 1) (cut w 0 12))
  else if cut w 12 1 == 1#1 then some (.sltiu (cut w 20 6) (cut w 14 6) (cut w 13 1) (cut w 0 12))
  else none

/-- The rows of major opcode 0x08. -/
def decodeOp08 (w : BitVec 32) : Option Instr :=
  some (.lih (cut w 20 6) (cut w 0 20))

/-- The rows of major opcode 0x09. -/
def decodeOp09 (w : BitVec 32) : Option Instr :=
  some (.adr (cut w 20 6) (cut w 0 20))

/-- The rows of major opcode 0x0A. -/
def decodeOp0A (w : BitVec 32) : Option Instr :=
  if cut w 0 6 == 0#6 then some (.mul (cut w 20 6) (cut w 14 6) (cut w 8 6) (cut w 7 1) (cut w 6 1))
  else if cut w 0 6 == 1#6 then some (.mulh (cut w 20 6) (cut w 14 6) (cut w 8 6) (cut w 7 1) (cut w 6 1))
  else if cut w 0 6 == 2#6 then some (.mulhu (cut w 20 6) (cut w 14 6) (cut w 8 6) (cut w 7 1) (cut w 6 1))
  else if cut w 0 6 == 3#6 then some (.div (cut w 20 6) (cut w 14 6) (cut w 8 6) (cut w 7 1) (cut w 6 1))
  else if cut w 0 6 == 4#6 then some (.divu (cut w 20 6) (cut w 14 6) (cut w 8 6) (cut w 7 1) (cut w 6 1))
  else if cut w 0 6 == 5#6 then some (.rem (cut w 20 6) (cut w 14 6) (cut w 8 6) (cut w 7 1) (cut w 6 1))
  else if cut w 0 6 == 6#6 then some (.remu (cut w 20 6) (cut w 14 6) (cut w 8 6) (cut w 7 1) (cut w 6 1))
  else none

/-- The rows of major opcode 0x0B. -/
def decodeOp0B (w : BitVec 32) : Option Instr :=
  if cut w 0 7 == 0#7 && cut w 8 6 == 0#6 then some (.clz (cut w 20 6) (cut w 14 6) (cut w 7 1))
  else if cut w 0 7 == 1#7 && cut w 8 6 == 0#6 then some (.ctz (cut w 20 6) (cut w 14 6) (cut w 7 1))
  else if cut w 0 7 == 2#7 && cut w 8 6 == 0#6 then some (.popc (cut w 20 6) (cut w 14 6) (cut w 7 1))
  else if cut w 0 6 == 3#6 then some (.ext (cut w 20 6) (cut w 14 6) (cut w 8 6) (cut w 7 1) (cut w 6 1))
  else if cut w 0 6 == 4#6 then some (.ins (cut w 20 6) (cut w 14 6) (cut w 8 6) (cut w 7 1) (cut w 6 1))
  else if cut w 0 7 == 5#7 && cut w 8 6 == 0#6 then some (.bswap (cut w 20 6) (cut w 14 6) (cut w 7 1))
  else if cut w 0 6 == 6#6 then some (.clmul (cut w 20 6) (cut w 14 6) (cut w 8 6) (cut w 7 1) (cut w 6 1))
  else if cut w 0 6 == 7#6 then some (.clmulh (cut w 20 6) (cut w 14 6) (cut w 8 6) (cut w 7 1) (cut w 6 1))
  else none

/-- The rows of major opcode 0x0C. -/
def decodeOp0C (w : BitVec 32) : Option Instr :=
  some (.j (cut w 0 26))

/-- The rows of major opcode 0x0D. -/
def decodeOp0D (w : BitVec 32) : Option Instr :=
  some (.jal (cut w 0 26))

/-- The rows of major opcode 0x0E. -/
def decodeOp0E (w : BitVec 32) : Option Instr :=
  if cut w 22 4 == 0#4 then some (.pbr (cut w 20 2) (cut w 0 20))
  else none

/-- The rows of major opcode 0x0F. -/
def decodeOp0F (w : BitVec 32) : Option Instr :=
  if cut w 2 24 == 14680064#24 then some (.br (cut w 0 2))
  else if cut w 0 17 == 0#17 && cut w 23 3 == 6#3 then some (.ret (cut w 17 6))
  else if cut w 2 9 == 0#9 && cut w 23 3 == 0#3 then some (.bcEq (cut w 17 6) (cut w 11 6) (cut w 0 2))
  else if cut w 2 9 == 0#9 && cut w 23 3 == 1#3 then some (.bcNe (cut w 17 6) (cut w 11 6) (cut w 0 2))
  else if cut w 2 9 == 0#9 && cut w 23 3 == 2#3 then some (.bcLt (cut w 17 6) (cut w 11 6) (cut w 0 2))
  else if cut w 2 9 == 0#9 && cut w 23 3 == 3#3 then some (.bcGe (cut w 17 6) (cut w 11 6) (cut w 0 2))
  else if cut w 2 9 == 0#9 && cut w 23 3 == 4#3 then some (.bcLtu (cut w 17 6) (cut w 11 6) (cut w 0 2))
  else if cut w 2 9 == 0#9 && cut w 23 3 == 5#3 then some (.bcGeu (cut w 17 6) (cut w 11 6) (cut w 0 2))
  else none

/-- The rows of major opcode 0x10. -/
def decodeOp10 (w : BitVec 32) : Option Instr :=
  if cut w 23 3 == 0#3 then some (.bEq (cut w 17 6) (cut w 11 6) (cut w 0 11))
  else if cut w 23 3 == 1#3 then some (.bNe (cut w 17 6) (cut w 11 6) (cut w 0 11))
  else if cut w 23 3 == 2#3 then some (.bLt (cut w 17 6) (cut w 11 6) (cut w 0 11))
  else if cut w 23 3 == 3#3 then some (.bGe (cut w 17 6) (cut w 11 6) (cut w 0 11))
  else if cut w 23 3 == 4#3 then some (.bLtu (cut w 17 6) (cut w 11 6) (cut w 0 11))
  else if cut w 23 3 == 5#3 then some (.bGeu (cut w 17 6) (cut w 11 6) (cut w 0 11))
  else if cut w 11 15 == 28672#15 then some (.bAl (cut w 0 11))
  else none

/-- The rows of major opcode 0x11. -/
def decodeOp11 (w : BitVec 32) : Option Instr :=
  if cut w 0 6 == 0#6 then some (.startCtx (cut w 20 6) (cut w 14 6) (cut w 8 6) (cut w 7 1) (cut w 6 1))
  else if cut w 0 26 == 1#26 then some .endCtx
  else if cut w 0 26 == 2#26 then some .yield
  else if cut w 0 8 == 3#8 && cut w 14 12 == 0#12 then some (.trapN (cut w 8 6))
  else if cut w 0 8 == 4#8 && cut w 14 12 == 0#12 then some (.sysc (cut w 8 6))
  else if cut w 0 26 == 5#26 then some .mret
  else if cut w 0 8 == 6#8 then some (.rdsys (cut w 20 6) (cut w 8 12))
  else if cut w 0 8 == 7#8 then some (.wrsys (cut w 20 6) (cut w 8 12))
  else if cut w 0 8 == 8#8 && cut w 14 12 == 0#12 then some (.brk (cut w 8 6))
  else if cut w 0 8 == 9#8 && cut w 14 6 == 0#6 then some (.mkfull (cut w 20 6) (cut w 8 6))
  else if cut w 0 8 == 10#8 && cut w 14 6 == 0#6 then some (.mkempty (cut w 20 6) (cut w 8 6))
  else if cut w 0 7 == 11#7 && cut w 8 6 == 0#6 && cut w 20 6 == 0#6 then some (.mirr (cut w 14 6) (cut w 7 1))
  else if cut w 0 7 == 12#7 && cut w 8 6 == 0#6 then some (.rdctx (cut w 20 6) (cut w 14 6) (cut w 7 1))
  else none

/-- The rows of major opcode 0x12. -/
def decodeOp12 (w : BitVec 32) : Option Instr :=
  if cut w 10 3 == 0#3 then some (.lb (cut w 20 6) (cut w 14 6) (cut w 13 1) (cut w 9 1) (cut w 0 9))
  else if cut w 10 3 == 1#3 then some (.lbu (cut w 20 6) (cut w 14 6) (cut w 13 1) (cut w 9 1) (cut w 0 9))
  else if cut w 10 3 == 2#3 then some (.lh (cut w 20 6) (cut w 14 6) (cut w 13 1) (cut w 9 1) (cut w 0 9))
  else if cut w 10 3 == 3#3 then some (.lhu (cut w 20 6) (cut w 14 6) (cut w 13 1) (cut w 9 1) (cut w 0 9))
  else if cut w 10 3 == 4#3 then some (.lw (cut w 20 6) (cut w 14 6) (cut w 13 1) (cut w 9 1) (cut w 0 9))
  else if cut w 10 3 == 5#3 then some (.lwu (cut w 20 6) (cut w 14 6) (cut w 13 1) (cut w 9 1) (cut w 0 9))
  else if cut w 10 3 == 6#3 then some (.ld (cut w 20 6) (cut w 14 6) (cut w 13 1) (cut w 9 1) (cut w 0 9))
  else none

/-- The rows of major opcode 0x13. -/
def decodeOp13 (w : BitVec 32) : Option Instr :=
  if cut w 11 2 == 0#2 then some (.sb (cut w 20 6) (cut w 14 6) (cut w 13 1) (cut w 0 11))
  else if cut w 11 2 == 1#2 then some (.sh (cut w 20 6) (cut w 14 6) (cut w 13 1) (cut w 0 11))
  else if cut w 11 2 == 2#2 then some (.sw (cut w 20 6) (cut w 14 6) (cut w 13 1) (cut w 0 11))
  else if cut w 11 2 == 3#2 then some (.sd (cut w 20 6) (cut w 14 6) (cut w 13 1) (cut w 0 11))
  else none

/-- The rows of major opcode 0x14. -/
def decodeOp14 (w : BitVec 32) : Option Instr :=
  if cut w 0 5 == 0#5 then some (.amoadd (cut w 20 6) (cut w 14 6) (cut w 8 6) (cut w 7 1) (cut w 6 1) (cut w 5 1))
  else if cut w 0 5 == 1#5 then some (.amoand (cut w 20 6) (cut w 14 6) (cut w 8 6) (cut w 7 1) (cut w 6 1) (cut w 5 1))
  else if cut w 0 5 == 2#5 then some (.amoor (cut w 20 6) (cut w 14 6) (cut w 8 6) (cut w 7 1) (cut w 6 1) (cut w 5 1))
  else if cut w 0 5 == 3#5 then some (.amoxor (cut w 20 6) (cut w 14 6) (cut w 8 6) (cut w 7 1) (cut w 6 1) (cut w 5 1))
  else if cut w 0 5 == 4#5 then some (.amomin (cut w 20 6) (cut w 14 6) (cut w 8 6) (cut w 7 1) (cut w 6 1) (cut w 5 1))
  else if cut w 0 5 == 5#5 then some (.amomax (cut w 20 6) (cut w 14 6) (cut w 8 6) (cut w 7 1) (cut w 6 1) (cut w 5 1))
  else if cut w 0 5 == 6#5 then some (.amominu (cut w 20 6) (cut w 14 6) (cut w 8 6) (cut w 7 1) (cut w 6 1) (cut w 5 1))
  else if cut w 0 5 == 7#5 then some (.amomaxu (cut w 20 6) (cut w 14 6) (cut w 8 6) (cut w 7 1) (cut w 6 1) (cut w 5 1))
  else if cut w 0 5 == 8#5 then some (.amoswap (cut w 20 6) (cut w 14 6) (cut w 8 6) (cut w 7 1) (cut w 6 1) (cut w 5 1))
  else if cut w 0 5 == 9#5 then some (.amocas (cut w 20 6) (cut w 14 6) (cut w 8 6) (cut w 7 1) (cut w 6 1) (cut w 5 1))
  else if cut w 0 5 == 10#5 then some (.amoaddf (cut w 20 6) (cut w 14 6) (cut w 8 6) (cut w 7 1) (cut w 6 1) (cut w 5 1))
  else none

/-- The rows of major opcode 0x15. -/
def decodeOp15 (w : BitVec 32) : Option Instr :=
  if cut w 3 23 == 0#23 then some (.fenceRel (cut w 0 3))
  else if cut w 3 23 == 1#23 then some (.fenceAcq (cut w 0 3))
  else if cut w 3 23 == 2#23 then some (.fenceFull (cut w 0 3))
  else none

/-- The rows of major opcode 0x16. -/
def decodeOp16 (w : BitVec 32) : Option Instr :=
  if cut w 0 6 == 0#6 then some (.tprobe (cut w 20 6) (cut w 14 6) (cut w 8 6) (cut w 7 1) (cut w 6 1))
  else if cut w 0 6 == 1#6 then some (.lrenew (cut w 20 6) (cut w 14 6) (cut w 8 6) (cut w 7 1) (cut w 6 1))
  else if cut w 0 6 == 2#6 && cut w 20 6 == 0#6 then some (.tdrop (cut w 14 6) (cut w 8 6) (cut w 7 1) (cut w 6 1))
  else if cut w 0 20 == 3#20 then some (.rdtime (cut w 20 6))
  else if cut w 0 20 == 4#20 then some (.rdtsr (cut w 20 6))
  else if cut w 0 7 == 5#7 && cut w 8 6 == 0#6 && cut w 20 6 == 0#6 then some (.twait (cut w 14 6) (cut w 7 1))
  else none

/-- The rows of major opcode 0x17. -/
def decodeOp17 (w : BitVec 32) : Option Instr :=
  if cut w 0 8 == 0#8 && cut w 10 10 == 0#10 then some (.rdnbr (cut w 20 6) (cut w 8 2))
  else if cut w 0 8 == 1#8 && cut w 10 10 == 0#10 then some (.rdhop (cut w 20 6) (cut w 8 2))
  else if cut w 0 7 == 2#7 && cut w 8 6 == 0#6 then some (.rdmap (cut w 20 6) (cut w 14 6) (cut w 7 1))
  else if cut w 0 6 == 3#6 && cut w 20 6 == 0#6 then some (.rtwr (cut w 14 6) (cut w 8 6) (cut w 7 1) (cut w 6 1))
  else if cut w 0 7 == 4#7 && cut w 8 6 == 0#6 then some (.rtrd (cut w 20 6) (cut w 14 6) (cut w 7 1))
  else none

/-- The rows of major opcode 0x18. -/
def decodeOp18 (w : BitVec 32) : Option Instr :=
  if cut w 0 6 == 0#6 && cut w 20 6 == 0#6 then some (.send (cut w 14 6) (cut w 8 6) (cut w 7 1) (cut w 6 1))
  else if cut w 0 6 == 1#6 && cut w 20 6 == 0#6 then some (.sendh (cut w 14 6) (cut w 8 6) (cut w 7 1) (cut w 6 1))
  else if cut w 0 6 == 2#6 && cut w 20 6 == 0#6 then some (.sendN (cut w 14 6) (cut w 8 6) (cut w 7 1) (cut w 6 1))
  else if cut w 0 6 == 3#6 && cut w 20 6 == 0#6 then some (.sendE (cut w 14 6) (cut w 8 6) (cut w 7 1) (cut w 6 1))
  else if cut w 0 6 == 4#6 && cut w 20 6 == 0#6 then some (.sendS (cut w 14 6) (cut w 8 6) (cut w 7 1) (cut w 6 1))
  else if cut w 0 6 == 5#6 && cut w 20 6 == 0#6 then some (.sendW (cut w 14 6) (cut w 8 6) (cut w 7 1) (cut w 6 1))
  else none

/-- The rows of major opcode 0x19. -/
def decodeOp19 (w : BitVec 32) : Option Instr :=
  if cut w 0 7 == 0#7 && cut w 11 3 == 0#3 && cut w 20 6 == 0#6 then some (.qcfg (cut w 14 6) (cut w 8 3) (cut w 7 1))
  else if cut w 0 7 == 1#7 && cut w 20 6 == 0#6 then some (.hset (cut w 14 6) (cut w 8 6) (cut w 7 1))
  else if cut w 0 8 == 2#8 && cut w 14 12 == 0#12 then some (.hclr (cut w 8 6))
  else if cut w 0 26 == 3#26 then some .hseal
  else if cut w 0 26 == 4#26 then some .hopen
  else if cut w 0 7 == 5#7 && cut w 12 2 == 0#2 && cut w 20 6 == 0#6 then some (.rcarm (cut w 14 6) (cut w 8 4) (cut w 7 1))
  else if cut w 0 8 == 6#8 && cut w 12 8 == 0#8 then some (.rcrd (cut w 20 6) (cut w 8 4))
  else if cut w 0 6 == 7#6 && cut w 24 2 == 0#2 then some (.tsend (cut w 20 4) (cut w 14 6) (cut w 8 6) (cut w 7 1) (cut w 6 1))
  else if cut w 0 8 == 8#8 && cut w 12 8 == 0#8 then some (.tcancel (cut w 20 6) (cut w 8 4))
  else if cut w 0 6 == 9#6 && cut w 20 6 == 0#6 then some (.hmsg (cut w 14 6) (cut w 8 6) (cut w 7 1) (cut w 6 1))
  else none

/-- The rows of major opcode 0x1A. -/
def decodeOp1A (w : BitVec 32) : Option Instr :=
  if cut w 0 7 == 0#7 && cut w 10 4 == 0#4 && cut w 20 6 == 0#6 then some (.sopen (cut w 14 6) (cut w 8 2) (cut w 7 1))
  else if cut w 0 8 == 1#8 && cut w 10 10 == 0#10 then some (.sclose (cut w 20 6) (cut w 8 2))
  else if cut w 0 6 == 2#6 then some (.xcopy (cut w 20 6) (cut w 14 6) (cut w 8 6) (cut w 7 1) (cut w 6 1))
  else if cut w 0 20 == 3#20 then some (.xpop (cut w 20 6))
  else none

/-- The rows of major opcode 0x1B. -/
def decodeOp1B (w : BitVec 32) : Option Instr :=
  if cut w 0 7 == 0#7 then some (.binit (cut w 20 6) (cut w 14 6) (cut w 8 6) (cut w 7 1))
  else if cut w 0 7 == 1#7 then some (.binitF (cut w 20 6) (cut w 14 6) (cut w 8 6) (cut w 7 1))
  else if cut w 0 7 == 2#7 && cut w 20 6 == 0#6 then some (.bexp (cut w 14 6) (cut w 8 6) (cut w 7 1))
  else if cut w 0 6 == 3#6 && cut w 20 6 == 0#6 then some (.barv (cut w 14 6) (cut w 8 6) (cut w 7 1) (cut w 6 1))
  else if cut w 0 8 == 4#8 && cut w 14 6 == 0#6 then some (.bwait (cut w 20 6) (cut w 8 6))
  else if cut w 0 8 == 5#8 && cut w 14 6 == 0#6 then some (.btest (cut w 20 6) (cut w 8 6))
  else if cut w 0 8 == 6#8 && cut w 14 12 == 0#12 then some (.binv (cut w 8 6))
  else if cut w 0 6 == 7#6 then some (.coll (cut w 20 6) (cut w 14 6) (cut w 8 6) (cut w 7 1) (cut w 6 1))
  else none

/-- The rows of major opcode 0x1C. -/
def decodeOp1C (w : BitVec 32) : Option Instr :=
  if cut w 0 7 == 0#7 && cut w 8 6 == 0#6 then some (.tform (cut w 20 6) (cut w 14 6) (cut w 7 1))
  else if cut w 0 7 == 1#7 && cut w 8 6 == 0#6 then some (.tjoin (cut w 20 6) (cut w 14 6) (cut w 7 1))
  else if cut w 0 7 == 2#7 && cut w 10 4 == 0#4 && cut w 20 6 == 0#6 then some (.tleave (cut w 14 6) (cut w 8 2) (cut w 7 1))
  else if cut w 0 8 == 3#8 && cut w 14 12 == 0#12 then some (.tmark (cut w 8 6))
  else if cut w 0 8 == 4#8 && cut w 14 6 == 0#6 then some (.trejoin (cut w 20 6) (cut w 8 6))
  else if cut w 0 20 == 5#20 then some (.tsync (cut w 20 6))
  else if cut w 0 26 == 6#26 then some .tgang
  else if cut w 0 26 == 7#26 then some .tend
  else if cut w 0 20 == 8#20 then some (.rdskew (cut w 20 6))
  else none

/-- The rows of major opcode 0x1D. -/
def decodeOp1D (w : BitVec 32) : Option Instr :=
  if cut w 0 7 == 0#7 && cut w 8 6 == 0#6 then some (.kq (cut w 20 6) (cut w 14 6) (cut w 7 1))
  else if cut w 0 7 == 1#7 && cut w 8 6 == 0#6 && cut w 20 6 == 0#6 then some (.kexit (cut w 14 6) (cut w 7 1))
  else none

/-- The rows of major opcode 0x1E. -/
def decodeOp1E (w : BitVec 32) : Option Instr :=
  if cut w 24 2 == 0#2 then some (.rpt (cut w 20 4) (cut w 16 4) (cut w 0 16))
  else if cut w 7 9 == 0#9 && cut w 24 2 == 1#2 then some (.rptR (cut w 20 4) (cut w 16 4) (cut w 6 1) (cut w 0 6))
  else if cut w 7 9 == 0#9 && cut w 24 2 == 2#2 then some (.rptx (cut w 20 4) (cut w 16 4) (cut w 6 1) (cut w 0 6))
  else none

/-- The rows of major opcode 0x20. -/
def decodeOp20 (w : BitVec 32) : Option Instr :=
  if cut w 2 6 == 0#6 then some (.vaddF (cut w 21 5) (cut w 16 5) (cut w 11 5) (cut w 8 3) (cut w 0 2))
  else if cut w 2 6 == 1#6 then some (.vsubF (cut w 21 5) (cut w 16 5) (cut w 11 5) (cut w 8 3) (cut w 0 2))
  else if cut w 2 6 == 2#6 then some (.vmulF (cut w 21 5) (cut w 16 5) (cut w 11 5) (cut w 8 3) (cut w 0 2))
  else if cut w 2 6 == 3#6 then some (.vminF (cut w 21 5) (cut w 16 5) (cut w 11 5) (cut w 8 3) (cut w 0 2))
  else if cut w 2 6 == 4#6 then some (.vmaxF (cut w 21 5) (cut w 16 5) (cut w 11 5) (cut w 8 3) (cut w 0 2))
  else if cut w 2 6 == 5#6 then some (.vcmpEqF (cut w 21 5) (cut w 16 5) (cut w 11 5) (cut w 8 3) (cut w 0 2))
  else if cut w 2 6 == 6#6 then some (.vcmpLtF (cut w 21 5) (cut w 16 5) (cut w 11 5) (cut w 8 3) (cut w 0 2))
  else if cut w 2 6 == 7#6 then some (.vcmpLe (cut w 21 5) (cut w 16 5) (cut w 11 5) (cut w 8 3) (cut w 0 2))
  else if cut w 2 6 == 8#6 then some (.vcmpUn (cut w 21 5) (cut w 16 5) (cut w 11 5) (cut w 8 3) (cut w 0 2))
  else none

/-- The rows of major opcode 0x21. -/
def decodeOp21 (w : BitVec 32) : Option Instr :=
  if cut w 2 6 == 0#6 then some (.vfma (cut w 21 5) (cut w 16 5) (cut w 11 5) (cut w 8 3) (cut w 0 2))
  else if cut w 2 6 == 1#6 then some (.vfms (cut w 21 5) (cut w 16 5) (cut w 11 5) (cut w 8 3) (cut w 0 2))
  else if cut w 2 6 == 2#6 then some (.vfnma (cut w 21 5) (cut w 16 5) (cut w 11 5) (cut w 8 3) (cut w 0 2))
  else if cut w 2 6 == 3#6 then some (.vfnms (cut w 21 5) (cut w 16 5) (cut w 11 5) (cut w 8 3) (cut w 0 2))
  else none

/-- The rows of major opcode 0x22. -/
def decodeOp22 (w : BitVec 32) : Option Instr :=
  if cut w 2 6 == 0#6 then some (.vaddI (cut w 21 5) (cut w 16 5) (cut w 11 5) (cut w 8 3) (cut w 0 2))
  else if cut w 2 6 == 1#6 then some (.vsubI (cut w 21 5) (cut w 16 5) (cut w 11 5) (cut w 8 3) (cut w 0 2))
  else if cut w 2 6 == 2#6 then some (.vmulI (cut w 21 5) (cut w 16 5) (cut w 11 5) (cut w 8 3) (cut w 0 2))
  else if cut w 2 6 == 3#6 then some (.vmulh (cut w 21 5) (cut w 16 5) (cut w 11 5) (cut w 8 3) (cut w 0 2))
  else if cut w 2 6 == 4#6 then some (.vmulhu (cut w 21 5) (cut w 16 5) (cut w 11 5) (cut w 8 3) (cut w 0 2))
  else if cut w 2 6 == 5#6 then some (.vminI (cut w 21 5) (cut w 16 5) (cut w 11 5) (cut w 8 3) (cut w 0 2))
  else if cut w 2 6 == 6#6 then some (.vmaxI (cut w 21 5) (cut w 16 5) (cut w 11 5) (cut w 8 3) (cut w 0 2))
  else if cut w 2 6 == 7#6 then some (.vminu (cut w 21 5) (cut w 16 5) (cut w 11 5) (cut w 8 3) (cut w 0 2))
  else if cut w 2 6 == 8#6 then some (.vmaxu (cut w 21 5) (cut w 16 5) (cut w 11 5) (cut w 8 3) (cut w 0 2))
  else if cut w 2 6 == 9#6 then some (.vcmpEqI (cut w 21 5) (cut w 16 5) (cut w 11 5) (cut w 8 3) (cut w 0 2))
  else if cut w 2 6 == 10#6 then some (.vcmpLtI (cut w 21 5) (cut w 16 5) (cut w 11 5) (cut w 8 3) (cut w 0 2))
  else if cut w 2 6 == 11#6 then some (.vcmpLtu (cut w 21 5) (cut w 16 5) (cut w 11 5) (cut w 8 3) (cut w 0 2))
  else none

/-- The rows of major opcode 0x23. -/
def decodeOp23 (w : BitVec 32) : Option Instr :=
  if cut w 2 6 == 0#6 then some (.vand (cut w 21 5) (cut w 16 5) (cut w 11 5) (cut w 8 3) (cut w 0 2))
  else if cut w 2 6 == 1#6 then some (.vor (cut w 21 5) (cut w 16 5) (cut w 11 5) (cut w 8 3) (cut w 0 2))
  else if cut w 2 6 == 2#6 then some (.vxor (cut w 21 5) (cut w 16 5) (cut w 11 5) (cut w 8 3) (cut w 0 2))
  else if cut w 2 6 == 3#6 then some (.vandn (cut w 21 5) (cut w 16 5) (cut w 11 5) (cut w 8 3) (cut w 0 2))
  else if cut w 2 6 == 4#6 then some (.vsel (cut w 21 5) (cut w 16 5) (cut w 11 5) (cut w 8 3) (cut w 0 2))
  else if cut w 2 6 == 5#6 then some (.vshl (cut w 21 5) (cut w 16 5) (cut w 11 5) (cut w 8 3) (cut w 0 2))
  else if cut w 2 6 == 6#6 then some (.vshr (cut w 21 5) (cut w 16 5) (cut w 11 5) (cut w 8 3) (cut w 0 2))
  else if cut w 2 6 == 7#6 then some (.vsar (cut w 21 5) (cut w 16 5) (cut w 11 5) (cut w 8 3) (cut w 0 2))
  else none

/-- The rows of major opcode 0x24. -/
def decodeOp24 (w : BitVec 32) : Option Instr :=
  if cut w 2 6 == 0#6 && cut w 11 5 == 0#5 then some (.vrcp (cut w 21 5) (cut w 16 5) (cut w 8 3) (cut w 0 2))
  else if cut w 2 6 == 1#6 && cut w 11 5 == 0#5 then some (.vrsq (cut w 21 5) (cut w 16 5) (cut w 8 3) (cut w 0 2))
  else if cut w 2 6 == 2#6 && cut w 11 5 == 0#5 then some (.vsqrt (cut w 21 5) (cut w 16 5) (cut w 8 3) (cut w 0 2))
  else if cut w 2 6 == 3#6 && cut w 11 5 == 0#5 then some (.vexp2 (cut w 21 5) (cut w 16 5) (cut w 8 3) (cut w 0 2))
  else if cut w 2 6 == 4#6 && cut w 11 5 == 0#5 then some (.vlog2 (cut w 21 5) (cut w 16 5) (cut w 8 3) (cut w 0 2))
  else if cut w 2 6 == 5#6 && cut w 11 5 == 0#5 then some (.vtanh (cut w 21 5) (cut w 16 5) (cut w 8 3) (cut w 0 2))
  else none

/-- The rows of major opcode 0x25. -/
def decodeOp25 (w : BitVec 32) : Option Instr :=
  if cut w 12 4 == 0#4 then some (.vcvt (cut w 21 5) (cut w 16 5) (cut w 11 1) (cut w 8 3) (cut w 4 4) (cut w 0 4))
  else none

/-- The rows of major opcode 0x26. -/
def decodeOp26 (w : BitVec 32) : Option Instr :=
  if cut w 2 6 == 2#6 then some (.vperm (cut w 21 5) (cut w 16 5) (cut w 11 5) (cut w 8 3) (cut w 0 2))
  else if cut w 2 6 == 6#6 && cut w 11 5 == 0#5 then some (.vbcast (cut w 21 5) (cut w 16 5) (cut w 8 3) (cut w 0 2))
  else if cut w 2 9 == 10#9 then some (.vext (cut w 21 5) (cut w 16 5) (cut w 11 5) (cut w 0 2))
  else if cut w 2 9 == 14#9 then some (.vins (cut w 21 5) (cut w 16 5) (cut w 11 5) (cut w 0 2))
  else if cut w 4 4 == 4#4 && cut w 11 5 == 0#5 then some (.vredAdd (cut w 21 5) (cut w 16 5) (cut w 8 3) (cut w 0 4))
  else if cut w 4 4 == 5#4 && cut w 11 5 == 0#5 then some (.vredMax (cut w 21 5) (cut w 16 5) (cut w 8 3) (cut w 0 4))
  else if cut w 4 4 == 6#4 && cut w 11 5 == 0#5 then some (.vredMin (cut w 21 5) (cut w 16 5) (cut w 8 3) (cut w 0 4))
  else if cut w 0 8 == 123#8 then some (.vclmul (cut w 21 5) (cut w 16 5) (cut w 11 5) (cut w 8 3))
  else none

/-- The rows of major opcode 0x27. -/
def decodeOp27 (w : BitVec 32) : Option Instr :=
  if cut w 0 2 == 0#2 && cut w 5 3 == 0#3 then some (.vld (cut w 21 5) (cut w 16 5) (cut w 11 5) (cut w 8 3) (cut w 3 2) (cut w 2 1))
  else if cut w 0 3 == 0#3 && cut w 5 3 == 1#3 then some (.vst (cut w 21 5) (cut w 16 5) (cut w 11 5) (cut w 8 3) (cut w 3 2))
  else if cut w 0 2 == 0#2 && cut w 3 8 == 10#8 then some (.vldt (cut w 21 5) (cut w 16 5) (cut w 11 5) (cut w 2 1))
  else if cut w 0 2 == 0#2 && cut w 4 4 == 7#4 then some (.vgather (cut w 21 5) (cut w 16 5) (cut w 11 5) (cut w 8 3) (cut w 3 1) (cut w 2 1))
  else if cut w 0 3 == 0#3 && cut w 4 4 == 9#4 then some (.vscatter (cut w 21 5) (cut w 16 5) (cut w 11 5) (cut w 8 3) (cut w 3 1))
  else none

/-- The rows of major opcode 0x28. -/
def decodeOp28 (w : BitVec 32) : Option Instr :=
  if cut w 0 12 == 0#12 && cut w 24 2 == 0#2 then some (.mcfg (cut w 18 6) (cut w 12 6))
  else if cut w 0 12 == 1#12 && cut w 24 2 == 0#2 then some (.munf (cut w 18 6) (cut w 12 6))
  else if cut w 0 12 == 2#12 && cut w 24 2 == 0#2 then some (.mldb (cut w 18 6) (cut w 12 6))
  else if cut w 0 12 == 3#12 && cut w 18 6 == 0#6 then some (.mzero (cut w 24 2) (cut w 12 6))
  else if cut w 0 4 == 4#4 then some (.mstr (cut w 24 2) (cut w 18 6) (cut w 12 6) (cut w 4 8))
  else if cut w 0 12 == 5#12 then some (.mrd (cut w 24 2) (cut w 18 6) (cut w 12 6))
  else if cut w 0 12 == 6#12 then some (.mwr (cut w 24 2) (cut w 18 6) (cut w 12 6))
  else if cut w 0 18 == 7#18 && cut w 24 2 == 0#2 then some (.mpop (cut w 18 6))
  else if cut w 0 12 == 8#12 && cut w 24 2 == 0#2 then some (.msave (cut w 18 6) (cut w 12 6))
  else if cut w 0 12 == 9#12 && cut w 24 2 == 0#2 then some (.mrest (cut w 18 6) (cut w 12 6))
  else none

/-- The rows of major opcode 0x29. -/
def decodeOp29 (w : BitVec 32) : Option Instr :=
  if cut w 0 4 == 0#4 then some (.mmac (cut w 24 2) (cut w 18 6) (cut w 12 6) (cut w 8 4) (cut w 4 4))
  else none

/-- The rows of major opcode 0x2A. -/
def decodeOp2A (w : BitVec 32) : Option Instr :=
  if cut w 0 4 == 0#4 && cut w 18 6 == 0#6 then some (.mmacu (cut w 24 2) (cut w 12 6) (cut w 8 4) (cut w 4 4))
  else none

/-- The rows of major opcode 0x2B. -/
def decodeOp2B (w : BitVec 32) : Option Instr :=
  if cut w 0 4 == 0#4 && cut w 18 6 == 0#6 then some (.mmacs (cut w 24 2) (cut w 12 6) (cut w 8 4) (cut w 4 4))
  else none

/-- The rows of major opcode 0x3E. -/
def decodeOp3E (w : BitVec 32) : Option Instr :=
  if cut w 15 11 == 0#11 then some (.pfx (cut w 12 3) (cut w 6 6) (cut w 5 1) (cut w 4 1) (cut w 3 1) (cut w 2 1) (cut w 1 1) (cut w 0 1))
  else none

/-- The row a word belongs to by its opcode, selector and reserved fields. -/
def decodeRow (w : BitVec 32) : Option Instr :=
  match (cut w 26 6).toNat with
  | 0x01 => decodeOp01 w
  | 0x02 => decodeOp02 w
  | 0x03 => decodeOp03 w
  | 0x04 => decodeOp04 w
  | 0x05 => decodeOp05 w
  | 0x06 => decodeOp06 w
  | 0x07 => decodeOp07 w
  | 0x08 => decodeOp08 w
  | 0x09 => decodeOp09 w
  | 0x0A => decodeOp0A w
  | 0x0B => decodeOp0B w
  | 0x0C => decodeOp0C w
  | 0x0D => decodeOp0D w
  | 0x0E => decodeOp0E w
  | 0x0F => decodeOp0F w
  | 0x10 => decodeOp10 w
  | 0x11 => decodeOp11 w
  | 0x12 => decodeOp12 w
  | 0x13 => decodeOp13 w
  | 0x14 => decodeOp14 w
  | 0x15 => decodeOp15 w
  | 0x16 => decodeOp16 w
  | 0x17 => decodeOp17 w
  | 0x18 => decodeOp18 w
  | 0x19 => decodeOp19 w
  | 0x1A => decodeOp1A w
  | 0x1B => decodeOp1B w
  | 0x1C => decodeOp1C w
  | 0x1D => decodeOp1D w
  | 0x1E => decodeOp1E w
  | 0x20 => decodeOp20 w
  | 0x21 => decodeOp21 w
  | 0x22 => decodeOp22 w
  | 0x23 => decodeOp23 w
  | 0x24 => decodeOp24 w
  | 0x25 => decodeOp25 w
  | 0x26 => decodeOp26 w
  | 0x27 => decodeOp27 w
  | 0x28 => decodeOp28 w
  | 0x29 => decodeOp29 w
  | 0x2A => decodeOp2A w
  | 0x2B => decodeOp2B w
  | 0x3E => decodeOp3E w
  | _ => none

/-- The major opcodes that are assigned (R68). -/
def opcodeAssigned (op : Nat) : Bool :=
  decide (1 ≤ op ∧ op ≤ 0x1E) || decide (0x20 ≤ op ∧ op ≤ 0x2B) || decide (op = 0x3E)

/-- The instruction of a word, or why it is none (R76). -/
def decode (w : BitVec 32) : Except DecodeError Instr :=
  if opcodeAssigned (cut w 26 6).toNat then
    match decodeRow w with
    | none => .error (.selector (cut w 26 6).toNat)
    | some i => if i.wf then .ok i else .error .limit
  else .error (.opcode (cut w 26 6).toNat)

/-- The word of an instruction, its fields at their places; an event has no word. -/
def encode : Instr → Option (BitVec 32)
  | .add rd ra rb wa wb => some (1#6 ++ rd ++ ra ++ rb ++ wa ++ wb ++ 0#6)
  | .sub rd ra rb wa wb => some (1#6 ++ rd ++ ra ++ rb ++ wa ++ wb ++ 1#6)
  | .andG rd ra rb wa wb => some (1#6 ++ rd ++ ra ++ rb ++ wa ++ wb ++ 2#6)
  | .orG rd ra rb wa wb => some (1#6 ++ rd ++ ra ++ rb ++ wa ++ wb ++ 3#6)
  | .xorG rd ra rb wa wb => some (1#6 ++ rd ++ ra ++ rb ++ wa ++ wb ++ 4#6)
  | .andn rd ra rb wa wb => some (1#6 ++ rd ++ ra ++ rb ++ wa ++ wb ++ 5#6)
  | .shl rd ra rb wa wb => some (1#6 ++ rd ++ ra ++ rb ++ wa ++ wb ++ 6#6)
  | .shr rd ra rb wa wb => some (1#6 ++ rd ++ ra ++ rb ++ wa ++ wb ++ 7#6)
  | .sar rd ra rb wa wb => some (1#6 ++ rd ++ ra ++ rb ++ wa ++ wb ++ 8#6)
  | .rot rd ra rb wa wb => some (1#6 ++ rd ++ ra ++ rb ++ wa ++ wb ++ 9#6)
  | .slt rd ra rb wa wb => some (1#6 ++ rd ++ ra ++ rb ++ wa ++ wb ++ 10#6)
  | .sltu rd ra rb wa wb => some (1#6 ++ rd ++ ra ++ rb ++ wa ++ wb ++ 11#6)
  | .seq rd ra rb wa wb => some (1#6 ++ rd ++ ra ++ rb ++ wa ++ wb ++ 12#6)
  | .sel rd ra rb wa wb => some (1#6 ++ rd ++ ra ++ rb ++ wa ++ wb ++ 13#6)
  | .min rd ra rb wa wb => some (1#6 ++ rd ++ ra ++ rb ++ wa ++ wb ++ 14#6)
  | .max rd ra rb wa wb => some (1#6 ++ rd ++ ra ++ rb ++ wa ++ wb ++ 15#6)
  | .minu rd ra rb wa wb => some (1#6 ++ rd ++ ra ++ rb ++ wa ++ wb ++ 16#6)
  | .maxu rd ra rb wa wb => some (1#6 ++ rd ++ ra ++ rb ++ wa ++ wb ++ 17#6)
  | .addi rd ra wa imm => some (2#6 ++ rd ++ ra ++ wa ++ imm)
  | .andi rd ra wa imm => some (3#6 ++ rd ++ ra ++ wa ++ imm)
  | .ori rd ra wa imm => some (4#6 ++ rd ++ ra ++ wa ++ imm)
  | .xori rd ra wa imm => some (5#6 ++ rd ++ ra ++ wa ++ imm)
  | .shli rd ra wa n => some (6#6 ++ rd ++ ra ++ wa ++ 0#7 ++ n)
  | .shri rd ra wa n => some (6#6 ++ rd ++ ra ++ wa ++ 32#7 ++ n)
  | .sari rd ra wa n => some (6#6 ++ rd ++ ra ++ wa ++ 64#7 ++ n)
  | .roti rd ra wa n => some (6#6 ++ rd ++ ra ++ wa ++ 96#7 ++ n)
  | .slti rd ra wa k => some (7#6 ++ rd ++ ra ++ wa ++ 0#1 ++ k)
  | .sltiu rd ra wa k => some (7#6 ++ rd ++ ra ++ wa ++ 1#1 ++ k)
  | .lih rd imm => some (8#6 ++ rd ++ imm)
  | .adr rd imm => some (9#6 ++ rd ++ imm)
  | .mul rd ra rb wa wb => some (10#6 ++ rd ++ ra ++ rb ++ wa ++ wb ++ 0#6)
  | .mulh rd ra rb wa wb => some (10#6 ++ rd ++ ra ++ rb ++ wa ++ wb ++ 1#6)
  | .mulhu rd ra rb wa wb => some (10#6 ++ rd ++ ra ++ rb ++ wa ++ wb ++ 2#6)
  | .div rd ra rb wa wb => some (10#6 ++ rd ++ ra ++ rb ++ wa ++ wb ++ 3#6)
  | .divu rd ra rb wa wb => some (10#6 ++ rd ++ ra ++ rb ++ wa ++ wb ++ 4#6)
  | .rem rd ra rb wa wb => some (10#6 ++ rd ++ ra ++ rb ++ wa ++ wb ++ 5#6)
  | .remu rd ra rb wa wb => some (10#6 ++ rd ++ ra ++ rb ++ wa ++ wb ++ 6#6)
  | .clz rd ra wa => some (11#6 ++ rd ++ ra ++ 0#6 ++ wa ++ 0#7)
  | .ctz rd ra wa => some (11#6 ++ rd ++ ra ++ 0#6 ++ wa ++ 1#7)
  | .popc rd ra wa => some (11#6 ++ rd ++ ra ++ 0#6 ++ wa ++ 2#7)
  | .ext rd ra rb wa wb => some (11#6 ++ rd ++ ra ++ rb ++ wa ++ wb ++ 3#6)
  | .ins rd ra rb wa wb => some (11#6 ++ rd ++ ra ++ rb ++ wa ++ wb ++ 4#6)
  | .bswap rd ra wa => some (11#6 ++ rd ++ ra ++ 0#6 ++ wa ++ 5#7)
  | .clmul rd ra rb wa wb => some (11#6 ++ rd ++ ra ++ rb ++ wa ++ wb ++ 6#6)
  | .clmulh rd ra rb wa wb => some (11#6 ++ rd ++ ra ++ rb ++ wa ++ wb ++ 7#6)
  | .j disp => some (12#6 ++ disp)
  | .jal disp => some (13#6 ++ disp)
  | .pbr t imm => some (14#6 ++ 0#4 ++ t ++ imm)
  | .br t => some (15#6 ++ 14680064#24 ++ t)
  | .ret ra => some (15#6 ++ 6#3 ++ ra ++ 0#17)
  | .bcEq ra rb t => some (15#6 ++ 0#3 ++ ra ++ rb ++ 0#9 ++ t)
  | .bcNe ra rb t => some (15#6 ++ 1#3 ++ ra ++ rb ++ 0#9 ++ t)
  | .bcLt ra rb t => some (15#6 ++ 2#3 ++ ra ++ rb ++ 0#9 ++ t)
  | .bcGe ra rb t => some (15#6 ++ 3#3 ++ ra ++ rb ++ 0#9 ++ t)
  | .bcLtu ra rb t => some (15#6 ++ 4#3 ++ ra ++ rb ++ 0#9 ++ t)
  | .bcGeu ra rb t => some (15#6 ++ 5#3 ++ ra ++ rb ++ 0#9 ++ t)
  | .bEq ra rb disp => some (16#6 ++ 0#3 ++ ra ++ rb ++ disp)
  | .bNe ra rb disp => some (16#6 ++ 1#3 ++ ra ++ rb ++ disp)
  | .bLt ra rb disp => some (16#6 ++ 2#3 ++ ra ++ rb ++ disp)
  | .bGe ra rb disp => some (16#6 ++ 3#3 ++ ra ++ rb ++ disp)
  | .bLtu ra rb disp => some (16#6 ++ 4#3 ++ ra ++ rb ++ disp)
  | .bGeu ra rb disp => some (16#6 ++ 5#3 ++ ra ++ rb ++ disp)
  | .bAl disp => some (16#6 ++ 28672#15 ++ disp)
  | .startCtx rd ra rb wa wb => some (17#6 ++ rd ++ ra ++ rb ++ wa ++ wb ++ 0#6)
  | .endCtx => some (17#6 ++ 1#26)
  | .yield => some (17#6 ++ 2#26)
  | .trapN n => some (17#6 ++ 0#12 ++ n ++ 3#8)
  | .sysc n => some (17#6 ++ 0#12 ++ n ++ 4#8)
  | .mret => some (17#6 ++ 5#26)
  | .rdsys rd s => some (17#6 ++ rd ++ s ++ 6#8)
  | .wrsys rs s => some (17#6 ++ rs ++ s ++ 7#8)
  | .brk n => some (17#6 ++ 0#12 ++ n ++ 8#8)
  | .mkfull rd k => some (17#6 ++ rd ++ 0#6 ++ k ++ 9#8)
  | .mkempty rd k => some (17#6 ++ rd ++ 0#6 ++ k ++ 10#8)
  | .mirr ra wa => some (17#6 ++ 0#6 ++ ra ++ 0#6 ++ wa ++ 11#7)
  | .rdctx rd ra wa => some (17#6 ++ rd ++ ra ++ 0#6 ++ wa ++ 12#7)
  | .lb rd ra wa n off => some (18#6 ++ rd ++ ra ++ wa ++ 0#3 ++ n ++ off)
  | .lbu rd ra wa n off => some (18#6 ++ rd ++ ra ++ wa ++ 1#3 ++ n ++ off)
  | .lh rd ra wa n off => some (18#6 ++ rd ++ ra ++ wa ++ 2#3 ++ n ++ off)
  | .lhu rd ra wa n off => some (18#6 ++ rd ++ ra ++ wa ++ 3#3 ++ n ++ off)
  | .lw rd ra wa n off => some (18#6 ++ rd ++ ra ++ wa ++ 4#3 ++ n ++ off)
  | .lwu rd ra wa n off => some (18#6 ++ rd ++ ra ++ wa ++ 5#3 ++ n ++ off)
  | .ld rd ra wa n off => some (18#6 ++ rd ++ ra ++ wa ++ 6#3 ++ n ++ off)
  | .sb rs ra wa off => some (19#6 ++ rs ++ ra ++ wa ++ 0#2 ++ off)
  | .sh rs ra wa off => some (19#6 ++ rs ++ ra ++ wa ++ 1#2 ++ off)
  | .sw rs ra wa off => some (19#6 ++ rs ++ ra ++ wa ++ 2#2 ++ off)
  | .sd rs ra wa off => some (19#6 ++ rs ++ ra ++ wa ++ 3#2 ++ off)
  | .amoadd rd ra rb wa wb z => some (20#6 ++ rd ++ ra ++ rb ++ wa ++ wb ++ z ++ 0#5)
  | .amoand rd ra rb wa wb z => some (20#6 ++ rd ++ ra ++ rb ++ wa ++ wb ++ z ++ 1#5)
  | .amoor rd ra rb wa wb z => some (20#6 ++ rd ++ ra ++ rb ++ wa ++ wb ++ z ++ 2#5)
  | .amoxor rd ra rb wa wb z => some (20#6 ++ rd ++ ra ++ rb ++ wa ++ wb ++ z ++ 3#5)
  | .amomin rd ra rb wa wb z => some (20#6 ++ rd ++ ra ++ rb ++ wa ++ wb ++ z ++ 4#5)
  | .amomax rd ra rb wa wb z => some (20#6 ++ rd ++ ra ++ rb ++ wa ++ wb ++ z ++ 5#5)
  | .amominu rd ra rb wa wb z => some (20#6 ++ rd ++ ra ++ rb ++ wa ++ wb ++ z ++ 6#5)
  | .amomaxu rd ra rb wa wb z => some (20#6 ++ rd ++ ra ++ rb ++ wa ++ wb ++ z ++ 7#5)
  | .amoswap rd ra rb wa wb z => some (20#6 ++ rd ++ ra ++ rb ++ wa ++ wb ++ z ++ 8#5)
  | .amocas rd ra rb wa wb z => some (20#6 ++ rd ++ ra ++ rb ++ wa ++ wb ++ z ++ 9#5)
  | .amoaddf rd ra rb wa wb z => some (20#6 ++ rd ++ ra ++ rb ++ wa ++ wb ++ z ++ 10#5)
  | .fenceRel s => some (21#6 ++ 0#23 ++ s)
  | .fenceAcq s => some (21#6 ++ 1#23 ++ s)
  | .fenceFull s => some (21#6 ++ 2#23 ++ s)
  | .tprobe rd ra rb wa wb => some (22#6 ++ rd ++ ra ++ rb ++ wa ++ wb ++ 0#6)
  | .lrenew rd ra rb wa wb => some (22#6 ++ rd ++ ra ++ rb ++ wa ++ wb ++ 1#6)
  | .tdrop ra rb wa wb => some (22#6 ++ 0#6 ++ ra ++ rb ++ wa ++ wb ++ 2#6)
  | .rdtime rd => some (22#6 ++ rd ++ 3#20)
  | .rdtsr rd => some (22#6 ++ rd ++ 4#20)
  | .twait ra wa => some (22#6 ++ 0#6 ++ ra ++ 0#6 ++ wa ++ 5#7)
  | .rdnbr rd e => some (23#6 ++ rd ++ 0#10 ++ e ++ 0#8)
  | .rdhop rd e => some (23#6 ++ rd ++ 0#10 ++ e ++ 1#8)
  | .rdmap rd ra wa => some (23#6 ++ rd ++ ra ++ 0#6 ++ wa ++ 2#7)
  | .rtwr ra rb wa wb => some (23#6 ++ 0#6 ++ ra ++ rb ++ wa ++ wb ++ 3#6)
  | .rtrd rd ra wa => some (23#6 ++ rd ++ ra ++ 0#6 ++ wa ++ 4#7)
  | .send ra rb wa wb => some (24#6 ++ 0#6 ++ ra ++ rb ++ wa ++ wb ++ 0#6)
  | .sendh ra rb wa wb => some (24#6 ++ 0#6 ++ ra ++ rb ++ wa ++ wb ++ 1#6)
  | .sendN ra rb wa wb => some (24#6 ++ 0#6 ++ ra ++ rb ++ wa ++ wb ++ 2#6)
  | .sendE ra rb wa wb => some (24#6 ++ 0#6 ++ ra ++ rb ++ wa ++ wb ++ 3#6)
  | .sendS ra rb wa wb => some (24#6 ++ 0#6 ++ ra ++ rb ++ wa ++ wb ++ 4#6)
  | .sendW ra rb wa wb => some (24#6 ++ 0#6 ++ ra ++ rb ++ wa ++ wb ++ 5#6)
  | .qcfg ra n wa => some (25#6 ++ 0#6 ++ ra ++ 0#3 ++ n ++ wa ++ 0#7)
  | .hset ra n wa => some (25#6 ++ 0#6 ++ ra ++ n ++ wa ++ 1#7)
  | .hclr n => some (25#6 ++ 0#12 ++ n ++ 2#8)
  | .hseal => some (25#6 ++ 3#26)
  | .hopen => some (25#6 ++ 4#26)
  | .rcarm ra n wa => some (25#6 ++ 0#6 ++ ra ++ 0#2 ++ n ++ wa ++ 5#7)
  | .rcrd rd n => some (25#6 ++ rd ++ 0#8 ++ n ++ 6#8)
  | .tsend n ra rb wa wb => some (25#6 ++ 0#2 ++ n ++ ra ++ rb ++ wa ++ wb ++ 7#6)
  | .tcancel rd n => some (25#6 ++ rd ++ 0#8 ++ n ++ 8#8)
  | .hmsg ra rb wa wb => some (25#6 ++ 0#6 ++ ra ++ rb ++ wa ++ wb ++ 9#6)
  | .sopen ra n wa => some (26#6 ++ 0#6 ++ ra ++ 0#4 ++ n ++ wa ++ 0#7)
  | .sclose rd n => some (26#6 ++ rd ++ 0#10 ++ n ++ 1#8)
  | .xcopy rc ra rb wa wb => some (26#6 ++ rc ++ ra ++ rb ++ wa ++ wb ++ 2#6)
  | .xpop rd => some (26#6 ++ rd ++ 3#20)
  | .binit rd ra n wa => some (27#6 ++ rd ++ ra ++ n ++ wa ++ 0#7)
  | .binitF rd ra n wa => some (27#6 ++ rd ++ ra ++ n ++ wa ++ 1#7)
  | .bexp ra n wa => some (27#6 ++ 0#6 ++ ra ++ n ++ wa ++ 2#7)
  | .barv ra rb wa wb => some (27#6 ++ 0#6 ++ ra ++ rb ++ wa ++ wb ++ 3#6)
  | .bwait rd n => some (27#6 ++ rd ++ 0#6 ++ n ++ 4#8)
  | .btest rd n => some (27#6 ++ rd ++ 0#6 ++ n ++ 5#8)
  | .binv n => some (27#6 ++ 0#12 ++ n ++ 6#8)
  | .coll rd ra rb wa wb => some (27#6 ++ rd ++ ra ++ rb ++ wa ++ wb ++ 7#6)
  | .tform rd ra wa => some (28#6 ++ rd ++ ra ++ 0#6 ++ wa ++ 0#7)
  | .tjoin rd ra wa => some (28#6 ++ rd ++ ra ++ 0#6 ++ wa ++ 1#7)
  | .tleave ra t wa => some (28#6 ++ 0#6 ++ ra ++ 0#4 ++ t ++ wa ++ 2#7)
  | .tmark n => some (28#6 ++ 0#12 ++ n ++ 3#8)
  | .trejoin rd n => some (28#6 ++ rd ++ 0#6 ++ n ++ 4#8)
  | .tsync rd => some (28#6 ++ rd ++ 5#20)
  | .tgang => some (28#6 ++ 6#26)
  | .tend => some (28#6 ++ 7#26)
  | .rdskew rd => some (28#6 ++ rd ++ 8#20)
  | .kq rd ra wa => some (29#6 ++ rd ++ ra ++ 0#6 ++ wa ++ 0#7)
  | .kexit ra wa => some (29#6 ++ 0#6 ++ ra ++ 0#6 ++ wa ++ 1#7)
  | .rpt l s n => some (30#6 ++ 0#2 ++ l ++ s ++ n)
  | .rptR l s wa ra => some (30#6 ++ 1#2 ++ l ++ s ++ 0#9 ++ wa ++ ra)
  | .rptx l s wa ra => some (30#6 ++ 2#2 ++ l ++ s ++ 0#9 ++ wa ++ ra)
  | .vaddF vd va vb m t => some (32#6 ++ vd ++ va ++ vb ++ m ++ 0#6 ++ t)
  | .vsubF vd va vb m t => some (32#6 ++ vd ++ va ++ vb ++ m ++ 1#6 ++ t)
  | .vmulF vd va vb m t => some (32#6 ++ vd ++ va ++ vb ++ m ++ 2#6 ++ t)
  | .vminF vd va vb m t => some (32#6 ++ vd ++ va ++ vb ++ m ++ 3#6 ++ t)
  | .vmaxF vd va vb m t => some (32#6 ++ vd ++ va ++ vb ++ m ++ 4#6 ++ t)
  | .vcmpEqF vd va vb m t => some (32#6 ++ vd ++ va ++ vb ++ m ++ 5#6 ++ t)
  | .vcmpLtF vd va vb m t => some (32#6 ++ vd ++ va ++ vb ++ m ++ 6#6 ++ t)
  | .vcmpLe vd va vb m t => some (32#6 ++ vd ++ va ++ vb ++ m ++ 7#6 ++ t)
  | .vcmpUn vd va vb m t => some (32#6 ++ vd ++ va ++ vb ++ m ++ 8#6 ++ t)
  | .vfma vd va vb m t => some (33#6 ++ vd ++ va ++ vb ++ m ++ 0#6 ++ t)
  | .vfms vd va vb m t => some (33#6 ++ vd ++ va ++ vb ++ m ++ 1#6 ++ t)
  | .vfnma vd va vb m t => some (33#6 ++ vd ++ va ++ vb ++ m ++ 2#6 ++ t)
  | .vfnms vd va vb m t => some (33#6 ++ vd ++ va ++ vb ++ m ++ 3#6 ++ t)
  | .vaddI vd va vb m w => some (34#6 ++ vd ++ va ++ vb ++ m ++ 0#6 ++ w)
  | .vsubI vd va vb m w => some (34#6 ++ vd ++ va ++ vb ++ m ++ 1#6 ++ w)
  | .vmulI vd va vb m w => some (34#6 ++ vd ++ va ++ vb ++ m ++ 2#6 ++ w)
  | .vmulh vd va vb m w => some (34#6 ++ vd ++ va ++ vb ++ m ++ 3#6 ++ w)
  | .vmulhu vd va vb m w => some (34#6 ++ vd ++ va ++ vb ++ m ++ 4#6 ++ w)
  | .vminI vd va vb m w => some (34#6 ++ vd ++ va ++ vb ++ m ++ 5#6 ++ w)
  | .vmaxI vd va vb m w => some (34#6 ++ vd ++ va ++ vb ++ m ++ 6#6 ++ w)
  | .vminu vd va vb m w => some (34#6 ++ vd ++ va ++ vb ++ m ++ 7#6 ++ w)
  | .vmaxu vd va vb m w => some (34#6 ++ vd ++ va ++ vb ++ m ++ 8#6 ++ w)
  | .vcmpEqI vd va vb m w => some (34#6 ++ vd ++ va ++ vb ++ m ++ 9#6 ++ w)
  | .vcmpLtI vd va vb m w => some (34#6 ++ vd ++ va ++ vb ++ m ++ 10#6 ++ w)
  | .vcmpLtu vd va vb m w => some (34#6 ++ vd ++ va ++ vb ++ m ++ 11#6 ++ w)
  | .vand vd va vb m w => some (35#6 ++ vd ++ va ++ vb ++ m ++ 0#6 ++ w)
  | .vor vd va vb m w => some (35#6 ++ vd ++ va ++ vb ++ m ++ 1#6 ++ w)
  | .vxor vd va vb m w => some (35#6 ++ vd ++ va ++ vb ++ m ++ 2#6 ++ w)
  | .vandn vd va vb m w => some (35#6 ++ vd ++ va ++ vb ++ m ++ 3#6 ++ w)
  | .vsel vd va vb m w => some (35#6 ++ vd ++ va ++ vb ++ m ++ 4#6 ++ w)
  | .vshl vd va vb m w => some (35#6 ++ vd ++ va ++ vb ++ m ++ 5#6 ++ w)
  | .vshr vd va vb m w => some (35#6 ++ vd ++ va ++ vb ++ m ++ 6#6 ++ w)
  | .vsar vd va vb m w => some (35#6 ++ vd ++ va ++ vb ++ m ++ 7#6 ++ w)
  | .vrcp vd va m t => some (36#6 ++ vd ++ va ++ 0#5 ++ m ++ 0#6 ++ t)
  | .vrsq vd va m t => some (36#6 ++ vd ++ va ++ 0#5 ++ m ++ 1#6 ++ t)
  | .vsqrt vd va m t => some (36#6 ++ vd ++ va ++ 0#5 ++ m ++ 2#6 ++ t)
  | .vexp2 vd va m t => some (36#6 ++ vd ++ va ++ 0#5 ++ m ++ 3#6 ++ t)
  | .vlog2 vd va m t => some (36#6 ++ vd ++ va ++ 0#5 ++ m ++ 4#6 ++ t)
  | .vtanh vd va m t => some (36#6 ++ vd ++ va ++ 0#5 ++ m ++ 5#6 ++ t)
  | .vcvt vd va n m e s => some (37#6 ++ vd ++ va ++ 0#4 ++ n ++ m ++ e ++ s)
  | .vperm vd va vb m w => some (38#6 ++ vd ++ va ++ vb ++ m ++ 2#6 ++ w)
  | .vbcast vd va m w => some (38#6 ++ vd ++ va ++ 0#5 ++ m ++ 6#6 ++ w)
  | .vext vd va n w => some (38#6 ++ vd ++ va ++ n ++ 10#9 ++ w)
  | .vins vd va n w => some (38#6 ++ vd ++ va ++ n ++ 14#9 ++ w)
  | .vredAdd vd va m c => some (38#6 ++ vd ++ va ++ 0#5 ++ m ++ 4#4 ++ c)
  | .vredMax vd va m c => some (38#6 ++ vd ++ va ++ 0#5 ++ m ++ 5#4 ++ c)
  | .vredMin vd va m c => some (38#6 ++ vd ++ va ++ 0#5 ++ m ++ 6#4 ++ c)
  | .vclmul vd va vb m => some (38#6 ++ vd ++ va ++ vb ++ m ++ 123#8)
  | .vld vd va vb m w n => some (39#6 ++ vd ++ va ++ vb ++ m ++ 0#3 ++ w ++ n ++ 0#2)
  | .vst vd va vb m w => some (39#6 ++ vd ++ va ++ vb ++ m ++ 1#3 ++ w ++ 0#3)
  | .vldt vd va vb n => some (39#6 ++ vd ++ va ++ vb ++ 10#8 ++ n ++ 0#2)
  | .vgather vd va vb m w n => some (39#6 ++ vd ++ va ++ vb ++ m ++ 7#4 ++ w ++ n ++ 0#2)
  | .vscatter vd va vb m w => some (39#6 ++ vd ++ va ++ vb ++ m ++ 9#4 ++ w ++ 0#3)
  | .mcfg ga gb => some (40#6 ++ 0#2 ++ ga ++ gb ++ 0#12)
  | .munf ga gb => some (40#6 ++ 0#2 ++ ga ++ gb ++ 1#12)
  | .mldb ga gb => some (40#6 ++ 0#2 ++ ga ++ gb ++ 2#12)
  | .mzero acc gb => some (40#6 ++ acc ++ 0#6 ++ gb ++ 3#12)
  | .mstr acc ga gb k => some (40#6 ++ acc ++ ga ++ gb ++ k ++ 4#4)
  | .mrd acc ga gb => some (40#6 ++ acc ++ ga ++ gb ++ 5#12)
  | .mwr acc ga gb => some (40#6 ++ acc ++ ga ++ gb ++ 6#12)
  | .mpop ga => some (40#6 ++ 0#2 ++ ga ++ 7#18)
  | .msave ga gb => some (40#6 ++ 0#2 ++ ga ++ gb ++ 8#12)
  | .mrest ga gb => some (40#6 ++ 0#2 ++ ga ++ gb ++ 9#12)
  | .mmac acc ga gb x y => some (41#6 ++ acc ++ ga ++ gb ++ x ++ y ++ 0#4)
  | .mmacu acc gb x y => some (42#6 ++ acc ++ 0#6 ++ gb ++ x ++ y ++ 0#4)
  | .mmacs acc gb x y => some (43#6 ++ acc ++ 0#6 ++ gb ++ x ++ y ++ 0#4)
  | .pfx rnd scale absb absa negb nega clamp sat => some (62#6 ++ 0#11 ++ rnd ++ scale ++ absb ++ absa ++ negb ++ nega ++ clamp ++ sat)
  | .powerOn => none
  | .waferReset => none
  | .tileReset => none
  | .tileHeartbeat => none
  | .tileDeath => none
  | .siteFence => none
  | .serviceRetest => none
  | .rehomeWrite => none
  | .registerWrite => none
  | .hackBroadcast => none
  | .resumeTick => none
  | .restore => none
  | .evacuation => none
  | .repeaterFill => none
  | .dispatch => none
  | .matrixCommandStart => none
  | .matrixCommandComplete => none
  | .remoteRequest => none
  | .remoteReply => none
  | .acknowledgement => none
  | .moduleAccess => none
  | .edgePortArrival => none
  | .edgeSlotSend => none
  | .edgeRefusal => none
  | .l2TlbLookup => none
  | .walk => none
  | .walkerRead => none
  | .retryReply => none
  | .failReply => none
  | .translationExpiry => none
  | .chronometerSet => none
  | .chronometerDiscipline => none
  | .clockRestored => none
  | .portMessage => none
  | .putMessage => none
  | .amMessage => none
  | .hostMessage => none
  | .eventMessage => none
  | .triggeredSendInject => none
  | .messageRefusal => none
  | .refusedReinject => none
  | .linkReplay => none
  | .laneFailure => none
  | .portTraining => none
  | .roleUnused => none
  | .roleMemory => none
  | .roleLink => none
  | .moduleSeated => none
  | .moduleRemoved => none
  | .moduleScrubDone => none
  | .bayRelease => none
  | .transferStart => none
  | .transferReadRequest => none
  | .transferSegment => none
  | .transferComplete => none
  | .streamDigest => none
  | .streamGo => none
  | .streamAbort => none
  | .streamLineReply => none
  | .streamMessageInject => none
  | .streamMessage => none
  | .barvMessage => none
  | .collContribution => none
  | .collResult => none
  | .vc7Element => none
  | .trainFormationRequest => none
  | .trainFormed => none
  | .trainStreamWord => none
  | .trainMarker => none
  | .tsyncLine => none
  | .launchRegisterWrite => none
  | .kqRequest => none
  | .placement => none
  | .loadingDone => none
  | .timedStart => none
  | .kernelKill => none
  | .gangPrepare => none
  | .gangAck => none
  | .gangAbort => none
  | .gangTimeout => none
  | .createRegion => none
  | .regionCreated => none
  | .destroyRegion => none
  | .hackRegion => none
  | .resumeRegion => none
  | .regionReset => none
  | .regionResetDone => none
  | .moveBorder => none
  | .shareRegion => none
  | .regulatorPeriod => none
  | .borderMoveDone => none
  | .tileRelease => none
  | .islandFailure => none
  | .sevaddrWrite => none
  | .inspectionRequest => none
  | .inspectionReady => none
  | .keynew => none
  | .keydel => none
  | .retag => none
  | .latelaunch => none
  | .attest => none
  | .rekey => none
  | .resync => none
  | .usagering => none
  | .secHeartbeat => none
  | .secTakeover => none
  | .entropyRetry => none
  | .meteringReport => none
  | .usageRecord => none
  | .thermalAlert => none
  | .thermalNormal => none
  | .thermalShutdown => none
  | .powerRemoval => none
  | .postedFaultMessage => none
  | .ringRidxWrite => none
  | .gangDeadline => none
  | .runtimeRestartDone => none

/-- A word at its four bytes, lowest address first (R3, R52). -/
def wordBytes (w : BitVec 32) : List Byte := [cut w 0 8, cut w 8 8, cut w 16 8, cut w 24 8]

/-- The word that four bytes hold, lowest address first (R3). -/
def bytesWord : List Byte → Option (BitVec 32)
  | [b0, b1, b2, b3] => some (b3 ++ b2 ++ b1 ++ b0)
  | _ => none

/-- What the decoder reads from an instruction whose bits are `w`: the first 32 bits are its word (an instruction is
one word, R52; bits above are another word and are not part of it). -/
def decodeTableWord (_nbits w : Nat) : Option Instr :=
  match bytesWord (wordBytes (BitVec.ofNat 32 w)) with
  | none => none
  | some x => match decode x with
    | .ok i => some i
    | .error _ => none

end Sys2Proof
end

