-- ==== Sys2Proof/Machine/Store.lean ====
section
/-! DEFINITION. Sparse maps (FMap) and little-endian memory as plain data: read, write, and the canonical form. -/
namespace Sys2Proof.Machine

/-- The value a sparse map holds at a number: its entry, or the default. -/
def fget {α : Type} (d : α) (m : FMap α) (k : Nat) : α :=
  match m with
  | [] => d
  | (k', v) :: r => if k' = k then v else fget d r k

/-- The map without any entry for a number. -/
def ferase {α : Type} (m : FMap α) (k : Nat) : FMap α := m.filter (fun e => e.1 != k)

/-- The map with an entry put at its place in rising order. -/
def finsert {α : Type} (m : FMap α) (k : Nat) (v : α) : FMap α :=
  match m with
  | [] => [(k, v)]
  | (k', v') :: r => if k < k' then (k, v) :: (k', v') :: r else (k', v') :: finsert r k v

/-- Write one entry. Writing the default removes the entry, so equal maps are equal lists. -/
def fset {α : Type} [DecidableEq α] (d : α) (m : FMap α) (k : Nat) (v : α) : FMap α :=
  if v = d then ferase m k else finsert (ferase m k) k v

/-- Keys strictly above a bound and strictly rising, and no entry equal to the default. -/
def fwfFrom {α : Type} [DecidableEq α] (d : α) : Nat → FMap α → Bool
  | _, [] => true
  | lo, (k, v) :: r => decide (lo ≤ k) && decide (v ≠ d) && fwfFrom d (k + 1) r

/-- The canonical form of a sparse map. -/
def fwf {α : Type} [DecidableEq α] (d : α) (m : FMap α) : Bool := fwfFrom d 0 m

/-- Memory: the listed bytes; every unlisted byte reads as zero (log entry 10). -/
abbrev Memory := List Host.Cell

/-- The byte an address holds. -/
def Memory.byte (m : Memory) (a : Nat) : Byte := fget 0#8 m a

/-- Store one byte. -/
def Memory.put (m : Memory) (a : Nat) (v : Byte) : Memory := fset 0#8 m a v

/-- The canonical form of memory: addresses strictly rising and no byte listed as zero. -/
def Memory.wf (m : Memory) : Bool := fwf 0#8 m

/-- `n` bytes from an address up, little-endian (R3), as a number. -/
def Memory.readLE (m : Memory) (a : Nat) : Nat → Nat
  | 0 => 0
  | n + 1 => (m.byte a).toNat + 256 * m.readLE (a + 1) n

/-- Store the low `n` bytes of a number, little-endian (R3). -/
def Memory.writeLE (m : Memory) (a : Nat) : Nat → Nat → Memory
  | 0, _ => m
  | n + 1, v => (m.put a (BitVec.ofNat 8 v)).writeLE (a + 1) n (v / 256)

/-- Replace `n` bytes from `lo` up: byte i becomes `f i`. -/
def Memory.fill (m : Memory) (lo n : Nat) (f : Nat → Byte) : Memory :=
  m.filter (fun c => decide (c.1 < lo)) ++
    ((List.range n).filterMap (fun i => if f i = 0#8 then none else some (lo + i, f i)) ++ m.filter (fun c => decide (lo + n ≤ c.1)))

/-- The memory with `n` bytes from `lo` up zero. -/
def Memory.clear (m : Memory) (lo n : Nat) : Memory := m.filter (fun c => decide (c.1 < lo ∨ lo + n ≤ c.1))

/-- Bytes `lo` to `lo + n - 1` of a number. -/
def natBytes (v lo n : Nat) : Nat := v / 2 ^ (8 * lo) % 2 ^ (8 * n)

/-- Bits `lo` to `lo + n - 1` of a number. -/
def natBits (v lo n : Nat) : Nat := v / 2 ^ lo % 2 ^ n

/-- A field of a word as a number: `n` bits from bit `lo` up (R2). -/
def fld {k : Nat} (w : BitVec k) (lo n : Nat) : Nat := natBits w.toNat lo n

/-- One bit of a word. -/
def bit {k : Nat} (w : BitVec k) (i : Nat) : Bool := w.getLsbD i

end Sys2Proof.Machine
end

