-- ==== Sys2Proof/Machine/State.lean ====
section
/-! DEFINITION. The state of one wafer as plain data, its value at reset, and the reasons a step stops.
Where a comment says DESIGN CHOICE, PRESUMED or DEDUCED the number after it is the row of the assumption log. -/
namespace Sys2Proof.Machine

/-- Why the machine stops without a next state. -/
inductive Fault where
  /-- Raised by `step` alone, when wafer power is off (R454) and nothing from outside is pending: nothing runs until
  POWER_ON. Safe: the hardware does nothing either. -/
  | powerOff
deriving DecidableEq, Repr

/-- Why an instruction has no meaning. -/
inductive Refusal where
  /-- Raised by an arm of `exec` whose instruction is not modelled yet. Safe: nothing is claimed of it. -/
  | notModelled (mnemonic : String)
deriving DecidableEq, Repr

/-- The full/empty state of a register with what R123 and R217 attach to it. -/
inductive RegState where
  /-- full (R61) -/
  | full
  /-- empty with no producer (mkempty, R123 code 1) -/
  | empty
  /-- empty with a long-latency producer outstanding (R61, R123 code 2) -/
  | pending
  /-- empty, carrying an error mark with its code and request address (R217, R123 code 3) -/
  | marked (code : BitVec 8) (addr : Word)
deriving DecidableEq, Repr

/-- The states of a context (R102). -/
inductive CtxState where
  | free | live | faultWait | draining | held | halted
deriving DecidableEq, Repr

/-- The states of a repeater frame (R175). -/
inductive FrameState where
  | idle | fill | run | suspended
deriving DecidableEq, Repr

/-- A repeater frame (R175 to R183). -/
structure Frame where
  /-- state code (R175); reset idle -/
  state : FrameState := .idle
  /-- body start address a + 4 (R183) -/
  base : Word := 0
  /-- body length L in words (R177) -/
  len : Nat := 0
  /-- count (R178) -/
  count : Nat := 0
  /-- pass p -/
  pass : Nat := 0
  /-- word position w -/
  pos : Nat := 0
  /-- slot mask (R177) -/
  mask : BitVec 16 := 0
  /-- stride s (R177) -/
  stride : Nat := 0
  /-- the frame buffer: the body words as fetched at fill (R178) -/
  words : List (BitVec 32) := []
  /-- a reserved input port awaits removal of its element (R178, R183 PPOP) -/
  ppop : Bool := false
  /-- the reserved port p0 to p3 -/
  port : Nat := 0
  /-- the repeater instruction itself, for a fault at it (R178, R179) -/
  word : BitVec 32 := 0
deriving DecidableEq, Repr

/-- What a context waits for when a translation missed (R255 to R268). -/
inductive Xlate where
  /-- no translation pending -/
  | none
  /-- a lookup or walk is under way for this virtual address and access kind -/
  | asked (va : Nat) (kind : Nat)
deriving DecidableEq, Repr

/-- A held translation: a combined entry (R253) of ITLB, DTLB or L2 TLB (R255), or one used once (R256 code 0). -/
structure Tlb where
  /-- region number the entry is tagged with (R255) -/
  region : Nat := 0
  /-- first virtual address of the page -/
  va : Nat := 0
  /-- log2 of the page size in bytes -/
  lg : Nat := 12
  /-- physical address of the page -/
  pa : Nat := 0
  /-- combined permissions and attributes (R253) -/
  r : Bool := false
  w : Bool := false
  x : Bool := false
  m : Bool := false
  s : Bool := false
  kid : Nat := 0
  /-- the combined deadline in ticks (R256) -/
  deadline : Nat := 0
deriving DecidableEq, Repr

/-- One hardware context (R102 to R135). -/
structure Ctx where
  /-- life-cycle state (R102); free at tile reset -/
  state : CtxState := .free
  /-- the state a held context had before the hack (R103) -/
  heldFrom : CtxState := .free
  /-- MODE: monitor mode (R102) -/
  mon : Bool := false
  /-- ctxctl.PRI (R130); 0 at tile reset -/
  pri : BitVec 2 := 0
  /-- register high-water mark (R97) -/
  hwm : Nat := 0
  /-- program counter; the spec gives no reset value: DESIGN CHOICE 0 (log 11) -/
  pc : Word := 0
  /-- g0 to g55 (R57); every g is 0 at context start (R127); at tile reset DESIGN CHOICE 0 (log 11) -/
  g : FMap Word := []
  /-- full/empty state of g registers (R61): full at tile reset -/
  gs : FMap RegState := []
  /-- MG1 to MG7 (R116); DESIGN CHOICE 0 (log 11) -/
  mg : FMap Word := []
  /-- full/empty state of MG1 to MG7 (R116) -/
  mgs : FMap RegState := []
  /-- v0 to v31 (R155): zero at tile reset -/
  v : FMap VecReg := []
  /-- full/empty state of v registers (R61, R155) -/
  vs : FMap RegState := []
  /-- m1 to m7 (R155): zero at tile reset; m0 reads all ones -/
  masks : FMap (BitVec 16) := []
  /-- t0 to t3 (R110); 0 at context start; at tile reset DESIGN CHOICE 0 (log 11) -/
  t : FMap Word := []
  /-- FCSR (R44): 0 at tile reset -/
  fcsr : Word := 0
  /-- MIRR (R64): 0 at tile reset -/
  mirr : Word := 0
  /-- TEPC, TCAUSE, TVAL, TWORD, TSTAT (R117); DESIGN CHOICE 0 (log 11) -/
  tepc : Word := 0
  tcause : Word := 0
  tval : Word := 0
  tword : Word := 0
  tstat : Word := 0
  /-- MSCR0 to MSCR3 (R130); DESIGN CHOICE 0 (log 11) -/
  mscr : FMap Word := []
  /-- DBGCTL (R447), BPA0, BPA1, WPA0, WPA1 and WPCFG (R448): cleared at context start -/
  dbgctl : Word := 0
  bpa0 : Word := 0
  bpa1 : Word := 0
  wpa0 : Word := 0
  wpa1 : Word := 0
  wpcfg : Word := 0
  /-- SKIP is armed: the next instruction is the first after mret (R447) -/
  skip : Bool := false
  /-- a single-step trap is due before the next instruction (R449) -/
  stepDue : Bool := false
  /-- the repeater frame (R175): idle at tile reset -/
  frame : Frame := {}
  /-- receive stamp RSTAMP (R278): 0 at tile reset -/
  rstamp : Word := 0
  /-- the context yielded at the previous opportunity (R128) -/
  yielded : Bool := false
  /-- long-latency producers outstanding (R103, R128) -/
  owed : Nat := 0
  /-- the translation the context waits for (R264) -/
  xlate : Xlate := .none
  /-- translations its walks found but no structure may hold: used by one instruction (R256) -/
  once : List Tlb := []
  /-- sequence number of the posted fault the context waits on in fault-wait (R264, R266) -/
  faultSeq : Nat := 0
  /-- address of the access whose fault is posted (R264, R266) -/
  faultAddr : Word := 0
  /-- a fault of an access in monitor mode is posted: the context stays live (R103) and waits for the reply -/
  faulted : Bool := false
  /-- a fault to be taken precisely at the next selection (a key conflict found by its walk, R263) -/
  dueFault : Option (BitVec 8 × Word) := none
  /-- the two 64-byte lines of other tiles or of edge memory fetched last, newest first: address and bytes (R112, R213) -/
  lines : List (Word × BitVec 512) := []
  /-- a line fetch is outstanding (R112) -/
  lineAsked : Bool := false
  /-- tform has issued (R371) -/
  formed : Bool := false
  /-- the wait a fence leaves behind: bit 0 for its earlier stores and atomics, bit 1 for its earlier producers (R221) -/
  fence : BitVec 2 := 0
  /-- the result word of the walk of a tprobe or lrenew about to issue (R270) -/
  probed : Option Word := none
  /-- the tick at which a bwait was first passed over (R399) -/
  waitAt : Option Nat := none
  /-- its last receipt: the loads and atomics named before this come before what it does now (R236, R237) -/
  acquired : Nat := 0
deriving DecidableEq, Repr

/-- A context at tile reset (R103, R155, R175). -/
abbrev Ctx.reset : Ctx := {}

/-- Where the result of a request goes. -/
inductive Sink where
  /-- no result: a store or a message -/
  | none
  /-- a g register (or MG register) of a context: size in bytes, signed or not -/
  | greg (c : Nat) (r : Nat) (mon : Bool) (size : Nat) (signed : Bool)
  /-- row or element j, at an address, of a vector load in progress (R170); `inv` when its line is to be allocated (R223) -/
  | vec (serial : Nat) (j : Nat) (inv : Bool) (addr : Word)
  /-- the fetch line of a context (R112) -/
  | fetch (c : Nat) (addr : Word)
  /-- a unit of a transfer command: its name, offset and length (R329) -/
  | xfer (cmd off len : Nat)
  /-- an edge line of the stream in a slot: the address of the first element wanted (R340) -/
  | strm (slot : Nat) (addr : Word)
  /-- a .inv fill: line address, then the g register (R223) -/
  | inv (line : Word) (c : Nat) (r : Nat) (mon : Bool) (addr : Word) (size : Nat) (signed : Bool)
deriving DecidableEq, Repr

/-- What a request or message asks. -/
inductive Body where
  /-- read `size` bytes at a global address (R214; size 64 is a line) -/
  | load (addr : Word) (size : Nat)
  /-- write the low `size` bytes of a number (R214) -/
  | store (addr : Word) (size : Nat) (data : Nat)
  /-- write the bytes of a 64-byte row that a mask names (R168) -/
  | row (addr : Word) (mask : BitVec 64) (data : BitVec 512)
  /-- an atomic: width in bytes, operation fn[4:0], operand and compare value (R219) -/
  | atomic (addr : Word) (size : Nat) (op : Nat) (b : Word) (cmp : Word)
  /-- a segment pushed into another tile: offset there, length, data (R329) -/
  | seg (off len data : Nat)
  /-- a pull's read of another tile: offset there, length (R329) -/
  | xread (off len : Nat)
  /-- a queue message: its 16-byte header and payload doublewords (R284) -/
  | msg (hdr : BitVec 128) (payload : List Word)
  /-- a barv message: its target word and bytes (R353) -/
  | barv (target : Word) (bytes : Nat)
  /-- a collective contribution (up) or result (down): descriptor, value, flags, error, tree level (R354) -/
  | coll (up : Bool) (desc : Word) (value : Word) (flags : BitVec 6) (err : Bool) (level : Nat)
  /-- a kq launch request: the 64 bytes of its descriptor (R392) -/
  | kq (desc : BitVec 512)
  /-- a receiver's digest for a stream: streaming tile column and row, TAG, digest (R339) -/
  | digest (col row tag : Nat) (value : BitVec 32)
  /-- the go of a source to a receiver: streaming tile column and row, TAG, digest (R337, R339) -/
  | streamGo (col row tag : Nat) (value : BitVec 32)
  /-- an abort of a stream: streaming tile column and row, TAG, the code of a failure, or from an sclose (R337) -/
  | streamAbort (col row tag : Nat) (code : BitVec 8) (closed : Bool)
  /-- a stream message: TAG, its elements, the receivers that have yet to accept, and to acknowledge (R340) -/
  | elems (tag : Nat) (data : List Word) (toAccept toAck : List Nat)
deriving DecidableEq, Repr

/-- Where a request goes. -/
inductive Dst where
  | tile (site : Nat) | edge (pa : Nat) | island (i : Nat)
deriving DecidableEq, Repr

/-- The life of a retention entry (R287, R288, R258). -/
inductive RetState where
  /-- retained, not yet injected (R288 held messages; a store waiting for translation) -/
  | held
  /-- injected and on its way -/
  | flying
  /-- formed, but neither injected nor counted in the buffer: it waits for its release or for a free entry (R300, R353, R354) -/
  | formed
  /-- queued at its edge port for an eligible slot (R324) -/
  | atPort
  /-- refused by its destination; kept for reinjection (R288) -/
  | refused
  /-- performed at its home; the reply or acknowledgement is on its way -/
  | done
  /-- performed at another tile, which keeps the response until the resume (R122) -/
  | waits
deriving DecidableEq, Repr

/-- A retention entry (R287, R314). -/
structure Ret where
  /-- the entry's name -/
  id : Nat := 0
  /-- the context that made the request -/
  ctx : Nat := 0
  body : Body := .load 0 0
  sink : Sink := .none
  dst : Dst := .tile 0
  state : RetState := .held
  /-- the deadline of the translation it was sent under (R258) -/
  deadline : Nat := 0
  /-- KID, sealed and mirrored attributes of its translation (R253) -/
  kid : Nat := 0
  sealedFrame : Bool := false
  mirrored : Bool := false
  /-- the send stamp, once injected (R278) -/
  stamp : Word := 0
  /-- the reply: data, atomic flags, error code (0 for none) -/
  reply : Nat := 0
  flags : BitVec 6 := 0
  code : BitVec 8 := 0
  /-- failures of the seal of this message so far, and of what has come back for it (R431) -/
  sealFails : Nat := 0
  backFails : Nat := 0
  /-- SEQ of its seals: the seal counter of the site, as it stood when it was injected on a sealed route (R430) -/
  sealSeq : BitVec 64 := 0
  /-- the combined deadline of its own translation, which an edge line of the invariant cache records (R223) -/
  expiry : Nat := 0
  /-- the request waits until the stores and atomics of its context named before this are acknowledged (R237, R355) -/
  mark : Nat := 0
  /-- a posted fault of this retained request awaits its reply: its sequence number (R267) -/
  fault : Option Nat := none
  /-- its destination has refused it, and its acknowledgement has not arrived since: what follows it is held (R288) -/
  again : Bool := false
  /-- the line it brings may not be allocated: it was translated again with lease code 0 (R223) -/
  noAlloc : Bool := false
deriving DecidableEq, Repr

/-- A vector load in flight (R170, R172). -/
structure VecLoad where
  serial : Nat := 0
  ctx : Nat := 0
  /-- 0 a row into the active elements of one register, 1 a transposed row into 16 registers, 2 an element -/
  kind : Nat := 0
  /-- first destination register and how many registers become full together -/
  vd : Nat := 0
  nregs : Nat := 1
  /-- element width in bytes, and the active elements -/
  size : Nat := 4
  mask : BitVec 64 := 0
  /-- what has arrived so far, by destination register offset -/
  data : FMap VecReg := []
  /-- requests still to be answered -/
  left : Nat := 0
  /-- the first failing row or element: j, code, address (R217) -/
  bad : Option (Nat × BitVec 8 × Word) := none
deriving DecidableEq, Repr

/-- A queued item of the inbox: an accepted message or a counter's handler start (R295, R296). -/
structure QItem where
  /-- 0 an AM message, 1 a counter start, 2 a parked PORT message -/
  kind : Nat := 0
  hidx : Nat := 0
  hdr : BitVec 128 := 0
  payload : List Word := []
  /-- slots the item holds in the inbox (R288) -/
  slots : Nat := 0
  /-- the send stamp of the message, or the value of the counter (R295) -/
  stamp : Word := 0
deriving DecidableEq, Repr

/-- An element of an input port queue (R293): the value, the send stamp, the slots freed with it, the stream message
whose last element it is: source site and entry (R340). -/
structure PElem where
  val : Word := 0
  stamp : Word := 0
  slots : Nat := 0
  ack : Option (Nat × Nat) := none
  /-- it came in a message; a VC7 element carries no stamp (R278, R364) -/
  stamped : Bool := true
  /-- the stream it belongs to: site of the streaming tile and TAG (R335, R338) -/
  stream : Option (Nat × Nat) := none
deriving DecidableEq, Repr

/-- A receive counter (R298): idle with VALUE 0 at tile reset. -/
structure Counter where
  value : Nat := 0
  thr : Nat := 0
  messages : Bool := false
  hv : Bool := false
  hidx : Nat := 0
  /-- 0 idle, 1 armed, 2 reached -/
  state : Nat := 0
deriving DecidableEq, Repr

/-- An armed triggered send (R300, R303). -/
structure Trigger where
  counter : Nat := 0
  /-- order of arming -/
  order : Nat := 0
  mdw : Word := 0
  pw : Word := 0
  /-- the arming context, and the name before which its stores and atomics must be acknowledged (R236) -/
  ctx : Nat := 0
  mark : Nat := 0
deriving DecidableEq, Repr

/-- The messages, ports, handlers and counters of a tile (R284 to R308). -/
structure Queues where
  /-- PORTCFG of p0 to p7 (R291): 0 at tile reset -/
  portcfg : FMap Word := []
  /-- input port queues p0 to p3 (R293): empty at tile reset -/
  inq : FMap (List PElem) := []
  /-- gathered elements of output ports p4 to p7, oldest first (R293): 0 and a value, or the name of the load in flight
  that has reserved the place (R215) -/
  gathered : FMap (List (Nat × Word)) := []
  /-- free inbox slots of the 1,024 (R288), counted as slots used -/
  used : Nat := 0
  /-- the dispatch queue (R295) -/
  dispatchQ : List QItem := []
  /-- the unclaimed list (R296) -/
  unclaimed : List QItem := []
  /-- the handler table is sealed (R297); open at tile reset -/
  isSealed : Bool := false
  /-- handler entries h0 to h63 (R294): 0 at tile reset -/
  handlers : FMap Word := []
  /-- receive counters c0 to c15 (R298) -/
  counters : FMap Counter := []
  /-- triggered sends waiting on a counter (R298, R300): none at tile reset -/
  triggers : List Trigger := []
  /-- triggered sends armed so far: the next order of arming (R300, R308) -/
  armed : Nat := 0
  /-- triggered sends that have fired and wait for injection (R300): the first name of the messages of each, and how many they are -/
  fired : List (Nat × Nat) := []
  /-- the retention buffer, in order of injection (R287): empty at tile reset -/
  ret : List Ret := []
  /-- sources whose messages are being refused: (source site, VC) (R288) -/
  refusing : List (Nat × Nat) := []
  /-- .inv loads that wait for a line already requested (R223): each as a request of that line which is not sent -/
  lineWaits : List Ret := []
  /-- responses of this tile to requests it performed, kept from the hack to the resume: the requester's site and the entry with its
  reply (R122) -/
  responses : List (Nat × Ret) := []
  /-- vector loads in flight (R170) -/
  vloads : List VecLoad := []
  /-- tile stamp register TSR (R278): 0 at tile reset -/
  tsr : Word := 0
deriving DecidableEq, Repr

/-- A matrix FIFO entry (R189 to R191, R204). -/
structure MCmd where
  /-- name of the entry, in push order -/
  serial : Nat := 0
  word : BitVec 32 := 0
  /-- 0 queued, 1 running, 2 complete (R191) -/
  state : Nat := 0
  /-- an mpop has claimed it before its completion (R191, R200) -/
  claimed : Bool := false
  claimCtx : Nat := 0
  claimReg : Nat := 0
  claimMon : Bool := false
  /-- the name drawn at the claim: earlier releases do not wait for it (R235) -/
  claimAt : Nat := 0
  /-- its kernel has retired: no record is kept (R194) -/
  drop : Bool := false
  /-- the port it reads, from MCFG.SPORT at its start (R187) -/
  port : Nat := 0
  /-- the error it met, zero for none (R196) -/
  code : BitVec 8 := 0
  /-- pushed in monitor mode (R202) -/
  mon : Bool := false
  /-- the pushing context, and the name before which its stores and atomics must be acknowledged (R235) -/
  ctx : Nat := 0
  mark : Nat := 0
  ga : Word := 0
  gb : Word := 0
  /-- progress in k or rows (R204) -/
  progress : Nat := 0
  flags : BitVec 6 := 0
  /-- generation of its barrier in the cycle of the push (R348) -/
  gen : Nat := 0
  /-- the record once complete (R192) -/
  record : Word := 0
deriving DecidableEq, Repr

/-- The matrix unit (R185 to R205). -/
structure Matrix where
  /-- words of acc0 to acc3, at 1,024 times the accumulator plus 32 times the row plus the column (R57): zero at reset (R194) -/
  acc : FMap (BitVec 32) := []
  /-- ASTAT of acc0 to acc3 (R193) -/
  astat : FMap (BitVec 6) := []
  /-- the B buffer by byte (R185) -/
  bbuf : FMap Byte := []
  /-- the scale store by byte (R185) -/
  scales : FMap Byte := []
  /-- MCFG (R187) -/
  mcfg : Word := 0
  /-- the descriptor of the unfolding unit as loaded, and whether it is valid (R188, R194) -/
  desc : BitVec 256 := 0
  descValid : Bool := false
  /-- unit state: 0 empty, 1 active, 2 error-hold, 3 held (R194), and the state kept while held -/
  state : Nat := 0
  kept : Nat := 0
  /-- the command FIFO, oldest first (R189) -/
  fifo : List MCmd := []
  /-- commands pushed so far -/
  serial : Nat := 0
  /-- current A scales of a running mmacs of MXFP4 (R204) -/
  ascale : BitVec 256 := 0
  /-- words, bytes or rows that hold an uncorrectable error: true for the unit's arrays (R196) -/
  bad : FMap Bool := []
deriving DecidableEq, Repr

/-- A transfer command (R327 to R334). -/
structure XCmd where
  gc : Word := 0
  gd : Word := 0
  gs : Word := 0
  ctx : Nat := 0
  /-- 0 queued, 1 running, 2 complete, 3 claimed (R343) -/
  state : Nat := 0
  claimCtx : Nat := 0
  claimReg : Nat := 0
  claimMon : Bool := false
  claimed : Bool := false
  /-- the name drawn at the claim: earlier releases do not wait for it (R235) -/
  claimAt : Nat := 0
  /-- the command's name -/
  id : Nat := 0
  /-- offset of the first byte not yet sent, in a local copy not yet written (R334) -/
  progress : Nat := 0
  /-- bytes written or acknowledged so far (R343) -/
  acked : Nat := 0
  gen : Nat := 0
  record : Word := 0
  /-- the combined entry held for the edge end (R268) -/
  xl : Option Tlb := none
  /-- a posted fault of this command awaits its reply: its sequence number (R268) -/
  fault : Option Nat := none
  /-- the name before which the pushing context's stores and atomics must be acknowledged (R235, R329) -/
  mark : Nat := 0
  /-- the code of the error it met, zero for none, and the offset of its unit (R333) -/
  code : BitVec 8 := 0
  errAt : Nat := 0
  /-- its kernel has retired: no record is kept (R395) -/
  drop : Bool := false
  /-- 0 no walk is asked for, 1 asked, 2 the entry is fresh for the next request (R268) -/
  walk : Nat := 0
deriving DecidableEq, Repr

/-- A stream end (R335 to R343). -/
structure StreamEnd where
  /-- 0 free, 1 opening, 2 running, 3 finished, 4 failed, 5 aborted (R337) -/
  state : Nat := 0
  /-- the copied SPB (R335) -/
  spb : BitVec 512 := 0
  /-- own digest (R336) -/
  digest : BitVec 32 := 0
  /-- next element to gather (R340) -/
  next : Nat := 0
  /-- elements sent (source) or accepted (receiver) (R338) -/
  count : Nat := 0
  /-- receivers whose digests have matched (R339) -/
  matched : List Nat := []
  /-- gathered elements not yet injected (R340) -/
  gathered : List Word := []
  code : BitVec 8 := 0
  /-- inbox slots the receiver reserved (R338) -/
  slots : Nat := 0
  xl : Option Tlb := none
  fault : Option Nat := none
  /-- the opening context, and the name before which its stores and atomics must be acknowledged (R235) -/
  ctx : Nat := 0
  mark : Nat := 0
  /-- an edge line is requested: the name of the request (R340) -/
  asked : Option Nat := none
  /-- 0 no walk is asked for, 1 asked, 2 the entry is fresh for the next request (R268) -/
  walk : Nat := 0
  /-- elements injected so far (R340) -/
  injected : Nat := 0
deriving DecidableEq, Repr

/-- A barrier entry (R346). -/
structure Barrier where
  cfl : BitVec 6 := 0
  stray : Bool := false
  ovf : Bool := false
  err : Bool := false
  /-- 0 idle, 1 armed, 2 complete, 3 collecting -/
  state : Nat := 0
  gen : Nat := 0
  arr : Nat := 0
  pend : Nat := 0
deriving DecidableEq, Repr

/-- The collective a tile has outstanding (R354, R356). -/
structure Coll where
  active : Bool := false
  desc : Word := 0
  partialV : Word := 0
  flags : BitVec 6 := 0
  err : Bool := false
  pos : Nat := 0
  level : Nat := 0
  ctx : Nat := 0
  rd : Nat := 0
  mon : Bool := false
  /-- name of the reserved place when the destination is a port, and of its release (R237) -/
  id : Nat := 0
  mark : Nat := 0
deriving DecidableEq, Repr

/-- A level slot of a collective (R354): a contribution that has arrived. -/
structure LevelSlot where
  full : Bool := false
  desc : Word := 0
  value : Word := 0
  flags : BitVec 6 := 0
  err : Bool := false
deriving DecidableEq, Repr

/-- The train state of a tile (R366 to R380). -/
structure Train where
  /-- 0 none, 1 forming, 2 leader, 3 attached, 4 detached, 5 rejoin-wait (R366) -/
  state : Nat := 0
  id : Nat := 0
  c0 : Nat := 0
  n : Nat := 0
  d : Nat := 0
  /-- awaited marker id (R373) -/
  marker : Nat := 0
  /-- stream address of the next stream instruction (R379) -/
  nextAddr : Word := 0
  /-- VDROP (R364) -/
  vdrop : Nat := 0
  /-- stream instructions issued (leader), or taken from the lane (R361) -/
  step : Nat := 0
  /-- VC7 elements on the wire towards this tile, and counted in its queue (R364); of one that the member to the west has pushed, the number
  of the stream instruction at which its result becomes visible -/
  wire : List (Word × Option Nat) := []
  /-- words forwarded by the leader and not yet executed: address, word, second word (R361) -/
  lane : List (Word × BitVec 32 × BitVec 32) := []
  /-- copies of the leader's frames, one for each repeater instruction on the lane (R184) -/
  frames : List Frame := []
  /-- a formation request that has reached the tile: id, leader column, n (R371) -/
  request : Option (Nat × Nat × Nat) := none
  /-- the destination of the waiting tform, tjoin or trejoin -/
  rd : Nat := 0
  /-- a tjoin has issued (R371) -/
  joined : Bool := false
  /-- at the leader: 0 no wait, 1 a tsync, 2 a tgang is waited for (R374, R375) -/
  syncWait : Nat := 0
  /-- the member's line is to be raised (1 tsync, 2 tgang), and has been raised, or the wait has passed a member that is not attached -/
  lineDue : Nat := 0
  raised : Bool := false
  /-- destination of the tsync -/
  syncRd : Nat := 0
deriving DecidableEq, Repr

/-- A line of the invariant cache (R222, R223). -/
structure InvLine where
  addr : Word := 0
  data : BitVec 512 := 0
  /-- the edge expiry (R223); none for a remote line -/
  expiry : Option Nat := none
  /-- it holds a parity error, which its next use finds (R223) -/
  parity : Bool := false
deriving DecidableEq, Repr

/-- One tile (R12, R86 to R101). Keyed by its physical site (R430). -/
structure Tile where
  /-- the region it is assigned to (0 for none), and its region-relative column and row -/
  region : Nat := 0
  col : Nat := 0
  row : Nat := 0
  /-- the kernel that holds it (0 for none: idle, R384), and whether it has exited (R393) -/
  kernel : Nat := 0
  exited : Bool := false
  exitValue : Word := 0
  /-- contexts 0 to 11 (R102) -/
  ctxs : FMap Ctx := []
  /-- words of the own slice that the last instruction has stored to, by offset, as they stood before, none with an uncorrectable error: the
  fetch for the next cycle has gone before the store (R211, R213) -/
  stale : List (Nat × Option (BitVec 32)) := []
  /-- TOK and RR (R105): 0 at tile reset -/
  tok : Nat := 0
  rr : Nat := 0
  /-- the tile is held by a hack (R122), or halted (R120) -/
  held : Bool := false
  halted : Bool := false
  /-- MTVEC (R130); DESIGN CHOICE 0 (log 11) -/
  mtvec : Word := 0
  /-- SPMRAW (R480): 0 at tile reset -/
  spmraw : Bool := false
  /-- RFBAD (R86); DESIGN CHOICE 0 (log 11) -/
  rfbad : BitVec 57 := 0
  /-- REPTAB (R87): 0 at wafer reset, kept by a tile reset -/
  reptab : FMap (BitVec 32) := []
  /-- rows of the register file that no register stands on now, by place (rows 0 to 56, spare rows 57 and 58): value and state of the row
  in each context (R86, R87); zero and full at tile reset, DESIGN CHOICE (log 98) -/
  rf : FMap (FMap (Word × RegState)) := []
  /-- NBRN, NBRE, NBRS, NBRW and HOPN, HOPE, HOPS, HOPW (R93): 0 at reset -/
  nbr : FMap Word := []
  hop : FMap Word := []
  mx : Matrix := {}
  q : Queues := {}
  /-- barriers b0 to b63 (R346) -/
  bars : FMap Barrier := []
  coll : Coll := {}
  /-- the 15 level slots (R354) -/
  levels : FMap LevelSlot := []
  /-- the transfer FIFO, oldest first, and error-hold (R326, R333) -/
  xfer : List XCmd := []
  xhold : Bool := false
  streams : FMap StreamEnd := []
  train : Train := {}
  /-- ITLB and DTLB, most recently used first (R255) -/
  itlb : List Tlb := []
  dtlb : List Tlb := []
  /-- the invariant cache, most recently used first (R222) -/
  inv : List InvLine := []
  /-- sequence number of posted faults (R264); DESIGN CHOICE 0 (log 11) -/
  seq : Nat := 0
  /-- DMAX: the latest deadline sent since the tile was released (R418) -/
  dmax : Nat := 0
  /-- the chronometer tick at which the last hack reached it (R124) -/
  hackAt : Nat := 0
  /-- the tick its last scrub ended (R418) -/
  scrubEnd : Nat := 0
  /-- context-cycles, MACs and flits not yet reported (R442), by counter of R440; 12 holds matrix k-steps (R413) -/
  counts : FMap Nat := []
  /-- the tick to which its holding has been metered (R440) -/
  metered : Nat := 0
  /-- it has died or was reset inside its region, and the region has not been hacked for it yet (R96, R417) -/
  lost : Bool := false
  /-- it leaves its region at its release tick: for the region of this number, 0 for none (R418) -/
  leaving : Option Nat := none
deriving DecidableEq, Repr

/-- A tile at tile reset with an empty repair table. -/
abbrev Tile.reset : Tile := {}

/-- The states of a site (R88). -/
inductive SiteState where
  | dead | spare | free | fenced | assigned
  /-- a site of an excluded field of a DCY1-L: power-gated and never assigned (R16) -/
  | excluded
deriving DecidableEq, Repr

/-- The SITE register and what a site holds beside its tile (R88, R430). -/
structure Site where
  /-- SITE.STATE as an override; unset sites are free or spare by position (R91) -/
  state : Option SiteState := none
  /-- GRADE: reduced (R86) -/
  reduced : Bool := false
  /-- CEC (R88): 0 -/
  cec : Nat := 0
  /-- DEGRADE (R88): 0 -/
  degrade : Bool := false
  /-- consecutive heartbeats missed (R93) -/
  missed : Nat := 0
  /-- the seal counter of its router (R430): 0 at wafer reset -/
  sealCtr : BitVec 64 := 0
  /-- the last boot remap found the site dead (R91) -/
  bootDead : Bool := false
  /-- what self-test finds: the site is dead, or these register-file rows or SPM rows, by bank, fail (R86, R425); a row that fails in
  service is among them from then on (R90) -/
  broken : Bool := false
  badRows : BitVec 57 := 0
  badSpm : List (Nat × Nat) := []
  /-- its entries in the defect map that the last boot remap used: kind, row, bank (R425) -/
  mapped : List (Nat × Nat × Nat) := []
deriving DecidableEq, Repr

/-- A walker-cache entry (R255): a table entry read before, with its deadline. -/
structure WcEntry where
  /-- region -/
  region : Nat := 0
  /-- stage of the table -/
  stage : Nat := 0
  /-- address of the entry: an IPA at stage 1, a PA at stage 2 -/
  addr : Nat := 0
  /-- the entry as it was read -/
  entry : Nat := 0
  /-- tick from which it is not used -/
  deadline : Nat := 0
deriving DecidableEq, Repr

/-- What a walk is doing (R259): its requester, address and progress through the two stages. -/
structure Walker where
  busy : Bool := false
  /-- requesting site and requester (context 0 to 11 data, 12 transfer engine, 16 plus a context for its fetch, 32 plus a context for
  tprobe, 48 plus a context for lrenew, 13 plus 64 times one more than a slot for a stream, 14 plus 64 times a name for a retained request) -/
  site : Nat := 0
  who : Nat := 0
  region : Nat := 0
  va : Nat := 0
  /-- access kind: 0 read, 1 write, 2 atomic, 3 fetch -/
  kind : Nat := 0
  /-- bypass every cache (lrenew, R270) -/
  fresh : Bool := false
  /-- 0 stage-2 walk for a stage-1 table, 1 read of a stage-1 entry, 2 stage-2 walk of the final IPA, 3 key-tag probe -/
  phase : Nat := 0
  /-- stage-1 level and table IPA -/
  l1 : Nat := 4
  t1 : Nat := 0
  /-- stage-2 level, table PA, and the IPA being translated -/
  l2 : Nat := 4
  t2 : Nat := 0
  ipa : Nat := 0
  /-- the stage-1 leaf found: entry and its level -/
  leaf1 : Nat := 0
  leafLvl : Nat := 0
  /-- the stage-2 leaf found: entry and its level -/
  leaf2 : Nat := 0
  leaf2Lvl : Nat := 0
  /-- physical address of the stage-1 table once translated -/
  tpa : Nat := 0
  /-- the earliest deadline so far with the stage, level and address of its entry (R256, R264) -/
  deadline : Nat := 0
  dlStage : Nat := 0
  dlLevel : Nat := 0
  dlAddr : Nat := 0
  /-- an entry with lease code 0 was used (R256) -/
  codeZero : Bool := false
  /-- how often the walk has been repeated (R259) -/
  tries : Nat := 0
  /-- the stage-1 table's page is mirrored (R254), its KID, and the deadline of the stage-2 entries that gave its address (R261, R263) -/
  tmir : Bool := false
  tkid : Nat := 0
  tdl : Nat := 2 ^ 64
  /-- failures of the seal of its present read (R431) -/
  sealFails : Nat := 0
  /-- entries read from memory so far, and whether the walker cache may hold each: it takes them when the walk ends (R255, R263) -/
  found : List (WcEntry × Bool) := []
deriving DecidableEq, Repr

/-- A cluster (R12, R255, R429). -/
structure Cluster where
  /-- the L2 TLB, most recently used first -/
  l2 : List Tlb := []
  /-- the walker cache, most recently used first -/
  wc : List WcEntry := []
  /-- the 8 walkers -/
  walkers : FMap Walker := []
  /-- lookups waiting for a walker, in arrival order: site, requester -/
  waiting : List (Nat × Nat) := []
  /-- level-1 regions whose gate keys it holds (R429) -/
  gateKeys : List Nat := []
deriving DecidableEq, Repr

/-- The chronometer of a field (R274 to R277). -/
structure Field where
  /-- 0 unset, 1 locked, 2 skew-fault (R276): unset at wafer reset -/
  state : Nat := 0
  /-- the count when it was last set or corrected; before it is set DESIGN CHOICE 0 (log 12) -/
  base : Nat := 0
  /-- the reference tick at that moment -/
  since : Nat := 0
  /-- ticks for which the copy is held without advancing (R275) -/
  holdFor : Nat := 0
  /-- the tick since which the error has stayed within ε (R276) -/
  goodSince : Nat := 0
deriving DecidableEq, Repr

/-- A ring written by the device (R408). -/
structure Ring where
  base : Nat := 0
  n : Nat := 0
  /-- entry size in bytes -/
  size : Nat := 32
  widx : Nat := 0
  ridx : Nat := 0
  /-- software wrote an RIDX out of range: the ring counts as full (R408) -/
  bad : Bool := false
deriving DecidableEq, Repr

/-- An island (R17, R88, R405 to R410). -/
structure Island where
  failed : Bool := false
  /-- its runtime firmware is restarting and refuses VC6 messages (R426) -/
  restarting : Bool := false
  /-- CETHR (R88): reset value 32 -/
  cethr : Nat := 32
  /-- SEVADDR and SEVLEN (R408); DESIGN CHOICE 0 (log 11) -/
  sevaddr : Word := 0
  sevlen : Nat := 0
  /-- entries of the hypervisor fault mailbox (R264) whose place the spec does not give (log 17) -/
  hypMailbox : List (BitVec 256) := []
  /-- the boot queue of its firmware (R479) -/
  bootQueue : List (BitVec 128 × List Word) := []
  /-- source sites whose VC6 messages it is refusing (R288, R301) -/
  refusing : List Nat := []
  /-- interrupts sent to its cores and not yet taken: core, interrupt file, identity (R406) -/
  msi : List (Nat × Nat × Nat) := []
  /-- level-1 regions whose gate keys its gate holds (R429) -/
  gateKeys : List Nat := []
  /-- the key of ring 0, given to island 0's boot firmware (R424) -/
  ringKey : Option (BitVec 256) := none
  /-- the attestation that PCIe devices stay down (R459) is not state: its port is down when failed -/
  pcieUp : Bool := true
deriving DecidableEq, Repr

/-- An edge port (R320 to R324). -/
structure Port where
  /-- 0 absent, 1 down, 2 training, 3 up, 4 spared, 5 failed (R321); down at power-on -/
  state : Nat := 1
  replays : Nat := 0
  extra : Nat := 0
  lane : Nat := 0
  sp : Bool := false
  /-- training attempts that have failed (R321), and failed replays in a row of one flit (R320) -/
  trainFails : Nat := 0
  replayFails : Nat := 0
  /-- the slot table (R324): region numbers, 0 shared; DESIGN CHOICE all shared (log 11) -/
  slots : FMap Nat := []
  /-- level-1 regions whose gate keys it holds (R429) -/
  gateKeys : List Nat := []
deriving DecidableEq, Repr

/-- A port group (R21, R322). -/
structure Group where
  /-- 0 unused, 1 memory, 2 link -/
  role : Nat := 0
  /-- STATUS of the last ROLE write (R322) -/
  status : Nat := 0
  /-- its module has been attested and scrubbed and answers requests (R322) -/
  answering : Bool := false
  /-- the key table of its module, by KID (R432, R457) -/
  keys : FMap (BitVec 512) := []
deriving DecidableEq, Repr

/-- A bay (R456). -/
structure Bay where
  present : Bool := false
  led : Bool := false
  release : Bool := false
  latch : Bool := false
  scrub : Bool := false
  /-- the port group cabled to it, 255 if uncabled -/
  group : Nat := 255
deriving DecidableEq, Repr

/-- What a memory controller keeps for a 4 KiB frame (R263, R433). -/
structure FrameTag where
  kid : Nat := 0
  owner : Nat := 0
  locked : Bool := false
deriving DecidableEq, Repr

/-- A kernel (R384 to R399). -/
structure Kernel where
  /-- 0 none, 1 queued, 2 loading, 3 ready, 4 resident, 5 held, 6 saved, 7 retired (R384) -/
  state : Nat := 0
  /-- the launch descriptor (R385) -/
  desc : BitVec 512 := 0
  /-- the submitter: 0 a host, or one plus the submitting tile's column and 256 times its row in the region -/
  submitter : Nat := 0
  /-- the launch group it belongs to: the number of the group's first kernel, and whether the group is closed -/
  group : Nat := 0
  closed : Bool := true
  /-- its rectangle once placed, or saved: origin, width, height -/
  x0 : Nat := 0
  y0 : Nat := 0
  w : Nat := 0
  h : Nat := 0
  tgo : Nat := 0
  /-- tiles that exited, and counts for the retirement record (R395) -/
  exits : Nat := 0
  mdisc : Nat := 0
  qdisc : Nat := 0
  tdisc : Nat := 0
  xdisc : Nat := 0
  exitCol : Nat := 0
  exitRow : Nat := 0
  exitVal : Word := 0
  exitSeen : Bool := false
  /-- gang deadline D (R399); 0 for none -/
  deadline : Nat := 0
  acked : Bool := false
  /-- a gang fault has hit it (R399) -/
  gangFault : Bool := false
  /-- its tiles, by place in the rectangle, whose context 0 has not yet become live (R280) -/
  due : List Nat := []
  /-- it retires with this status once the commands that still run on its tiles are complete (R194, R238) -/
  ending : Option Nat := none
  /-- while it is saved and placed: its tiles not yet restored, by place in the rectangle (R384) -/
  unrestored : List Nat := []
  /-- its tiles, by place in the rectangle, that were lost and rehomed: they restart, with bit 32 of g4 set (R398) -/
  restarted : List Nat := []
  /-- by tile of the rectangle: ENTRY and the handler table its program declares (R382) -/
  progs : FMap (Nat × FMap Word) := []
deriving DecidableEq, Repr

/-- A region (R400 to R419). -/
structure Region where
  /-- 0 none, 1 creating, 2 running, 3 held, 4 resetting, 5 gone with tiles not yet released (R404, R418) -/
  state : Nat := 0
  /-- hack causes: 0 host, 1 fault domain, 2 tile lost, 3 monitor fault, 4 gang fault, 5 border move, 6 failover, 7 inspection -/
  causes : BitVec 8 := 0
  /-- the RCB as validated (R401, R439) and its address -/
  rcb : BitVec 2048 := 0
  rcbAddr : Nat := 0
  /-- S1ROOT and S2ROOT in force: a root changes only while the region is hacked (R248) -/
  s1root : Nat := 0
  s2root : Nat := 0
  /-- the rectangle in wafer-relative logical tiles -/
  col0 : Nat := 0
  row0 : Nat := 0
  w : Nat := 0
  h : Nat := 0
  /-- shares in force, and those SHARE has loaded for the next period (R403, R413) -/
  prio : Nat := 0
  lsh : Nat := 0
  slots : Nat := 0
  fdom : Nat := 0
  grow : Nat := 0
  kt : Nat := 0
  ct : Nat := 0
  shareDue : Bool := false
  /-- RHM0 to RHM7 (R95): 0 -/
  rhm : FMap Word := []
  /-- the stop tick and the resume tick while one is fixed (R485) -/
  stopTick : Option Nat := none
  resumeTick : Option Nat := none
  /-- the hack has reached its tiles -/
  stopped : Bool := false
  /-- the next kernel number (R385): counting up from 1 -/
  nextKernel : Nat := 1
  /-- the launch queue: kernel numbers in placement order (R386) -/
  queue : List Nat := []
  kernels : FMap Kernel := []
  /-- the home island (R405) -/
  home : Nat := 0
  /-- matrix k-steps and context-cycles of this period (R413) -/
  ks : Nat := 0
  cc : Nat := 0
  /-- it has moved in this period (R415); at the gaining region of a move under way: the strip's sites, its other side (0 the
  reserve), the side, and how many columns or rows (R416) -/
  moved : Bool := false
  strip : List Nat := []
  stripFrom : Nat := 0
  stripSide : Nat := 0
  stripLen : Nat := 0
  /-- address holes: logical numbers of lost tiles (R96) -/
  holes : List Nat := []
  /-- tiles saved so far for an inspection (R450), and the status of the last inspection request (R436) -/
  saved : List Nat := []
  inspStatus : Nat := 0
  /-- dead or reset tiles for which the hack has yet to be completed: sites (R96) -/
  lostDue : List Nat := []
  /-- the ring of its guest (R434), and the command that changed it last -/
  ring : Nat := 0
  /-- gate key present (R429) -/
  conf : Bool := false
  /-- metering counters by index (R440), last usage record number, digest and gap (R442, R443) -/
  meter : FMap Nat := []
  recNum : Nat := 0
  recDigest : BitVec 512 := 0
  gap : Nat := 0
  heldRecs : List (BitVec 28672) := []
  lastBoundary : Nat := 0
  /-- counters as they stood at boundaries for which no record is built yet (R442) -/
  snaps : List (Nat × FMap Nat) := []
  /-- the tick to which the frames it owns are metered (R440) -/
  framesTo : Nat := 0
  /-- its tiles have all been released, and the final record is due (R442); the last release tick so far -/
  finalDue : Bool := false
  finalAt : Nat := 0
deriving DecidableEq, Repr

/-- A command ring (R434 to R438). -/
structure CmdRing where
  isOpen : Bool := false
  base : Nat := 0
  n : Nat := 0
  key : BitVec 256 := 0
  /-- the sequence number last accepted -/
  acc : Nat := 0
  halted : Bool := false
  challenge : BitVec 256 := 0
  ridx : Nat := 0
  /-- the level-1 region whose guest it serves; 0 for the hypervisor -/
  region : Nat := 0
  /-- the command at RIDX is accepted and under way: its key waits for entropy after so many failed attempts (R428), or it is the
  creation of a region (R419; 0 for none) -/
  retries : Nat := 0
  waiting : Bool := false
  creating : Nat := 0
  /-- the entry at RIDX was being served when its security core failed: its effect takes place, and it is answered as cut off (R421) -/
  cut : Bool := false
deriving DecidableEq, Repr

/-- The two security cores (R420 to R443). -/
structure Sec where
  /-- 0 active, 1 standby, 2 failed (R420) -/
  stateA : Nat := 0
  stateB : Nat := 1
  /-- heartbeats missed in a row (R421) -/
  missed : Nat := 0
  /-- MEAS0 to MEAS7 (R423): zero at power-on -/
  meas : FMap (BitVec 512) := []
  launches : Nat := 0
  selfDerived : Bool := false
  mapExt : Nat := 0
  /-- boot completed: the wafer answers command rings (R424) -/
  booted : Bool := false
  /-- command rings by number (R434) -/
  rings : FMap CmdRing := []
  /-- keys by KID: region bound and the XTS key (R432); region 0 for none -/
  keys : FMap (Nat × BitVec 512) := []
  /-- gate keys by level-1 region (R429) -/
  gateKeys : FMap (BitVec 256) := []
  /-- drawn so far from the DRBG (R427); it counts on over a loss of power -/
  draws : Nat := 0
  /-- the ring served last: the next in turn comes after it (R434) -/
  turn : Nat := 0
deriving DecidableEq, Repr

/-- The module's own state (R453 to R455) and what its flash holds (R425). -/
structure Module where
  powered : Bool := true
  /-- THERM: 0 normal, 1 alert, 2 shutdown -/
  therm : Nat := 0
  inlet : Nat := 30
  outlet : Nat := 35
  flow : Nat := 90
  feedA : Bool := true
  feedB : Bool := true
  /-- the tick since which no alert condition has held, and since which the outlet or the flow has met a shutdown condition (R454) -/
  clearSince : Option Nat := some 0
  hotSince : Option Nat := none
  /-- DCY1-L: the outer column of fields excluded: 0 none, 1 west, 2 east (R16) -/
  excluded : Nat := 0
  /-- the two copies of the defect map in flash: bytes (R425) -/
  mapA : List Byte := []
  mapB : List Byte := []
  /-- WAFERNO (R325) and the wafer route table: ports per other wafer -/
  waferNo : Nat := 0
  routes : FMap (List Nat) := []
deriving DecidableEq, Repr

/-- An event on its way to a ring (R407): the ring it is for, and its 32 bytes. -/
structure EventMsg where
  /-- the region whose event ring it is for, or 0 for the site-event ring of `island` -/
  region : Nat := 0
  island : Nat := 0
  entry : BitVec 256 := 0
  /-- the site that sends it on VC6, none for one that an island or a gate raises (R484), and its name among what the site sends -/
  src : Option Nat := none
  seq : Nat := 0
deriving DecidableEq, Repr

/-- A posted fault message on its way (R264): its region, stage, and 32 bytes. -/
structure Posted where
  region : Nat := 0
  site : Nat := 0
  stage : Nat := 1
  entry : BitVec 256 := 0
  /-- its name among what the site sends on VC6 (R313) -/
  seq : Nat := 0
deriving DecidableEq, Repr

/-- The issue slot: the instruction being issued (the model's own latch: log entry 4). -/
structure Slot where
  site : Nat := 0
  ctx : Nat := 0
  /-- address of the instruction (the modifier's for a pair, R67) -/
  addr : Word := 0
  word : BitVec 32 := 0
  word2 : BitVec 32 := 0
  /-- TWORD[63:32] is written and PAIR set: the instruction is a pair (R117) -/
  pair : Bool := false
  /-- the word comes from a repeater frame (R178) -/
  framed : Bool := false
  /-- the word is executed by an attached follower (R363) -/
  train : Bool := false
  /-- the last instruction was not ready: nothing happened (R62, R113) -/
  stalled : Bool := false
deriving DecidableEq, Repr

/-- The objects an event acts on: numbers, a word, a flag, a signed number (log entry 3). -/
structure EvArgs where
  a : Nat := 0
  b : Nat := 0
  c : Nat := 0
  w : Word := 0
  flag : Bool := false
  i : Int := 0
deriving DecidableEq, Repr

/-- One wafer with what stands around it. -/
structure State where
  /-- the wafer reference of the chronometer, in ticks (R274) -/
  tick : Nat := 0
  /-- how many free values have been drawn: the model's own counter (log entry 2) -/
  draws : Nat := 0
  /-- steps that may happen beside the issue of instructions, oldest first (log entry 3) -/
  agenda : List (Instr × EvArgs) := []
  /-- the operands of the event being executed: the model's own latch (log entry 3) -/
  ev : EvArgs := {}
  slot : Slot := {}
  /-- SPM, edge memory and the islands' memory in one space of keys (R208, R323; log entry 10) -/
  mem : List Host.Cell := []
  /-- error state of 8-byte words by address ÷ 8 (R212): 0 none; 1 to 64 stored data bit 0 to 63 wrong, correctable;
  65 a code bit wrong, correctable; 66 uncorrectable -/
  ecc : FMap Nat := []
  tiles : FMap Tile := []
  sites : FMap Site := []
  clusters : FMap Cluster := []
  fields : FMap Field := []
  islands : FMap Island := []
  ports : FMap Port := []
  groups : FMap Group := []
  bays : FMap Bay := []
  /-- frame tags by frame number PA[48:12] (R263, R433) -/
  tags : FMap FrameTag := []
  regions : FMap Region := []
  /-- device-written rings (R408): 8 times the region plus 0 host queue, 1 event ring, 2 stage-1 mailbox;
  1,000,000 plus the island for a site-event ring; 2,000,000 the usage ring -/
  rings : FMap Ring := []
  sec : Sec := {}
  module : Module := {}
  events : List EventMsg := []
  posted : List Posted := []
  /-- the next name of a retention entry or vector load: the model's own -/
  nextId : Nat := 1
  /-- the gang messages sent to coordinators and not yet delivered: gang identifier, 0 ACK or 1 fault (R399) -/
  gangOut : List (Nat × Nat) := []
  /-- the regions of the usage records that the SEC holds, in the order in which they were built (R443) -/
  heldOrder : List Nat := []
  /-- a list of usage records written twice after a takeover is permitted (R443): the last one the failed core wrote -/
  lastRecord : Nat := 0
  /-- the last period end served by the regulator, in periods (R413) -/
  period : Nat := 0
  /-- tile images by the address of their header: what the model keeps of an image beside its bytes (log entry 26) -/
  images : FMap Tile := []
deriving DecidableEq, Repr

/-- Memory as listed holds the canonical form. -/
abbrev State.memWf (s : State) : Bool := Memory.wf s.mem

/-- The machine right after wafer reset and its boot (R417, R424): no region, every chronometer unset, every site of
full grade at its place, memory listing nothing. Registers without a reset value of the spec: log entry 11. -/
def State.reset : State := {}

end Sys2Proof.Machine
end

