-- ==== Sys2Proof/Machine/Ops.lean ====
section
/-! DEFINITION. The named operations every meaning is written with: access to the parts of the state, time, the logical
mesh, memory, registers, events, trap entry and the return from one, and the end of an instruction. -/
namespace Sys2Proof.Machine

/-- What a meaning answers. -/
abbrev Out := Host.Outcome State Fault Refusal

/-! ### Parts of the state -/

def State.tile (s : State) (t : Nat) : Tile := fget Tile.reset s.tiles t
def State.setTile (s : State) (t : Nat) (x : Tile) : State := { s with tiles := fset Tile.reset s.tiles t x }
def State.updTile (s : State) (t : Nat) (f : Tile → Tile) : State := s.setTile t (f (s.tile t))
def Tile.ctx (x : Tile) (c : Nat) : Ctx := fget Ctx.reset x.ctxs c
def Tile.setCtx (x : Tile) (c : Nat) (y : Ctx) : Tile := { x with ctxs := fset Ctx.reset x.ctxs c y }
def State.ctx (s : State) (t c : Nat) : Ctx := (s.tile t).ctx c
def State.setCtx (s : State) (t c : Nat) (y : Ctx) : State := s.setTile t ((s.tile t).setCtx c y)
def State.updCtx (s : State) (t c : Nat) (f : Ctx → Ctx) : State := s.setCtx t c (f (s.ctx t c))
def State.site (s : State) (t : Nat) : Site := fget {} s.sites t
def State.setSite (s : State) (t : Nat) (x : Site) : State := { s with sites := fset {} s.sites t x }
def State.field (s : State) (f : Nat) : Field := fget {} s.fields f
def State.setField (s : State) (f : Nat) (x : Field) : State := { s with fields := fset {} s.fields f x }
def State.cluster (s : State) (k : Nat) : Cluster := fget {} s.clusters k
def State.setCluster (s : State) (k : Nat) (x : Cluster) : State := { s with clusters := fset {} s.clusters k x }
def State.island (s : State) (i : Nat) : Island := fget {} s.islands i
def State.setIsland (s : State) (i : Nat) (x : Island) : State := { s with islands := fset {} s.islands i x }
def State.port (s : State) (p : Nat) : Port := fget {} s.ports p
def State.setPort (s : State) (p : Nat) (x : Port) : State := { s with ports := fset {} s.ports p x }
def State.group (s : State) (g : Nat) : Group := fget {} s.groups g
def State.setGroup (s : State) (g : Nat) (x : Group) : State := { s with groups := fset {} s.groups g x }
def State.bay (s : State) (b : Nat) : Bay := fget {} s.bays b
def State.setBay (s : State) (b : Nat) (x : Bay) : State := { s with bays := fset {} s.bays b x }
def State.tag (s : State) (f : Nat) : FrameTag := fget {} s.tags f
def State.setTag (s : State) (f : Nat) (x : FrameTag) : State := { s with tags := fset {} s.tags f x }
def State.region (s : State) (r : Nat) : Region := fget {} s.regions r
def State.setRegion (s : State) (r : Nat) (x : Region) : State := { s with regions := fset {} s.regions r x }
def State.updRegion (s : State) (r : Nat) (f : Region → Region) : State := s.setRegion r (f (s.region r))
def Region.kernel (x : Region) (k : Nat) : Kernel := fget {} x.kernels k
def Region.setKernel (x : Region) (k : Nat) (y : Kernel) : Region := { x with kernels := fset {} x.kernels k y }
def State.ring (s : State) (k : Nat) : Ring := fget {} s.rings k
def State.setRing (s : State) (k : Nat) (x : Ring) : State := { s with rings := fset {} s.rings k x }
def State.cmdRing (s : State) (k : Nat) : CmdRing := fget {} s.sec.rings k
def State.setCmdRing (s : State) (k : Nat) (x : CmdRing) : State :=
  { s with sec := { s.sec with rings := fset {} s.sec.rings k x } }
def Queues.counter (q : Queues) (n : Nat) : Counter := fget {} q.counters n
def Queues.setCounter (q : Queues) (n : Nat) (x : Counter) : Queues := { q with counters := fset {} q.counters n x }
def Tile.bar (x : Tile) (n : Nat) : Barrier := fget {} x.bars n
def Tile.setBar (x : Tile) (n : Nat) (b : Barrier) : Tile := { x with bars := fset {} x.bars n b }
def Tile.stream (x : Tile) (n : Nat) : StreamEnd := fget {} x.streams n
def Tile.setStream (x : Tile) (n : Nat) (e : StreamEnd) : Tile := { x with streams := fset {} x.streams n e }
def Tile.updQ (x : Tile) (f : Queues → Queues) : Tile := { x with q := f x.q }
def Tile.updMx (x : Tile) (f : Matrix → Matrix) : Tile := { x with mx := f x.mx }

/-- The tile and context of the issue slot. -/
def State.curTile (s : State) : Tile := s.tile s.slot.site
def State.cur (s : State) : Ctx := s.ctx s.slot.site s.slot.ctx
def State.updCurTile (s : State) (f : Tile → Tile) : State := s.updTile s.slot.site f
def State.updCur (s : State) (f : Ctx → Ctx) : State := s.updCtx s.slot.site s.slot.ctx f

/-- Put a step on the agenda. -/
def State.later (s : State) (i : Instr) (e : EvArgs) : State := { s with agenda := s.agenda ++ [(i, e)] }

/-- Draw a free value (log entry 2). -/
def State.drawn (s : State) : State := { s with draws := s.draws + 1 }

/-! ### Time (R5, R274 to R276) -/

/-- The field of a site (R430). -/
def fieldOf (t : Nat) : Nat := t / 640

/-- A field's copy of the chronometer (R275). One that has not been set stands at zero (DESIGN CHOICE, log 12: R276 does not say what it
reads). -/
def State.now (s : State) (f : Nat) : Nat :=
  let c := s.field f
  if c.state = 0 then c.base % 2 ^ 64 else (c.base + (s.tick - c.since - c.holdFor)) % 2 ^ 64

/-- The copy that a tile reads (R274). -/
def State.nowAt (s : State) (t : Nat) : Nat := s.now (fieldOf t)

/-- The skew bound ε (R275). -/
def epsilon : Nat := 3

/-! ### Sites and the logical mesh (R13, R15, R91, R92, R95) -/

def siteCol (t : Nat) : Nat := t % 32
def siteRow (t : Nat) : Nat := t % 640 / 32

/-- The physical rows of a field column that are not dead at the boot remap, from the north. -/
def State.liveRows (s : State) (f pcol : Nat) : List Nat :=
  (List.range 20).filter (fun r => !(s.site (640 * f + 32 * r + pcol)).bootDead)

/-- Physical row of logical row fr of a field column (R91). -/
def State.rowOf (s : State) (f pcol fr : Nat) : Option Nat := (s.liveRows f pcol)[fr]?

/-- Columns of tiles excluded at the west of a DCY1-L (R16, R22). -/
def State.westCut (s : State) : Nat := if s.module.excluded = 1 then 32 else 0

/-- Width of the logical mesh (R16). -/
def State.meshW (s : State) : Nat := if s.module.excluded = 0 then 192 else 160

/-- The field of a logical tile of the wafer (R13). -/
def State.fieldAt (s : State) (c r : Nat) : Nat := r / 18 * 6 + (c + s.westCut) / 32

/-- The site of a logical tile of the wafer under the boot remap (R91). -/
def State.siteAt (s : State) (c r : Nat) : Option Nat :=
  if c < s.meshW ∧ r < 108 then
    let f := s.fieldAt c r
    let pc := c % 32
    match s.rowOf f pc (r % 18) with
    | some pr => some (640 * f + 32 * pr + pc)
    | none => none
  else none

/-- The logical tile a site backs under the boot remap: wafer column and row. -/
def State.logicalOf (s : State) (t : Nat) : Option (Nat × Nat) :=
  let f := fieldOf t
  let fr := (s.liveRows f (siteCol t)).filter (· < siteRow t)
  if (s.site t).bootDead ∨ 18 ≤ fr.length then none
  else some (f % 6 * 32 + siteCol t - s.westCut, f / 6 * 18 + fr.length)

/-- The field is excluded from the mesh of a DCY1-L (R16). -/
def State.fieldOut (s : State) (f : Nat) : Bool :=
  (s.module.excluded == 1 && decide (f % 6 = 0)) || (s.module.excluded == 2 && decide (f % 6 = 5))

/-- SITE.STATE (R88): what events have set, or the place the boot remap gave the site; the sites of an excluded field have no power and
are in no state of the table (R16). -/
def State.siteState (s : State) (t : Nat) : SiteState :=
  if s.fieldOut (fieldOf t) then .excluded
  else match (s.site t).state with
  | some x => x
  | none => if (s.site t).bootDead then .dead else if (s.logicalOf t).isSome then .free else .spare

/-- What a region-relative name stands for (R95, R96, R209). -/
inductive Place where
  | site (t : Nat) | hole | outside
deriving DecidableEq, Repr

/-- The rehome entry that names a logical tile: its site (R95). -/
def Region.rehomed (x : Region) (col row : Nat) : Option Nat :=
  (List.range 8).findSome? (fun k =>
    let w := fget 0 x.rhm k
    if bit w 63 && fld w 32 8 == row && fld w 24 8 == col
    then some (640 * fld w 18 6 + 32 * fld w 0 5 + fld w 10 5) else none)

/-- The place of a region-relative name. -/
def State.place (s : State) (r col row : Nat) : Place :=
  let x := s.region r
  if x.w ≤ col ∨ x.h ≤ row then .outside
  else if x.holes.contains (row * x.w + col) then .hole
  else match x.rehomed col row with
    | some t => .site t
    | none => match s.siteAt (x.col0 + col) (x.row0 + row) with
      | some t => .site t
      | none => .outside

/-- The place of a name as a tile sees it; a tile of no region is tile (0, 0) of a 1 × 1 region (R479). -/
def State.placeFrom (s : State) (t col row : Nat) : Place :=
  let x := s.tile t
  if x.region = 0 then (if col = 0 ∧ row = 0 then .site t else .outside)
  else if col = x.col ∧ row = x.row then .site t
  else s.place x.region col row

/-- Width and height of a tile's region (R209, R479). -/
def State.dims (s : State) (t : Nat) : Nat × Nat :=
  let x := s.tile t
  if x.region = 0 then (1, 1) else ((s.region x.region).w, (s.region x.region).h)

/-- Absolute difference. -/
def gap (a b : Nat) : Nat := (a - b) + (b - a)

/-- Wafer-wide physical column and row of a site (R92). -/
def physCol (t : Nat) : Nat := fieldOf t % 6 * 32 + siteCol t
def physRow (t : Nat) : Nat := fieldOf t / 6 * 20 + siteRow t

/-- The remap shift of a site that backs logical row fr of its field (R91). -/
def State.shiftOf (s : State) (t : Nat) : Nat :=
  match s.logicalOf t with
  | some (_, r) => siteRow t - r % 18
  | none => 0

/-- The seam link of a physical wafer column below field row fy: the physical rows of its two ends (R92). -/
def State.seam (s : State) (fy c : Nat) : Option (Nat × Nat) :=
  match s.rowOf (6 * fy + c / 32) (c % 32) 17, s.rowOf (6 * (fy + 1) + c / 32) (c % 32) 0 with
  | some a, some b => some (20 * fy + a, 20 * (fy + 1) + b)
  | _, _ => none

/-- Cost of the best way from one of some points, each reached at a cost, over the grid of routers to a physical place. -/
def nearest (l : List (Nat × Nat × Nat)) (c r : Nat) : Nat := l.foldl (fun m p => Nat.min m (p.2.2 + gap p.1 c + gap p.2.1 r)) 1000000

/-- The points below a field seam, each with its cost through the seam link of its column, 1 + abs(a − b) hops (R92). -/
def State.crossSeam (s : State) (l : List (Nat × Nat × Nat)) (fy : Nat) : List (Nat × Nat × Nat) :=
  (List.range s.meshW).filterMap (fun i =>
    (s.seam fy (i + s.westCut)).map (fun e => (i + s.westCut, e.2, nearest l (i + s.westCut) e.1 + 1 + gap (e.1 + 3) e.2)))

/-- The shortest path between two sites over working routers (R312): inside a row of fields every neighbour is a hop away, and seams
are crossed by their links. -/
def State.dist (s : State) (a b : Nat) : Nat :=
  let p := if fieldOf a / 6 ≤ fieldOf b / 6 then (a, b) else (b, a)
  let fy := fieldOf p.1 / 6
  nearest ((List.range (fieldOf p.2 / 6 - fy)).foldl (fun l i => s.crossSeam l (fy + i)) [(physCol p.1, physRow p.1, 0)]) (physCol p.2) (physRow p.2)

/-- Hops of the logical link between two neighbouring sites (R92); between sites of which one is rehomed, the shortest path (R312). -/
def State.linkHops (s : State) (a b : Nat) : Nat :=
  match s.logicalOf a, s.logicalOf b with
  | some (ca, ra), some (cb, rb) =>
    if ra = rb ∧ gap ca cb = 1 then 1 + gap (s.shiftOf a) (s.shiftOf b)
    else if ca = cb ∧ gap ra rb = 1 then
      if ra / 18 = rb / 18 then gap (siteRow a) (siteRow b) else 1 + gap (s.shiftOf a) (s.shiftOf b)
    else s.dist a b
  | _, _ => s.dist a b

/-- The logical place of a site on the wafer; a spare site, or one that backs no name of the boot remap, stands at the place of the
mesh where it lies (DESIGN CHOICE, log entry 95). -/
def State.waferAt (s : State) (t : Nat) : Nat × Nat :=
  (s.logicalOf t).getD (physCol t - s.westCut, siteRow t * 18 / 20 + fieldOf t / 6 * 18)

/-- Cluster number of a logical place (R13): by wafer column, the excluded columns counted. -/
def State.clusterAt (s : State) (p : Nat × Nat) : Nat := p.2 / 6 * 24 + (p.1 + s.westCut) / 8

/-- Cluster number of a site: that of the place of the mesh where it lies. For a site that backs a name of the boot remap this is the
name's (R13); of a rehomed or spare site the spec does not say whether its name or its place decides (DESIGN CHOICE, log entry 95). -/
def State.clusterOf (s : State) (t : Nat) : Nat := s.clusterAt (s.waferAt t)

/-- Names on the way from one coordinate to the next. -/
def hopsAlong (a b : Nat) : List Nat :=
  if a ≤ b then (List.range (b - a)).map (fun i => a + i + 1) else (List.range (a - b)).map (fun i => a - i - 1)

/-- The tiles of the fixed route between two tiles: first along the row, then along the column (R311). -/
def routeNames (xs ys xd yd : Nat) : List (Nat × Nat) :=
  (xs, ys) :: ((hopsAlong xs xd).map (fun x => (x, ys)) ++ (hopsAlong ys yd).map (fun y => (xd, y)))

/-- The sites of names of a region; a hole on the way keeps its dead site, whose router passes traffic (R91). -/
def State.routeSites (s : State) (r : Nat) (l : List (Nat × Nat)) : List Nat :=
  l.filterMap (fun p =>
    match s.place r p.1 p.2 with
    | .site t => some t
    | _ => s.siteAt ((s.region r).col0 + p.1) ((s.region r).row0 + p.2))

/-- Hops and gates summed along consecutive sites (R311, R317). -/
def State.sumLinks (s : State) : List Nat → Nat × Nat
  | a :: b :: r =>
    let q := s.sumLinks (b :: r)
    (s.linkHops a b + q.1, (if s.clusterOf a = s.clusterOf b then 0 else 1) + q.2)
  | _ => (0, 0)

/-- The name is rehomed: its site is not the one that the boot remap gave it (R95). -/
def State.isRehomed (s : State) (r col row : Nat) : Bool := ((s.region r).rehomed col row).isSome && !(s.region r).holes.contains (row * (s.region r).w + col)

/-- H and the number of gates of the route from one name of a region to another. A route between names of the boot remap runs over their
own sites, whatever names between them are rehomed; a route to or from a rehomed site is a shortest path (R311, R312), whose gates are
those of the clusters between its ends (log entry 20). -/
def State.routeCost (s : State) (r xs ys xd yd : Nat) : Nat × Nat :=
  let x := s.region r
  if s.isRehomed r xs ys || s.isRehomed r xd yd then
    match s.routeSites r [(xs, ys), (xd, yd)] with
    | [a, b] =>
      let ka := s.clusterOf a
      let kb := s.clusterOf b
      (s.dist a b, gap (ka % 24) (kb % 24) + gap (ka / 24) (kb / 24))
    | _ => (0, 0)
  else s.sumLinks ((routeNames (x.col0 + xs) (x.row0 + ys) (x.col0 + xd) (x.row0 + yd)).filterMap (fun p => s.siteAt p.1 p.2))

/-- Region-relative neighbour in direction 0 n, 1 e, 2 s, 3 w. -/
def neighbour (col row d : Nat) : Option (Nat × Nat) :=
  if d = 0 then (if row = 0 then none else some (col, row - 1))
  else if d = 1 then some (col + 1, row)
  else if d = 2 then some (col, row + 1)
  else (if col = 0 then none else some (col - 1, row))

/-- NBRdir of a tile (R93): offsets of the neighbour's site, or zero outside the region; zero too for a name that is an address hole
(DESIGN CHOICE, log entry 110). -/
def State.nbrWord (s : State) (t d : Nat) : Word :=
  let x := s.tile t
  match neighbour x.col x.row d with
  | none => 0
  | some (c, r) =>
    match s.place x.region c r with
    | .site u =>
      (1#1 ++ (BitVec.ofInt 8 ((physRow u : Int) - physRow t)) ++ (BitVec.ofInt 8 ((physCol u : Int) - physCol t)) : BitVec 17).zeroExtend 64
    | _ => 0

/-- HOPdir of a tile (R93). -/
def State.hopWord (s : State) (t d : Nat) : Word :=
  let x := s.tile t
  match neighbour x.col x.row d with
  | none => 0
  | some (c, r) =>
    match s.place x.region c r with
    | .site u => BitVec.ofNat 64 (s.linkHops t u % 64)
    | _ => 0

/-- The sites of a region, in logical-number order, holes left out (R14). -/
def State.regionSites (s : State) (r : Nat) : List Nat :=
  let x := s.region r
  (List.range (x.w * x.h)).filterMap (fun n =>
    match s.place r (n % x.w) (n / x.w) with
    | .site t => some t
    | _ => none)

/-- Load a tile's neighbour-pointer and hop registers (R93). -/
def State.loadNbr (s : State) (t : Nat) : State :=
  s.updTile t (fun x => { x with
    nbr := (List.range 4).foldl (fun m d => fset 0 m d (s.nbrWord t d)) []
    hop := (List.range 4).foldl (fun m d => fset 0 m d (s.hopWord t d)) [] })

/-! ### Memory (R208 to R212, R323; log entry 10) -/

/-- Key of byte 0 of a site's SPM. -/
def spmBase (t : Nat) : Nat := t * 2 ^ 21

/-- Key of a physical address of edge memory. -/
def edgeKey (pa : Nat) : Nat := 2 ^ 60 + pa

/-- Key of an address of the island cores' space. -/
def sysKey (a : Nat) : Nat := 2 ^ 61 + a

/-- Key of one byte of a site's SPM: its row, or the spare row its repair table puts in its place (R86, R87). -/
def State.spmKey (s : State) (t off : Nat) : Nat :=
  let b := off / 65536
  let row := off / 64 % 1024
  match (List.range 4).find? (fun k => let e := fget 0 (s.tile t).reptab (2 + 4 * b + k); bit e 31 && fld e 0 10 == row) with
  | some k => spmBase t + 0x180000 + (4 * b + k) * 64 + off % 64
  | none => spmBase t + off

/-- The SPM row of an offset fails and nothing substitutes it: it delivers faults until a retest re-derives REPTAB (R87, R90). -/
def State.spmRowFails (s : State) (t off : Nat) : Bool :=
  (s.site t).badSpm.contains (off / 65536, off / 64 % 1024) && s.spmKey t off == spmBase t + off

/-- `n` bytes of a site's SPM, little-endian. -/
def State.spmRead (s : State) (t off : Nat) : Nat → Nat
  | 0 => 0
  | n + 1 => (Memory.byte s.mem (s.spmKey t off)).toNat + 256 * s.spmRead t (off + 1) n

/-- Write the low `n` bytes of a number to a site's SPM. -/
def State.spmWrite (s : State) (t off : Nat) : Nat → Nat → State
  | 0, _ => s
  | n + 1, v =>
    State.spmWrite { s with mem := Memory.put s.mem (s.spmKey t off) (BitVec.ofNat 8 v) } t (off + 1) n (v / 256)

/-- `n` bytes at a key of edge or island memory. -/
def State.memRead (s : State) (key n : Nat) : Nat := Memory.readLE s.mem key n

/-- Write `n` bytes at a key of edge or island memory. -/
def State.memWrite (s : State) (key n v : Nat) : State := { s with mem := Memory.writeLE s.mem key n v }

/-- Error state of the 8-byte word that holds a key (R212). -/
def State.eccAt (s : State) (key : Nat) : Nat := fget 0 s.ecc (key / 8)

def State.setEcc (s : State) (key v : Nat) : State := { s with ecc := fset 0 s.ecc (key / 8) v }

/-- Keys of the 8-byte words that `n` bytes of a site's SPM touch. -/
def State.wordKeys (s : State) (t off n : Nat) : List Nat :=
  (List.range ((off + n + 7) / 8 - off / 8)).map (fun i => s.spmKey t ((off / 8 + i) * 8))

/-- The bytes hold an uncorrectable error (R212), or lie in a row that fails (R90). -/
def State.uncorrectable (s : State) (t off n : Nat) : Bool :=
  (s.wordKeys t off n).any (fun k => s.eccAt k == 66) ||
  (List.range ((off + n + 63) / 64 - off / 64)).any (fun i => s.spmRowFails t ((off / 64 + i) * 64))

/-! ### Events to islands (R405 to R409) -/

/-- The home island of a region, or the island of its field for a tile of no region (R405, R479). -/
def State.homeOf (s : State) (t : Nat) : Nat :=
  let x := s.tile t
  if x.region = 0 then fieldOf t else (s.region x.region).home

/-- The 32 bytes of an event-ring entry (R407). -/
def eventEntry (tick region code flags col row scol srow : Nat) (a0 a1 : Word) : BitVec 256 :=
  a1 ++ a0 ++ BitVec.ofNat 8 srow ++ BitVec.ofNat 8 scol ++ BitVec.ofNat 8 row ++ BitVec.ofNat 8 col ++
  BitVec.ofNat 8 flags ++ BitVec.ofNat 8 code ++ BitVec.ofNat 16 region ++ BitVec.ofNat 64 tick

/-! ### Rings written by the device (R406, R408) -/

/-- A field of a region control block: bytes from an offset (R401). -/
def Region.field (x : Region) (off n : Nat) : Nat := fld x.rcb (8 * off) (8 * n)

/-- The ring has no room, or its RIDX is out of range. -/
def Ring.full (x : Ring) : Bool := x.n == 0 || x.bad || decide (x.n ≤ x.widx - x.ridx)

/-- Write the next entry of a ring, then its WIDX (R408). -/
def State.ringWrite (s : State) (k : Nat) (v : Nat) : State :=
  let x := s.ring k
  let s := s.memWrite (sysKey (x.base + x.widx % x.n * x.size)) x.size v
  let s := s.memWrite (sysKey (x.base + x.n * x.size)) 8 (x.widx + 1)
  s.setRing k { x with widx := x.widx + 1 }

/-- An MSI reaches the IMSIC of a core: interrupt file and identity (R406). -/
def State.interrupt (s : State) (core file identity : Nat) : State :=
  let i := core / 16
  s.setIsland i { s.island i with msi := (s.island i).msi ++ [(core, file, identity)] }

/-- The interrupt of a region: its AIA target, and an identity above its base (R401, R406). -/
def State.interruptRegion (s : State) (r k : Nat) : State :=
  let x := (s.region r).field 0x060 4
  s.interrupt (natBits x 0 16) (natBits x 16 6) ((s.region r).field 0x064 2 + k)

/-- The interrupt of the hypervisor at an island; which core, file and identity the spec does not give (log entry 17). -/
def State.interruptHyp (s : State) (isl : Nat) : State := s.interrupt (16 * isl) 0 0

/-- Ring keys of a region: host queue, event ring, stage-1 mailbox. -/
def hostRing (r : Nat) : Nat := 8 * r
def eventRing (r : Nat) : Nat := 8 * r + 1
def faultRing (r : Nat) : Nat := 8 * r + 2
def siteRing (isl : Nat) : Nat := 1000000 + isl
def usageRing : Nat := 2000000

/-- An island takes no VC6 traffic (R410, R426). -/
def State.islandDown (s : State) (isl : Nat) : Bool := (s.island isl).failed || (s.island isl).restarting

/-- The ring an event is for. -/
def EventMsg.ring (e : EventMsg) : Nat := if e.region = 0 then siteRing e.island else eventRing e.region

/-- The island that takes it: the home island as it is now (R410), or the island of the site. -/
def State.eventIsland (s : State) (e : EventMsg) : Nat := if e.region = 0 then e.island else (s.region e.region).home

/-- The event can be written: its island works and its ring has room. -/
def State.eventRoom (s : State) (e : EventMsg) : Bool := !s.islandDown (s.eventIsland e) && !(s.ring e.ring).full

/-- Write an event's entry to its ring and send the interrupt (R406, R408). -/
def State.eventWrite (s : State) (e : EventMsg) : State :=
  let s := s.ringWrite e.ring e.entry.toNat
  if e.region = 0 then s.interruptHyp e.island else s.interruptRegion e.region 0

/-- An event is on its way to its ring. -/
def State.eventLater (s : State) (e : EventMsg) : State := { s with events := s.events ++ [e] }.later .eventMessage {}

/-- An event that an island or a gate raises has no transit: it is written at the tick of its cause, whatever events of tiles are on
their way to its ring, or waits while the ring is full, behind those that wait there already (R484, R407). -/
def State.raise (s : State) (e : EventMsg) : State :=
  if s.eventRoom e && !s.events.any (fun y => y.ring == e.ring && y.src.isNone) then s.eventWrite e else s.eventLater e

/-- An event of a region that its home island raises (R406, R484). -/
def State.event (s : State) (r code flags col row scol srow : Nat) (a0 a1 : Word) : State :=
  let h := (s.region r).home
  s.raise { region := r, island := h, entry := eventEntry (s.now h) r code flags col row scol srow a0 a1 }

/-- An event that a tile sends: it travels on VC6 (R314, R484); a tile of no region sends it as a site event (log entry 21). -/
def State.tileEvent (s : State) (t code flags scol srow : Nat) (a0 a1 : Word) : State :=
  let x := s.tile t
  let s1 := { s with nextId := s.nextId + 1 }
  if x.region = 0 then
    s1.eventLater { region := 0, island := fieldOf t, entry := eventEntry (s.nowAt t) 0 code flags 0 0 0 0 a0 a1, src := some t, seq := s.nextId }
  else
    let h := (s.region x.region).home
    s1.eventLater { region := x.region, island := h, entry := eventEntry (s.now h) x.region code flags x.col x.row scol srow a0 a1, src := some t,
                    seq := s.nextId }

/-- A site event, which the field's island raises (R406, R408, R484). -/
def State.siteEvent (s : State) (f code : Nat) (a0 a1 : Word) : State :=
  s.raise { region := 0, island := f, entry := eventEntry (s.now f) 0 code 0 0 0 0 0 a0 a1 }

/-- SITE as a word (R88). Codes 5 to 7 never occur: a site of an excluded field reads as one that is not there (log entry 96). -/
def State.siteWord (s : State) (t : Nat) : Word :=
  let x := s.site t
  let st : Nat := match s.siteState t with | .dead => 0 | .excluded => 0 | .spare => 1 | .free => 2 | .fenced => 3 | .assigned => 4
  BitVec.ofNat 64 (st + (if x.reduced then 64 else 0) + (if x.degrade then 128 else 0) + 256 * x.cec)

/-- Set DEGRADE, send the degrade event, and fence a site that is not assigned (R88, R90). -/
def State.degrade (s : State) (t : Nat) : State :=
  let x := s.site t
  let st := s.siteState t
  let s := s.setSite t { x with degrade := true, state := if st = .free ∨ st = .spare then some .fenced else x.state }
  s.siteEvent (fieldOf t) 0x4A (s.siteWord t) (BitVec.ofNat 64 (fieldOf t + 64 * siteCol t + 2048 * siteRow t))

/-- Count correctable errors of a site (R88, R212): SITE.CEC saturates at 255; reaching CETHR sets DEGRADE. -/
def State.countCec (s : State) (t n : Nat) : State :=
  if n = 0 then s
  else
    let x := s.site t
    let c := Nat.min 255 (x.cec + n)
    let s := s.setSite t { x with cec := c }
    if (s.island (fieldOf t)).cethr ≤ c ∧ !x.degrade then s.degrade t else s

/-- The correctable errors among the words that `n` bytes touch. -/
def State.correctables (s : State) (t off n : Nat) : Nat :=
  ((s.wordKeys t off n).filter (fun k => s.eccAt k != 0 && s.eccAt k != 66)).length

/-- What a store does to the codes of the words it covers (R212): the words written are good again. -/
def State.storeEcc (s : State) (t off n : Nat) : State :=
  (s.wordKeys t off n).foldl (fun s k => if s.eccAt k = 0 then s else s.setEcc k 0) s

/-- A store of `n` bytes that is narrower than a word and meets an uncorrectable error there (R212). -/
def State.storeBlocked (s : State) (t off n : Nat) : Bool := decide (n % 8 ≠ 0 ∨ off % 8 ≠ 0) && s.uncorrectable t off n

/-- The bytes of a store to a site's SPM, and the codes of the words they lie in. -/
def State.spmPut (s : State) (t off n v : Nat) : State := (s.spmWrite t off n v).storeEcc t off n

/-- Perform a store to a site's SPM: the bytes, the codes, and the correctable errors met by a narrow store (R212). -/
def State.spmStore (s : State) (t off n v : Nat) : State :=
  let ce := if n % 8 = 0 ∧ off % 8 = 0 then 0 else s.correctables t off n
  (s.spmPut t off n v).countCec t ce

/-- Bytes as a RAW load returns them: stored data bits uncorrected (R480). -/
def State.spmRaw (s : State) (t off n : Nat) : Nat :=
  let v := s.spmRead t off n
  (List.range (8 * n)).foldl (fun acc i =>
    let k := s.spmKey t (off + i / 8)
    if s.eccAt k = 1 + (k % 8 * 8 + i % 8) then acc ^^^ 2 ^ i else acc) v

/-! ### Registers (R57 to R62, R116) -/

/-- The name denotes a monitor register: g1 to g7 in monitor mode (R116). -/
def monName (mon : Bool) (r : Nat) : Bool := mon && decide (1 ≤ r ∧ r ≤ 7)

/-- The row of the register file that holds a general register: the lowest unmarked rows in order (R86). -/
def rowOfReg (bad : BitVec 57) (n : Nat) : Option Nat := ((List.range 57).filter (fun k => !bit bad k))[n - 1]?

/-- The place that a row of the register file stands on: a spare row while an entry of REPTAB substitutes it, the lower one first (R87). -/
def rowPlace (tab : FMap (BitVec 32)) (row : Nat) : Nat :=
  match [0, 1].find? (fun e => let w := fget 0 tab e; bit w 31 && fld w 0 10 == row) with
  | some e => 57 + e
  | none => row

/-- The row of a register fails and nothing substitutes it: the register delivers precise faults until a retest (R86, R90). -/
def State.regFails (s : State) (t n : Nat) : Bool :=
  let b := (s.site t).badRows
  b != 0 && (match rowOfReg (s.tile t).rfbad n with
    | some row => bit b row && rowPlace (s.tile t).reptab row == row
    | none => false)

/-- Value of g register r of a context, by mode. -/
def Ctx.readG (x : Ctx) (r : Nat) : Word :=
  if r = 0 then 0 else if monName x.mon r then fget 0 x.mg r else fget 0 x.g r

/-- Full/empty state of g register r, by mode; g0 is always full (R61). -/
def Ctx.stateG (x : Ctx) (r : Nat) : RegState :=
  if r = 0 then .full else if monName x.mon r then fget .full x.mgs r else fget .full x.gs r

/-- Write a value to a register and set it full; g0 discards (R57, R61). -/
def Ctx.putG (x : Ctx) (mon : Bool) (r : Nat) (v : Word) : Ctx :=
  if r = 0 then x
  else if monName mon r then { x with mg := fset 0 x.mg r v, mgs := fset .full x.mgs r .full }
  else { x with g := fset 0 x.g r v, gs := fset .full x.gs r .full }

/-- Set the full/empty state of a register; g0 stays full. -/
def Ctx.putState (x : Ctx) (mon : Bool) (r : Nat) (st : RegState) : Ctx :=
  if r = 0 then x
  else if monName mon r then { x with mgs := fset .full x.mgs r st }
  else { x with gs := fset .full x.gs r st }

/-- Value and state of v registers (R155). -/
def Ctx.readV (x : Ctx) (v : Nat) : VecReg := fget 0 x.v v
def Ctx.stateV (x : Ctx) (v : Nat) : RegState := fget .full x.vs v
def Ctx.putV (x : Ctx) (v : Nat) (w : VecReg) : Ctx := { x with v := fset 0 x.v v w, vs := fset .full x.vs v .full }
def Ctx.putVState (x : Ctx) (v : Nat) (st : RegState) : Ctx := { x with vs := fset .full x.vs v st }

/-- Mask m; m0 is all ones (R57, R155). -/
def Ctx.mask (x : Ctx) (m : Nat) : BitVec 16 := if m = 0 then 0xFFFF#16 else fget 0 x.masks m
def Ctx.putMask (x : Ctx) (m : Nat) (v : BitVec 16) : Ctx := if m = 0 then x else { x with masks := fset 0 x.masks m v }

/-- OR flags into FFLAGS (R46). -/
def Ctx.orFlags (x : Ctx) (f : BitVec 6) : Ctx := { x with fcsr := x.fcsr ||| f.zeroExtend 64 }

/-- The site is reduced: g40 to g55 do not exist (R86, R97). -/
def State.isReduced (s : State) (t : Nat) : Bool := (s.site t).reduced

/-! ### Streams (R335, R338, R409, R446) -/

/-- A count and a byte stride of a stream. -/
def StreamEnd.cnt (e : StreamEnd) (l : Nat) : Nat := fld e.spb (64 + 32 * l) 32
def StreamEnd.str (e : StreamEnd) (l : Nat) : Int := (BitVec.ofNat 32 (fld e.spb (224 + 32 * l) 32)).toInt
def StreamEnd.base (e : StreamEnd) : Nat := fld e.spb 0 64

/-- The status word of a stream end (R338). -/
def StreamEnd.status (e : StreamEnd) : Word := BitVec.ofNat 64 (e.count * 2 ^ 24 + e.code.toNat * 2 ^ 16 + e.state)

/-- TAG and ROLE (R335). -/
def StreamEnd.tag (e : StreamEnd) : Nat := fld e.spb 424 8
def StreamEnd.role (e : StreamEnd) : Nat := fld e.spb 432 8

/-- Address of element i (R335). -/
def StreamEnd.elemAddr (e : StreamEnd) (i : Nat) : Word :=
  BitVec.ofInt 64 ((List.range 5).foldl (fun (p : Int × Nat) l => (p.1 + (p.2 % e.cnt l : Nat) * e.str l, p.2 / e.cnt l)) ((e.base : Int), i)).1

/-- The stream notice of an end (R409, R446): an address, the digest received, TAG and slot. -/
def State.streamEvent (s : State) (t n : Nat) (e : StreamEnd) (a0 : Word) (digest : BitVec 32) : State :=
  s.tileEvent t 0x26 0 0 0 a0 (BitVec.ofNat 64 (digest.toNat + 2 ^ 32 * e.tag + 2 ^ 40 * n))

/-- The notice of an ended stream that a reader meets (R341, R446): the element that does not come is the one after those accepted (DEDUCED,
log 118). -/
def State.streamEnded (s : State) (t n : Nat) : State :=
  let e := (s.tile t).stream n
  s.streamEvent t n e (e.elemAddr e.count) 0

/-! ### Traps (R116 to R120) -/

/-- The notice that goes to the home island beside a trap (R409, R444, R446): of the stream code, and of the restore code of mrest, with the
address that it read. -/
def State.notice (s : State) (code : Nat) (tval : Word) : State :=
  let t := s.slot.site
  if code = 0x26 then
    match (List.range 4).find? (fun n => let e := s.curTile.stream n; decide (3 ≤ e.state) && e.role == 1 && e.status == tval) with
    | some n => s.streamEnded t n
    | none => s
  else if code = 0x17 then
    match decode s.slot.word with
    | .ok (.mrest ga _) => s.tileEvent t 0x17 0 0 0 1 (if 56 ≤ ga.toNat then (((fget [] s.curTile.q.inq (ga.toNat - 56)).head?).map (·.val)).getD 0 else s.cur.readG ga.toNat)
    | _ => s
  else s

/-- Add a hack cause to a region: a running region gets a stop tick and the broadcast is due (R404, R485); a region-state
event reports it. -/
def State.addCause1 (s : State) (r c : Nat) (status : Nat) : State :=
  let x := s.region r
  if x.state = 2 ∨ x.state = 3 then
    let x' := { x with causes := x.causes ||| BitVec.twoPow 8 c }
    if x.state = 3 then s.setRegion r { x' with resumeTick := none }
    else
      let s := (s.setRegion r { x' with state := 3, stopTick := some (s.now x.home + 1024), stopped := false }).later .hackBroadcast { a := r }
      s.event r 0x48 0 0 0 0 0 (BitVec.ofNat 64 (2 + 256 * x'.causes.toNat)) (BitVec.ofNat 64 status)
  else s

/-- Regions with the same non-zero fault domain gain the fault-domain cause (R412). -/
def State.faultDomain (s : State) (r : Nat) : State :=
  let d := (s.region r).fdom
  if d = 0 then s
  else s.regions.foldl (fun s e => if e.1 ≠ r ∧ e.2.fdom = d then s.addCause1 e.1 1 0 else s) s

/-- Add a hack cause with what follows from it: monitor fault, tile lost and gang fault spread over the fault domain (R412). -/
def State.addCause (s : State) (r c : Nat) : State :=
  -- a region that is being created or reset, or is gone, gains no cause, and none spreads from it
  let gains := decide ((s.region r).state = 2 ∨ (s.region r).state = 3)
  let s := s.addCause1 r c 0
  if gains ∧ (c = 2 ∨ c = 3 ∨ c = 4) then s.faultDomain r else s

/-- Remove a hack cause; when none is left a resume tick is fixed (R404, R485). -/
def State.removeCause (s : State) (r c : Nat) : State :=
  let x := s.region r
  if x.state = 3 ∧ bit x.causes c then
    let cs := x.causes &&& ~~~(BitVec.twoPow 8 c)
    if cs = 0 then (s.setRegion r { x with causes := cs, resumeTick := some (s.now x.home + 1024) }).later .resumeTick { a := r }
    else s.setRegion r { x with causes := cs }
  else s

/-- Bytes of the instruction in the slot: 4, or 8 for a pair (R67). -/
def Slot.size (l : Slot) : Nat := if l.pair then 8 else 4

/-- The trap record of a condition at the instruction in the slot (R117). -/
def Ctx.record (x : Ctx) (l : Slot) (epc : Word) (code : Nat) (tval : Word) : Ctx :=
  { x with
    tepc := epc
    tcause := BitVec.ofNat 64 (code % 256 + (if l.pair then 256 else 0))
    tval := tval
    tword := (if l.pair then l.word2 else 0#32) ++ l.word
    tstat := if x.mon then 1 else 0 }

/-- A framed instruction that traps suspends its frame (R176, R182). -/
def Ctx.suspend (x : Ctx) : Ctx :=
  match x.frame.state with
  | .run => { x with frame := { x.frame with state := .suspended } }
  | _ => x

/-- A follower that traps is detached (R367, R369); the words on its lane go by it. -/
def Tile.detach (x : Tile) : Tile :=
  if x.train.state = 3 then { x with train := { x.train with state := 4 } } else x

/-- Halt a tile: every live or fault-wait context is halted (R120). -/
def Tile.halt (x : Tile) : Tile :=
  { x with
    halted := true
    ctxs := x.ctxs.map (fun e => (e.1, if e.2.state = .live ∨ e.2.state = .faultWait then { e.2 with state := .halted } else e.2)) }

/-- TAKING AN EXCEPTION. In user mode trap entry (R118): the record is written, the mode becomes monitor and the pc MTVEC.
In monitor mode the tile halts, a monitor-fault event goes out and the region gains the monitor-fault cause (R120, R404). -/
def State.takeTrapAt (s : State) (epc : Word) (code : Nat) (tval : Word) : State :=
  let t := s.slot.site
  let c := s.slot.ctx
  let x := s.ctx t c
  let y := (if s.slot.framed then x.suspend else x).record s.slot epc code tval
  if x.mon then
    let s := s.updTile t (fun z => (z.setCtx c y).halt)
    let s := s.tileEvent t 0x40 0 0 0 (BitVec.ofNat 64 (code % 256 + (if s.slot.pair then 256 else 0) + 4096 * c)) epc
    s.addCause (s.tile t).region 3
  else
    let z := { y with mon := true, pc := (s.tile t).mtvec, state := .live, stepDue := false, yielded := false,
                      mgs := [] }
    s.updTile t (fun w => let w := w.setCtx c z; if c = 0 then w.detach else w)

/-- Trap at the instruction in the slot, with the notice that goes beside it (R446). -/
def State.takeTrap (s : State) (code : Nat) (tval : Word) : State := (s.notice code tval).takeTrapAt s.slot.addr code tval

/-- Trap as an outcome: taking it is the next state. -/
def trap (s : State) (code : Nat) (tval : Word) : Out := .next (s.takeTrap code tval)

/-- Not ready: nothing happens, the context is passed over (R62, R113). -/
def stall (s : State) : Out := .next { s with slot := { s.slot with stalled := true } }

/-- The step is about an instruction of a context at an address. -/
def State.atSlot (s : State) (t c : Nat) (a : Word) (w : BitVec 32) : State :=
  { s with slot := { site := t, ctx := c, addr := a, word := w } }

/-- An event that cannot happen yet: the step is put back (log entry 3). -/
def notYet (s : State) : Out := .next { s with slot := { s.slot with stalled := true } }

/-! ### The end of an instruction -/

/-- Two words of a body form a pair when the first is a modifier (R67). -/
def isModifier (w : BitVec 32) : Bool := cut w 26 6 == 0x3E#6

/-- The word is a tmark (R69). -/
def isTmark (w : BitVec 32) : Bool := cut w 26 6 == 0x1C#6 && cut w 0 6 == 3#6

/-- A leader's word goes down the lane of every attached follower (R361), or detached member (R362). -/
def State.forwardWord (s : State) (t : Nat) (a : Word) (w w2 : BitVec 32) : State :=
  let x := s.tile t
  (List.range x.train.n).foldl (fun s d =>
    if d = 0 then s
    else match s.place x.region (x.train.c0 + d) x.row with
      | .site u =>
        let y := (s.tile u).train
        if 3 ≤ y.state ∧ y.c0 = x.train.c0 then
          let s := s.updTile u (fun y => { y with train := { y.train with lane := y.train.lane ++ [(a, w, w2)] } })
          if isTmark w then s.later .trainMarker { a := u, b := fld w 8 6 } else s.later .trainStreamWord { a := u }
        else s
      | _ => s) (s.updTile t (fun y => { y with train := { y.train with step := y.train.step + 1 } }))

/-- Forward the issued instruction to every other position of the leader's train (R361, R373, R376): members that are not
attached let it go by. -/
def State.forward (s : State) : State :=
  let t := s.slot.site
  if (s.tile t).train.state = 2 ∧ s.slot.ctx = 0 ∧ !(s.ctx t 0).mon then
    s.forwardWord t s.slot.addr s.slot.word (if s.slot.pair then s.slot.word2 else 0)
  else s

/-- The frame after the instruction at its position (R176): next position, next pass, or done. -/
def Frame.advance (f : Frame) (words : Nat) : Frame :=
  if f.pos + words < f.len then { f with pos := f.pos + words }
  else if f.pass + 1 < f.count then { f with pass := f.pass + 1, pos := 0 }
  else { f with state := .idle, pos := 0, pass := 0 }

/-- Where a context goes on after the instruction in the slot: inside a frame the frame decides (R176). -/
def Ctx.step (x : Ctx) (l : Slot) (npc : Word) : Ctx :=
  let x :=
    if l.framed then
      let f := x.frame.advance (l.size / 4)
      { x with frame := f,
               pc := match f.state with
                 | .run => f.base + BitVec.ofNat 64 (4 * f.pos)
                 | _ => f.base + BitVec.ofNat 64 (4 * f.len) }
    else { x with pc := npc }
  -- translations found for this instruction alone go with it (R256)
  -- a fence holds back the one instruction after it (R221)
  let x := { x with once := [], xlate := .none, probed := none, waitAt := none, fence := 0 }
  -- single-step: the trap is due before the next instruction (R449); SKIP exempts one instruction (R447)
  if x.mon then x
  else if x.skip then { x with skip := false, dbgctl := x.dbgctl &&& ~~~(0x40#64) }
  else if bit x.dbgctl 0 then { x with stepDue := true } else x

/-- The context goes on at `npc`; the leader's single-step falls due (R449), unless SKIP exempts the instruction (R447). -/
def State.goOn (s : State) (npc : Word) : State :=
  let y := s.cur
  let s := s.updCur (fun x => x.step s.slot npc)
  -- train single-step at the leader
  if s.curTile.train.state = 2 ∧ s.slot.ctx = 0 ∧ bit y.dbgctl 1 ∧ !y.mon ∧ !y.skip then s.updCur (fun y => { y with stepDue := true }) else s

/-- The instruction has issued and the context goes on at `npc`; a leader forwards the word (R361). -/
def State.finish (s : State) (npc : Word) : State := s.forward.goOn npc

/-- Address of the word after the instruction. -/
def State.nextAddr (s : State) : Word := s.slot.addr + BitVec.ofNat 64 s.slot.size

/-- The instruction has issued and the context goes on at the next word. -/
def State.retire (s : State) : State := s.finish s.nextAddr

/-- A position of a body is an instruction boundary: it is not the second word of a pair, the pairs being counted from the first word
(R67, R182). -/
def bodyBoundary : List (BitVec 32) → Nat → Bool
  | _, 0 => true
  | [], _ => true
  | w :: [], n => !(isModifier w && n == 1)
  | w :: w' :: l, n + 1 => if isModifier w then (match n with | 0 => false | m + 1 => bodyBoundary l m) else bodyBoundary (w' :: l) n

/-- RETURN FROM AN EXCEPTION (R119, R182, R447): the mode of TSTAT.PM, the pc of TEPC; a suspended frame resumes where TEPC names
an instruction boundary of its body, or becomes idle; DBGCTL.SKIP arms. -/
def Ctx.returnFromTrap (x : Ctx) : Ctx :=
  -- in user mode every MG register is full (R116)
  let x := { x with mon := bit x.tstat 0, pc := x.tepc, skip := bit x.dbgctl 6, mgs := if bit x.tstat 0 then x.mgs else [] }
  match x.frame.state with
  | .suspended =>
    let off := (x.tepc - x.frame.base).toNat
    let p := off / 4
    -- an instruction boundary: inside the body, and not the second word of a pair
    if off % 4 = 0 ∧ p < x.frame.len ∧ bodyBoundary x.frame.words p then
      { x with frame := { x.frame with state := .run, pos := p } }
    else { x with frame := {} }
  | _ => x

/-! ### The start of a context (R127, R295, R389) -/

/-- A context as start and dispatch make it: registers zero and full, user mode, live (R127). The spec lists the registers that a start
clears and is silent on MG1 to MG7, MSCR0 to MSCR3 and the trap record: they are cleared too (DESIGN CHOICE, log entry 97). -/
def Ctx.fresh (pri : BitVec 2) (pc : Word) : Ctx := { state := .live, pri := pri, pc := pc }

/-- The own tile's SPM-window address of an offset (R208). -/
def Tile.addrOf (x : Tile) (off : Nat) : Word := BitVec.ofNat 64 (x.row * 2 ^ 29 + x.col * 2 ^ 21 + off)

/-- own(a): an SPM-window address with the tile's own column and row (R363). -/
def Tile.own (x : Tile) (a : Word) : Word :=
  if bit a 63 then a else BitVec.ofNat 64 (fld a 37 27 * 2 ^ 37 + x.row * 2 ^ 29 + x.col * 2 ^ 21 + fld a 0 21)

/-- The lowest-numbered free helper (R127), and the highest-numbered (R132). -/
def Tile.lowFree (x : Tile) : Option Nat := ((List.range 11).map (· + 1)).find? (fun c => (x.ctx c).state = .free)
def Tile.highFree (x : Tile) : Option Nat := ((List.range 11).map (fun i => 11 - i)).find? (fun c => (x.ctx c).state = .free)

/-- The hack has reached the tile: it is held, or, of a follower that has words of its leader left, everything but context 0 is (R122,
R378). -/
def Tile.stopping (x : Tile) : Bool := x.held || decide ((x.ctx 11).state = .held)

/-- A message at hand would be dispatched in this cycle if a helper is free (R295). -/
def Tile.canDispatch (x : Tile) : Bool :=
  !x.q.isSealed && !x.stopping && !x.halted && !x.exited && x.q.dispatchQ.any (fun i => i.kind != 2 && bit (fget 0 x.q.handlers i.hidx) 63)

/-- The helper that start takes: dispatch comes first, and takes the last one that is free (R127, R132). -/
def Tile.startFree (x : Tile) : Option Nat := if x.canDispatch && x.lowFree == x.highFree then none else x.lowFree

/-- One outstanding producer of a context completes; a draining context without any becomes free (R103). -/
def Ctx.paid (x : Ctx) : Ctx :=
  let x := { x with owed := x.owed - 1 }
  if x.state = .draining ∧ x.owed = 0 then { x with state := .free, frame := {} } else x

/-- One more producer is outstanding. -/
def Ctx.owes (x : Ctx) : Ctx := { x with owed := x.owed + 1 }

end Sys2Proof.Machine
end

