-- ==== Sys2Proof/Machine/Routes.lean ====
section
/-! DEFINITION. Where requests go on the wafer: edge ports and island attachments, the routes to them, the gates on a route and their
seals (R17, R20 to R22, R311, R317, R323 to R325, R430, R431). -/
namespace Sys2Proof.Machine

/-! ### Edge ports (R20 to R22, R321, R323 to R325) -/

/-- The logical boundary tile to whose router a port is attached (R20, R22). -/
def State.portTile (s : State) (p : Nat) : Nat × Nat :=
  let row (i : Nat) : Nat := i / 16 * 18 + i % 16 + 1
  if p < 192 then (p - s.westCut, 0)
  else if p < 288 then (s.meshW - 1, row (p - 192))
  else if p < 480 then (p - 288 - s.westCut, 107)
  else (0, row (p - 480))

/-- The field whose boundary tile carries a port. -/
def State.portField (s : State) (p : Nat) : Nat := s.fieldAt (s.portTile p).1 (s.portTile p).2

/-- The site of the boundary tile of a port. -/
def State.portSite (s : State) (p : Nat) : Nat := (s.siteAt (s.portTile p).1 (s.portTile p).2).getD 0

/-- The port does not exist on this wafer (R22). -/
def State.portAbsent (s : State) (p : Nat) : Bool :=
  let x := s.module.excluded
  decide (576 ≤ p) ||
  (x == 1 && (decide (p < 32 ∨ (288 ≤ p ∧ p < 320)) || decide (480 ≤ p))) ||
  (x == 2 && decide ((160 ≤ p ∧ p < 192) ∨ (192 ≤ p ∧ p < 288) ∨ (448 ≤ p ∧ p < 480)))

/-- STATE of PORTSTAT (R321). -/
def State.portState (s : State) (p : Nat) : Nat := if s.portAbsent p then 0 else (s.port p).state

/-- Fields of a physical address (R323). -/
def paGroup (pa : Nat) : Nat := pa / 2 ^ 38 % 128
def paWafer (pa : Nat) : Nat := pa / 2 ^ 45 % 16
def paPort (pa : Nat) : Nat := 8 * paGroup pa + pa / 64 % 8

/-- The physical address names a port of some wafer (R323). -/
def paNamesPort (pa : Nat) : Bool := decide (pa < 2 ^ 49 ∧ pa / 2 ^ 38 % 128 < 72)

/-- The port that takes a request: on the own wafer the port of the address, or its neighbour when it has failed (R323); towards
another wafer the link of the route table, where the request goes on under R323 (R325). None: no memory answers. -/
def State.servingPort (s : State) (pa : Nat) : Option Nat :=
  if !paNamesPort pa ∨ 192 * 2 ^ 30 ≤ pa % 2 ^ 38 then none
  else if paWafer pa = s.module.waferNo then
    if (s.group (paGroup pa)).role ≠ 1 then none
    else
      let p := paPort pa
      if s.portState p ≠ 5 then some p
      else
        let q := if p % 2 = 0 then p + 1 else p - 1
        if s.portState q ≠ 5 then some q else none
  else
    let l := fget [] s.module.routes (paWafer pa)
    l[pa / 64 % 256 % l.length]?

/-- A port can pass traffic: up or spared (R321). -/
def State.portUp (s : State) (p : Nat) : Bool := let st := s.portState p; st == 3 || st == 4

/-- Slots of a port that a region may use (R324). -/
def Port.mayUse (x : Port) (r j : Nat) : Bool := let n := fget 0 x.slots j; n == 0 || n == r

/-! ### Routes to tiles, ports and islands (R311) -/

/-- The attachment tile of an island for a source in a logical column (R17, R311): its gate stands at the two central clusters of the
field. The island of an excluded field column of a DCY1-L has no attachment tile in the mesh, and the spec does not say where it attaches:
here at logical column 0 for the west, and beyond the mesh, with site 0 for its gate, for the east (DESIGN CHOICE, log 115). -/
def State.islandTile (s : State) (i col : Nat) : Nat × Nat :=
  let c := i % 6 * 32 + 15
  ((if col + s.westCut ≤ c then c else c + 1) - s.westCut, i / 6 * 18 + 8)

/-- The ends of a route on the mesh, and whether it leaves it there through a port or an island gate. -/
structure Route where
  src : Nat × Nat := (0, 0)
  dst : Nat × Nat := (0, 0)
  leaves : Bool := false
deriving DecidableEq, Repr

/-- The route of what a site sends to a destination (R311). -/
def State.routeTo (s : State) (t : Nat) (d : Dst) : Route :=
  let a := s.waferAt t
  match d with
  | .tile u => { src := a, dst := s.waferAt u }
  | .edge pa => { src := a, dst := s.portTile ((s.servingPort pa).getD (paPort pa)), leaves := true }
  | .island i => { src := a, dst := s.islandTile i a.1, leaves := true }

/-- The crossings of a route: consecutive tiles in different clusters (R317). -/
def State.crossings (s : State) (p : Route) : List ((Nat × Nat) × (Nat × Nat)) :=
  let l := routeNames p.src.1 p.src.2 p.dst.1 p.dst.2
  (l.zip l.tail).filter (fun e => decide (s.clusterAt e.1 ≠ s.clusterAt e.2))

/-! ### Sealed crossings (R317, R429 to R431) -/

/-- Level and parent of a region, from its control block (R400, R401). -/
def Region.level (x : Region) : Nat := x.field 6 1
def Region.parent (x : Region) : Nat := x.field 4 2

/-- The level-1 region that a region belongs to (R400). -/
def State.levelOne (s : State) (r : Nat) : Nat :=
  let up (n : Nat) : Nat := if (s.region n).level ≤ 1 then n else (s.region n).parent
  up (up (up r))

/-- A cluster is covered by a confidential region: its gate holds the key of the region's level-1 region (R317, R429). -/
def State.covered (s : State) (r k : Nat) : Bool := (s.cluster k).gateKeys.contains (s.levelOne r)

/-- Traffic of a region on a route crosses a sealing gate (R317). -/
def State.seals (s : State) (r : Nat) (p : Route) : Bool :=
  (s.region r).conf && (s.crossings p).any (fun e => s.covered r (s.clusterAt e.1) || s.covered r (s.clusterAt e.2))

/-- The site of a logical place. -/
def State.gateSite (s : State) (p : Nat × Nat) : Nat := (s.siteAt p.1 p.2).getD 0

/-- Where a message of a region is opened on its way out: at each crossing into a covered cluster, and at the port or the island gate when
its cluster is not covered (R317). -/
def State.openings (s : State) (r : Nat) (p : Route) : List Nat :=
  if s.seals r p then
    ((s.crossings p).filter (fun e => s.covered r (s.clusterAt e.2))).map (fun e => s.gateSite e.2) ++
    (if p.leaves ∧ !s.covered r (s.clusterAt p.dst) then [s.gateSite p.dst] else [])
  else []

/-- Where a reply is opened on the reverse of the route. -/
def State.openingsBack (s : State) (r : Nat) (p : Route) : List Nat :=
  if s.seals r p then
    (((s.crossings p).filter (fun e => s.covered r (s.clusterAt e.1))).map (fun e => s.gateSite e.1)).reverse
  else []

/-- The gate, if any, at which a tag does not verify: at one of those that open the message, which one being open (R431, log entry 8). -/
def State.sealMiss (s : State) (gates : List Nat) : Option Nat :=
  if gates.isEmpty || Config.sealOk s.draws then none else gates[Config.pick s.draws % gates.length]?

/-- The physical address names no port of any wafer: the source answers the request itself, which does not enter the mesh (R323). -/
def Dst.offMesh (d : Dst) : Bool :=
  match d with
  | .edge pa => !paNamesPort pa
  | _ => false

/-- The tag of what a tile sends to a destination does not verify at this gate. -/
def State.sealHit (s : State) (t : Nat) (d : Dst) : Option Nat :=
  if d.offMesh then none else s.sealMiss (s.openings (s.tile t).region (s.routeTo t d))

/-- The tag of what comes back to a tile from a destination does not verify at this gate. -/
def State.sealHitBack (s : State) (t : Nat) (d : Dst) : Option Nat :=
  if d.offMesh then none else s.sealMiss (s.openingsBack (s.tile t).region (s.routeTo t d))

/-- What a tile sends to a destination, or is sent from there, crosses a sealing gate. -/
def State.sealedWay (s : State) (t : Nat) (d : Dst) : Bool := !d.offMesh && s.seals (s.tile t).region (s.routeTo t d)

/-- A site's seal counter grows by one, and stays at 2^64 − 1, where the site is reported as degraded (R430). -/
def State.takeSeq (s : State) (u : Nat) : State :=
  let c := (s.site u).sealCtr + 1
  if (s.site u).sealCtr = BitVec.allOnes 64 then s
  else
    let s := s.setSite u { s.site u with sealCtr := c }
    if c = BitVec.allOnes 64 then s.degrade u else s

/-- A site whose seal counter has reached 2^64 − 1 injects no further message on a sealed route (R430). -/
def State.sealSpent (s : State) (t : Nat) (d : Dst) : Bool := (s.site t).sealCtr == BitVec.allOnes 64 && s.sealedWay t d

/-- The site whose counter numbers what a destination sends back: the tile's own, that of the port's boundary site, or of the island's
attachment site (R430). -/
def State.backSite (s : State) (t : Nat) (d : Dst) : Nat :=
  match d with
  | .tile u => u
  | d => s.gateSite (s.routeTo t d).dst

/-- What goes on a sealed route takes the counter of the site that seals it first. -/
def State.numberOut (s : State) (t : Nat) (d : Dst) : State := if s.sealedWay t d then s.takeSeq t else s
def State.numberBack (s : State) (t : Nat) (d : Dst) : State := if s.sealedWay t d then s.takeSeq (s.backSite t d) else s

end Sys2Proof.Machine
end

