-- ==== Sys2Proof/Machine/Net.lean ====
section
/-! DEFINITION. Addresses and their checks, translations a tile holds, retention entries, and the sending of messages. -/
namespace Sys2Proof.Machine

/-! ### Addresses (R208, R209) -/

/-- Where a checked address lies. -/
inductive Loc where
  /-- the own slice, at an offset -/
  | loc (off : Nat)
  /-- another tile's slice -/
  | rem (site off : Nat)
  /-- edge memory, at a virtual address -/
  | edge (va : Nat)
deriving DecidableEq, Repr

/-- The fields of an SPM-window address (R208). -/
def addrOff (a : Word) : Nat := fld a 0 21
def addrCol (a : Word) : Nat := fld a 21 8
def addrRow (a : Word) : Nat := fld a 29 8

/-- R209 items 2 to 6 for `size` bytes at an address; `mon` is the mode. -/
def State.checkForm (s : State) (t : Nat) (mon : Bool) (a : Word) (size : Nat) : Except Nat Loc :=
  if bit a 63 then
    if fld a 56 7 ≠ 0 then .error 0x11 else .ok (.edge (fld a 0 56))
  else if fld a 37 26 ≠ 0 then .error 0x11
  else
    let d := s.dims t
    if d.1 ≤ addrCol a ∨ d.2 ≤ addrRow a then .error 0x11
    else if 0x180000 < addrOff a + size then .error 0x12
    else
      let x := s.tile t
      let here := decide (x.region = 0 ∨ (addrCol a = x.col ∧ addrRow a = x.row))
      if 0x170000 < addrOff a + size ∧ (!mon ∨ !here) then .error 0x13
      else if here then .ok (.loc (addrOff a))
      else match s.placeFrom t (addrCol a) (addrRow a) with
        | .site u => .ok (.rem u (addrOff a))
        | .hole => .error 0x14
        | .outside => .error 0x11

/-- The address conditions of an access in their order (R209): alignment to `align` first. -/
def State.checkAddr (s : State) (t : Nat) (mon : Bool) (a : Word) (align size : Nat) : Except Nat Loc :=
  if a.toNat % align ≠ 0 then .error 0x10 else s.checkForm t mon a size

/-- A watchpoint of a user-mode context covers the access (R448): `rd` and `wr` are the kinds of the access. -/
def Ctx.watched (x : Ctx) (a : Word) (size : Nat) (rd wr : Bool) : Bool :=
  let hit (wp : Word) (len kind : Nat) : Bool :=
    let n := 2 ^ (if len = 7 then 6 else len)
    let lo := wp.toNat / n * n
    ((rd && kind % 2 == 1) || (wr && kind / 2 == 1)) && decide (a.toNat < lo + n ∧ lo < a.toNat + size)
  !x.mon && !x.skip &&
  ((bit x.dbgctl 4 && hit x.wpa0 (fld x.wpcfg 0 3) (fld x.wpcfg 3 2)) ||
   (bit x.dbgctl 5 && hit x.wpa1 (fld x.wpcfg 8 3) (fld x.wpcfg 11 2)))

/-! ### Translations a tile holds (R253 to R257) -/

/-- The entry covers a virtual address. -/
def Tlb.covers (e : Tlb) (va : Nat) : Bool := decide (e.va ≤ va ∧ va < e.va + 2 ^ e.lg)

/-- The entry permits an access kind: 0 read, 1 write, 2 atomic, 3 fetch (R253). -/
def Tlb.permits (e : Tlb) (kind : Nat) : Bool :=
  if kind = 0 then e.r else if kind = 1 then e.w else if kind = 2 then e.r && e.w else e.x

/-- The physical address of a virtual address the entry covers. -/
def Tlb.phys (e : Tlb) (va : Nat) : Nat := e.pa + (va - e.va)

/-- Look a structure up: the first entry of the region that covers the address, has not expired and permits the access. -/
def tlbFind (l : List Tlb) (r now va kind : Nat) : Option Tlb :=
  l.find? (fun e => e.region == r && e.covers va && decide (now < e.deadline) && e.permits kind)

/-- Put an entry first, drop those it replaces, and keep at most `n` (least recently used out, R255). -/
def tlbPut (n : Nat) (e : Tlb) (l : List Tlb) : List Tlb :=
  (e :: l.filter (fun x => !(x.region == e.region && x.va == e.va && x.lg == e.lg))).take n

/-- The translation of a data access of a context: the DTLB, or what its walk found for this instruction only (R256). -/
def State.xlateData (s : State) (t c va kind : Nat) : Option Tlb :=
  let x := s.tile t
  match tlbFind x.dtlb x.region (s.nowAt t) va kind with
  | some e => some e
  | none => (s.ctx t c).once.find? (fun e => e.covers va && e.permits kind)

/-- A use of a DTLB entry makes it the most recent (R255). -/
def State.touchData (s : State) (t : Nat) (e : Tlb) : State :=
  s.updTile t (fun x => if x.dtlb.contains e then { x with dtlb := tlbPut 32 e x.dtlb } else x)

/-- Ask for a translation: a lookup in the L2 TLB is due (R255). -/
def State.askXlate (s : State) (t c va kind : Nat) : State :=
  if (s.ctx t c).xlate = .asked va kind then s
  else (s.updCtx t c (fun x => { x with xlate := .asked va kind })).later .l2TlbLookup { a := t, b := c }

/-! ### Retention entries (R287, R326) -/

/-- The entry is a load, which the retention buffer does not count (R287): the model keeps it beside the others. -/
def Body.isLoad : Body → Bool
  | .load _ _ => true
  | _ => false

/-- The request is one of the transfer engine's or the streamer's, which hold an entry each (R326). -/
def Sink.isEngine : Sink → Bool
  | .xfer _ _ _ => true
  | .strm _ _ => true
  | _ => false

/-- The entry is a go or an abort of a stream, which no one acknowledges (R337, R339): the model keeps it beside the others until it
arrives. -/
def Body.isSignal : Body → Bool
  | .streamGo _ _ _ _ => true
  | .streamAbort _ _ _ _ _ => true
  | _ => false

/-- The entry takes a place of the buffer: it holds a message, a store or an atomic that has been injected or is held back (R287). -/
def Ret.counted (e : Ret) : Bool := decide (e.state ≠ .formed) && !e.body.isSignal && (!e.body.isLoad || e.sink.isEngine)

/-- Retention entries in use: messages, stores and atomics, transfer commands, stream ends (R287, R326). -/
def Tile.retUsed (x : Tile) : Nat :=
  (x.q.ret.filter Ret.counted).length + x.xfer.length + ((List.range 4).filter (fun n => (x.stream n).state ≠ 0)).length

/-- Retention entries free of the 128. -/
def Tile.retFree (x : Tile) : Nat := 128 - x.retUsed

/-- The entry of a name. -/
def State.entry (s : State) (t id : Nat) : Option Ret := (s.tile t).q.ret.find? (fun e => e.id == id)

/-- Replace the entry of a name. -/
def State.setEntry (s : State) (t : Nat) (e : Ret) : State :=
  s.updTile t (fun x => x.updQ (fun q => { q with ret := q.ret.map (fun y => if y.id = e.id then e else y) }))

/-- Free the entry of a name. -/
def State.freeEntry (s : State) (t id : Nat) : State :=
  s.updTile t (fun x => x.updQ (fun q => { q with ret := q.ret.filter (fun y => y.id != id) }))

/-- The request is a store or an atomic, which a release waits for (R221). -/
def Body.isWrite : Body → Bool
  | .store _ _ _ => true
  | .row _ _ _ => true
  | .atomic _ _ _ _ _ => true
  | _ => false

/-- The request is a queue message (R284). -/
def Body.isMsg : Body → Bool
  | .msg _ _ => true
  | _ => false

/-- The entry holds a write of a context that a release waits for (R221, R232): a store, an atomic, or a message it has sent; what a
triggered send sends is no write of the context's (log entry 94). -/
def Ret.isWriteOf (e : Ret) (c : Nat) : Bool := e.ctx == c && (e.body.isWrite || (e.body.isMsg && e.mark == 0))

/-- A command that a context has claimed before a mark and that is not complete: its accesses come before what follows the pop (R235). -/
def Tile.claimOpen (x : Tile) (c mark : Nat) : Bool :=
  x.mx.fifo.any (fun e => e.claimed && e.claimCtx == c && decide (e.claimAt < mark)) ||
  x.xfer.any (fun e => e.claimed && e.claimCtx == c && decide (e.claimAt < mark))

/-- A read of a context that is not performed yet and that its last receipt, an acquire, puts before what it does now (R232, R236, R237);
an .inv load forms no edge (R244). -/
def Ret.readBefore (e : Ret) (c mark : Nat) : Bool :=
  e.ctx == c && decide (e.id < mark) && decide (e.state ≠ .done) && decide (e.state ≠ .waits) &&
  (match e.body, e.sink with
   | .atomic _ _ _ _ _, _ => true
   | .load _ _, .greg _ _ _ _ _ => true
   | .load _ _, .vec _ _ inv _ => !inv
   | _, _ => false)

/-- The next access of a context waits: every access of a command it has claimed comes before every instruction after the pop (R235), and
its reads before a receipt come before every access after it (R236). -/
def Tile.accessHeld (x : Tile) (c : Nat) : Bool :=
  x.mx.fifo.any (fun e => e.claimed && e.claimCtx == c) || x.xfer.any (fun e => e.claimed && e.claimCtx == c) ||
  x.q.ret.any (fun e => e.readBefore c (x.ctx c).acquired)

/-- The next access of the context in the slot waits (R235, R236). -/
def State.accessHeld (s : State) : Bool := s.curTile.accessHeld s.slot.ctx

/-- A context has received something: what it does from now on comes after its reads before (R236, R237). -/
def State.acquire (s : State) (t c : Nat) : State := s.updCtx t c (fun x => { x with acquired := s.nextId })

/-- Every write of a context is acknowledged, and every command it has claimed is complete (R221, R232, R235). -/
def Tile.quiet (x : Tile) (c : Nat) : Bool :=
  !x.q.ret.any (fun e => e.isWriteOf c) && !x.mx.fifo.any (fun e => e.claimed && e.claimCtx == c) && !x.xfer.any (fun e => e.claimed && e.claimCtx == c)

/-- The writes of a context that were named before a mark are acknowledged, and the commands it claimed before are complete (R221,
R232, R235 to R237). -/
def Tile.released (x : Tile) (c mark : Nat) : Bool :=
  !x.q.ret.any (fun e => e.isWriteOf c && decide (e.id < mark)) && !x.claimOpen c mark

/-- The destination may refuse the message, and the source then holds those behind it (R288, R339, R354). -/
def Body.isQueued : Body → Bool
  | .msg _ _ => true
  | .digest _ _ _ _ => true
  | .barv _ _ => true
  | .coll _ _ _ _ _ _ => true
  | _ => false

/-- The virtual address of an edge request. -/
def Body.va (b : Body) : Nat :=
  match b with
  | .load a _ => fld a 0 56
  | .store a _ _ => fld a 0 56
  | .row a _ _ => fld a 0 56
  | .atomic a _ _ _ _ => fld a 0 56
  | _ => 0

/-- Two entries have one destination (R288): messages of a region to its home island go wherever that is now (R410). -/
def Dst.same (a b : Dst) : Bool :=
  match a, b with
  | .island _, .island _ => true
  | a, b => decide (a = b)

/-- Virtual channel of an entry's request (R314). -/
def Body.vc : Body → Nat
  | .load _ _ => 0 | .store _ _ _ => 0 | .row _ _ _ => 0 | .atomic _ _ _ _ _ => 0
  | .msg h _ => if fld h 101 3 = 3 then 6 else 2
  | .seg _ _ _ => 3 | .xread _ _ => 3
  | .barv _ _ => 5 | .coll _ _ _ _ _ _ => 5 | .kq _ => 6 | .digest _ _ _ _ => 4 | .elems _ _ _ _ => 4
  | .streamGo _ _ _ _ => 4 | .streamAbort _ _ _ _ _ => 4

/-- Nothing that a site sent on VC6 before this name awaits acceptance (R289, R313): HOST messages, launch requests, events, posted
faults. -/
def State.vc6Turn (s : State) (t id : Nat) : Bool :=
  !(s.tile t).q.ret.any (fun e => e.body.vc == 6 && decide (e.state ≠ .done) && decide (e.id < id)) &&
  !s.events.any (fun e => e.src == some t && decide (e.seq < id)) && !s.posted.any (fun e => e.site == t && decide (e.seq < id))

/-- The step that brings an entry to its destination. -/
def Ret.arrival (e : Ret) : Instr :=
  match e.body, e.dst with
  | .load _ _, .edge _ => .edgePortArrival
  | .store _ _ _, .edge _ => .edgePortArrival
  | .row _ _ _, .edge _ => .edgePortArrival
  | .atomic _ _ _ _ _, .edge _ => .edgePortArrival
  | .load _ _, _ => .remoteRequest
  | .store _ _ _, _ => .remoteRequest
  | .row _ _ _, _ => .remoteRequest
  | .atomic _ _ _ _ _, _ => .remoteRequest
  | .msg h _, _ => let k := fld h 101 3; if k = 0 then .portMessage else if k = 1 then .putMessage else if k = 2 then .amMessage else .hostMessage
  | .seg _ _ _, _ => .transferSegment
  | .xread _ _, _ => .transferReadRequest
  | .barv _ _, _ => .barvMessage
  | .coll up _ _ _ _ _, _ => if up then .collContribution else .collResult
  | .kq _, _ => .kqRequest
  | .digest _ _ _ _, _ => .streamDigest
  | .streamGo _ _ _ _, _ => .streamGo
  | .streamAbort _ _ _ _ _, _ => .streamAbort
  | .elems _ _ _ _, _ => .streamMessage

/-- The step that brings the reply or the acknowledgement of an entry back to its source (R216, R288, R329, R340). -/
def Ret.back (e : Ret) (t : Nat) : Instr × EvArgs :=
  let e1 : EvArgs := { a := t, b := e.id }
  match e.body, e.sink with
  | .load _ _, .strm n _ => (.streamLineReply, { a := t, b := n })
  | .load _ _, .xfer _ _ _ => (.transferSegment, { a := t })
  | .xread _ _, _ => (.transferSegment, { a := t })
  | .load _ _, _ => (.remoteReply, e1)
  | .atomic _ _ _ _ _, _ => (.remoteReply, e1)
  | .kq _, _ => (.remoteReply, e1)
  | _, _ => (.acknowledgement, e1)

/-- Something goes back to a tile from a destination: it takes the counter of the site that seals it first, and one whose counter is spent
sends nothing more on a sealed route (R430). -/
def State.sendBack (s : State) (t : Nat) (d : Dst) (i : Instr) (a : EvArgs) : State :=
  if (s.site (s.backSite t d)).sealCtr = BitVec.allOnes 64 ∧ s.sealedWay t d then s else (s.numberBack t d).later i a

/-- The reply or the acknowledgement of an entry is on its way back. -/
def State.answer (s : State) (t : Nat) (e : Ret) : State :=
  -- the answering tile injects one flit, two for a line (R227, R440)
  let n := match e.body with | .load _ 64 => 2 | _ => 1
  let s := match e.dst with
    | .tile u => s.updTile u (fun x => { x with counts := fset 0 x.counts 9 (fget 0 x.counts 9 + n) })
    | _ => s
  let p := e.back t
  s.sendBack t e.dst p.1 p.2

/-- Flits of an entry's request (R286, R314): a request of at most 48 payload bytes is one flit. -/
def Ret.flits (e : Ret) : Nat :=
  let pay := match e.body with
    | .msg _ p => 8 * p.length
    | .store _ n _ => n
    | .row _ _ _ => 64
    | .seg _ n _ => n
    | .elems _ d _ _ => 8 * d.length
    | .kq _ => 64
    | _ => 0
  1 + (pay - 48 + 63) / 64

/-- What follows this entry on its VC to its destination is held behind it (R288, R289): it has been refused and is not yet
acknowledged, or it has not been injected. -/
def Ret.blocks (e : Ret) : Bool := e.again || decide (e.state = .refused) || decide (e.state = .held) || decide (e.state = .formed)

/-- An earlier message of the same VC to the same destination is refused or held back (R288). -/
def blockedIn (l : List Ret) (vc : Nat) (d : Dst) : Bool := l.any (fun e => e.body.vc == vc && e.dst.same d && e.blocks)
def Queues.blockedBehind (q : Queues) (vc : Nat) (d : Dst) : Bool := blockedIn q.ret vc d

/-- The entries before one of a name, in order of injection. -/
def Queues.before (q : Queues) (id : Nat) : List Ret := q.ret.takeWhile (fun y => y.id != id)

/-- The send stamp of what a tile injects now (R278). -/
def State.stampAt (s : State) (t : Nat) : Word := BitVec.ofNat 64 (Nat.max (s.nowAt t) (s.tile t).q.tsr.toNat)

/-- Put an entry of the buffer on its way (R278, R288): it gets its send stamp; its flits are counted, and a message on a sealed route
takes the site's seal counter, which must not be spent (R430). What is for the home island goes to the one that is home now (R410). A
request whose address names no port does not enter the mesh: its source answers it (R323). -/
def State.launch (s : State) (t : Nat) (e : Ret) : State :=
  let e := match e.dst with
    | .island _ => { e with dst := .island (s.homeOf t) }
    | _ => e
  if s.sealSpent t e.dst then s.setEntry t { e with state := .held }
  else
  let stamp := s.stampAt t
  let body := match e.body with
    | .msg h p => .msg ((h.extractLsb' 64 64) ++ stamp) p
    | b => b
  let e' := { e with stamp := stamp, body := body, state := .flying, sealSeq := if s.sealedWay t e.dst then (s.site t).sealCtr else e.sealSeq }
  let n := if e.dst.offMesh then 0 else e.flits
  let s := (s.setEntry t e').updTile t (fun x => { x with counts := fset 0 x.counts 9 (fget 0 x.counts 9 + n) })
  (s.numberOut t e.dst).later e'.arrival { a := t, b := e.id }

/-- An entry joins the buffer. -/
def State.keep (s : State) (t : Nat) (e : Ret) : State := s.updTile t (fun x => x.updQ (fun q => { q with ret := q.ret ++ [e] }))

/-- Inject an entry: behind a refused message, or one not yet injected, it is held (R288, R289). -/
def State.inject (s : State) (t : Nat) (e : Ret) : State :=
  if e.body.isQueued && (s.tile t).q.blockedBehind e.body.vc e.dst then s.keep t { e with state := .held }
  else (s.keep t e).launch t e

/-- An entry that waits may go: its tile is not held, its release has happened, a place is free for it, and nothing it follows is
still held back (R289, R300, R307, R353, R354). -/
def State.mayGo (s : State) (t : Nat) (e : Ret) : Bool :=
  let x := s.tile t
  !x.stopping && x.released e.ctx e.mark && !(decide (e.state = .formed) && decide (x.retFree = 0)) &&
    !blockedIn (x.q.before e.id) e.body.vc e.dst

/-- Inject, in their order, the held messages of a VC to a destination that may go (R288, R289). -/
def State.releaseHeld (s : State) (t vc : Nat) (d : Dst) : State :=
  (s.tile t).q.ret.foldl (fun s e =>
    if e.body.isQueued && e.body.vc == vc && e.dst.same d && decide (e.state = .held) && s.mayGo t e then s.launch t e else s) s

/-- An entry that waits goes, and those held behind it with it. -/
def State.release (s : State) (t : Nat) (e : Ret) : State := (s.launch t e).releaseHeld t e.body.vc e.dst

/-- A fresh name. -/
def State.fresh (s : State) : Nat × State := (s.nextId, { s with nextId := s.nextId + 1 })

/-- The next message of a tile as an entry (R284, R303): the header word H with the source filled in. -/
def State.msgEntry (s : State) (t c : Nat) (h : Word) (payload : List Word) (dst : Dst) (drow dcol : Nat) : Ret :=
  let x := s.tile t
  let hw := BitVec.ofNat 64 (fld h 32 32 * 2 ^ 32 + x.row * 2 ^ 24 + x.col * 2 ^ 16 + drow * 2 ^ 8 + dcol)
  { id := s.nextId, ctx := c, body := .msg (hw ++ (0#64)) payload, dst := dst }

/-- Send a message of a tile. -/
def State.sendMsg (s : State) (t c : Nat) (h : Word) (payload : List Word) (dst : Dst) (drow dcol : Nat) : State :=
  s.fresh.2.inject t (s.msgEntry t c h payload dst drow dcol)

/-- DMAX takes in the deadline of an edge request (R418). -/
def State.noteDeadline (s : State) (t d : Nat) : State := s.updTile t (fun x => { x with dmax := Nat.max x.dmax d })

/-- Entry `y`, which comes earlier, is a request of the same context to the same tile or the same edge line, by its physical or its virtual
address, and is not yet performed: `e` is performed after it (R226, R239). -/
def Ret.follows (e y : Ret) : Bool :=
  y.ctx == e.ctx && y.body.vc == e.body.vc && y.sink.isEngine == e.sink.isEngine && decide (y.state ≠ .done) &&
  (match e.dst, y.dst with
   | .tile u, .tile v => u == v
   | .edge p, .edge q => p / 64 == q / 64 || e.body.va / 64 == y.body.va / 64
   | _, _ => false)

/-- Nothing earlier holds a request back (R226, R239). -/
def Queues.inTurn (q : Queues) (e : Ret) : Bool := !(q.before e.id).any e.follows

/-- The deadline a request carries: that of its translation, but one with the earlier requests of its context to its line (R258). -/
def Queues.lineDeadline (q : Queues) (e : Ret) (d : Nat) : Nat := (q.ret.filter e.follows).foldl (fun d y => Nat.min d y.deadline) d

/-- A remote or edge request of a context (R216, R258): a retention entry, injected. -/
def State.request (s : State) (t c : Nat) (b : Body) (k : Sink) (d : Dst) (x : Option Tlb) : Nat × State :=
  let (id, s) := s.fresh
  let e : Ret := { id := id, ctx := c, body := b, sink := k, dst := d }
  match x with
  | none => (id, s.inject t e)
  | some tl =>
    let dl := (s.tile t).q.lineDeadline e tl.deadline
    (id, (s.inject t { e with deadline := dl, expiry := tl.deadline, kid := tl.kid, sealedFrame := tl.s, mirrored := tl.m }).noteDeadline t dl)

/-! ### Ports (R58, R291 to R293, R364) -/

def Queues.cfg (q : Queues) (p : Nat) : Word := fget 0 q.portcfg p
def Queues.inq? (q : Queues) (p : Nat) : List PElem := fget [] q.inq p
def cfgV (w : Word) : Bool := bit w 31
def cfgVc (w : Word) : Nat := fld w 16 3
def cfgNel (w : Word) : Nat := fld w 32 5
def cfgTag (w : Word) : Nat := fld w 40 8

/-- The east neighbour of a tile, if it lies in the region and has an input bound to VC7: its site and port (R364). -/
def State.eastSink (s : State) (t : Nat) : Option (Nat × Nat) :=
  let x := s.tile t
  match s.placeFrom t (x.col + 1) x.row with
  | .site u =>
    if u = t then none
    else match (List.range 4).find? (fun p => let w := (s.tile u).q.cfg p; cfgV w && cfgVc w == 7) with
      | some p => some (u, p)
      | none => none
  | _ => none

/-- A push to an output port would find room (R58, R293, R364); places reserved for loads in flight count (R215). -/
def State.pushReady (s : State) (t p : Nat) : Bool :=
  let x := s.tile t
  let w := x.q.cfg p
  let n := (fget [] x.q.gathered p).length
  if cfgVc w = 7 then
    match s.eastSink t with
    | some (u, q) => decide (((s.tile u).q.inq? q).length + (s.tile u).train.wire.length + n < 16)
    | none => true
  else decide (n + 1 < cfgNel w) || (decide (n + 1 = cfgNel w) && decide (0 < x.retFree))

/-- Where a bound VC2 output port sends (R291). -/
def State.portDst (s : State) (t : Nat) (w : Word) : Option Nat :=
  match s.placeFrom t (fld w 0 8) (fld w 8 8) with
  | .site u => some u
  | _ => none

/-- Send a message that a port forms beside the issue of a send: on a tile that the hack has reached, or without a free entry, it keeps its
place in the order of R289 and goes as a fired send does (R287, R300, R307). -/
def State.formMsg (s : State) (t c : Nat) (h : Word) (payload : List Word) (dst : Dst) (drow dcol : Nat) : State :=
  let x := s.tile t
  if x.stopping ∨ x.retFree = 0 then
    let s1 := s.fresh.2.keep t { s.msgEntry t c h payload dst drow dcol with state := if x.retFree = 0 then .formed else .held }
    (s1.updTile t (fun x => x.updQ (fun q => { q with fired := q.fired ++ [(s.nextId, 1)] }))).later .triggeredSendInject { a := t }
  else s.sendMsg t c h payload dst drow dcol

/-- Send the first `n` gathered elements of an output port as one PORT message (R293, R304). -/
def State.flushPort (s : State) (t c p n : Nat) : State :=
  let x := s.tile t
  let w := x.q.cfg p
  let l := fget [] x.q.gathered p
  let s := s.updTile t (fun y => y.updQ (fun q => { q with gathered := fset [] q.gathered p (l.drop n) }))
  match s.portDst t w with
  | some u =>
    let h := BitVec.ofNat 64 (fld w 40 24 * 2 ^ 40 + n * 2 ^ 32)
    s.formMsg t c h ((l.take n).map (·.2)) (.tile u) (fld w 8 8) (fld w 0 8)
  | none => s

/-- The number of the stream instruction of a member at whose cycle what it pushes now becomes visible: the one that it executes, or the
one before its next for a push of a local instruction (R136, R361). -/
def State.pushStep (s : State) (t : Nat) : Option Nat :=
  let x := s.tile t
  let stream := decide (s.slot.site = t ∧ s.slot.ctx = 0) && (s.slot.train || (x.train.state == 2 && !(x.ctx 0).mon))
  if x.train.state ≠ 2 ∧ x.train.state ≠ 3 then none
  else if stream then some x.train.step
  else if x.train.step = 0 then none else some (x.train.step - 1)

/-- Send an element to the east neighbour on VC7, or discard and count it (R364). -/
def State.send7 (s : State) (t : Nat) (v : Word) : State :=
  match s.eastSink t with
  | some (u, _) =>
    let k := if (s.tile u).train.c0 = (s.tile t).train.c0 then s.pushStep t else none
    (s.updTile u (fun y => { y with train := { y.train with wire := y.train.wire ++ [(v, k)] } })).later .vc7Element { a := u }
  | none => s.updTile t (fun y => { y with train := { y.train with vdrop := y.train.vdrop + 1 } })

/-- The gathered elements of a port form messages while its first NEL places are filled; a VC7 port sends every element whose
predecessors have their values (R215, R293, R364). -/
def State.formPort (s : State) (t c p : Nat) : State :=
  let x := s.tile t
  let w := x.q.cfg p
  let l := fget [] x.q.gathered p
  let n := cfgNel w
  if cfgVc w = 7 then
    let ready := l.takeWhile (fun e => e.1 == 0)
    ready.foldl (fun s e => s.send7 t e.2) (s.updTile t (fun y => y.updQ (fun q => { q with gathered := fset [] q.gathered p (l.drop ready.length) })))
  else if 0 < n ∧ n ≤ l.length ∧ (l.take n).all (fun e => e.1 == 0) then s.flushPort t c p n else s

/-- Push a value to an output port (R58, R293, R364). -/
def State.push (s : State) (t c p : Nat) (v : Word) : State :=
  let x := s.tile t
  let w := x.q.cfg p
  -- behind a place reserved for a load in flight an element waits its turn (R215)
  if cfgVc w = 7 ∧ (fget [] x.q.gathered p).isEmpty then s.send7 t v
  else
    (s.updTile t (fun y => y.updQ (fun q => { q with gathered := fset [] q.gathered p (fget [] q.gathered p ++ [(0, v)]) }))).formPort t c p

/-- Reserve a place on an output port for a load in flight (R215). -/
def State.reservePush (s : State) (t p id : Nat) : State :=
  s.updTile t (fun y => y.updQ (fun q => { q with gathered := fset [] q.gathered p (fget [] q.gathered p ++ [(id, 0)]) }))

/-- Fill a reserved place (R215): reservations are filled in issue order. -/
def State.fillPush (s : State) (t c p id : Nat) (v : Word) : State :=
  let l := fget [] (s.tile t).q.gathered p
  (s.updTile t (fun y => y.updQ (fun q => { q with gathered := fset [] q.gathered p (l.map (fun e => if e.1 = id then (0, v) else e)) }))).formPort t c p

/-- The receive stamp of a message with send stamp ss at a tile (R278), and the tile with its TSR raised. -/
def State.receive (s : State) (t : Nat) (ss : Word) : Word × State :=
  let x := s.tile t
  let rs := BitVec.ofNat 64 (Nat.max (Nat.max x.q.tsr.toNat (s.nowAt t)) (ss.toNat + 1))
  (rs, s.updTile t (fun y => y.updQ (fun q => { q with tsr := rs })))

/-- An acknowledgement of a stream message is due at its source when its last element is popped (R340). -/
def State.popAck (s : State) (t : Nat) (e : PElem) : State :=
  match e.ack with
  | some (src, id) =>
    (s.updTile t (fun x => { x with counts := fset 0 x.counts 9 (fget 0 x.counts 9 + 1) })).sendBack src (.tile t) .acknowledgement
      { a := src, b := id, c := t }
  | none => s

/-- Pop one element of an input port for a context (R58, R278, R293): its slots are freed, stamps rise, and the receipt is an acquire
(R236). -/
def State.pop (s : State) (t c p : Nat) : State :=
  match (s.tile t).q.inq? p with
  | [] => s
  | e :: r =>
    let s := s.updTile t (fun y => y.updQ (fun q => { q with inq := fset [] q.inq p r, used := q.used - e.slots }))
    if e.stamped then
      let (rs, s) := s.receive t e.stamp
      ((s.updCtx t c (fun x => { x with rstamp := rs })).acquire t c).popAck t e
    else s

/-- Pop one element of an input port for the matrix unit (R198, R293): no context receives it, TSR rises. -/
def State.popUnit (s : State) (t p : Nat) : State :=
  match (s.tile t).q.inq? p with
  | [] => s
  | e :: r =>
    let s := s.updTile t (fun y => y.updQ (fun q => { q with inq := fset [] q.inq p r, used := q.used - e.slots }))
    if e.stamped then (s.receive t e.stamp).2.popAck t e else s

/-- The slot of the stream end that feeds a VC4 input port, when it is finished, failed or aborted (R341). -/
def Tile.endedSlot (x : Tile) (p : Nat) : Option Nat :=
  let w := x.q.cfg p
  if cfgV w && cfgVc w == 4 then
    (List.range 4).find? (fun n => let e := x.stream n; decide (3 ≤ e.state) && e.tag == cfgTag w && e.role == 1)
  else none

/-- The ended stream behind an empty VC4 input port (R341). -/
def Tile.endedStream (x : Tile) (p : Nat) : Option StreamEnd :=
  if (x.q.inq? p).isEmpty then (x.endedSlot p).map x.stream else none

/-- Another context's frame holds the port reserved (R178). -/
def Tile.portReserved (x : Tile) (p c : Nat) : Bool :=
  (List.range 12).any (fun k => k != c && (x.ctx k).frame.ppop && (x.ctx k).frame.port == p)

/-- Write a result of an instruction of a context to g register r: a push for an output port (R58, R136). -/
def State.writeG (s : State) (r : BitVec 6) (v : Word) : State :=
  if 60 ≤ r.toNat then s.push s.slot.site s.slot.ctx (r.toNat - 56) v
  else s.updCur (fun x => x.putG x.mon r.toNat v)

/-- Empty a destination at the issue of a long-latency producer (R61); an output port gets a reserved place (R215). -/
def State.emptyG (s : State) (r : BitVec 6) (id : Nat) : State :=
  if 60 ≤ r.toNat then (s.reservePush s.slot.site (r.toNat - 56) id).updCur Ctx.owes
  else s.updCur (fun x => (x.putState x.mon r.toNat .pending).owes)

/-- The result of a long-latency producer arrives (R61, R103): written unless its context is draining. -/
def State.arriveG (s : State) (t c r : Nat) (mon : Bool) (id : Nat) (v : Word) : State :=
  let s := if 60 ≤ r then s.fillPush t c (r - 56) id v
    else s.updCtx t c (fun x => if x.state = .draining then x else x.putG mon r v)
  s.updCtx t c Ctx.paid

/-- An error reply of a long-latency producer leaves its register empty with a mark (R217). A place reserved on an output port
is given up (log entry 25). -/
def State.markG (s : State) (t c r : Nat) (mon : Bool) (id : Nat) (code : BitVec 8) (a : Word) : State :=
  if 60 ≤ r then
    let p := r - 56
    let s := s.updTile t (fun y => y.updQ (fun q => { q with gathered := fset [] q.gathered p ((fget [] q.gathered p).filter (fun e => e.1 != id)) }))
    (s.formPort t c p).updCtx t c Ctx.paid
  else s.updCtx t c (fun x => ((if x.state = .draining then x else x.putState mon r (.marked code a)).paid))

end Sys2Proof.Machine
end

