-- ==== Sys2Proof/Machine/Operands.lean ====
section
/-! DEFINITION. Operand forms: what an instruction word needs before it may issue, the order of its conditions (R77), the
values of its sources with the pops they make, and the modifier prefix (R65). -/
namespace Sys2Proof.Machine

/-- What the modifier word in front of an instruction asks (R65, R66). -/
structure Modifier where
  /-- rnd field: 0 none, 1 to 5 the codes 0 to 4 of R33 -/
  rnd : Nat := 0
  scale : Int := 0
  absb : Bool := false
  absa : Bool := false
  negb : Bool := false
  nega : Bool := false
  clamp : Bool := false
  sat : Bool := false
deriving DecidableEq, Repr

/-- What a word names (R55 to R62). -/
structure Need where
  /-- the word is legal apart from its place (R76) -/
  wf : Bool := true
  /-- g sources in the order in which they pop; true for wait bit 1 -/
  srcs : List (BitVec 6 × Bool) := []
  vsrcs : List (BitVec 5) := []
  /-- g destinations -/
  dsts : List (BitVec 6) := []
  vdsts : List (BitVec 5) := []
  /-- a word of opcodes 0x20 to 0x27 (R60) -/
  vec : Bool := false
  /-- reserved to monitor mode (R70) -/
  priv : Bool := false
deriving DecidableEq, Repr

/-- The g register is an input port. -/
def inPort (r : BitVec 6) : Bool := decide (56 ≤ r.toNat ∧ r.toNat ≤ 59)

/-- The g register is an output port. -/
def outPort (r : BitVec 6) : Bool := decide (60 ≤ r.toNat)

/-- The register exists only on a tile of full grade (R86, R97). -/
def highReg (r : Nat) : Bool := decide (40 ≤ r ∧ r ≤ 55)

/-- The context holds no value there and no mark: R62 counts the register empty. -/
def RegState.isEmpty : RegState → Bool
  | .empty => true
  | .pending => true
  | _ => false

/-- The register waits for a long-latency producer (R62, third row). -/
def RegState.isPending : RegState → Bool
  | .pending => true
  | _ => false

/-- The register is full. -/
def RegState.isFull : RegState → Bool
  | .full => true
  | _ => false

/-- The number of times a port stands among the sources. -/
def Need.popsOf (n : Need) (r : BitVec 6) : Nat := (n.srcs.filter (fun p => p.1 == r)).length

/-- A source with wait bit 1 meets this: an empty register, or an input port with no element and no ended stream behind it
(R62, R341). -/
def State.emptySrc (s : State) (r : BitVec 6) : Bool :=
  if inPort r then (s.curTile.q.inq? (r.toNat - 56)).isEmpty && (s.curTile.endedStream (r.toNat - 56)).isNone
  else (s.cur.stateG r.toNat).isEmpty

/-- A source makes the context wait: fewer elements than the instruction pops, a port another context's fill holds (R178), an
empty register (R62). -/
def State.blockedSrc (s : State) (n : Need) (r : BitVec 6) : Bool :=
  if inPort r then
    let p := r.toNat - 56
    (decide ((s.curTile.q.inq? p).length < n.popsOf r) && (s.curTile.endedStream p).isNone) ||
    s.curTile.portReserved p s.slot.ctx
  else (s.cur.stateG r.toNat).isEmpty

/-- A destination makes the context wait: a producer outstanding (R62), a bound output port without room (R58). -/
def State.blockedDst (s : State) (r : BitVec 6) : Bool :=
  if outPort r then cfgV (s.curTile.q.cfg (r.toNat - 56)) && !s.pushReady s.slot.site (r.toNat - 56)
  else (s.cur.stateG r.toNat).isPending

/-- The context is not ready for the instruction (R62, R113). -/
def Need.blocked (n : Need) (s : State) : Bool :=
  n.srcs.any (fun p => s.blockedSrc n p.1) ||
  n.vsrcs.any (fun v => (s.cur.stateV v.toNat).isEmpty) ||
  n.dsts.any s.blockedDst ||
  n.vdsts.any (fun v => (s.cur.stateV v.toNat).isPending)

/-- All g registers the instruction names. -/
def Need.named (n : Need) : List Nat := n.srcs.map (·.1.toNat) ++ n.dsts.map (·.toNat)

/-- A register is absent on this tile (R97). -/
def Need.absent (n : Need) (s : State) : Bool := s.isReduced s.slot.site && n.named.any highReg

/-- A source stands on a row of the register file that fails (R90). -/
def Need.rowFails (n : Need) (s : State) : Bool :=
  n.srcs.any (fun p => decide (1 ≤ p.1.toNat ∧ p.1.toNat ≤ 55) && !monName s.cur.mon p.1.toNat && s.regFails s.slot.site p.1.toNat)

/-- A push names an unbound output port (R293). -/
def Need.unbound (n : Need) (s : State) : Bool :=
  n.dsts.any (fun r => outPort r && !cfgV (s.curTile.q.cfg (r.toNat - 56)))

/-- The ended stream a source meets (R341). -/
def Need.ended (n : Need) (s : State) : Option StreamEnd :=
  n.srcs.findSome? (fun p => if inPort p.1 then s.curTile.endedStream (p.1.toNat - 56) else none)

/-- The mark of a register state: code and address (R217). -/
def RegState.mark : RegState → Option (BitVec 8 × Word)
  | .marked c a => some (c, a)
  | _ => none

/-- The first error mark among the sources (R217). Of several marked sources the first g source in operand order is taken, then
the first v source (DESIGN CHOICE, log 16: R77 and R217 name one mark). -/
def Need.marked (n : Need) (s : State) : Option (BitVec 8 × Word) :=
  match n.srcs.findSome? (fun p => if inPort p.1 then none else (s.cur.stateG p.1.toNat).mark) with
  | some m => some m
  | none => n.vsrcs.findSome? (fun v => (s.cur.stateV v.toNat).mark)

/-- Illegal in any mode (R60, R76). -/
def Need.illegal (n : Need) (s : State) : Bool := !n.wf || (n.vec && decide (4 ≤ s.slot.ctx))

/-- What the selection of an instruction decides before its own operation (R62, R77). -/
inductive Gate where
  | fault (code : Nat) (tval : Word)
  | stall
  | go
deriving DecidableEq, Repr

/-- The conditions of an instruction in the order of R77: illegal, privileged, empty source, not ready, register absent, an
unbound output port (R293), an ended stream (R341), a failing register-file row (DESIGN CHOICE, log 16: code 0x16, TVAL 0 and
this rank, since R90 gives none of the three and R293 and R341 rank theirs directly after register absent), an error mark. -/
def Need.gate (n : Need) (s : State) : Gate :=
  if n.illegal s then .fault 0x01 0
  else if n.priv && !s.cur.mon then .fault 0x02 0
  else if n.srcs.any (fun p => p.2 && s.emptySrc p.1) then .fault 0x04 0
  else if n.blocked s then .stall
  else if n.absent s then .fault 0x05 0
  else if n.unbound s then .fault 0x22 0
  else match n.ended s with
    | some e => .fault 0x26 e.status
    | none =>
      if n.rowFails s then .fault 0x16 0
      else match n.marked s with
        | some m => .fault m.1.toNat m.2
        | none => .go

/-- Everything the instruction names is at hand: it is legal here, its sources are full, its destinations free of
outstanding producers, its ports filled, bound and open (R58 to R62, R70, R97). -/
def Need.ready (n : Need) (s : State) : Bool := decide (n.gate s = .go)

/-- Values of sources, `seen` holding those read before: each port gives its elements in operand order (R58). -/
def State.peekFrom (s : State) : List (BitVec 6) → List (BitVec 6) → List Word
  | _, [] => []
  | seen, r :: rs =>
    (if inPort r then
      (((s.curTile.q.inq? (r.toNat - 56))[(seen.filter (· == r)).length]?).map (·.val)).getD 0
     else s.cur.readG r.toNat) :: s.peekFrom (r :: seen) rs

/-- Values of the sources of an instruction, in order. -/
def Need.vals (n : Need) (s : State) : List Word := s.peekFrom [] (n.srcs.map (·.1))

/-- The high-water mark takes in a register the instruction names (R97, R116). -/
def Ctx.raise (x : Ctx) (r : Nat) : Ctx :=
  if 1 ≤ r ∧ r ≤ 55 ∧ !monName x.mon r then { x with hwm := Nat.max x.hwm r } else x

/-- What issue does before the operation: the mark rises, input ports named as sources give up their elements. -/
def Need.take (n : Need) (s : State) : State :=
  let s := s.updCur (fun x => n.named.foldl Ctx.raise x)
  n.srcs.foldl (fun s p => if inPort p.1 then s.pop s.slot.site s.slot.ctx (p.1.toNat - 56) else s) s

/-- What an operation answers once it has its operands. -/
inductive Act where
  /-- a fault of the operation: precise, nothing has happened (R10) -/
  | fault (code : Nat) (tval : Word)
  /-- not ready after all; `f` records what has been asked for meanwhile -/
  | wait (f : State → State)
  /-- done -/
  | ok (s : State)

/-- Issue: the conditions in order, then the operation on the values and on the state with its pops made. -/
def issue (n : Need) (s : State) (body : List Word → State → Act) : Out :=
  match n.gate s with
  | .fault c v => trap s c v
  | .stall => stall s
  | .go => match body (n.vals s) (n.take s) with
    | .fault c v => trap s c v
    | .wait f => stall (f s)
    | .ok s' => .next s'

/-- The word of a wait bit. -/
def wt (b : BitVec 1) : Bool := b == 1#1

/-- A source read by a B, V or M word, or through rd: it blocks and never traps (R62). -/
def blk (r : BitVec 6) : BitVec 6 × Bool := (r, false)

/-- The first, second and third value of a list. -/
def v0 (l : List Word) : Word := l.getD 0 0
def v1 (l : List Word) : Word := l.getD 1 0
def v2 (l : List Word) : Word := l.getD 2 0

/-- A g register named in a V-format field (R59). -/
def g5 (v : BitVec 5) : BitVec 6 := v.zeroExtend 6

/-- Write a result and go on at the next word. The value of a port pop is in its destination from the issue step on, so that no
later `.t` reader meets the destination empty (DESIGN CHOICE, log 5: R61 does not say when). -/
def State.result (s : State) (rd : BitVec 6) (v : Word) : Act := .ok (s.writeG rd v).retire

/-- The rounding mode in force: the prefix's, else FCSR.FRM (R36). -/
def Modifier.mode (m : Modifier) (fcsr : Word) : Nat := if m.rnd = 0 then fld fcsr 8 3 else m.rnd - 1

/-- FCSR.FLUSH (R44). -/
def flushOn (fcsr : Word) : Bool := bit fcsr 15

end Sys2Proof.Machine
end

