-- ==== Sys2Proof/Machine/Flags.lean ====
section
/-! DEFINITION. The flags of FCSR and the computations that set them outside floating point: integer saturation and the order
of steps of a prefixed integer operation (R32, R44 to R46, R152). -/
namespace Sys2Proof.Machine

/-- Flag bits [5:0] of FFLAGS (R44). -/
def flagSA : BitVec 6 := 0x20
def flagNV : BitVec 6 := 0x10
def flagDZ : BitVec 6 := 0x08
def flagOF : BitVec 6 := 0x04
def flagUF : BitVec 6 := 0x02
def flagNX : BitVec 6 := 0x01

/-- A flag when a condition holds. -/
def flagIf (b : Bool) (f : BitVec 6) : BitVec 6 := if b then f else 0

/-- x · 2^scale, floored (R152). -/
def scaleInt (x : Int) (k : Int) : Int := if 0 ≤ k then x * 2 ^ k.toNat else x.fdiv (2 ^ (-k).toNat)

/-- Clamp to a range with SA when the value changes (R32). -/
def clampInt (x lo hi : Int) : Int × BitVec 6 :=
  let y := max lo (min x hi)
  (y, flagIf (y != x) flagSA)

/-- The range of an integer format of a width (R32). -/
def intLo (w : Nat) (signed : Bool) : Int := if signed then -(2 ^ (w - 1)) else 0
def intHi (w : Nat) (signed : Bool) : Int := if signed then 2 ^ (w - 1) - 1 else 2 ^ w - 1

/-- The operations that take a modifier on integers (R66, R152). -/
inductive IntOp where
  | add | sub | min | max | minu | maxu | mul | mulh | mulhu
deriving DecidableEq, Repr

/-- The signed set of R152. -/
def IntOp.signed : IntOp → Bool
  | .minu => false
  | .maxu => false
  | .mulhu => false
  | _ => true

/-- The exact result (R152). -/
def IntOp.exact (o : IntOp) (w : Nat) (a b : Int) : Int :=
  match o with
  | .add => a + b
  | .sub => a - b
  | .min => if a ≤ b then a else b
  | .minu => if a ≤ b then a else b
  | .max => if a ≤ b then b else a
  | .maxu => if a ≤ b then b else a
  | .mul => a * b
  | .mulh => (a * b).fdiv (2 ^ w)
  | .mulhu => (a * b).fdiv (2 ^ w)

/-- Absolute value and negation of an operand: exact in the signed set, negation modulo 2^w in the unsigned one (R152). -/
def modOperand (w : Nat) (signed abs neg : Bool) (a : Int) : Int :=
  if signed then
    let a := if abs then (a.natAbs : Int) else a
    if neg then -a else a
  else if neg then (2 ^ w - a).emod (2 ^ w) else a

/-- A prefixed or plain integer operation of width w on exact operands, in the order of R152: its result and SA. -/
def intModExact (m : Modifier) (o : IntOp) (w : Nat) (a b : Int) : BitVec w × BitVec 6 :=
  let sg := o.signed
  let a := modOperand w sg m.absa m.nega a
  let b := modOperand w sg m.absb m.negb b
  let x := scaleInt (o.exact w a b) m.scale
  if m.sat then
    let (y, f) := clampInt x (intLo w sg) (intHi w sg)
    (BitVec.ofInt w y, f)
  else (BitVec.ofInt w x, 0)

/-- The same on patterns. -/
def intMod (m : Modifier) (o : IntOp) (w : Nat) (a b : BitVec w) : BitVec w × BitVec 6 :=
  if o.signed then intModExact m o w a.toInt b.toInt else intModExact m o w a.toNat b.toNat

/-- Carry-less product of two 64-bit patterns (R150). -/
def clmul128 (a b : BitVec 64) : BitVec 128 :=
  (List.range 64).foldl (fun x i => if bit b i then x ^^^ (a.zeroExtend 128 <<< i) else x) 0

/-- Leading and trailing zeros, and ones, of a 64-bit pattern (R148). -/
def clz64 (a : Word) : Nat := if a.toNat = 0 then 64 else 63 - Nat.log2 a.toNat
def ctz64 (a : Word) : Nat := ((List.range 64).find? (fun i => bit a i)).getD 64
def popc64 (a : Word) : Nat := ((List.range 64).filter (fun i => bit a i)).length

/-- Bytes in the opposite order (R148). -/
def bswap64 (a : Word) : Word :=
  (List.range 8).foldl (fun x i => x ||| (BitVec.ofNat 64 (fld a (8 * i) 8)) <<< (8 * (7 - i))) 0

/-- Position and width of the field a descriptor names (R149). -/
def fieldPos (b : Word) : Nat := fld b 0 6
def fieldWidth (b : Word) : Nat := Nat.min (fld b 8 6 + 1) (64 - fieldPos b)

/-- ext (R149). -/
def extField (a b : Word) : Word :=
  let w := fieldWidth b
  let f := fld a (fieldPos b) w
  if bit b 15 && f.testBit (w - 1) then BitVec.ofInt 64 ((f : Int) - 2 ^ w) else BitVec.ofNat 64 f

/-- ins (R149). -/
def insField (d a b : Word) : Word :=
  let p := fieldPos b
  let mask : Word := BitVec.ofNat 64 ((2 ^ fieldWidth b - 1) * 2 ^ p)
  (d &&& ~~~mask) ||| ((a <<< p) &&& mask)

/-- Division and its fixed corners (R145, R146). -/
def divWord (a b : Word) : Word := if b = 0 then BitVec.allOnes 64 else BitVec.ofInt 64 (a.toInt.tdiv b.toInt)
def divuWord (a b : Word) : Word := if b = 0 then BitVec.allOnes 64 else BitVec.ofNat 64 (a.toNat / b.toNat)
def remWord (a b : Word) : Word := if b = 0 then a else BitVec.ofInt 64 (a.toInt.tmod b.toInt)
def remuWord (a b : Word) : Word := if b = 0 then a else BitVec.ofNat 64 (a.toNat % b.toNat)

/-- A truth value as a result. -/
def bword (b : Bool) : Word := if b then 1 else 0

end Sys2Proof.Machine
end

