-- ==== Sys2Proof/Machine/Scalar.lean ====
section
/-! DEFINITION. Scalar integer, address and bit instructions (R136 to R154). -/
namespace Sys2Proof.Machine

/-- A register-register operation: two g sources, one g destination (R136, R138). -/
def aluR (i : Instr) (rd ra rb : BitVec 6) (wa wb : BitVec 1) (f : Word → Word → Word) (s : State) : Out :=
  issue { wf := i.wf, srcs := [(ra, wt wa), (rb, wt wb)], dsts := [rd] } s
    (fun v s => s.result rd (f (v0 v) (v1 v)))

/-- An operation that reads rd as well (R139, R149). -/
def aluR3 (i : Instr) (rd ra rb : BitVec 6) (wa wb : BitVec 1) (f : Word → Word → Word → Word) (s : State) : Out :=
  issue { wf := i.wf, srcs := [blk rd, (ra, wt wa), (rb, wt wb)], dsts := [rd] } s
    (fun v s => s.result rd (f (v0 v) (v1 v) (v2 v)))

/-- A one-source operation (R140 to R142, R148). -/
def aluI (i : Instr) (rd ra : BitVec 6) (wa : BitVec 1) (f : Word → Word) (s : State) : Out :=
  issue { wf := i.wf, srcs := [(ra, wt wa)], dsts := [rd] } s (fun v s => s.result rd (f (v0 v)))

/-- An operation without a source (R143, R144). -/
def aluU (i : Instr) (rd : BitVec 6) (x : Word) (s : State) : Out :=
  issue { wf := i.wf, dsts := [rd] } s (fun _ s => s.result rd x)

/-- A prefixed operation (R151, R152): the result and SA. -/
def aluMod (m : Modifier) (i : Instr) (o : IntOp) (rd ra rb : BitVec 6) (wa wb : BitVec 1) (s : State) : Out :=
  issue { wf := i.wf, srcs := [(ra, wt wa), (rb, wt wb)], dsts := [rd] } s
    (fun v s =>
      let r := intMod m o 64 (v0 v) (v1 v)
      (s.updCur (fun x => x.orFlags r.2)).result rd r.1)

/-- A prefixed addi (R152). -/
def addiMod (m : Modifier) (i : Instr) (rd ra : BitVec 6) (wa : BitVec 1) (imm : BitVec 13) (s : State) : Out :=
  issue { wf := i.wf, srcs := [(ra, wt wa)], dsts := [rd] } s
    (fun v s =>
      let r := intMod m .add 64 (v0 v) (imm.signExtend 64)
      (s.updCur (fun x => x.orFlags r.2)).result rd r.1)

/-- ADD (R138): Writes ga + gb to gd, wrapping. -/
def execAdd (rd ra rb : BitVec 6) (wa wb : BitVec 1) (s : State) : Out :=
  aluR (.add rd ra rb wa wb) rd ra rb wa wb (fun a b => a + b) s

/-- SUB (R138): Writes ga − gb to gd, wrapping. -/
def execSub (rd ra rb : BitVec 6) (wa wb : BitVec 1) (s : State) : Out :=
  aluR (.sub rd ra rb wa wb) rd ra rb wa wb (fun a b => a - b) s

/-- AND (R138): Writes the bitwise AND of ga and gb to gd. -/
def execAndG (rd ra rb : BitVec 6) (wa wb : BitVec 1) (s : State) : Out :=
  aluR (.andG rd ra rb wa wb) rd ra rb wa wb (fun a b => a &&& b) s

/-- OR (R138): Writes the bitwise OR of ga and gb to gd. -/
def execOrG (rd ra rb : BitVec 6) (wa wb : BitVec 1) (s : State) : Out :=
  aluR (.orG rd ra rb wa wb) rd ra rb wa wb (fun a b => a ||| b) s

/-- XOR (R138): Writes the bitwise XOR of ga and gb to gd. -/
def execXorG (rd ra rb : BitVec 6) (wa wb : BitVec 1) (s : State) : Out :=
  aluR (.xorG rd ra rb wa wb) rd ra rb wa wb (fun a b => a ^^^ b) s

/-- ANDN (R138): Writes ga AND NOT gb to gd. -/
def execAndn (rd ra rb : BitVec 6) (wa wb : BitVec 1) (s : State) : Out :=
  aluR (.andn rd ra rb wa wb) rd ra rb wa wb (fun a b => a &&& ~~~b) s

/-- SHL (R138): Shifts ga left by gb[5:0] into gd. -/
def execShl (rd ra rb : BitVec 6) (wa wb : BitVec 1) (s : State) : Out :=
  aluR (.shl rd ra rb wa wb) rd ra rb wa wb (fun a b => a <<< fld b 0 6) s

/-- SHR (R138): Shifts ga right logically by gb[5:0] into gd. -/
def execShr (rd ra rb : BitVec 6) (wa wb : BitVec 1) (s : State) : Out :=
  aluR (.shr rd ra rb wa wb) rd ra rb wa wb (fun a b => a >>> fld b 0 6) s

/-- SAR (R138): Shifts ga right arithmetically by gb[5:0] into gd. -/
def execSar (rd ra rb : BitVec 6) (wa wb : BitVec 1) (s : State) : Out :=
  aluR (.sar rd ra rb wa wb) rd ra rb wa wb (fun a b => a.sshiftRight (fld b 0 6)) s

/-- ROT (R138): Rotates ga left by gb[5:0] into gd. -/
def execRot (rd ra rb : BitVec 6) (wa wb : BitVec 1) (s : State) : Out :=
  aluR (.rot rd ra rb wa wb) rd ra rb wa wb (fun a b => a.rotateLeft (fld b 0 6)) s

/-- SLT (R138): Sets gd to 1 when ga is less than gb as signed values. -/
def execSlt (rd ra rb : BitVec 6) (wa wb : BitVec 1) (s : State) : Out :=
  aluR (.slt rd ra rb wa wb) rd ra rb wa wb (fun a b => bword (a.slt b)) s

/-- SLTU (R138): Sets gd to 1 when ga is less than gb as unsigned values. -/
def execSltu (rd ra rb : BitVec 6) (wa wb : BitVec 1) (s : State) : Out :=
  aluR (.sltu rd ra rb wa wb) rd ra rb wa wb (fun a b => bword (a.ult b)) s

/-- SEQ (R138): Sets gd to 1 when ga equals gb. -/
def execSeq (rd ra rb : BitVec 6) (wa wb : BitVec 1) (s : State) : Out :=
  aluR (.seq rd ra rb wa wb) rd ra rb wa wb (fun a b => bword (a == b)) s

/-- SEL (R139): Reads rd as a condition and replaces it with ga when non-zero, else gb. -/
def execSel (rd ra rb : BitVec 6) (wa wb : BitVec 1) (s : State) : Out :=
  aluR3 (.sel rd ra rb wa wb) rd ra rb wa wb (fun c a b => if c != 0 then a else b) s

/-- MIN (R138): Writes the signed lesser of ga and gb. -/
def execMin (rd ra rb : BitVec 6) (wa wb : BitVec 1) (s : State) : Out :=
  aluR (.min rd ra rb wa wb) rd ra rb wa wb (fun a b => if a.sle b then a else b) s

/-- MAX (R138): Writes the signed greater of ga and gb. -/
def execMax (rd ra rb : BitVec 6) (wa wb : BitVec 1) (s : State) : Out :=
  aluR (.max rd ra rb wa wb) rd ra rb wa wb (fun a b => if a.sle b then b else a) s

/-- MINU (R138): Writes the unsigned lesser of ga and gb. -/
def execMinu (rd ra rb : BitVec 6) (wa wb : BitVec 1) (s : State) : Out :=
  aluR (.minu rd ra rb wa wb) rd ra rb wa wb (fun a b => if a.ule b then a else b) s

/-- MAXU (R138): Writes the unsigned greater of ga and gb. -/
def execMaxu (rd ra rb : BitVec 6) (wa wb : BitVec 1) (s : State) : Out :=
  aluR (.maxu rd ra rb wa wb) rd ra rb wa wb (fun a b => if a.ule b then b else a) s

/-- ADDI (R140): Adds a sign-extended 13-bit immediate to ga. -/
def execAddi (rd ra : BitVec 6) (wa : BitVec 1) (imm : BitVec 13) (s : State) : Out :=
  aluI (.addi rd ra wa imm) rd ra wa (fun a => a + imm.signExtend 64) s

/-- ANDI (R140): ANDs ga with a sign-extended 13-bit immediate. -/
def execAndi (rd ra : BitVec 6) (wa : BitVec 1) (imm : BitVec 13) (s : State) : Out :=
  aluI (.andi rd ra wa imm) rd ra wa (fun a => a &&& imm.signExtend 64) s

/-- ORI (R140): ORs ga with a sign-extended 13-bit immediate. -/
def execOri (rd ra : BitVec 6) (wa : BitVec 1) (imm : BitVec 13) (s : State) : Out :=
  aluI (.ori rd ra wa imm) rd ra wa (fun a => a ||| imm.signExtend 64) s

/-- XORI (R140): XORs ga with a sign-extended 13-bit immediate. -/
def execXori (rd ra : BitVec 6) (wa : BitVec 1) (imm : BitVec 13) (s : State) : Out :=
  aluI (.xori rd ra wa imm) rd ra wa (fun a => a ^^^ imm.signExtend 64) s

/-- SHLI (R141): Shifts ga left by an immediate amount. -/
def execShli (rd ra : BitVec 6) (wa : BitVec 1) (n : BitVec 6) (s : State) : Out :=
  aluI (.shli rd ra wa n) rd ra wa (fun a => a <<< n.toNat) s

/-- SHRI (R141): Shifts ga right logically by an immediate amount. -/
def execShri (rd ra : BitVec 6) (wa : BitVec 1) (n : BitVec 6) (s : State) : Out :=
  aluI (.shri rd ra wa n) rd ra wa (fun a => a >>> n.toNat) s

/-- SARI (R141): Shifts ga right arithmetically by an immediate amount. -/
def execSari (rd ra : BitVec 6) (wa : BitVec 1) (n : BitVec 6) (s : State) : Out :=
  aluI (.sari rd ra wa n) rd ra wa (fun a => a.sshiftRight n.toNat) s

/-- ROTI (R141): Rotates ga left by an immediate amount. -/
def execRoti (rd ra : BitVec 6) (wa : BitVec 1) (n : BitVec 6) (s : State) : Out :=
  aluI (.roti rd ra wa n) rd ra wa (fun a => a.rotateLeft n.toNat) s

/-- SLTI (R142): Sets gd to 1 when ga is signed-less than a 12-bit immediate. -/
def execSlti (rd ra : BitVec 6) (wa : BitVec 1) (k : BitVec 12) (s : State) : Out :=
  aluI (.slti rd ra wa k) rd ra wa (fun a => bword (a.slt (k.signExtend 64))) s

/-- SLTIU (R142): Sets gd to 1 when ga is unsigned-less than the sign-extended immediate. -/
def execSltiu (rd ra : BitVec 6) (wa : BitVec 1) (k : BitVec 12) (s : State) : Out :=
  aluI (.sltiu rd ra wa k) rd ra wa (fun a => bword (a.ult (k.signExtend 64))) s

/-- LIH (R143): Sets gd to the sign-extended 20-bit immediate times 4,096. -/
def execLih (rd : BitVec 6) (imm : BitVec 20) (s : State) : Out :=
  aluU (.lih rd imm) rd (imm.signExtend 64 <<< 12) s

/-- ADR (R144): Writes a PC-relative address to gd. -/
def execAdr (rd : BitVec 6) (imm : BitVec 20) (s : State) : Out :=
  aluU (.adr rd imm) rd (s.slot.addr + imm.signExtend 64 <<< 2) s

/-- MUL (R145): Writes the low 64 bits of ga · gb. -/
def execMul (rd ra rb : BitVec 6) (wa wb : BitVec 1) (s : State) : Out :=
  aluR (.mul rd ra rb wa wb) rd ra rb wa wb (fun a b => a * b) s

/-- MULH (R145): Writes the high 64 bits of the signed product. -/
def execMulh (rd ra rb : BitVec 6) (wa wb : BitVec 1) (s : State) : Out :=
  aluR (.mulh rd ra rb wa wb) rd ra rb wa wb (fun a b => BitVec.ofInt 64 ((a.toInt * b.toInt).fdiv (2 ^ 64))) s

/-- MULHU (R145): Writes the high 64 bits of the unsigned product. -/
def execMulhu (rd ra rb : BitVec 6) (wa wb : BitVec 1) (s : State) : Out :=
  aluR (.mulhu rd ra rb wa wb) rd ra rb wa wb (fun a b => BitVec.ofNat 64 (a.toNat * b.toNat / 2 ^ 64)) s

/-- DIV (R145): Signed division on the local or stream divider, 34 cycles. -/
def execDiv (rd ra rb : BitVec 6) (wa wb : BitVec 1) (s : State) : Out :=
  aluR (.div rd ra rb wa wb) rd ra rb wa wb (fun a b => divWord a b) s

/-- DIVU (R145): Unsigned division. -/
def execDivu (rd ra rb : BitVec 6) (wa wb : BitVec 1) (s : State) : Out :=
  aluR (.divu rd ra rb wa wb) rd ra rb wa wb (fun a b => divuWord a b) s

/-- REM (R145): Signed remainder. -/
def execRem (rd ra rb : BitVec 6) (wa wb : BitVec 1) (s : State) : Out :=
  aluR (.rem rd ra rb wa wb) rd ra rb wa wb (fun a b => remWord a b) s

/-- REMU (R145): Unsigned remainder. -/
def execRemu (rd ra rb : BitVec 6) (wa wb : BitVec 1) (s : State) : Out :=
  aluR (.remu rd ra rb wa wb) rd ra rb wa wb (fun a b => remuWord a b) s

/-- CLZ (R148): Counts leading zero bits of ga. -/
def execClz (rd ra : BitVec 6) (wa : BitVec 1) (s : State) : Out :=
  aluI (.clz rd ra wa) rd ra wa (fun a => BitVec.ofNat 64 (clz64 a)) s

/-- CTZ (R148): Counts trailing zero bits of ga. -/
def execCtz (rd ra : BitVec 6) (wa : BitVec 1) (s : State) : Out :=
  aluI (.ctz rd ra wa) rd ra wa (fun a => BitVec.ofNat 64 (ctz64 a)) s

/-- POPC (R148): Counts one bits of ga. -/
def execPopc (rd ra : BitVec 6) (wa : BitVec 1) (s : State) : Out :=
  aluI (.popc rd ra wa) rd ra wa (fun a => BitVec.ofNat 64 (popc64 a)) s

/-- EXT (R149): Extracts a bit field of ga described by gb. -/
def execExt (rd ra rb : BitVec 6) (wa wb : BitVec 1) (s : State) : Out :=
  aluR (.ext rd ra rb wa wb) rd ra rb wa wb (fun a b => extField a b) s

/-- INS (R149): Inserts ga into a bit field of rd described by gb. -/
def execIns (rd ra rb : BitVec 6) (wa wb : BitVec 1) (s : State) : Out :=
  aluR3 (.ins rd ra rb wa wb) rd ra rb wa wb (fun d a b => insField d a b) s

/-- BSWAP (R148): Reverses the byte order of ga. -/
def execBswap (rd ra : BitVec 6) (wa : BitVec 1) (s : State) : Out :=
  aluI (.bswap rd ra wa) rd ra wa bswap64 s

/-- CLMUL (R150): Writes the low half of the carry-less product. -/
def execClmul (rd ra rb : BitVec 6) (wa wb : BitVec 1) (s : State) : Out :=
  aluR (.clmul rd ra rb wa wb) rd ra rb wa wb (fun a b => (clmul128 a b).extractLsb' 0 64) s

/-- CLMULH (R150): Writes the high half of the carry-less product. -/
def execClmulh (rd ra rb : BitVec 6) (wa wb : BitVec 1) (s : State) : Out :=
  aluR (.clmulh rd ra rb wa wb) rd ra rb wa wb (fun a b => (clmul128 a b).extractLsb' 64 64) s

end Sys2Proof.Machine
end

