-- ==== Sys2Proof/Machine/Control.lean ====
section
/-! DEFINITION. Transfers of control (R109 to R115). -/
namespace Sys2Proof.Machine

/-- The conditions of R72. -/
inductive Cond where
  | eq | ne | lt | ge | ltu | geu
deriving DecidableEq, Repr

/-- A condition on two 64-bit values (R72). -/
def Cond.holds (c : Cond) (a b : Word) : Bool :=
  match c with
  | .eq => a == b
  | .ne => a != b
  | .lt => a.slt b
  | .ge => !a.slt b
  | .ltu => a.ult b
  | .geu => !a.ult b

/-- Go to a target held in a register; a target off a word boundary is the misaligned-fetch fault (R52, R111). -/
def State.goTo (s : State) (a : Word) : Act := if fld a 0 2 ≠ 0 then .fault 0x03 a else .ok (s.finish a)

/-- A PC-relative target (R53). -/
def State.target (s : State) (disp : Word) : Word := s.slot.addr + disp <<< 2

/-- A branch on a condition by displacement (R109). -/
def branchDisp (i : Instr) (c : Cond) (ra rb : BitVec 6) (disp : BitVec 11) (s : State) : Out :=
  issue { wf := i.wf, srcs := [blk ra, blk rb] } s
    (fun v s => .ok (s.finish (if c.holds (v0 v) (v1 v) then s.target (disp.signExtend 64) else s.nextAddr)))

/-- A branch on a condition to a target register (R109, R111). -/
def branchReg (i : Instr) (c : Cond) (ra rb : BitVec 6) (t : BitVec 2) (s : State) : Out :=
  issue { wf := i.wf, srcs := [blk ra, blk rb] } s
    (fun v s => if c.holds (v0 v) (v1 v) then s.goTo (fget 0 s.cur.t t.toNat) else .ok s.retire)

/-- J (R109): Jumps by a 26-bit word displacement. -/
def execJ (disp : BitVec 26) (s : State) : Out :=
  issue { wf := (Instr.j disp).wf } s (fun _ s => .ok (s.finish (s.target (disp.signExtend 64))))

/-- JAL (R109): Writes the return address to g1 and jumps. -/
def execJal (disp : BitVec 26) (s : State) : Out :=
  issue { wf := (Instr.jal disp).wf, dsts := [1] } s
    (fun _ s => .ok ((s.writeG 1 s.nextAddr).finish (s.target (disp.signExtend 64))))

/-- PBR (R109): Prepares a branch target in tN. -/
def execPbr (t : BitVec 2) (imm : BitVec 20) (s : State) : Out :=
  issue { wf := (Instr.pbr t imm).wf } s
    (fun _ s => .ok (s.updCur (fun x => { x with t := fset 0 x.t t.toNat (s.target (imm.signExtend 64)) })).retire)

/-- BR (R109): Branches to the target in tN. -/
def execBr (t : BitVec 2) (s : State) : Out :=
  issue { wf := (Instr.br t).wf } s (fun _ s => s.goTo (fget 0 s.cur.t t.toNat))

/-- RET (R109): Branches to the address in ga. -/
def execRet (ra : BitVec 6) (s : State) : Out :=
  issue { wf := (Instr.ret ra).wf, srcs := [blk ra] } s (fun v s => s.goTo (v0 v))

/-- BC_EQ (R109): Branches to tN when ga equals gb. -/
def execBcEq (ra rb : BitVec 6) (t : BitVec 2) (s : State) : Out := branchReg (.bcEq ra rb t) .eq ra rb t s

/-- B_EQ (R109): Branches by displacement when ga equals gb. -/
def execBEq (ra rb : BitVec 6) (disp : BitVec 11) (s : State) : Out := branchDisp (.bEq ra rb disp) .eq ra rb disp s

/-- BC_NE (R109): Branches to tN when ga differs from gb. -/
def execBcNe (ra rb : BitVec 6) (t : BitVec 2) (s : State) : Out := branchReg (.bcNe ra rb t) .ne ra rb t s

/-- B_NE (R109): Branches by displacement when ga differs from gb. -/
def execBNe (ra rb : BitVec 6) (disp : BitVec 11) (s : State) : Out := branchDisp (.bNe ra rb disp) .ne ra rb disp s

/-- BC_LT (R109): Branches to tN when ga is signed-less than gb. -/
def execBcLt (ra rb : BitVec 6) (t : BitVec 2) (s : State) : Out := branchReg (.bcLt ra rb t) .lt ra rb t s

/-- B_LT (R109): Branches by displacement when ga is signed-less than gb. -/
def execBLt (ra rb : BitVec 6) (disp : BitVec 11) (s : State) : Out := branchDisp (.bLt ra rb disp) .lt ra rb disp s

/-- BC_GE (R109): Branches to tN when ga is signed-greater or equal to gb. -/
def execBcGe (ra rb : BitVec 6) (t : BitVec 2) (s : State) : Out := branchReg (.bcGe ra rb t) .ge ra rb t s

/-- B_GE (R109): Branches by displacement when ga is signed-greater or equal to gb. -/
def execBGe (ra rb : BitVec 6) (disp : BitVec 11) (s : State) : Out := branchDisp (.bGe ra rb disp) .ge ra rb disp s

/-- BC_LTU (R109): Branches to tN when ga is unsigned-less than gb. -/
def execBcLtu (ra rb : BitVec 6) (t : BitVec 2) (s : State) : Out := branchReg (.bcLtu ra rb t) .ltu ra rb t s

/-- B_LTU (R109): Branches by displacement when ga is unsigned-less than gb. -/
def execBLtu (ra rb : BitVec 6) (disp : BitVec 11) (s : State) : Out := branchDisp (.bLtu ra rb disp) .ltu ra rb disp s

/-- BC_GEU (R109): Branches to tN when ga is unsigned-greater or equal to gb. -/
def execBcGeu (ra rb : BitVec 6) (t : BitVec 2) (s : State) : Out := branchReg (.bcGeu ra rb t) .geu ra rb t s

/-- B_GEU (R109): Branches by displacement when ga is unsigned-greater or equal to gb. -/
def execBGeu (ra rb : BitVec 6) (disp : BitVec 11) (s : State) : Out := branchDisp (.bGeu ra rb disp) .geu ra rb disp s

/-- B_AL (R109): Branches by displacement always. -/
def execBAl (disp : BitVec 11) (s : State) : Out :=
  issue { wf := (Instr.bAl disp).wf } s (fun _ s => .ok (s.finish (s.target (disp.signExtend 64))))

end Sys2Proof.Machine
end

