-- ==== Sys2Proof/Machine/System.lean ====
section
/-! DEFINITION. Context, system-register, time and tile instructions (R98 to R100, R127 to R135, R281, R447, R480). -/
namespace Sys2Proof.Machine

/-! ### Contexts (R102, R125, R127, R128) -/

/-- State codes (R102). -/
def CtxState.code : CtxState → Nat
  | .free => 0
  | .live => 1
  | .faultWait => 2
  | .draining => 3
  | .held => 4
  | .halted => 5

/-- Register-state codes (R123). -/
def RegState.code : RegState → Nat
  | .full => 0
  | .empty => 1
  | .pending => 2
  | .marked _ _ => 3

/-- The status word of a context; a free context's is zero (R125). -/
def Ctx.status (x : Ctx) : Word :=
  if x.state = .free then 0 else
  BitVec.ofNat 64 (x.state.code + (if x.mon then 16 else 0) + 32 * x.pri.toNat + 256 * x.hwm +
    ((List.range 7).map (fun i => (fget .full x.mgs (i + 1)).code * 4 ^ i)).sum * 2 ^ 16)

/-- One instruction has issued (R442): what `finish` counts, for those that set the pc themselves. -/
def State.tally (s : State) : State := s.updCurTile (fun y => { y with counts := fset 0 y.counts 1 (fget 0 y.counts 1 + 1) })

/-- START (R127): Starts the lowest free helper context at ga with stack gb. -/
def execStartCtx (rd ra rb : BitVec 6) (wa wb : BitVec 1) (s : State) : Out :=
  issue { wf := (Instr.startCtx rd ra rb wa wb).wf, srcs := [(ra, wt wa), (rb, wt wb)], dsts := [rd] } s
    (fun v s =>
      if fld (v0 v) 0 2 ≠ 0 then .fault 0x03 (v0 v)
      else match s.curTile.startFree with
        | none => s.result rd (BitVec.allOnes 64)
        | some n =>
          let y := (Ctx.fresh s.cur.pri (v0 v)).putG false 2 (v1 v)
          (s.updCurTile (fun x => x.setCtx n y)).result rd (BitVec.ofNat 64 n))

/-- END (R128): Ends the issuing helper context, freeing or draining it. -/
def execEndCtx (s : State) : Out :=
  issue { wf := Instr.endCtx.wf } s (fun _ s =>
    if s.slot.ctx = 0 then .fault 0x0C 0
    else .ok (s.retire.updCur (fun x =>
      { x with state := if x.owed = 0 then .free else .draining, frame := {}, stepDue := false })))

/-- YIELD (R128): Gives up the next issue opportunity and moves the round-robin pointer. -/
def execYield (s : State) : Out :=
  issue { wf := Instr.yield.wf } s (fun _ s =>
    .ok ((s.updCurTile (fun x => { x with rr := (s.slot.ctx + 1) % 12 })).retire.updCur (fun x => { x with yielded := true })))

/-! ### Raising and leaving traps (R119, R129) -/

/-- A trap an instruction asks for: TEPC is the next instruction, TVAL the operand (R129). -/
def raiseTrap (i : Instr) (code : Nat) (n : BitVec 6) (s : State) : Out :=
  issue { wf := i.wf } s (fun _ s => .ok (s.takeTrapAt s.nextAddr code (n.zeroExtend 64)))

/-- TRAP (R129): Raises the user trap with operand n. -/
def execTrapN (n : BitVec 6) (s : State) : Out := raiseTrap (.trapN n) 0x06 n s

/-- SYSC (R129): Raises the system-call trap with operand n. -/
def execSysc (n : BitVec 6) (s : State) : Out := raiseTrap (.sysc n) 0x07 n s

/-- BRK (R129): Raises the breakpoint trap with operand n. -/
def execBrk (n : BitVec 6) (s : State) : Out := raiseTrap (.brk n) 0x08 n s

/-- MRET (R119): Returns from monitor mode to TEPC in the mode TSTAT.PM gives. -/
def execMret (s : State) : Out :=
  issue { wf := Instr.mret.wf, priv := true } s (fun _ s =>
    if s.cur.mgs.any (fun e => e.2.isPending) then .wait id
    else if fld s.cur.tepc 0 2 ≠ 0 then .fault 0x03 s.cur.tepc
    else .ok (s.updCur Ctx.returnFromTrap).tally)

/-! ### System registers (R130) -/

/-- Numbers reserved to monitor mode. -/
def sysMon (n : Nat) : Bool := decide ((0x010 ≤ n ∧ n ≤ 0x031) ∨ (0x101 ≤ n ∧ n ≤ 0x107))

/-- The own logical number (R14). -/
def State.logNum (s : State) (t : Nat) : Nat := (s.tile t).row * (s.dims t).1 + (s.tile t).col

/-- Value of a system register (R130). -/
def State.sysRead (s : State) (n : Nat) : Word :=
  let t := s.slot.site
  let x := s.curTile
  let c := s.cur
  match n with
  | 0x001 => c.fcsr
  | 0x002 => c.mirr
  | 0x003 => c.pri.zeroExtend 64
  | 0x004 => BitVec.ofNat 64 c.hwm
  | 0x005 => BitVec.ofNat 64 s.slot.ctx
  | 0x008 => BitVec.ofNat 64 (x.col + 2 ^ 8 * x.row + 2 ^ 16 * s.logNum t)
  | 0x009 => BitVec.ofNat 64 ((s.dims t).1 + 2 ^ 8 * (s.dims t).2)
  | 0x00A => BitVec.ofNat 64 (s.meshW + 2 ^ 8 * 108)
  | 0x010 => c.tepc
  | 0x011 => c.tcause
  | 0x012 => c.tval
  | 0x013 => c.tword
  | 0x014 => c.tstat
  | 0x015 => x.mtvec
  | 0x018 => fget 0 c.mscr 0
  | 0x019 => fget 0 c.mscr 1
  | 0x01A => fget 0 c.mscr 2
  | 0x01B => fget 0 c.mscr 3
  | 0x020 => c.dbgctl
  | 0x021 => c.bpa0
  | 0x022 => c.bpa1
  | 0x023 => c.wpa0
  | 0x024 => c.wpa1
  | 0x025 => c.wpcfg
  | 0x030 => x.rfbad.zeroExtend 64
  | 0x031 => bword x.spmraw
  | n => if 0x101 ≤ n ∧ n ≤ 0x107 then fget 0 c.g (n - 0x100) else 0

/-- A write of FCSR: reserved bits are dropped, and a reserved FRM leaves FRM as it is (R44, R45). -/
def fcsrWrite (old v : Word) : Word :=
  let frm := if 5 ≤ fld v 8 3 then fld old 8 3 else fld v 8 3
  (v &&& 0x803F#64) ||| (BitVec.ofNat 64 frm) <<< 8

/-- Write a system register; reserved bits are dropped (R7, R117, R130, R447, R448, R480). -/
def State.sysWrite (s : State) (n : Nat) (v : Word) : State :=
  let word2 := v &&& ~~~(3#64)
  match n with
  | 0x001 => s.updCur (fun c => { c with fcsr := fcsrWrite c.fcsr v })
  | 0x003 => s.updCur (fun c => { c with pri := v.setWidth 2 })
  | 0x010 => s.updCur (fun c => { c with tepc := v })
  | 0x011 => s.updCur (fun c => { c with tcause := v &&& 0x1FF })
  | 0x012 => s.updCur (fun c => { c with tval := v })
  | 0x014 => s.updCur (fun c => { c with tstat := v &&& 1 })
  | 0x015 => s.updCurTile (fun x => { x with mtvec := word2 })
  | 0x018 => s.updCur (fun c => { c with mscr := fset 0 c.mscr 0 v })
  | 0x019 => s.updCur (fun c => { c with mscr := fset 0 c.mscr 1 v })
  | 0x01A => s.updCur (fun c => { c with mscr := fset 0 c.mscr 2 v })
  | 0x01B => s.updCur (fun c => { c with mscr := fset 0 c.mscr 3 v })
  | 0x020 => s.updCur (fun c => { c with dbgctl := v &&& 0x7F })
  | 0x021 => s.updCur (fun c => { c with bpa0 := word2 })
  | 0x022 => s.updCur (fun c => { c with bpa1 := word2 })
  | 0x023 => s.updCur (fun c => { c with wpa0 := v })
  | 0x024 => s.updCur (fun c => { c with wpa1 := v })
  | 0x025 => s.updCur (fun c => { c with wpcfg := v &&& 0x1F1F })
  | 0x031 => s.updCurTile (fun x => { x with spmraw := bit v 0 })
  | n => if 0x101 ≤ n ∧ n ≤ 0x107 then s.updCur (fun c => { c with g := fset 0 c.g (n - 0x100) v }) else s

/-- An amoaddf of a context awaits its reply: FCSR is not accessible yet (R47, R131). -/
def Queues.flagsOwed (q : Queues) (c : Nat) : Bool :=
  q.ret.any (fun e => e.ctx == c && (match e.body with | .atomic _ _ op _ _ => op == 0x0A | _ => false))

/-- An FCSR access has to wait (R47, R131). -/
def State.fcsrBusy (s : State) (n : Nat) : Bool := n == 0x001 && s.curTile.q.flagsOwed s.slot.ctx

/-- RDSYS (R70): Reads a system register into gd. -/
def execRdsys (rd : BitVec 6) (n : BitVec 12) (s : State) : Out :=
  issue { wf := (Instr.rdsys rd n).wf, dsts := [rd], priv := sysMon n.toNat } s (fun _ s =>
    if s.fcsrBusy n.toNat then .wait id else s.result rd (s.sysRead n.toNat))

/-- WRSYS (R70): Writes the register named in rd to a system register. -/
def execWrsys (rs : BitVec 6) (n : BitVec 12) (s : State) : Out :=
  issue { wf := (Instr.wrsys rs n).wf, srcs := [blk rs], priv := sysMon n.toNat } s (fun v s =>
    if s.fcsrBusy n.toNat then .wait id else .ok (s.sysWrite n.toNat (v0 v)).retire)

/-- mkfull and mkempty name one register, g or v by k (R133); mkfull of a marked register makes it zero (R217). -/
def setRegState (i : Instr) (rd k : BitVec 6) (st : RegState) (s : State) : Out :=
  if k = 1 then
    issue { wf := i.wf, vdsts := [rd.setWidth 5], vec := true } s (fun _ s =>
      .ok (s.updCur (fun x =>
        let x := match x.stateV (rd.toNat % 32), st with
          | .marked _ _, .full => x.putV (rd.toNat % 32) 0
          | _, _ => x
        x.putVState (rd.toNat % 32) st)).retire)
  else
    issue { wf := i.wf, dsts := [rd] } s (fun _ s => .ok (s.updCur (fun x =>
      let x := match x.stateG rd.toNat, st with
        | .marked _ _, .full => x.putG x.mon rd.toNat 0
        | _, _ => x
      x.putState x.mon rd.toNat st)).retire)

/-- MKFULL (R133): Sets a register's full/empty bit to full. -/
def execMkfull (rd k : BitVec 6) (s : State) : Out := setRegState (.mkfull rd k) rd k .full s

/-- MKEMPTY (R133): Sets a register's full/empty bit to empty. -/
def execMkempty (rd k : BitVec 6) (s : State) : Out := setRegState (.mkempty rd k) rd k .empty s

/-- Register numbers in the valid entries of a MIRR value (R64). -/
def mirrRegs (v : Word) : List Nat :=
  (List.range 4).filterMap (fun k => if bit v (8 * k + 7) then some (fld v (8 * k) 6) else none)

/-- MIRR (R134): Loads MIRR from ga and fills the mirrored register copies. -/
def execMirr (ra : BitVec 6) (wa : BitVec 1) (s : State) : Out :=
  issue { wf := (Instr.mirr ra wa).wf, srcs := [(ra, wt wa)] } s (fun v s =>
    let x := v0 v &&& 0xBFBFBFBF#64
    if s.isReduced s.slot.site && (mirrRegs x).any highReg then .fault 0x05 0
    else .ok (s.updCur (fun c =>
      { c with mirr := x, hwm := ((mirrRegs x).filter (fun r => decide (r ≤ 55))).foldl Nat.max c.hwm })).retire)

/-- RDCTX (R135): Reads the status word of context ga. -/
def execRdctx (rd ra : BitVec 6) (wa : BitVec 1) (s : State) : Out :=
  issue { wf := (Instr.rdctx rd ra wa).wf, srcs := [(ra, wt wa)], dsts := [rd] } s (fun v s =>
    s.result rd (if (v0 v).toNat ≤ 11 then (s.curTile.ctx (v0 v).toNat).status else 0))

/-! ### Time (R281) -/

/-- RDTIME (R281): Reads the field's chronometer. -/
def execRdtime (rd : BitVec 6) (s : State) : Out :=
  issue { wf := (Instr.rdtime rd).wf, dsts := [rd] } s (fun _ s => s.result rd (BitVec.ofNat 64 (s.nowAt s.slot.site)))

/-- RDTSR (R281): Reads the context's RSTAMP. -/
def execRdtsr (rd : BitVec 6) (s : State) : Out :=
  issue { wf := (Instr.rdtsr rd).wf, dsts := [rd] } s (fun _ s => s.result rd s.cur.rstamp)

/-- TWAIT (R281): Waits until the chronometer reaches ga. -/
def execTwait (ra : BitVec 6) (wa : BitVec 1) (s : State) : Out :=
  issue { wf := (Instr.twait ra wa).wf, srcs := [(ra, wt wa)] } s (fun v s =>
    if v0 v = BitVec.allOnes 64 ∨ s.nowAt s.slot.site < (v0 v).toNat then .wait id else .ok s.retire)

/-! ### Tile instructions (R98 to R100) -/

/-- RDNBR (R98): Reads a neighbour-pointer register. -/
def execRdnbr (rd : BitVec 6) (e : BitVec 2) (s : State) : Out :=
  issue { wf := (Instr.rdnbr rd e).wf, dsts := [rd] } s (fun _ s => s.result rd (fget 0 s.curTile.nbr e.toNat))

/-- RDHOP (R98): Reads a hop register. -/
def execRdhop (rd : BitVec 6) (e : BitVec 2) (s : State) : Out :=
  issue { wf := (Instr.rdhop rd e).wf, dsts := [rd] } s (fun _ s => s.result rd (fget 0 s.curTile.hop e.toNat))

/-- The map word of R99. -/
def State.mapWord (s : State) (t : Nat) (a : Word) : Word :=
  let x := s.tile t
  let col := fld a 0 8
  let row := fld a 8 8
  let d := s.dims t
  if fld a 16 48 ≠ 0 ∨ d.1 ≤ col ∨ d.2 ≤ row then 0
  else
    let st : Nat := match s.placeFrom t col row with
      | .hole => 5
      | .outside => 0
      | .site u => (if ((s.region x.region).rehomed col row).isSome then 3 else 1) + (if s.isReduced u then 1 else 0)
    let c := if x.region = 0 then (0, 0) else s.routeCost x.region x.col x.row col row
    BitVec.ofNat 64 (st + 2 ^ 16 * c.1 + 2 ^ 32 * c.2)

/-- RDMAP (R99): Returns the mapping state of a region tile. -/
def execRdmap (rd ra : BitVec 6) (wa : BitVec 1) (s : State) : Out :=
  issue { wf := (Instr.rdmap rd ra wa).wf, srcs := [(ra, wt wa)], dsts := [rd] } s (fun v s =>
    s.result rd (s.mapWord s.slot.site (v0 v)))

/-- The general register that a row of the register file holds: the lowest unmarked rows in order (R86, R482). -/
def regOfRow (bad : BitVec 57) (reduced : Bool) (row : Nat) : Option Nat :=
  let n := ((List.range row).filter (fun k => !bit bad k)).length + 1
  if bit bad row || decide (57 ≤ row) || decide ((if reduced then 39 else 55) < n) then none else some n

/-- What the contexts hold of a register, and the register with other contents. -/
def Tile.rowView (x : Tile) (n : Nat) : FMap (Word × RegState) :=
  x.ctxs.foldl (fun m e => fset (0, .full) m e.1 (fget 0 e.2.g n, fget .full e.2.gs n)) []
def Tile.putRow (x : Tile) (n : Nat) (v : FMap (Word × RegState)) : Tile :=
  { x with ctxs := x.ctxs.map (fun e =>
      let y := fget (0, RegState.full) v e.1
      (e.1, { e.2 with g := fset 0 e.2.g n y.1, gs := fset .full e.2.gs n y.2 })) }

/-- A change of entry 0 or 1 moves the rows it names between their places: what stood on the old place stays there, and what the new place
holds is read; a spare row newly put in force reads zero, full (R87, R100). -/
def Tile.moveRows (x : Tile) (reduced : Bool) (e : Nat) (v : BitVec 32) : Tile :=
  let old := fget 0 x.reptab e
  let tab := fset 0 x.reptab e v
  let rows := ((if bit old 31 then [fld old 0 10] else []) ++ (if bit v 31 then [fld v 0 10] else [])).eraseDups
  let regs := rows.filterMap (fun row => (regOfRow x.rfbad reduced row).map (fun n => (row, n)))
  let kept := regs.foldl (fun m p => fset [] m (rowPlace x.reptab p.1) (x.rowView p.2)) x.rf
  let rf := if bit v 31 ∧ old ≠ v then fset [] kept (57 + e) [] else kept
  regs.foldl (fun x p => x.putRow p.2 (fget [] rf (rowPlace tab p.1))) { x with reptab := tab, rf := rf }

/-- A write of a REPTAB entry takes effect: a substituted row reads zero until it is written (R100). -/
def State.setReptab (s : State) (t e : Nat) (v : BitVec 32) : State :=
  let old := fget 0 (s.tile t).reptab e
  if e < 2 then s.updTile t (fun x => x.moveRows (s.isReduced t) e v)
  else
    let s := s.updTile t (fun x => { x with reptab := fset 0 x.reptab e v })
    if bit v 31 && old != v then
      let k := spmBase t + 0x180000 + (e - 2) * 64
      let s := { s with mem := (List.range 64).foldl (fun m i => Memory.put m (k + i) 0) s.mem }
      { s with ecc := (List.range 8).foldl (fun m i => fset 0 m (k / 8 + i) 0) s.ecc }
    else s

/-- RTWR (R100): Writes a REPTAB entry after the slice's accesses complete. -/
def execRtwr (ra rb : BitVec 6) (wa wb : BitVec 1) (s : State) : Out :=
  issue { wf := (Instr.rtwr ra rb wa wb).wf, srcs := [(ra, wt wa), (rb, wt wb)], priv := true } s (fun v s =>
    let e := (v0 v).toNat
    let w : BitVec 32 := (v1 v).setWidth 32
    let x := s.curTile
    if 97 < e ∨ fld w 10 21 ≠ 0 ∨ (if e < 2 then 56 else 1023) < fld w 0 10 then .fault 0x19 0
    else if (List.range 12).any (fun c => c != s.slot.ctx && decide ((x.ctx c).state = .live)) ||
        !x.mx.fifo.isEmpty || !x.xfer.isEmpty then .fault 0x18 0
    else .ok (s.setReptab s.slot.site e w).retire)

/-- RTRD (R98): Reads a REPTAB entry. -/
def execRtrd (rd ra : BitVec 6) (wa : BitVec 1) (s : State) : Out :=
  issue { wf := (Instr.rtrd rd ra wa).wf, srcs := [(ra, wt wa)], dsts := [rd], priv := true } s (fun v s =>
    if 97 < (v0 v).toNat then .fault 0x19 0
    else s.result rd ((fget 0 s.curTile.reptab (v0 v).toNat).zeroExtend 64))

end Sys2Proof.Machine
end

