-- ==== Sys2Proof/Machine/Float.lean ====
section
/-! DEFINITION. Floating point: the formats, exact values, the single rounding with its flags, and the operations of R27 to R43
and R161. -/
namespace Sys2Proof.Machine

/-- A format (R27): exponent and fraction widths, bias, largest finite as exponent and fraction fields, infinity, canonical NaN,
and whether FLUSH acts on it (R40). -/
structure Fmt where
  ew : Nat
  fw : Nat
  bias : Nat
  maxExp : Nat
  maxFrac : Nat
  hasInf : Bool
  nan : Nat
  flushes : Bool
deriving DecidableEq, Repr

def fp32 : Fmt := { ew := 8, fw := 23, bias := 127, maxExp := 254, maxFrac := 2 ^ 23 - 1, hasInf := true, nan := 0x7FC00000, flushes := true }
def fp64 : Fmt := { ew := 11, fw := 52, bias := 1023, maxExp := 2046, maxFrac := 2 ^ 52 - 1, hasInf := true, nan := 0x7FF8000000000000, flushes := true }
def fp16 : Fmt := { ew := 5, fw := 10, bias := 15, maxExp := 30, maxFrac := 2 ^ 10 - 1, hasInf := true, nan := 0x7E00, flushes := true }
def bf16 : Fmt := { ew := 8, fw := 7, bias := 127, maxExp := 254, maxFrac := 2 ^ 7 - 1, hasInf := true, nan := 0x7FC0, flushes := true }
def e4m3 : Fmt := { ew := 4, fw := 3, bias := 7, maxExp := 15, maxFrac := 6, hasInf := false, nan := 0x7F, flushes := false }
def e5m2 : Fmt := { ew := 5, fw := 2, bias := 15, maxExp := 30, maxFrac := 3, hasInf := true, nan := 0x7E, flushes := false }
def e2m1 : Fmt := { ew := 2, fw := 1, bias := 1, maxExp := 3, maxFrac := 1, hasInf := false, nan := 0, flushes := false }

/-- The format of a code 0 to 6 of R73. -/
def fmtOf (c : Nat) : Fmt :=
  match c with
  | 0 => fp32
  | 1 => fp64
  | 2 => fp16
  | 3 => bf16
  | 4 => e4m3
  | 5 => e5m2
  | _ => e2m1

/-- Width of an element in bits. -/
def Fmt.width (f : Fmt) : Nat := 1 + f.ew + f.fw

/-- The value of an element: (−1)^neg · m · 2^e when finite. -/
inductive FVal where
  | nan (signalling : Bool)
  | inf (neg : Bool)
  | fin (neg : Bool) (m : Nat) (e : Int)
deriving DecidableEq, Repr

/-- R28. -/
def Fmt.value (f : Fmt) (x : Nat) : FVal :=
  let neg := x.testBit (f.ew + f.fw)
  let e := x / 2 ^ f.fw % 2 ^ f.ew
  let fr := x % 2 ^ f.fw
  if e = 0 then .fin neg fr (1 - f.bias - f.fw)
  else if f.hasInf && e == 2 ^ f.ew - 1 then (if fr = 0 then .inf neg else .nan (!fr.testBit (f.fw - 1)))
  else if e == f.maxExp && decide (f.maxFrac < fr) then .nan false
  else .fin neg (2 ^ f.fw + fr) ((e : Int) - f.bias - f.fw)

/-- An E8M0 scale (R28). -/
def scaleValue (x : Nat) : FVal := if x = 0xFF then .nan false else .fin false 1 ((x : Int) - 127)

/-- The value of an element of a code 0 to 7. -/
def valueOf (c x : Nat) : FVal := if c = 7 then scaleValue x else (fmtOf c).value x

/-- The element is subnormal: exponent field zero, fraction not. -/
def Fmt.isSub (f : Fmt) (x : Nat) : Bool := x / 2 ^ f.fw % 2 ^ f.ew == 0 && x % 2 ^ f.fw != 0

/-- An operand under FLUSH (R40). -/
def Fmt.operand (f : Fmt) (flush : Bool) (x : Nat) : FVal :=
  if flush && f.flushes && f.isSub x then .fin (x.testBit (f.ew + f.fw)) 0 0 else f.value x

def FVal.isNan : FVal → Bool
  | .nan _ => true
  | _ => false
def FVal.isSnan : FVal → Bool
  | .nan s => s
  | _ => false
def FVal.isInf : FVal → Bool
  | .inf _ => true
  | _ => false
def FVal.neg? : FVal → Bool
  | .nan _ => false
  | .inf n => n
  | .fin n _ _ => n
def FVal.isZero : FVal → Bool
  | .fin _ m _ => m == 0
  | _ => false

/-- Absolute value, then negation, of an operand (R43). -/
def FVal.modify (abs neg : Bool) : FVal → FVal
  | .nan s => .nan s
  | .inf n => .inf ((!abs && n) != neg)
  | .fin n m e => .fin ((!abs && n) != neg) m e

/-- An exact result before rounding. `num` is (−1)^neg times a value equal to m · 2^e, or, when `sticky`, strictly between
m · 2^e and (m + 1) · 2^e with m of at least 160 bits; m is not zero. -/
inductive XVal where
  | nan
  | inf (neg : Bool)
  | zero (neg : Bool)
  | num (neg : Bool) (m : Nat) (e : Int) (sticky : Bool)
deriving DecidableEq, Repr

/-- The exact value of an operand. -/
def FVal.exact : FVal → XVal
  | .nan _ => .nan
  | .inf n => .inf n
  | .fin n m e => if m = 0 then .zero n else .num n m e false

/-! ### Rounding (R33 to R35) -/

/-- m · 2^e in units of 2^q, rounded under a mode, and whether rounding changed it. -/
def roundUnits (mode : Nat) (neg : Bool) (m : Nat) (e : Int) (st : Bool) (q : Int) : Nat × Bool :=
  if q ≤ e then (m * 2 ^ (e - q).toNat, st)
  else
    let k := (q - e).toNat
    let n := m / 2 ^ k
    let r := m % 2 ^ k
    let half := 2 ^ (k - 1)
    let inexact := r != 0 || st
    let up := match mode with
      | 0 => decide (half < r) || (r == half && (st || n % 2 == 1))
      | 1 => false
      | 2 => neg && inexact
      | 3 => !neg && inexact
      | _ => decide (half ≤ r)
    (if up then n + 1 else n, inexact)

/-- The sign bit in place. -/
def Fmt.sign (f : Fmt) (neg : Bool) : Nat := if neg then 2 ^ (f.ew + f.fw) else 0
/-- Infinity, the largest finite value and 1.0 as patterns. -/
def Fmt.infBits (f : Fmt) (neg : Bool) : Nat := f.sign neg + (2 ^ f.ew - 1) * 2 ^ f.fw
def Fmt.maxBits (f : Fmt) (neg : Bool) : Nat := f.sign neg + f.maxExp * 2 ^ f.fw + f.maxFrac
def Fmt.one (f : Fmt) : Nat := f.bias * 2 ^ f.fw

/-- A rounded result. -/
structure Rounded where
  bits : Nat
  flags : BitVec 6 := 0
  /-- the rounded magnitude lies above the largest finite value (R34) -/
  overflow : Bool := false
deriving DecidableEq, Repr

/-- What an overflow gives in a format with infinity (R34). -/
def Fmt.overflowBits (f : Fmt) (mode : Nat) (neg : Bool) : Nat :=
  if mode = 1 ∨ (mode = 2 ∧ !neg) ∨ (mode = 3 ∧ neg) then f.maxBits neg else f.infBits neg

/-- Round a non-zero value to a format: tininess after rounding, overflow after rounding, FLUSH of a tiny result (R33 to R35, R40). -/
def Fmt.round (f : Fmt) (mode : Nat) (flush : Bool) (neg : Bool) (m : Nat) (e : Int) (st : Bool) : Rounded :=
  let p := f.fw + 1
  let qU : Int := e + (Nat.log2 m + 1) - p
  let qMin : Int := 1 - f.bias - f.fw
  let u := roundUnits mode neg m e st qU
  let lead : Int := if u.1 = 2 ^ p then qU + p else qU + p - 1
  let tiny := decide (lead < 1 - (f.bias : Int))
  if tiny && flush && f.flushes then { bits := f.sign neg, flags := flagUF ||| flagNX }
  else
    let q := max qU qMin
    let (n, inexact) := roundUnits mode neg m e st q
    let (ef, fr) : Nat × Nat :=
      if n < 2 ^ f.fw then (0, n)
      else if n = 2 ^ p then ((q + f.fw + 1 + f.bias).toNat, 0)
      else ((q + f.fw + f.bias).toNat, n - 2 ^ f.fw)
    if f.maxExp < ef ∨ (ef = f.maxExp ∧ f.maxFrac < fr) then
      { bits := f.overflowBits mode neg, flags := flagOF ||| flagNX, overflow := true }
    else
      { bits := f.sign neg + ef * 2 ^ f.fw + fr,
        flags := flagIf inexact flagNX ||| flagIf (tiny && inexact) flagUF }

/-- The clamp step: to [0, 1], a NaN and −0 becoming +0 (R43). -/
def Fmt.clampBits (f : Fmt) (y : Nat) : Nat :=
  if (f.value y).isNan ∨ y.testBit (f.ew + f.fw) then 0 else if f.one < y then f.one else y

/-- The steps of R43 from the exact value on: scale, the single rounding, sat, clamp. -/
def Fmt.deliver (f : Fmt) (md : Modifier) (mode : Nat) (flush : Bool) (x : XVal) (fl : BitVec 6) : Nat × BitVec 6 :=
  let r : Rounded := match x with
    | .nan => { bits := f.nan }
    | .inf n => { bits := f.infBits n }
    | .zero n => { bits := f.sign n }
    | .num n m e st => f.round mode flush n m (e + md.scale) st
  let y := if md.sat && f.hasInf && (f.value r.bits).isInf then f.maxBits (r.bits.testBit (f.ew + f.fw)) else r.bits
  (if md.clamp then f.clampBits y else y, fl ||| r.flags)

/-! ### Exact operations (R38, R39, R159) -/

/-- The signed integer of a finite value in units of 2^u. -/
def signedUnits (neg : Bool) (m : Nat) (e u : Int) : Int :=
  let v : Int := (m * 2 ^ (e - u).toNat : Nat)
  if neg then -v else v

/-- The exact value of a signed integer in units of 2^u; a zero takes the given sign. -/
def ofUnits (v : Int) (u : Int) (zneg : Bool) : XVal :=
  if v = 0 then .zero zneg else .num (decide (v < 0)) v.natAbs u false

/-- Sum of two finite values; an exact zero of opposite terms is +0, or −0 under RDN (R35). -/
def sumFin (mode : Nat) (na : Bool) (ma : Nat) (ea : Int) (nb : Bool) (mb : Nat) (eb : Int) : XVal :=
  let u := min ea eb
  ofUnits (signedUnits na ma ea u + signedUnits nb mb eb u) u (if na = nb then na else mode == 2)

/-- NV for a signalling operand. -/
def snanFlags (l : List FVal) : BitVec 6 := flagIf (l.any FVal.isSnan) flagNV

/-- a + b. -/
def fAdd (mode : Nat) (a b : FVal) : XVal × BitVec 6 :=
  let fl := snanFlags [a, b]
  match a, b with
  | .nan _, _ => (.nan, fl)
  | _, .nan _ => (.nan, fl)
  | .inf x, .inf y => if x = y then (.inf x, 0) else (.nan, flagNV)
  | .inf x, _ => (.inf x, 0)
  | _, .inf y => (.inf y, 0)
  | .fin na ma ea, .fin nb mb eb => (sumFin mode na ma ea nb mb eb, 0)

/-- a · b as a value, with NV for 0 · ∞ and for a signalling operand. -/
def fMulV (a b : FVal) : FVal × BitVec 6 :=
  let fl := snanFlags [a, b]
  match a, b with
  | .nan _, _ => (.nan false, fl)
  | _, .nan _ => (.nan false, fl)
  | .inf x, .inf y => (.inf (x != y), 0)
  | .inf x, .fin n m _ => if m = 0 then (.nan false, flagNV) else (.inf (x != n), 0)
  | .fin n m _, .inf y => if m = 0 then (.nan false, flagNV) else (.inf (n != y), 0)
  | .fin na ma ea, .fin nb mb eb => (.fin (na != nb) (ma * mb) (ea + eb), 0)

def fMul (a b : FVal) : XVal × BitVec 6 :=
  let r := fMulV a b
  (r.1.exact, r.2)

/-- The product, negated when `np`, plus d, negated when `nd` (R159). -/
def fFma (mode : Nat) (np nd : Bool) (a b d : FVal) : XVal × BitVec 6 :=
  let p := fMulV a b
  let r := fAdd mode (p.1.modify false np) (d.modify false nd)
  (r.1, p.2 ||| r.2)

/-- a < b on values that are not NaN; −0 and +0 are equal. -/
def FVal.lt (a b : FVal) : Bool :=
  match a, b with
  | .nan _, _ => false
  | _, .nan _ => false
  | .inf x, .inf y => x && !y
  | .inf x, _ => x
  | _, .inf y => !y
  | .fin na ma ea, .fin nb mb eb =>
    let u := min ea eb
    decide (signedUnits na ma ea u < signedUnits nb mb eb u)

/-- a = b on values; a NaN equals nothing. -/
def FVal.eq (a b : FVal) : Bool := !a.isNan && !b.isNan && !a.lt b && !b.lt a

/-- minimumNumber and maximumNumber (R39): −0 is below +0. -/
def fMinMax (wantMax : Bool) (a b : FVal) : XVal × BitVec 6 :=
  let fl := snanFlags [a, b]
  if a.isNan && b.isNan then (.nan, fl)
  else if a.isNan then (b.exact, fl)
  else if b.isNan then (a.exact, fl)
  else
    let aFirst := a.lt b || (!b.lt a && a.neg? && !b.neg?)
    ((if aFirst != wantMax then a else b).exact, 0)

/-! ### Special functions (R161) -/

/-- Integer square root, by bits from `n` down. -/
def isqrtFrom (x : Nat) : Nat → Nat → Nat
  | 0, r => r
  | n + 1, r => isqrtFrom x n (if (r + 2 ^ n) * (r + 2 ^ n) ≤ x then r + 2 ^ n else r)
def isqrt (x : Nat) : Nat := isqrtFrom x (Nat.log2 x / 2 + 1) 0

/-- 1 ÷ (m · 2^e). -/
def recipFin (neg : Bool) (m : Nat) (e : Int) : XVal :=
  let k := Nat.log2 m + 200
  .num neg (2 ^ k / m) (-e - k) (2 ^ k % m != 0)

/-- √(m · 2^e). -/
def sqrtFin (m : Nat) (e : Int) : XVal :=
  let odd := e % 2 != 0
  let x := (if odd then 2 * m else m) * 2 ^ 400
  let h := ((if odd then e - 1 else e) - 400) / 2
  let r := isqrt x
  .num false r h (r * r != x)

/-- 1 ÷ √(m · 2^e). -/
def rsqrtFin (m : Nat) (e : Int) : XVal :=
  let odd := e % 2 != 0
  let x := if odd then 2 * m else m
  let h := (if odd then e - 1 else e) / 2
  let k := Nat.log2 x + 250
  let r := isqrt (2 ^ (2 * k) / x)
  .num false r (-h - k) (r * r * x != 2 ^ (2 * k))

/-- Fractional bits of the fixed-point work below, and the bits of it that may be off: the results keep at least 230 bits, and
their rounding assumes that no operand gives a result that agrees with a rounding boundary that far (log entry 22). -/
def fxBits : Nat := 400
def fxNoise : Nat := 64

/-- Σ x^(2i+1) ÷ (2i+1) from i on, for a fixed-point x: p is x^(2i+1). -/
def atanhFrom (x2 : Nat) : Nat → Nat → Nat → Nat
  | 0, _, _ => 0
  | n + 1, i, p => p / (2 * i + 1) + atanhFrom x2 n (i + 1) (p * x2 / 2 ^ fxBits)
def atanhFx (x : Nat) : Nat := atanhFrom (x * x / 2 ^ fxBits) 140 0 x

/-- ln 2 = 2 · atanh (1 ÷ 3). -/
def ln2Fx : Nat := 2 * atanhFx (2 ^ fxBits / 3)

/-- Σ r^i ÷ i! from i on; t is the term r^i ÷ i!. -/
def expFrom (r : Nat) : Nat → Nat → Nat → Nat
  | 0, _, _ => 0
  | n + 1, i, t => t + expFrom r n (i + 1) (t * r / 2 ^ fxBits / (i + 1))
def expFx (r : Nat) : Nat := expFrom r 100 0 (2 ^ fxBits)

/-- A fixed-point result with its noise bits dropped. -/
def ofFx (neg : Bool) (v : Nat) (e : Int) : XVal := .num neg (v / 2 ^ fxNoise) (e + fxNoise) true

/-- 2^x for a finite x. -/
def exp2Fin (neg : Bool) (m : Nat) (e : Int) : XVal :=
  if 14 ≤ e + Nat.log2 m then .num false 1 (if neg then -16384 else 16384) false
  else
    -- the integral part and the fraction in units of 2^-fxBits, both from the floor
    let u : Int := -(fxBits : Int)
    let exactly := decide (u ≤ e)
    let mag : Nat := if exactly then m * 2 ^ (e - u).toNat else m / 2 ^ (u - e).toNat
    let cut := !exactly && m % 2 ^ (u - e).toNat != 0
    let v : Int := if neg then -(mag : Int) - (if cut then 1 else 0) else mag
    let n := v.fdiv (2 ^ fxBits)
    let f := (v.fmod (2 ^ fxBits)).toNat
    if f = 0 ∧ !cut then .num false 1 n false
    else ofFx false (expFx (f * ln2Fx / 2 ^ fxBits)) (n - fxBits)

/-- log2 of m · 2^e. -/
def log2Fin (m : Nat) (e : Int) : XVal :=
  let l := Nat.log2 m
  let ex : Int := e + l
  if m = 2 ^ l then (if ex = 0 then .zero false else .num (decide (ex < 0)) ex.natAbs 0 false)
  else
    let w := (m - 2 ^ l) * 2 ^ fxBits / (m + 2 ^ l)
    let v := 2 * atanhFx w * 2 ^ fxBits / ln2Fx
    let r : Int := ex * 2 ^ fxBits + v
    ofFx (decide (r < 0)) r.natAbs (-(fxBits : Int))

/-- tanh of m · 2^e, m not zero. -/
def tanhFin (neg : Bool) (m : Nat) (e : Int) : XVal :=
  let top := e + Nat.log2 m
  if top < -100 then .num neg (m * 2 ^ 300 - 1) (e - 300) true
  else if 7 ≤ top then .num neg (2 ^ fxBits - 1) (-(fxBits : Int)) true
  else
    let u : Int := -(fxBits : Int) - 1
    let y := if u ≤ e then m * 2 ^ (e - u).toNat else m / 2 ^ (u - e).toNat
    let n := y / ln2Fx
    let x := expFx (y - n * ln2Fx) * 2 ^ n
    ofFx neg ((x - 2 ^ fxBits) * 2 ^ fxBits / (x + 2 ^ fxBits)) (-(fxBits : Int))

/-- The special functions of opcode 0x24. -/
inductive SpecOp where
  | rcp | rsq | sqrt | exp2 | log2 | tanh
deriving DecidableEq, Repr

/-- The table of R161 and the general rule. -/
def SpecOp.exact (o : SpecOp) (a : FVal) : XVal × BitVec 6 :=
  match a with
  | .nan s => (.nan, flagIf s flagNV)
  | .inf n => match o with
    | .rcp => (.zero n, 0)
    | .rsq => if n then (.nan, flagNV) else (.zero false, 0)
    | .sqrt => if n then (.nan, flagNV) else (.inf false, 0)
    | .exp2 => if n then (.zero false, 0) else (.inf false, 0)
    | .log2 => if n then (.nan, flagNV) else (.inf false, 0)
    | .tanh => (.num n 1 0 false, 0)
  | .fin n m e =>
    if m = 0 then match o with
      | .rcp => (.inf n, flagDZ)
      | .rsq => (.inf n, flagDZ)
      | .sqrt => (.zero n, 0)
      | .exp2 => (.num false 1 0 false, 0)
      | .log2 => (.inf true, flagDZ)
      | .tanh => (.zero n, 0)
    else match o with
      | .rcp => (recipFin n m e, 0)
      | .rsq => if n then (.nan, flagNV) else (rsqrtFin m e, 0)
      | .sqrt => if n then (.nan, flagNV) else (sqrtFin m e, 0)
      | .exp2 => (exp2Fin n m e, 0)
      | .log2 => if n then (.nan, flagNV) else (log2Fin m e, 0)
      | .tanh => (tanhFin n m e, 0)

/-! ### Conversions (R41, R42) -/

/-- Exact value to an integer under a mode, and whether rounding changed it. -/
def roundInt (mode : Nat) (neg : Bool) (m : Nat) (e : Int) : Int × Bool :=
  let r := roundUnits mode neg m e false 0
  (if neg then -(r.1 : Int) else r.1, r.2)

/-- Conversion of an exact value to a floating-point format (R41); `nsat` is the .nsat form. With FLUSH set a result that is tiny is flushed
here too, E8M0's 2^-127 among them, which R41 calls exact (DESIGN CHOICE, log entry 109). -/
def Fmt.convert (f : Fmt) (mode : Nat) (flush nsat : Bool) (x : XVal) : Nat × BitVec 6 :=
  let saturated (neg : Bool) : Nat × BitVec 6 :=
    if f.hasInf then (if nsat then (f.overflowBits mode neg, flagOF ||| flagNX) else (f.maxBits neg, flagOF ||| flagNX))
    else if nsat then (f.nan, flagNV) else (f.maxBits neg, flagOF ||| flagNX)
  match x with
  | .nan => if f = e2m1 then (0, flagNV) else (f.nan, 0)
  | .zero n => (f.sign n, 0)
  | .inf n =>
    if f.flushes then (f.infBits n, 0)
    else if f.hasInf && nsat then (f.infBits n, 0) else saturated n
  | .num n m e st =>
    let r := f.round mode flush n m e st
    if r.overflow && !f.flushes then saturated n else (r.bits, r.flags)

/-- Conversion of an exact value to an integer format (R42). -/
def convertInt (w : Nat) (signed : Bool) (mode : Nat) (x : XVal) : Nat × BitVec 6 :=
  let lo := intLo w signed
  let hi := intHi w signed
  match x with
  | .nan => (0, flagNV)
  | .zero _ => (0, 0)
  | .inf n => ((BitVec.ofInt w (if n then lo else hi)).toNat, flagNV)
  | .num n m e _ =>
    -- beyond 2^80 the clamp decides; a shift that far is not formed
    if 80 ≤ e + Nat.log2 m then ((BitVec.ofInt w (if n then lo else hi)).toNat, flagNV)
    else
      let (y, inexact) := roundInt mode n m e
      if y < lo ∨ hi < y then ((BitVec.ofInt w (if y < lo then lo else hi)).toNat, flagNV)
      else ((BitVec.ofInt w y).toNat, flagIf inexact flagNX)

end Sys2Proof.Machine
end

