-- ==== Sys2Proof/Machine/VectorFp.lean ====
section
/-! DEFINITION. Vector registers as lanes, floating-point arithmetic, compares, special functions and conversions
(R155 to R161, R164). -/
namespace Sys2Proof.Machine

/-! ### Lanes and masks (R156 to R158) -/

/-- The registers a field names: a pair or one. -/
def vgroup (pair : Bool) (v : BitVec 5) : List (BitVec 5) := if pair then [v, v + 1] else [v]

/-- The bits of a register, or of a pair with the even register low. -/
def Ctx.vread (x : Ctx) (pair : Bool) (v : Nat) : Nat :=
  (x.readV v).toNat + (if pair then 2 ^ 512 * (x.readV (v + 1)).toNat else 0)

/-- Write a register or a pair, and set it full. -/
def Ctx.vwrite (x : Ctx) (pair : Bool) (v : Nat) (n : Nat) : Ctx :=
  let y := x.putV v (BitVec.ofNat 512 n)
  if pair then y.putV (v + 1) (BitVec.ofNat 512 (n / 2 ^ 512)) else y

/-- Element j of width w. -/
def lane (n w j : Nat) : Nat := n / 2 ^ (w * j) % 2 ^ w

/-- The mask bit that governs element j (R157). -/
def laneOn (mask : BitVec 16) (pair : Bool) (w j : Nat) : Bool := bit mask (if pair then j else w * j / 32)

/-- Number of elements of width w. -/
def laneCount (pair : Bool) (w : Nat) : Nat := (if pair then 1024 else 512) / w

/-- The lanes of a result: computed where active, old elsewhere, with the OR of the flags of the active lanes (R46, R158). -/
def mapLanes (mask : BitVec 16) (pair : Bool) (w old : Nat) (f : Nat → Nat × BitVec 6) : Nat × BitVec 6 :=
  (List.range (laneCount pair w)).foldl
    (fun acc j =>
      let r := if laneOn mask pair w j then f j else (lane old w j, 0)
      (acc.1 + r.1 * 2 ^ (w * j), acc.2 ||| r.2)) (0, 0)

/-- Issue a vector operation: sources, a destination, the mask; the old destination is a source when the mask is not m0, or when
the operation reads it (R158). `f` gets the context as it stands and gives the new value and the flags. -/
def vecOp (i : Instr) (srcs : List (BitVec 5)) (vd : List (BitVec 5)) (readsD : Bool) (m : BitVec 3)
    (f : Ctx → Ctx × BitVec 6) (s : State) : Out :=
  issue { wf := i.wf, vsrcs := srcs ++ (if readsD || m != 0 then vd else []), vdsts := vd, vec := true } s
    (fun _ s =>
      let r := f s.cur
      .ok (s.updCur (fun _ => r.1.orFlags r.2)).retire)

/-- Issue a compare: its destination is a mask, read and written without blocking (R158). -/
def vecCmp (i : Instr) (srcs : List (BitVec 5)) (md : BitVec 5) (f : Ctx → BitVec 16 × BitVec 6) (s : State) : Out :=
  issue { wf := i.wf, vsrcs := srcs, vec := true } s
    (fun _ s =>
      let r := f s.cur
      .ok (s.updCur (fun x => (x.putMask md.toNat r.1).orFlags r.2)).retire)

/-! ### Arithmetic (R159) -/

/-- Opcode 0x20 ops 0 to 4, and 0x21. -/
inductive FpOp where
  | add | sub | mul | min | max
deriving DecidableEq, Repr
inductive FmaOp where
  | fma | fms | fnma | fnms
deriving DecidableEq, Repr

/-- One element of a two-operand operation on patterns (R43, R159). -/
def fpBin (o : FpOp) (md : Modifier) (mode : Nat) (flush : Bool) (f : Fmt) (a b : Nat) : Nat × BitVec 6 :=
  let x := (f.operand flush a).modify md.absa md.nega
  let y := (f.operand flush b).modify md.absb md.negb
  let r := match o with
    | .add => fAdd mode x y
    | .sub => fAdd mode x (y.modify false true)
    | .mul => fMul x y
    | .min => fMinMax false x y
    | .max => fMinMax true x y
  f.deliver md mode flush r.1 r.2

/-- One element of the 0x21 family. -/
def fpFma (o : FmaOp) (md : Modifier) (mode : Nat) (flush : Bool) (f : Fmt) (a b d : Nat) : Nat × BitVec 6 :=
  let x := (f.operand flush a).modify md.absa md.nega
  let y := (f.operand flush b).modify md.absb md.negb
  let z := f.operand flush d
  let r := match o with
    | .fma => fFma mode false false x y z
    | .fms => fFma mode false true x y z
    | .fnma => fFma mode true false x y z
    | .fnms => fFma mode true true x y z
  f.deliver md mode flush r.1 r.2

/-- One element of a special function (R161). -/
def fpSpec (o : SpecOp) (md : Modifier) (mode : Nat) (flush : Bool) (f : Fmt) (a : Nat) : Nat × BitVec 6 :=
  let r := o.exact ((f.operand flush a).modify md.absa md.nega)
  f.deliver md mode flush r.1 r.2

/-- FP64 operands are pairs (R156). -/
def isPair (t : BitVec 2) : Bool := t == 1

/-- The two-operand operations with a prefix. -/
def vfBin (md : Modifier) (i : Instr) (o : FpOp) (vd va vb : BitVec 5) (m : BitVec 3) (t : BitVec 2) (s : State) : Out :=
  let p := isPair t
  let f := fmtOf t.toNat
  vecOp i (vgroup p va ++ vgroup p vb) (vgroup p vd) false m (fun x =>
    let a := x.vread p va.toNat
    let b := x.vread p vb.toNat
    let r := mapLanes (x.mask m.toNat) p f.width (x.vread p vd.toNat)
      (fun j => fpBin o md (md.mode x.fcsr) (flushOn x.fcsr) f (lane a f.width j) (lane b f.width j))
    (x.vwrite p vd.toNat r.1, r.2)) s

/-- The fused operations with a prefix. -/
def vfFma (md : Modifier) (i : Instr) (o : FmaOp) (vd va vb : BitVec 5) (m : BitVec 3) (t : BitVec 2) (s : State) : Out :=
  let p := isPair t
  let f := fmtOf t.toNat
  vecOp i (vgroup p va ++ vgroup p vb) (vgroup p vd) true m (fun x =>
    let a := x.vread p va.toNat
    let b := x.vread p vb.toNat
    let d := x.vread p vd.toNat
    let r := mapLanes (x.mask m.toNat) p f.width d
      (fun j => fpFma o md (md.mode x.fcsr) (flushOn x.fcsr) f (lane a f.width j) (lane b f.width j) (lane d f.width j))
    (x.vwrite p vd.toNat r.1, r.2)) s

/-- The special functions with a prefix. -/
def vfSpec (md : Modifier) (i : Instr) (o : SpecOp) (vd va : BitVec 5) (m : BitVec 3) (t : BitVec 2) (s : State) : Out :=
  let p := isPair t
  let f := fmtOf t.toNat
  vecOp i (vgroup p va) (vgroup p vd) false m (fun x =>
    let a := x.vread p va.toNat
    let r := mapLanes (x.mask m.toNat) p f.width (x.vread p vd.toNat)
      (fun j => fpSpec o md (md.mode x.fcsr) (flushOn x.fcsr) f (lane a f.width j))
    (x.vwrite p vd.toNat r.1, r.2)) s

/-! ### Compares (R160) -/

/-- The four conditions. -/
inductive FCond where
  | eq | lt | le | un
deriving DecidableEq, Repr

/-- One comparison: the truth value and NV. -/
def FCond.test (c : FCond) (a b : FVal) : Bool × BitVec 6 :=
  let anyNan := a.isNan || b.isNan
  let anySnan := a.isSnan || b.isSnan
  match c with
  | .eq => (a.eq b, flagIf anySnan flagNV)
  | .lt => (a.lt b, flagIf anyNan flagNV)
  | .le => (!anyNan && !b.lt a, flagIf anyNan flagNV)
  | .un => (anyNan, flagIf anySnan flagNV)

/-- The mask a compare writes: bit i holds the results of the elements that bit i governs, all of them true; inactive bits keep
their old values (R160, R162). `els i` are the elements of bit i. -/
def cmpMask (mask old : BitVec 16) (els : Nat → List Nat) (f : Nat → Bool × BitVec 6) : BitVec 16 × BitVec 6 :=
  (List.range 16).foldl
    (fun acc i =>
      if bit mask i then
        let rs := (els i).map f
        (acc.1 ||| (if rs.all (·.1) then BitVec.twoPow 16 i else 0), rs.foldl (fun g r => g ||| r.2) acc.2)
      else (acc.1 ||| (old &&& BitVec.twoPow 16 i), acc.2)) (0, 0)

/-- Floating-point compare into a mask. -/
def vfCmp (i : Instr) (c : FCond) (md va vb : BitVec 5) (m : BitVec 3) (t : BitVec 2) (s : State) : Out :=
  let p := isPair t
  let f := fmtOf t.toNat
  vecCmp i (vgroup p va ++ vgroup p vb) md (fun x =>
    let a := x.vread p va.toNat
    let b := x.vread p vb.toNat
    cmpMask (x.mask m.toNat) (x.mask md.toNat)
      (fun k => if f.width = 16 then [2 * k, 2 * k + 1] else [k])
      (fun j => c.test (f.operand (flushOn x.fcsr) (lane a f.width j)) (f.operand (flushOn x.fcsr) (lane b f.width j)))) s

/-! ### Conversion (R164) -/

/-- Width of an element of a format code (R73). -/
def codeWidth (c : Nat) : Nat :=
  match c with
  | 0 => 32 | 1 => 64 | 2 => 16 | 3 => 16 | 4 => 8 | 5 => 8 | 6 => 4 | 7 => 8
  | 8 => 8 | 9 => 16 | 10 => 32 | 11 => 64 | 12 => 8 | 13 => 16 | 14 => 32 | _ => 64

/-- An integer code is signed (R73). -/
def codeSigned (c : Nat) : Bool := decide (c < 12)

/-- The integer of an element. -/
def intElem (c x : Nat) : Int := if codeSigned c then (BitVec.ofNat (codeWidth c) x).toInt else x

/-- The exact value of an integer. -/
def exactInt (v : Int) : XVal := ofUnits v 0 false

/-- The scale step on an exact value. -/
def XVal.scale (k : Int) : XVal → XVal
  | .num n m e st => .num n m (e + k) st
  | x => x

/-- One element of vcvt: destination code d, source code c, `nb` the N bit, source pattern x. -/
def cvtElem (md : Modifier) (mode : Nat) (flush : Bool) (d c : Nat) (nb : Bool) (x : Nat) : Nat × BitVec 6 :=
  if c < 8 then
    let v := if c = 7 then scaleValue x else (fmtOf c).operand flush x
    let fl := flagIf v.isSnan flagNV
    let y := (v.modify md.absa md.nega).exact.scale md.scale
    if d < 8 then
      let r := (fmtOf d).convert mode flush nb y
      (if md.clamp then (fmtOf d).clampBits r.1 else r.1, fl ||| r.2)
    else
      let r := convertInt (codeWidth d) (codeSigned d) mode y
      (r.1, fl ||| r.2)
  else
    let v := modOperand (codeWidth c) (codeSigned c) md.absa md.nega (intElem c x)
    if d < 8 then
      let r := (fmtOf d).convert mode flush nb ((exactInt v).scale md.scale)
      (if md.clamp then (fmtOf d).clampBits r.1 else r.1, r.2)
    else
      let y := scaleInt v md.scale
      if nb then
        let r := clampInt y (intLo (codeWidth d) (codeSigned d)) (intHi (codeWidth d) (codeSigned d))
        ((BitVec.ofInt (codeWidth d) r.1).toNat, r.2)
      else ((BitVec.ofInt (codeWidth d) y).toNat, 0)

/-- The conversion of 16 elements with a prefix. -/
def vfCvt (md : Modifier) (i : Instr) (vd va : BitVec 5) (nb : BitVec 1) (m : BitVec 3) (d c : BitVec 4) (s : State) : Out :=
  let wd := codeWidth d.toNat
  let wc := codeWidth c.toNat
  let pd := wd == 64
  let pc := wc == 64
  vecOp i (vgroup pc va) (vgroup pd vd) false m (fun x =>
    let a := x.vread pc va.toNat
    let old := x.vread pd vd.toNat
    let mask := x.mask m.toNat
    let r := (List.range 16).foldl
      (fun (acc : Nat × BitVec 6) j =>
        let r := if bit mask j then cvtElem md (md.mode x.fcsr) (flushOn x.fcsr) d.toNat c.toNat (nb == 1) (lane a wc j)
          else (lane old wd j, 0)
        (acc.1 + r.1 * 2 ^ (wd * j), acc.2 ||| r.2)) (0, 0)
    (x.vwrite pd vd.toNat r.1, r.2)) s

/-- VADD_F (R159): Floating-point vector add. -/
def execVaddF (vd va vb : BitVec 5) (m : BitVec 3) (t : BitVec 2) (s : State) : Out :=
  vfBin {} (.vaddF vd va vb m t) .add vd va vb m t s

/-- VSUB_F (R159): Floating-point vector subtract. -/
def execVsubF (vd va vb : BitVec 5) (m : BitVec 3) (t : BitVec 2) (s : State) : Out :=
  vfBin {} (.vsubF vd va vb m t) .sub vd va vb m t s

/-- VMUL_F (R159): Floating-point vector multiply. -/
def execVmulF (vd va vb : BitVec 5) (m : BitVec 3) (t : BitVec 2) (s : State) : Out :=
  vfBin {} (.vmulF vd va vb m t) .mul vd va vb m t s

/-- VMIN_F (R159): Floating-point vector minimumNumber. -/
def execVminF (vd va vb : BitVec 5) (m : BitVec 3) (t : BitVec 2) (s : State) : Out :=
  vfBin {} (.vminF vd va vb m t) .min vd va vb m t s

/-- VMAX_F (R159): Floating-point vector maximumNumber. -/
def execVmaxF (vd va vb : BitVec 5) (m : BitVec 3) (t : BitVec 2) (s : State) : Out :=
  vfBin {} (.vmaxF vd va vb m t) .max vd va vb m t s

/-- VCMP_EQ_F (R160): Floating-point equal compare into a mask. -/
def execVcmpEqF (vd va vb : BitVec 5) (m : BitVec 3) (t : BitVec 2) (s : State) : Out :=
  vfCmp (.vcmpEqF vd va vb m t) .eq vd va vb m t s

/-- VCMP_LT_F (R160): Floating-point less-than compare into a mask. -/
def execVcmpLtF (vd va vb : BitVec 5) (m : BitVec 3) (t : BitVec 2) (s : State) : Out :=
  vfCmp (.vcmpLtF vd va vb m t) .lt vd va vb m t s

/-- VCMP_LE (R160): Floating-point less-or-equal compare into a mask. -/
def execVcmpLe (vd va vb : BitVec 5) (m : BitVec 3) (t : BitVec 2) (s : State) : Out :=
  vfCmp (.vcmpLe vd va vb m t) .le vd va vb m t s

/-- VCMP_UN (R160): Floating-point unordered compare into a mask. -/
def execVcmpUn (vd va vb : BitVec 5) (m : BitVec 3) (t : BitVec 2) (s : State) : Out :=
  vfCmp (.vcmpUn vd va vb m t) .un vd va vb m t s

/-- VFMA (R159): Fused a·b + d. -/
def execVfma (vd va vb : BitVec 5) (m : BitVec 3) (t : BitVec 2) (s : State) : Out :=
  vfFma {} (.vfma vd va vb m t) .fma vd va vb m t s

/-- VFMS (R159): Fused a·b − d. -/
def execVfms (vd va vb : BitVec 5) (m : BitVec 3) (t : BitVec 2) (s : State) : Out :=
  vfFma {} (.vfms vd va vb m t) .fms vd va vb m t s

/-- VFNMA (R159): Fused −(a·b) + d. -/
def execVfnma (vd va vb : BitVec 5) (m : BitVec 3) (t : BitVec 2) (s : State) : Out :=
  vfFma {} (.vfnma vd va vb m t) .fnma vd va vb m t s

/-- VFNMS (R159): Fused −(a·b) − d. -/
def execVfnms (vd va vb : BitVec 5) (m : BitVec 3) (t : BitVec 2) (s : State) : Out :=
  vfFma {} (.vfnms vd va vb m t) .fnms vd va vb m t s

/-- VRCP (R161): Vector reciprocal. -/
def execVrcp (vd va : BitVec 5) (m : BitVec 3) (t : BitVec 2) (s : State) : Out :=
  vfSpec {} (.vrcp vd va m t) .rcp vd va m t s

/-- VRSQ (R161): Vector reciprocal square root. -/
def execVrsq (vd va : BitVec 5) (m : BitVec 3) (t : BitVec 2) (s : State) : Out :=
  vfSpec {} (.vrsq vd va m t) .rsq vd va m t s

/-- VSQRT (R161): Vector square root. -/
def execVsqrt (vd va : BitVec 5) (m : BitVec 3) (t : BitVec 2) (s : State) : Out :=
  vfSpec {} (.vsqrt vd va m t) .sqrt vd va m t s

/-- VEXP2 (R161): Vector base-2 exponential. -/
def execVexp2 (vd va : BitVec 5) (m : BitVec 3) (t : BitVec 2) (s : State) : Out :=
  vfSpec {} (.vexp2 vd va m t) .exp2 vd va m t s

/-- VLOG2 (R161): Vector base-2 logarithm. -/
def execVlog2 (vd va : BitVec 5) (m : BitVec 3) (t : BitVec 2) (s : State) : Out :=
  vfSpec {} (.vlog2 vd va m t) .log2 vd va m t s

/-- VTANH (R161): Vector hyperbolic tangent. -/
def execVtanh (vd va : BitVec 5) (m : BitVec 3) (t : BitVec 2) (s : State) : Out :=
  vfSpec {} (.vtanh vd va m t) .tanh vd va m t s

/-- VCVT (R164): Converts 16 elements between formats. -/
def execVcvt (vd va : BitVec 5) (n : BitVec 1) (m : BitVec 3) (e c : BitVec 4) (s : State) : Out :=
  vfCvt {} (.vcvt vd va n m e c) vd va n m e c s

end Sys2Proof.Machine
end

