-- ==== Sys2Proof/Machine/Memory.lean ====
section
/-! DEFINITION. Loads, stores, atomics, fences and the page instructions (R208 to R226, R270, R271). -/
namespace Sys2Proof.Machine

/-! ### One access of a context -/

/-- Bytes read as a register value (R214). -/
def extendLoad (size : Nat) (signed : Bool) (n : Nat) : Word :=
  if signed then (BitVec.ofNat (8 * size) n).signExtend 64 else BitVec.ofNat 64 (n % 2 ^ (8 * size))

/-- The checks of an access before translation: R209 items 1 to 6, then the watchpoints (R448). -/
def State.precheck (s : State) (a : Word) (align size : Nat) (rd wr : Bool) : Except (Nat × Word) Loc :=
  match s.checkAddr s.slot.site s.cur.mon a align size with
  | .error c => .error (c, a)
  | .ok l => if s.cur.watched a size rd wr then .error (0x0B, a) else .ok l

/-- Where an access goes once it is translated (R209 item 7). -/
inductive Reach where
  | own (off : Nat)
  | far (d : Dst) (x : Option Tlb)
  /-- no translation is held -/
  | miss (va kind : Nat)
deriving DecidableEq, Repr

/-- Translate a checked location for an access kind. -/
def State.reach (s : State) (l : Loc) (kind : Nat) : Reach :=
  match l with
  | .loc off => .own off
  | .rem u _ => .far (.tile u) none
  | .edge va => match s.xlateData s.slot.site s.slot.ctx va kind with
    | some e => .far (.edge (e.phys va)) (some e)
    | none => .miss va kind

/-- Wait for a translation. -/
def waitXlate (va kind : Nat) : Act := .wait (fun s => s.askXlate s.slot.site s.slot.ctx va kind)

/-- Mark the entry an access used (R255). -/
def State.touch (s : State) (x : Option Tlb) : State :=
  match x with
  | some e => s.touchData s.slot.site e
  | none => s

/-- Bytes of the own slice for a context load: with RAW set uncorrected and without a fault (R480). -/
def State.loadOwn (s : State) (off size : Nat) : Option (Nat × State) :=
  let t := s.slot.site
  if s.curTile.spmraw then some (s.spmRaw t off size, s)
  else if s.uncorrectable t off size then none
  else some (s.spmRead t off size, s.countCec t (s.correctables t off size))

/-- The address of a 64-byte line. -/
def lineOf (a : Word) : Word := a &&& ~~~(63#64)

/-- A line of the invariant cache is valid now for an address: it holds it and has not expired (R222, R223). -/
def InvLine.valid (l : InvLine) (now : Nat) (a : Word) : Bool :=
  l.addr == lineOf a && (match l.expiry with | some d => decide (now < d) | none => true)

/-- The line of the invariant cache that holds an address, if it is valid now; a parity error counts as a miss (R222, R223). -/
def State.invLine (s : State) (a : Word) : Option InvLine :=
  s.curTile.inv.find? (fun l => l.valid (s.nowAt s.slot.site) a && !l.parity)

/-- A parity error that a lookup finds: the line goes, and SITE.CEC counts it (R223). -/
def State.invParity (s : State) (a : Word) : State :=
  let bad (l : InvLine) : Bool := l.valid (s.nowAt s.slot.site) a && l.parity
  if s.curTile.inv.any bad then (s.updCurTile (fun x => { x with inv := x.inv.filter (fun l => !bad l) })).countCec s.slot.site 1 else s

/-- The line that the reply to a request is to fill (R223). -/
def Ret.line (e : Ret) : Option Word :=
  match e.sink with
  | .inv l _ _ _ _ _ _ => some l
  | .vec _ _ true a => some (lineOf a)
  | _ => none

/-- The tile has requested a line, and its reply has not come (R223). -/
def Tile.lineRequested (x : Tile) (l : Word) : Bool := x.q.ret.any (fun e => e.line == some l)

/-- Request a line for a .inv access, or wait for the reply that a request of the line already sent brings (R223). The name of the
request or of the wait. -/
def State.askInv (s : State) (a : Word) (k : Sink) (d : Dst) (x : Option Tlb) : Nat × State :=
  let t := s.slot.site
  let l := lineOf a
  if s.curTile.lineRequested l then
    let (id, s) := s.fresh
    let e : Ret := { id := id, ctx := s.slot.ctx, body := .load l 64, sink := k, dst := d, state := .held }
    (id, s.updCurTile (fun y => y.updQ (fun q => { q with lineWaits := q.lineWaits ++ [e] })))
  else (s.touch x).request t s.slot.ctx (.load l 64) k (match d with | .edge pa => .edge (pa / 64 * 64) | d => d) x

/-- A use of a line makes it the most recent of its set. -/
def State.invTouch (s : State) (l : InvLine) : State :=
  s.updCurTile (fun x => { x with inv := l :: x.inv.filter (fun y => y != l) })

/-- Put a line into the cache: 8 lines a set, the least recently used replaced (R222). -/
def Tile.invPut (x : Tile) (l : InvLine) : Tile :=
  let inSet (y : InvLine) : Bool := fld y.addr 6 6 == fld l.addr 6 6
  let others := x.inv.filter (fun y => y.addr != l.addr)
  let same := (others.filter inSet).take 7
  { x with inv := l :: others.filter (fun y => !inSet y || same.contains y) }

/-- Send a request whose result a g register waits for (R61, R216). -/
def State.sendLoad (s : State) (rd : BitVec 6) (b : Body) (k : Sink) (d : Dst) (x : Option Tlb) : Act :=
  let r := (s.touch x).request s.slot.site s.slot.ctx b k d x
  .ok (r.2.emptyG rd r.1).retire

/-- A scalar load (R214 to R217, R223). -/
def loadOp (i : Instr) (rd ra : BitVec 6) (wa n : BitVec 1) (off : BitVec 9) (size : Nat) (signed : Bool) (s : State) : Out :=
  issue { wf := i.wf, srcs := [(ra, wt wa)], dsts := [rd] } s (fun v s =>
    let a := v0 v + off.signExtend 64 * BitVec.ofNat 64 size
    let c := s.slot.ctx
    if s.accessHeld then .wait id
    else match s.precheck a size size true false with
    | .error e => .fault e.1 e.2
    | .ok (.loc o) => match s.loadOwn o size with
      | none => .fault 0x16 a
      | some (x, s') => s'.result rd (extendLoad size signed x)
    | .ok l =>
      match (if n = 1 then s.invLine a else none) with
      | some line => (s.invTouch line).result rd (extendLoad size signed (fld line.data (8 * fld a 0 6) (8 * size)))
      | none =>
        let s := if n = 1 then s.invParity a else s
        match s.reach l 0 with
        | .own _ => .wait id
        | .miss va k => .wait (fun s => (if n = 1 then s.invParity a else s).askXlate s.slot.site s.slot.ctx va k)
        | .far d x =>
          -- a translation of lease code 0 fills no line: the load is an ordinary one (R223)
          if n = 1 ∧ !(match x with | some e => s.cur.once.contains e | none => false) then
            let r := s.askInv a (.inv (lineOf a) c rd.toNat s.cur.mon a size signed) d x
            .ok (r.2.emptyG rd r.1).retire
          else s.sendLoad rd (.load a size) (.greg c rd.toNat s.cur.mon size signed) d x)

/-- A scalar store (R212, R214, R215). -/
def storeOp (i : Instr) (rs ra : BitVec 6) (wa : BitVec 1) (off : BitVec 11) (size : Nat) (s : State) : Out :=
  issue { wf := i.wf, srcs := [(ra, wt wa), blk rs] } s (fun v s =>
    let a := v0 v + off.signExtend 64 * BitVec.ofNat 64 size
    let t := s.slot.site
    let data := (v1 v).toNat % 2 ^ (8 * size)
    if s.accessHeld then .wait id
    else match s.precheck a size size false true with
    | .error e => .fault e.1 e.2
    | .ok l => match s.reach l 1 with
      | .own o => if s.storeBlocked t o size then .fault 0x16 a else .ok (s.spmStore t o size data).retire
      | .miss va k => waitXlate va k
      | .far d x =>
        if s.curTile.retFree = 0 then .wait id
        else .ok ((s.touch x).request t s.slot.ctx (.store a size data) .none d x).2.retire)

/-! ### Atomics (R219, R220) -/

/-- The new value of an atomic from the old one, none when it writes nothing, and the flags of amoaddf. -/
def amoNew (op size : Nat) (old b cmp : Nat) : Option Nat × BitVec 6 :=
  let w := 8 * size
  let x := BitVec.ofNat w old
  let y := BitVec.ofNat w b
  match op with
  | 0x00 => (some (x + y).toNat, 0)
  | 0x01 => (some (x &&& y).toNat, 0)
  | 0x02 => (some (x ||| y).toNat, 0)
  | 0x03 => (some (x ^^^ y).toNat, 0)
  | 0x04 => (some (if x.sle y then x else y).toNat, 0)
  | 0x05 => (some (if x.sle y then y else x).toNat, 0)
  | 0x06 => (some (if x.ule y then x else y).toNat, 0)
  | 0x07 => (some (if x.ule y then y else x).toNat, 0)
  | 0x08 => (some y.toNat, 0)
  | 0x09 => (if old = cmp % 2 ^ w then some y.toNat else none, 0)
  | _ =>
    let r := fpBin .add {} 0 false (if size = 4 then fp32 else fp64) old y.toNat
    (some r.1, r.2)

/-- An atomic: width by fn[5], operation by fn[4:0] (R219). -/
def atomicOp (i : Instr) (op : Nat) (rd ra rb : BitVec 6) (wa wb z : BitVec 1) (s : State) : Out :=
  let size := if z = 1 then 8 else 4
  issue { wf := i.wf, srcs := [(ra, wt wa), (rb, wt wb)] ++ (if op = 0x09 then [blk rd] else []), dsts := [rd] } s (fun v s =>
    let a := v0 v
    let t := s.slot.site
    let c := s.slot.ctx
    if s.accessHeld then .wait id
    else match s.precheck a size size true true with
    | .error e => .fault e.1 e.2
    | .ok l => match s.reach l 2 with
      | .own o =>
        if s.uncorrectable t o size then .fault 0x16 a
        else
          let old := s.spmRead t o size
          let r := amoNew op size old (v1 v).toNat (v2 v).toNat
          let s := s.countCec t (s.correctables t o size)
          let s := match r.1 with
            | some x => s.spmPut t o size x
            | none => s
          (s.updCur (fun y => y.orFlags r.2)).result rd (extendLoad size true old)
      | .miss va k => waitXlate va k
      | .far d x =>
        if s.curTile.retFree = 0 then .wait id
        else s.sendLoad rd (.atomic a size op (v1 v) (v2 v)) (.greg c rd.toNat s.cur.mon size true) d x)

/-- LB (R214): Loads a sign-extended byte. -/
def execLb (rd ra : BitVec 6) (wa n : BitVec 1) (off : BitVec 9) (s : State) : Out :=
  loadOp (.lb rd ra wa n off) rd ra wa n off 1 true s

/-- LBU (R214): Loads a zero-extended byte. -/
def execLbu (rd ra : BitVec 6) (wa n : BitVec 1) (off : BitVec 9) (s : State) : Out :=
  loadOp (.lbu rd ra wa n off) rd ra wa n off 1 false s

/-- LH (R214): Loads a sign-extended halfword. -/
def execLh (rd ra : BitVec 6) (wa n : BitVec 1) (off : BitVec 9) (s : State) : Out :=
  loadOp (.lh rd ra wa n off) rd ra wa n off 2 true s

/-- LHU (R214): Loads a zero-extended halfword. -/
def execLhu (rd ra : BitVec 6) (wa n : BitVec 1) (off : BitVec 9) (s : State) : Out :=
  loadOp (.lhu rd ra wa n off) rd ra wa n off 2 false s

/-- LW (R214): Loads a sign-extended word. -/
def execLw (rd ra : BitVec 6) (wa n : BitVec 1) (off : BitVec 9) (s : State) : Out :=
  loadOp (.lw rd ra wa n off) rd ra wa n off 4 true s

/-- LWU (R214): Loads a zero-extended word. -/
def execLwu (rd ra : BitVec 6) (wa n : BitVec 1) (off : BitVec 9) (s : State) : Out :=
  loadOp (.lwu rd ra wa n off) rd ra wa n off 4 false s

/-- LD (R214): Loads a doubleword. -/
def execLd (rd ra : BitVec 6) (wa n : BitVec 1) (off : BitVec 9) (s : State) : Out :=
  loadOp (.ld rd ra wa n off) rd ra wa n off 8 false s

/-- SB (R214): Stores a byte. -/
def execSb (rs ra : BitVec 6) (wa : BitVec 1) (off : BitVec 11) (s : State) : Out :=
  storeOp (.sb rs ra wa off) rs ra wa off 1 s

/-- SH (R214): Stores a halfword. -/
def execSh (rs ra : BitVec 6) (wa : BitVec 1) (off : BitVec 11) (s : State) : Out :=
  storeOp (.sh rs ra wa off) rs ra wa off 2 s

/-- SW (R214): Stores a word. -/
def execSw (rs ra : BitVec 6) (wa : BitVec 1) (off : BitVec 11) (s : State) : Out :=
  storeOp (.sw rs ra wa off) rs ra wa off 4 s

/-- SD (R214): Stores a doubleword. -/
def execSd (rs ra : BitVec 6) (wa : BitVec 1) (off : BitVec 11) (s : State) : Out :=
  storeOp (.sd rs ra wa off) rs ra wa off 8 s

/-- AMOADD (R219): Atomically adds gb at ga, returning the old value. -/
def execAmoadd (rd ra rb : BitVec 6) (wa wb z : BitVec 1) (s : State) : Out :=
  atomicOp (.amoadd rd ra rb wa wb z) 0x00 rd ra rb wa wb z s

/-- AMOAND (R219): Atomic AND. -/
def execAmoand (rd ra rb : BitVec 6) (wa wb z : BitVec 1) (s : State) : Out :=
  atomicOp (.amoand rd ra rb wa wb z) 0x01 rd ra rb wa wb z s

/-- AMOOR (R219): Atomic OR. -/
def execAmoor (rd ra rb : BitVec 6) (wa wb z : BitVec 1) (s : State) : Out :=
  atomicOp (.amoor rd ra rb wa wb z) 0x02 rd ra rb wa wb z s

/-- AMOXOR (R219): Atomic XOR. -/
def execAmoxor (rd ra rb : BitVec 6) (wa wb z : BitVec 1) (s : State) : Out :=
  atomicOp (.amoxor rd ra rb wa wb z) 0x03 rd ra rb wa wb z s

/-- AMOMIN (R219): Atomic signed minimum. -/
def execAmomin (rd ra rb : BitVec 6) (wa wb z : BitVec 1) (s : State) : Out :=
  atomicOp (.amomin rd ra rb wa wb z) 0x04 rd ra rb wa wb z s

/-- AMOMAX (R219): Atomic signed maximum. -/
def execAmomax (rd ra rb : BitVec 6) (wa wb z : BitVec 1) (s : State) : Out :=
  atomicOp (.amomax rd ra rb wa wb z) 0x05 rd ra rb wa wb z s

/-- AMOMINU (R219): Atomic unsigned minimum. -/
def execAmominu (rd ra rb : BitVec 6) (wa wb z : BitVec 1) (s : State) : Out :=
  atomicOp (.amominu rd ra rb wa wb z) 0x06 rd ra rb wa wb z s

/-- AMOMAXU (R219): Atomic unsigned maximum. -/
def execAmomaxu (rd ra rb : BitVec 6) (wa wb z : BitVec 1) (s : State) : Out :=
  atomicOp (.amomaxu rd ra rb wa wb z) 0x07 rd ra rb wa wb z s

/-- AMOSWAP (R219): Atomic swap. -/
def execAmoswap (rd ra rb : BitVec 6) (wa wb z : BitVec 1) (s : State) : Out :=
  atomicOp (.amoswap rd ra rb wa wb z) 0x08 rd ra rb wa wb z s

/-- AMOCAS (R219): Atomic compare-and-swap against rd. -/
def execAmocas (rd ra rb : BitVec 6) (wa wb z : BitVec 1) (s : State) : Out :=
  atomicOp (.amocas rd ra rb wa wb z) 0x09 rd ra rb wa wb z s

/-- AMOADDF (R220): Atomic floating-point add rounded at the home, flags returned. -/
def execAmoaddf (rd ra rb : BitVec 6) (wa wb z : BitVec 1) (s : State) : Out :=
  atomicOp (.amoaddf rd ra rb wa wb z) 0x0A rd ra rb wa wb z s

/-! ### Fences (R221) -/

/-- A fence issues at once; the context's next instruction waits for what its kind names, unless its scope is the context. -/
def fenceOp (i : Instr) (sc : BitVec 3) (kind : BitVec 2) (s : State) : Out :=
  issue { wf := i.wf } s (fun _ s =>
    .ok (s.retire.updCur (fun x => { x with fence := if sc = 0 then 0 else kind })))

/-- What the fence before the context's next instruction waits for has happened: bit 0 every write of the context is acknowledged
(its messages too: R232, log entry 94), bit 1 no producer is outstanding (R221). The instruction that issues next clears the fence, so
that it waits for what came before it alone. -/
def Tile.fenceDone (x : Tile) (c : Nat) : Bool :=
  let y := x.ctx c
  (!bit y.fence 0 || x.quiet c) && (!bit y.fence 1 || y.owed == 0)

/-- FENCE_REL (R221): Release fence of the given scope. -/
def execFenceRel (sc : BitVec 3) (s : State) : Out :=
  fenceOp (.fenceRel sc) sc 1 s

/-- FENCE_ACQ (R221): Acquire fence of the given scope. -/
def execFenceAcq (sc : BitVec 3) (s : State) : Out :=
  fenceOp (.fenceAcq sc) sc 2 s

/-- FENCE_FULL (R221): Full fence of the given scope. -/
def execFenceFull (sc : BitVec 3) (s : State) : Out :=
  fenceOp (.fenceFull sc) sc 3 s

/-! ### Page instructions (R270, R271) -/

/-- The access kind of gb[1:0]: read, write, fetch, atomic, as the kinds of Tlb.permits. -/
def pageKind (b : Word) : Nat :=
  match fld b 0 2 with
  | 0 => 0
  | 1 => 1
  | 2 => 3
  | _ => 2

/-- Size code of a page of 2^lg bytes (R252). -/
def sizeCode (lg : Nat) : Nat :=
  match lg with
  | 12 => 0 | 14 => 1 | 16 => 2 | 18 => 3 | 21 => 4 | 24 => 5 | 28 => 6 | _ => 7

/-- The result word of R271: a combined entry, or none, with the cause and stage of a stop. -/
def probeWord (now : Nat) (e : Option Tlb) (cause stage : Nat) : Word :=
  let attrs : Nat := match e with
    | some e => 2 ^ 17 * sizeCode e.lg + (if e.m then 2 ^ 16 else 0) + (if e.s then 2 ^ 15 else 0) + (if e.x then 2 ^ 14 else 0) +
        (if e.w then 2 ^ 13 else 0) + (if e.r then 2 ^ 12 else 0)
    | none => 0
  let left : Nat := match e with
    | some e => if cause = 0 then 2 ^ 32 * ((e.deadline - now) % 2 ^ 25) + 1 else 0
    | none => 0
  BitVec.ofNat 64 (left + 2 ^ 24 * cause + 2 ^ 20 * stage + attrs)

/-- Write a g register by a reply that is already on its way (R61). -/
def State.lateResult (s : State) (rd : BitVec 6) (v : Word) : Act :=
  let t := s.slot.site
  let (id, s) := s.fresh
  let e : Ret := { id := id, ctx := s.slot.ctx, body := .load 0 8, dst := .tile t, sink := .greg s.slot.ctx rd.toNat s.cur.mon 8 false,
                   state := .done, reply := v.toNat }
  let s := s.updCurTile (fun x => x.updQ (fun q => { q with ret := q.ret ++ [e] }))
  .ok ((s.emptyG rd id).later .remoteReply { a := t, b := id }).retire

/-- The address is of edge form (R208, R270). -/
def edgeForm (a : Word) : Bool := bit a 63 && fld a 56 7 == 0

/-- Ask for the walk of a tprobe (`fresh` false: through the L2 TLB) or lrenew (afresh); the context waits with the kind raised by
10 or 20 (log entry 23). -/
def State.askProbe (s : State) (va kind : Nat) (fresh : Bool) : State :=
  let t := s.slot.site
  let c := s.slot.ctx
  let k := (if fresh then 20 else 10) + kind
  if s.cur.xlate = .asked va k then s
  else
    let s := s.updCur (fun x => { x with xlate := .asked va k })
    if fresh then s.later .walk { a := t, b := 48 + c } else s.later .l2TlbLookup { a := t, b := 32 + c }

/-- TPROBE (R270): Translates ga for an access kind without posting a fault. -/
def execTprobe (rd ra rb : BitVec 6) (wa wb : BitVec 1) (s : State) : Out :=
  issue { wf := (Instr.tprobe rd ra rb wa wb).wf, srcs := [(ra, wt wa), (rb, wt wb)], dsts := [rd] } s (fun v s =>
    let a := v0 v
    let va := fld a 0 56
    let k := pageKind (v1 v)
    let now := s.nowAt s.slot.site
    if !edgeForm a then .fault 0x11 a
    else match tlbFind s.curTile.dtlb s.curTile.region now va k with
      | some e => (s.touchData s.slot.site e).result rd (probeWord now (some e) 0 0)
      | none => match s.cur.probed with
        | some w => s.lateResult rd w
        | none => .wait (fun s => s.askProbe va k false))

/-- LRENEW (R270): Walks ga afresh from memory and replaces cached entries. -/
def execLrenew (rd ra rb : BitVec 6) (wa wb : BitVec 1) (s : State) : Out :=
  issue { wf := (Instr.lrenew rd ra rb wa wb).wf, srcs := [(ra, wt wa), (rb, wt wb)], dsts := [rd] } s (fun v s =>
    let a := v0 v
    if !edgeForm a then .fault 0x11 a
    else match s.cur.probed with
      | some w => s.lateResult rd w
      | none => .wait (fun s => s.askProbe (fld a 0 56) (pageKind (v1 v)) true))

/-- Two ranges of virtual addresses overlap. -/
def rangesMeet (lo hi a n : Nat) : Bool := decide (lo < hi ∧ a < hi ∧ lo < a + n)

/-- TDROP (R270): Drops the tile's TLB and invariant-cache entries in a VA range. -/
def execTdrop (ra rb : BitVec 6) (wa wb : BitVec 1) (s : State) : Out :=
  issue { wf := (Instr.tdrop ra rb wa wb).wf, srcs := [(ra, wt wa), (rb, wt wb)] } s (fun v s =>
    let a := v0 v
    let lo := fld a 0 56
    let hi := Nat.min (lo + (v1 v).toNat) (2 ^ 56)
    if !edgeForm a then .fault 0x11 a
    else .ok (s.updCurTile (fun x => { x with
      itlb := x.itlb.filter (fun e => !rangesMeet lo hi e.va (2 ^ e.lg))
      dtlb := x.dtlb.filter (fun e => !rangesMeet lo hi e.va (2 ^ e.lg))
      inv := x.inv.filter (fun l => !(bit l.addr 63 && rangesMeet lo hi (fld l.addr 0 56) 64)) })).retire)

end Sys2Proof.Machine
end

