-- ==== Sys2Proof/Machine/Queue.lean ====
section
/-! DEFINITION. Messages, ports, handlers, receive counters and triggered sends: the instructions of R302 to R306, the rings the
device writes (R408), and the events that carry messages (R288 to R301). -/
namespace Sys2Proof.Machine

/-! ### Sending (R302, R303) -/

/-- Fields of a message descriptor word (R284). -/
def mdwKind (h : Word) : Nat := fld h 37 3
def mdwLen (h : Word) : Nat := 8 * fld h 32 5
def mdwArg (h : Word) : Nat := fld h 40 24
def pwCount (p : Word) : Nat := fld p 57 6 + 1
def pwOff (p : Word) : Nat := fld p 0 21

/-- The ARG bits of a kind that must be zero are zero (R285). -/
def argOk (kind arg : Nat) : Bool :=
  match kind with
  | 0 => arg / 2 ^ 13 == 0
  | 1 => arg / 2 ^ 23 == 0
  | 2 => arg / 2 ^ 6 == 0
  | 3 => arg / 2 ^ 8 == 0
  | _ => false

/-- The queue-operand checks of R303 on the descriptor and payload words; `coords` when ga[15:0] must be zero. -/
def State.sendOperandsOk (s : State) (h p : Word) (kinds : List Nat) (maxLen : Nat) (coords : Bool) : Bool :=
  let x := s.curTile
  fld h 16 16 == 0 && kinds.contains (mdwKind h) && argOk (mdwKind h) (mdwArg h) && decide (mdwLen h ≤ maxLen) &&
  (!coords || fld h 0 16 == 0) &&
  fld p 37 20 == 0 && !bit p 63 && fld p 29 8 == x.row && fld p 21 8 == x.col && pwOff p % 8 == 0 &&
  decide (pwOff p + pwCount p * mdwLen h ≤ (if s.cur.mon then 0x180000 else 0x170000))

/-- A PUT stays below the monitor range of its destination (R303). -/
def putRangeOk (h p : Word) : Bool :=
  mdwKind h != 1 || decide (8 * fld h 40 18 + pwCount p * mdwLen h ≤ 0x170000)

/-- Check a destination tile under R209 items 3 and 6: its site, or the fault with the address that names it. -/
def State.sendDest (s : State) (t col row : Nat) : Except (Nat × Word) Nat :=
  let a : Word := BitVec.ofNat 64 (row * 2 ^ 29 + col * 2 ^ 21)
  match s.placeFrom t col row with
  | .site u => .ok u
  | .hole => .error (0x14, a)
  | .outside => .error (0x11, a)

/-- Payload doublewords read from the own slice. -/
def State.payload (s : State) (t off len : Nat) : List Word :=
  (List.range (len / 8)).map (fun i => BitVec.ofNat 64 (s.spmRead t (off + 8 * i) 8))

/-- Header and payload of message i of an instruction (R303). -/
def State.message (s : State) (t : Nat) (h p : Word) (i : Nat) : Word × List Word :=
  let len := mdwLen h
  (if mdwKind h = 1 then h + BitVec.ofNat 64 (i * (len / 8)) <<< 40 else h, s.payload t (pwOff p + i * len) len)

/-- Send the n messages of one instruction in order (R303). -/
def State.sendAll (s : State) (t c : Nat) (h p : Word) (dst : Dst) (col row : Nat) : State :=
  (List.range (pwCount p)).foldl (fun s i => let m := s.message t h p i; s.sendMsg t c m.1 m.2 dst row col) s

/-! ### Counting and firing (R298 to R300) -/

/-- The destination of a triggered send as it fires; a tile that has died since is an address hole, and what is for it is discarded (R96). -/
def State.triggerDst (s : State) (t : Nat) (h : Word) : Option Dst :=
  if mdwKind h = 3 then some (.island (s.homeOf t))
  else match s.placeFrom t (fld h 0 8) (fld h 8 8) with
    | .site u => some (.tile u)
    | _ => none

/-- A triggered send fires: it reads its payload, and its messages join the buffer at their place in the order of R289, even on a held tile
(R300, R307). They hold places while there are enough, and go at TRIGGERED_SEND_INJECT. A payload that cannot be read is not sent (log
entry 24). -/
def State.fire (s : State) (t : Nat) (f : Trigger) : State :=
  let n := pwCount f.pw
  if s.uncorrectable t (pwOff f.pw) (n * mdwLen f.mdw) then
    s.tileEvent t 0x44 0 0 0 (BitVec.ofNat 64 (0x16 + 2 ^ 8 * 15)) ((s.tile t).addrOf (pwOff f.pw))
  else match s.triggerDst t f.mdw with
    | none => s
    | some d =>
      let st : RetState := if n ≤ (s.tile t).retFree then .held else .formed
      let s1 := (List.range n).foldl (fun s i =>
        let m := s.message t f.mdw f.pw i
        s.fresh.2.keep t { s.msgEntry t f.ctx m.1 m.2 d (fld f.mdw 8 8) (fld f.mdw 0 8) with state := st, mark := f.mark }) s
      (s1.updTile t (fun x => x.updQ (fun q => { q with fired := q.fired ++ [(s.nextId, n)] }))).later .triggeredSendInject { a := t }

/-- A counter fires: the handler start is queued, its waiting sends fire in the order of arming (R300). -/
def State.fireCounter (s : State) (t n : Nat) : State :=
  let x := s.tile t
  let c := x.q.counter n
  let mine := x.q.triggers.filter (fun y => y.counter == n)
  let start : QItem := { kind := 1, hidx := c.hidx, hdr := BitVec.ofNat 128 n, stamp := BitVec.ofNat 64 c.value }
  let s := s.updTile t (fun x => x.updQ (fun q => { q with
    dispatchQ := if c.hv then q.dispatchQ ++ [start] else q.dispatchQ
    triggers := q.triggers.filter (fun y => y.counter != n) }))
  let s := if c.hv then s.later .dispatch { a := t } else s
  mine.foldl (fun s f => s.fire t f) s

/-- Count an accepted message: TSR takes its stamp in, VALUE saturates, the threshold is tested (R278, R299, R300). -/
def State.countMsg (s : State) (t n len : Nat) (ss : Word) : State :=
  let (_, s) := s.receive t ss
  let c := (s.tile t).q.counter n
  let v := Nat.min (2 ^ 40 - 1) (c.value + (if c.messages then 1 else len))
  let hit := decide (c.state = 1 ∧ c.thr ≤ v)
  let s := s.updTile t (fun x => x.updQ (fun q => q.setCounter n { c with value := v, state := if hit then 2 else c.state }))
  if hit then s.fireCounter t n else s

/-- A direct send: the checks of R303, then the messages once their retention entries are free. A payload word with an
uncorrectable error is a precise fault (log entry 24). -/
def State.sendNow (s : State) (h p : Word) (dest : Except (Nat × Word) (Dst × Nat × Nat)) : Act :=
  let t := s.slot.site
  match dest with
  | .error e => .fault e.1 e.2
  | .ok (d, col, row) =>
    if !putRangeOk h p then .fault 0x21 0
    else if s.curTile.retFree < pwCount p then .wait id
    else if s.accessHeld then .wait id
    else if s.uncorrectable t (pwOff p) (pwCount p * mdwLen h) then .fault 0x16 ((s.curTile).addrOf (pwOff p))
    else .ok (s.sendAll t s.slot.ctx h p d col row).retire

/-- send and sendh: the destination is named in ga. -/
def sendTo (i : Instr) (kinds : List Nat) (maxLen : Nat) (ra rb : BitVec 6) (wa wb : BitVec 1) (s : State) : Out :=
  issue { wf := i.wf, srcs := [(ra, wt wa), (rb, wt wb)] } s (fun v s =>
    let h := v0 v
    if !s.sendOperandsOk h (v1 v) kinds maxLen false then .fault 0x21 0
    else s.sendNow h (v1 v) (match s.sendDest s.slot.site (fld h 0 8) (fld h 8 8) with
      | .error e => .error e
      | .ok u => .ok (.tile u, fld h 0 8, fld h 8 8)))

/-- send.n, send.e, send.s and send.w: the neighbour inside the region. -/
def sendNear (i : Instr) (dir : Nat) (ra rb : BitVec 6) (wa wb : BitVec 1) (s : State) : Out :=
  issue { wf := i.wf, srcs := [(ra, wt wa), (rb, wt wb)] } s (fun v s =>
    let h := v0 v
    let x := s.curTile
    let d := s.dims s.slot.site
    if !s.sendOperandsOk h (v1 v) [0, 1] 240 true then .fault 0x21 0
    else match neighbour x.col x.row dir with
      | none => .fault 0x21 0
      | some (c, r) =>
        if d.1 ≤ c ∨ d.2 ≤ r then .fault 0x21 0
        else s.sendNow h (v1 v) (match s.sendDest s.slot.site c r with
          | .error e => .error e
          | .ok u => .ok (.tile u, c, r)))

/-- SEND (R303): Sends PORT or PUT messages to the tile named in the MDW. -/
def execSend (ra rb : BitVec 6) (wa wb : BitVec 1) (s : State) : Out :=
  sendTo (.send ra rb wa wb) [0, 1] 240 ra rb wa wb s

/-- SENDH (R303): Sends active messages to a handler of the named tile. -/
def execSendh (ra rb : BitVec 6) (wa wb : BitVec 1) (s : State) : Out :=
  sendTo (.sendh ra rb wa wb) [2] 32 ra rb wa wb s

/-- SEND_N (R303): Sends to the north neighbour. -/
def execSendN (ra rb : BitVec 6) (wa wb : BitVec 1) (s : State) : Out :=
  sendNear (.sendN ra rb wa wb) 0 ra rb wa wb s

/-- SEND_E (R303): Sends to the east neighbour. -/
def execSendE (ra rb : BitVec 6) (wa wb : BitVec 1) (s : State) : Out :=
  sendNear (.sendE ra rb wa wb) 1 ra rb wa wb s

/-- SEND_S (R303): Sends to the south neighbour. -/
def execSendS (ra rb : BitVec 6) (wa wb : BitVec 1) (s : State) : Out :=
  sendNear (.sendS ra rb wa wb) 2 ra rb wa wb s

/-- SEND_W (R303): Sends to the west neighbour. -/
def execSendW (ra rb : BitVec 6) (wa wb : BitVec 1) (s : State) : Out :=
  sendNear (.sendW ra rb wa wb) 3 ra rb wa wb s

/-- HMSG (R302): Sends HOST messages to the home island. -/
def execHmsg (ra rb : BitVec 6) (wa wb : BitVec 1) (s : State) : Out :=
  issue { wf := (Instr.hmsg ra rb wa wb).wf, srcs := [(ra, wt wa), (rb, wt wb)] } s (fun v s =>
    if !s.sendOperandsOk (v0 v) (v1 v) [3] 240 true then .fault 0x21 0
    else s.sendNow (v0 v) (v1 v) (.ok (.island (s.homeOf s.slot.site), 0, 0)))

/-- TSEND (R303): Arms a triggered send on a receive counter. -/
def execTsend (n : BitVec 4) (ra rb : BitVec 6) (wa wb : BitVec 1) (s : State) : Out :=
  issue { wf := (Instr.tsend n ra rb wa wb).wf, srcs := [(ra, wt wa), (rb, wt wb)] } s (fun v s =>
    let h := v0 v
    let t := s.slot.site
    let k := mdwKind h
    if !s.sendOperandsOk h (v1 v) [0, 1, 2, 3] (if k = 2 then 32 else 240) (k == 3) then .fault 0x21 0
    else match (if k = 3 then .ok 0 else s.sendDest t (fld h 0 8) (fld h 8 8)) with
      | .error e => .fault e.1 e.2
      | .ok _ =>
        if !putRangeOk h (v1 v) then .fault 0x21 0
        else
          let q := s.curTile.q
          let e : Trigger := { counter := n.toNat, order := q.armed, mdw := h, pw := v1 v, ctx := s.slot.ctx, mark := s.nextId }
          if 16 ≤ q.triggers.length then .fault 0x23 0
          else if s.accessHeld then .wait id
          else if (q.counter n.toNat).state = 2 then .ok (s.fire t e).retire
          else .ok (s.updCurTile (fun x => x.updQ (fun q => { q with triggers := q.triggers ++ [e], armed := q.armed + 1 }))).retire)

/-! ### Ports (R291 to R293, R304) -/

/-- A PORTCFG value meets R291 for port p (0 to 7). -/
def portcfgOk (p : Nat) (w : Word) : Bool :=
  if !cfgV w then w == 0
  else
    let vc := cfgVc w
    fld w 37 3 == 0 && fld w 19 12 == 0 &&
    (if p < 4 then (vc == 2 || vc == 4 || vc == 7) && fld w 48 16 == 0 && cfgNel w == 0 && fld w 0 16 == 0 && (vc != 7 || cfgTag w == 0)
     else (vc == 2 || vc == 7) && fld w 53 11 == 0 && decide (1 ≤ cfgNel w ∧ cfgNel w ≤ 30) &&
       (vc != 7 || (cfgNel w == 1 && cfgTag w == 0 && fld w 0 16 == 0)))

/-- Another input port is bound to the same VC and TAG (R304). -/
def Queues.boundTwice (q : Queues) (p : Nat) (w : Word) : Bool :=
  decide (p < 4) && cfgV w &&
  (List.range 4).any (fun k => k != p && cfgV (q.cfg k) && cfgVc (q.cfg k) == cfgVc w && cfgTag (q.cfg k) == cfgTag w)

/-- The input port bound to a VC and a TAG. -/
def Queues.portFor (q : Queues) (vc tag : Nat) : Option Nat :=
  (List.range 4).find? (fun p => cfgV (q.cfg p) && cfgVc (q.cfg p) == vc && cfgTag (q.cfg p) == tag)

/-- The elements of a PORT message: its slots are freed with the last one (R288). -/
def portElems (payload : List Word) (stamp : Word) (slots : Nat) : List PElem :=
  payload.zipIdx.map (fun e => { val := e.1, stamp := stamp, slots := if e.2 + 1 = payload.length then slots else 0 })

/-- A PORT item joins a port queue. A message without payload leaves the inbox at once. -/
def Queues.joinPort (q : Queues) (p : Nat) (i : QItem) : Queues :=
  { q with inq := fset [] q.inq p (q.inq? p ++ portElems i.payload i.stamp i.slots),
           used := if i.payload.isEmpty then q.used - i.slots else q.used }

/-- A parked PORT item has this TAG. -/
def QItem.hasTag (i : QItem) (tag : Nat) : Bool := i.kind == 2 && fld i.hdr 104 8 == tag

/-- A new binding of an input port takes the parked PORT messages of its TAG back, in order (R292, R296). -/
def Queues.takeBack (q : Queues) (p : Nat) (w : Word) : Queues :=
  if p < 4 ∧ cfgV w ∧ cfgVc w = 2 then
    let tag := cfgTag w
    let mine := (q.unclaimed ++ q.dispatchQ).filter (fun i => i.hasTag tag)
    mine.foldl (fun q i => q.joinPort p i)
      { q with unclaimed := q.unclaimed.filter (fun i => !i.hasTag tag), dispatchQ := q.dispatchQ.filter (fun i => !i.hasTag tag) }
  else q

/-- QCFG (R304): Binds or unbinds a port register, flushing gathered elements. -/
def execQcfg (ra : BitVec 6) (n : BitVec 3) (wa : BitVec 1) (s : State) : Out :=
  issue { wf := (Instr.qcfg ra n wa).wf, srcs := [(ra, wt wa)] } s (fun v s =>
    let w := v0 v
    let t := s.slot.site
    let p := n.toNat
    let q := s.curTile.q
    let old := fget [] q.gathered p
    if !portcfgOk p w || q.boundTwice p w then .fault 0x21 0
    else match (if 4 ≤ p ∧ cfgV w ∧ cfgVc w = 2 then s.sendDest t (fld w 0 8) (fld w 8 8) else .ok 0) with
      | .error e => .fault e.1 e.2
      | .ok _ =>
        -- the gathered elements leave first, as one message (R304)
        if !old.isEmpty && (s.curTile.retFree == 0 || old.any (fun e => e.1 != 0)) then .wait id
        else
          let s := if old.isEmpty then s else s.flushPort t s.slot.ctx p old.length
          .ok (s.updCurTile (fun x => x.updQ (fun q => { q with portcfg := fset 0 q.portcfg p w }.takeBack p w))).retire)

/-! ### The handler table (R294 to R297, R305) -/

/-- A handler entry passes the checks of hset. -/
def handlerOk (w : Word) : Bool :=
  fld w 56 4 == 0 && fld w 0 2 == 0 && (bit w 62 || (fld w 21 35 == 0 && decide (fld w 2 19 * 4 < 0x170000)))

/-- HSET (R305): Writes a handler-table entry and returns parked items. -/
def execHset (ra : BitVec 6) (n : BitVec 6) (wa : BitVec 1) (s : State) : Out :=
  issue { wf := (Instr.hset ra n wa).wf, srcs := [(ra, wt wa)] } s (fun v s =>
    let w := v0 v
    let t := s.slot.site
    if !handlerOk w then .fault 0x21 0
    else
      let mine (i : QItem) : Bool := i.kind != 2 && i.hidx == n.toNat
      let back := if bit w 63 then s.curTile.q.unclaimed.filter mine else []
      let s := s.updCurTile (fun x => x.updQ (fun q => { q with
        handlers := fset 0 q.handlers n.toNat w
        dispatchQ := q.dispatchQ ++ back
        unclaimed := if bit w 63 then q.unclaimed.filter (fun i => !mine i) else q.unclaimed }))
      .ok (back.foldl (fun s _ => s.later .dispatch { a := t }) s).retire)

/-- HCLR (R305): Clears a handler-table entry. -/
def execHclr (n : BitVec 6) (s : State) : Out :=
  issue { wf := (Instr.hclr n).wf } s (fun _ s =>
    .ok (s.updCurTile (fun x => x.updQ (fun q => { q with handlers := fset 0 q.handlers n.toNat 0 }))).retire)

/-- HSEAL (R305): Seals the handler table. -/
def execHseal  (s : State) : Out :=
  issue { wf := Instr.hseal.wf } s (fun _ s =>
    .ok (s.updCurTile (fun x => x.updQ (fun q => { q with isSealed := true }))).retire)

/-- Park an item, or discard it with its slots when 64 are parked already; the event goes home (R292, R296, R409). -/
def State.park (s : State) (t : Nat) (i : QItem) : State :=
  let q := (s.tile t).q
  let full := decide (64 ≤ q.unclaimed.length)
  let s := s.updTile t (fun x => x.updQ (fun q =>
    if full then { q with used := q.used - i.slots } else { q with unclaimed := q.unclaimed ++ [i] }))
  let h : Word := if i.kind = 1 then 0 else i.hdr.extractLsb' 64 64
  let code := if i.kind = 2 then 0x43 else 0x42
  let a0 : Word := if i.kind = 2 then BitVec.ofNat 64 (fld i.hdr 104 8) else BitVec.ofNat 64 i.hidx
  -- a counter start has no source tile
  s.tileEvent t code (if full then 1 else 0) (fld h 16 8) (fld h 24 8) a0 h

/-- HOPEN (R305): Opens the handler table. -/
def execHopen  (s : State) : Out :=
  issue { wf := Instr.hopen.wf } s (fun _ s =>
    let t := s.slot.site
    -- PORT messages that no port took while the table was sealed are parked now
    let wait := s.curTile.q.dispatchQ.filter (fun i => i.kind == 2)
    let s := s.updCurTile (fun x => x.updQ (fun q => { q with isSealed := false, dispatchQ := q.dispatchQ.filter (fun i => i.kind != 2) }))
    let s := wait.foldl (fun s i => s.park t i) s
    .ok (s.curTile.q.dispatchQ.foldl (fun s _ => s.later .dispatch { a := t }) s).retire)

/-! ### Counters (R298, R299, R306) -/

/-- RCARM (R306): Configures and arms a receive counter. -/
def execRcarm (ra : BitVec 6) (n : BitVec 4) (wa : BitVec 1) (s : State) : Out :=
  issue { wf := (Instr.rcarm ra n wa).wf, srcs := [(ra, wt wa)] } s (fun v s =>
    let w := v0 v
    let t := s.slot.site
    if fld w 40 15 ≠ 0 then .fault 0x21 0
    else
      let old := s.curTile.q.counter n.toNat
      let value := if bit w 63 then 0 else old.value
      let thr := fld w 0 40
      let st : Nat := if thr = 0 then 0 else if thr ≤ value then 2 else 1
      let c : Counter := { value := value, thr := thr, messages := bit w 55, hv := bit w 62, hidx := fld w 56 6, state := st }
      let s := s.updCurTile (fun x => x.updQ (fun q => q.setCounter n.toNat c))
      .ok (if st = 2 then s.fireCounter t n.toNat else s).retire)

/-- The status word of a counter (R298). -/
def Queues.counterStatus (q : Queues) (n : Nat) : Word :=
  let c := q.counter n
  BitVec.ofNat 64 (c.value + 2 ^ 40 * c.state + 2 ^ 42 * (q.triggers.filter (fun y => y.counter == n)).length)

/-- RCRD (R306): Reads a receive counter's status word. -/
def execRcrd (rd : BitVec 6) (n : BitVec 4) (s : State) : Out :=
  issue { wf := (Instr.rcrd rd n).wf, dsts := [rd] } s (fun _ s => s.result rd (s.curTile.q.counterStatus n.toNat))

/-- TCANCEL (R306): Frees the triggered sends waiting on a counter. -/
def execTcancel (rd : BitVec 6) (n : BitVec 4) (s : State) : Out :=
  issue { wf := (Instr.tcancel rd n).wf, dsts := [rd] } s (fun _ s =>
    let k := (s.curTile.q.triggers.filter (fun y => y.counter == n.toNat)).length
    (s.updCurTile (fun x => x.updQ (fun q => { q with triggers := q.triggers.filter (fun y => y.counter != n.toNat) }))).result rd (BitVec.ofNat 64 k))

/-! ### Events: acceptance and refusal (R288, R289, R292, R301) -/

/-- The destination is a tile that has died or was reset: what is on its way there stays retained until the hack (R96). -/
def State.goesNowhere (s : State) (d : Dst) : Bool :=
  match d with
  | .tile u => (s.tile u).lost
  | _ => false

/-- The entry of an event, if it is on its way. -/
def State.flying (s : State) (t id : Nat) : Option Ret :=
  match s.entry t id with
  | some e => if decide (e.state = .flying) && !s.goesNowhere e.dst then some e else none
  | none => none

/-- No earlier message of the source on this VC to this destination waits to be accepted (R288, R289). -/
def Queues.firstOf (q : Queues) (e : Ret) : Bool :=
  !(q.before e.id).any (fun y => y.body.vc == e.body.vc && y.dst.same e.dst && decide (y.state ≠ .done))

/-- A flit of an acknowledgement or a refusal goes back (R288, R440). -/
def State.backFlit (s : State) (e : Ret) : State :=
  match e.dst with
  | .tile u => s.updTile u (fun x => { x with counts := fset 0 x.counts 9 (fget 0 x.counts 9 + 1) })
  | _ => s

/-- Note whether a destination is refusing what a source sends on a VC (R288). -/
def State.noteRefusing (s : State) (t : Nat) (e : Ret) (on : Bool) : State :=
  match e.dst with
  | .tile u =>
    let key := (t, e.body.vc)
    s.updTile u (fun x => x.updQ (fun q => { q with refusing := q.refusing.filter (· != key) ++ (if on then [key] else []) }))
  | .island _ =>
    let i := s.homeOf t
    s.setIsland i { s.island i with refusing := (s.island i).refusing.filter (· != t) ++ (if on then [t] else []) }
  | _ => s

/-- The destination, or a gate on the way, refuses a message: the refusal is on its way back (R288, R431). -/
def State.refuse (s : State) (t : Nat) (e : Ret) : State :=
  ((s.noteRefusing t e true).backFlit e).sendBack t e.dst .messageRefusal { a := t, b := e.id }

/-- The destination accepts a message: its acknowledgement is on its way back (R288). -/
def State.accept (s : State) (t : Nat) (e : Ret) : State :=
  ((((s.noteRefusing t e false).backFlit e).setEntry t { e with state := .done })).sendBack t e.dst .acknowledgement { a := t, b := e.id }

/-- The destination tile must refuse a message: an earlier one of its source on its VC is not accepted yet (R288, R289), or the tile is
halted, and its messages stay with their sources (R120). -/
def State.mustRefuse (s : State) (t u : Nat) (e : Ret) : Bool := (s.tile u).halted || !(s.tile t).q.firstOf e

/-- The destination tile turns a message away: it must refuse it, its inbox lacks the slots (R288), or the hack has found the message
partly arrived (R307). -/
def State.turnsAway (s : State) (t u slots : Nat) (e : Ret) : Bool :=
  s.mustRefuse t u e || decide (1024 < (s.tile u).q.used + slots) || ((s.tile u).held && decide (1 < e.flits) && Config.partArrived s.draws)

/-- The address a request names, or zero for a queue message (R409). -/
def Body.target (b : Body) : Word :=
  match b with
  | .load a _ => a
  | .store a _ _ => a
  | .row a _ _ => a
  | .atomic a _ _ _ _ => a
  | _ => 0

/-- The KIND a message carries (R285, R314, R339, R353, R354); a launch request has none of its own in R314 and goes as a HOST message
does (log entry 46). -/
def Body.wireKind (b : Body) : Nat :=
  match b with
  | .load _ n => if n = 64 then 7 else 4
  | .store _ _ _ => 5
  | .row _ _ _ => 5
  | .atomic _ _ _ _ _ => 6
  | .msg h _ => fld h 101 3
  | .xread _ _ => 5
  | .coll up _ _ _ _ _ => if up then 4 else 5
  | .kq _ => 3
  | _ => 4

/-- The KIND of the reply to a request (R314): data, an acknowledgement, or an error reply. -/
def Ret.replyKind (e : Ret) : Nat :=
  if e.code ≠ 0 then 7
  else match e.body with
    | .load _ _ => 4
    | .atomic _ _ _ _ _ => 4
    | .xread _ _ => 4
    | .kq _ => 4
    | _ => 5

/-- The request address of an entry, or zero for a queue message (R409): of transfer data and of a transfer read, where they go. -/
def State.requestAddr (s : State) (e : Ret) : Word :=
  match e.body, e.dst with
  | .seg off _ _, .tile u => (s.tile u).addrOf off
  | .xread off _, .tile u => (s.tile u).addrOf off
  | b, _ => b.target

/-- The seal condition's notice to the home island (R409, R446): the message's VC and KIND. -/
def State.sealNotice (s : State) (t : Nat) (e : Ret) (vc kind : Nat) : State :=
  s.tileEvent t 0x32 0 0 0 (s.requestAddr e) (BitVec.ofNat 64 (vc + 256 * kind))

/-- A gate answers a message whose tag has failed three times with an error reply that carries the seal code (R431). -/
def State.sealError (s : State) (t : Nat) (e : Ret) (vc kind : Nat) : State :=
  ((s.setEntry t { e with state := .done, code := 0x32 }).sealNotice t e vc kind).answer t { e with code := 0x32 }

/-- What follows a tag that does not verify at a gate (R431): the failure counts as a correctable error of the gate's site; the message is
refused and sent again, at its place in the order of R313, or after three failures answered with the seal code. -/
def State.sealFail (s : State) (t g : Nat) (e : Ret) : Out :=
  let s := s.countCec g 1
  let e := { e with sealFails := e.sealFails + 1 }
  if 3 ≤ e.sealFails then .next (s.sealError t e e.body.vc e.body.wireKind)
  else if e.body.isQueued then .next ((s.setEntry t e).refuse t e)
  else notYet (s.setEntry t e)

/-- A message or a request reaches its destination: when every gate on the way has opened it (R317, R431). -/
def atHome (s : State) (k : Ret → Out) : Out :=
  match s.flying s.ev.a s.ev.b with
  | none => .next s
  | some e => match s.sealHit s.ev.a e.dst with
    | some g => s.sealFail s.ev.a g e
    | none => k e

/-- What comes back to a tile has been opened by every gate on the way; a reply whose tag fails is sent again, and after three failures of
it comes with the seal code (R317, R431). -/
def backHome (s : State) (e : Ret) (kind : Nat) (k : State → Ret → Out) : Out :=
  match (if e.code = 0x32 then none else s.sealHitBack s.ev.a e.dst) with
  | some g =>
    let s := s.countCec g 1
    let e := { e with backFails := e.backFails + 1 }
    if 3 ≤ e.backFails then k (s.sealNotice s.ev.a e 1 kind) { e with code := 0x32 } else notYet (s.setEntry s.ev.a e)
  | none => k s { e with backFails := 0 }

/-- Count a message when its CNT bit asks for it: the bit and the counter index by kind (R285). -/
def State.countIf (s : State) (u : Nat) (h : BitVec 128) (ss : Word) : State :=
  let arg := fld h 104 24
  let len := 8 * fld h 96 5
  if fld h 101 3 = 0 ∧ arg.testBit 12 then s.countMsg u (arg / 2 ^ 8 % 16) len ss
  else if fld h 101 3 = 1 ∧ arg.testBit 22 then s.countMsg u (arg / 2 ^ 18 % 16) len ss
  else s

/-- PORT_MESSAGE (R292): An accepted PORT message's elements join the matching input port. Operands: a = t, b = id. -/
def execPortMessage (s : State) : Out :=
  let t := s.ev.a
  atHome s (fun e => match e.body, e.dst with
    | .msg h p, .tile u =>
      if s.turnsAway t u e.flits e then .next (s.refuse t e)
      else
        let q := (s.tile u).q
        let i : QItem := { kind := 2, hdr := h, payload := p, slots := e.flits, stamp := e.stamp }
        let s := s.updTile u (fun x => x.updQ (fun q => { q with used := q.used + e.flits }))
        let s := match q.portFor 2 (fld h 104 8) with
          | some k => s.updTile u (fun x => x.updQ (fun q => q.joinPort k i))
          | none => if q.isSealed then s.updTile u (fun x => x.updQ (fun q => { q with dispatchQ := q.dispatchQ ++ [i] })) else s.park u i
        .next ((s.countIf u h e.stamp).accept t e)
    | _, _ => .next s)

/-- PUT_MESSAGE (R288): A PUT is written to the destination SPM and counted. Operands: a = t, b = id. -/
def execPutMessage (s : State) : Out :=
  let t := s.ev.a
  atHome s (fun e => match e.body, e.dst with
    | .msg h p, .tile u =>
      if s.turnsAway t u 0 e then .next (s.refuse t e)
      else
        let off := 8 * fld h 104 18
        let s := p.zipIdx.foldl (fun s x => s.spmStore u (off + 8 * x.2) 8 x.1.toNat) s
        .next ((s.countIf u h e.stamp).accept t e)
    | _, _ => .next s)

/-- AM_MESSAGE (R295): An accepted active message joins the dispatch queue. Operands: a = t, b = id. -/
def execAmMessage (s : State) : Out :=
  let t := s.ev.a
  atHome s (fun e => match e.body, e.dst with
    | .msg h p, .tile u =>
      if s.turnsAway t u e.flits e then .next (s.refuse t e)
      else
        let i : QItem := { kind := 0, hidx := fld h 104 6, hdr := h, payload := p, slots := e.flits, stamp := e.stamp }
        let s := s.updTile u (fun x => x.updQ (fun q => { q with used := q.used + e.flits, dispatchQ := q.dispatchQ ++ [i] }))
        .next ((s.later .dispatch { a := u }).accept t e)
    | _, _ => .next s)

/-- The status word of the march routine, stored at 0x17_7FF8 and sent as the payload of its HOST message (R482). -/
def marchWord (bankx sent : Nat) (rskip : Bool) (rmask : Nat) : Word :=
  BitVec.ofNat 64 (2 ^ 40 * (bankx % 2 ^ 23) + 2 ^ 33 * (sent % 2 ^ 7) + (if rskip then 2 ^ 32 else 0) + rmask % 2 ^ 32)

/-- The fields of the status word (R482). -/
def marchBankx (w : Word) : Nat := fld w 40 23
def marchSent (w : Word) : Nat := fld w 33 7
def marchRskip (w : Word) : Bool := bit w 32
def marchRmask (w : Word) : Nat := fld w 0 32

/-- The status word that the routine leaves on a site: its register part runs only where RFBAD and entries 0 and 1 of REPTAB are zero (R481, R482). -/
def Site.marchStatus (x : Site) (rskip : Bool) : Word :=
  let bad (b : Nat) : Nat := (x.badSpm.filter (fun e => e.1 == b)).length
  marchWord ((List.range 23).foldl (fun n b => n + (if 4 < bad b then 2 ^ b else 0)) 0)
    ((List.range 23).foldl (fun n b => n + min 4 (bad b)) 0) rskip (if rskip then 0 else x.badRows.toNat / 2 ^ 15)

/-- Boot firmware grades a site from the status word, then resets the tile, which keeps REPTAB (R483). -/
def State.gradeMarch (s : State) (t : Nat) (w : Word) : State :=
  let n := ((List.range 32).filter (fun i => bit w i)).length
  if marchBankx w ≠ 0 then s.setSite t { s.site t with state := some .dead }
  else if 3 ≤ n ∧ n ≤ 18 then
    ((s.setSite t { s.site t with reduced := true }).updTile t (fun x => { x with rfbad := BitVec.ofNat 57 (2 ^ 15 * marchRmask w) })).later .tileReset { a := t }
  else (s.setSite t { s.site t with reduced := false }).later .tileReset { a := t }

/-- The firmware of an island takes what a tile of no region sends it: one payload word is a status word of the march routine (R479, R482, R483;
DESIGN CHOICE, log entry 107). -/
def State.bootMessage (s : State) (isl t : Nat) (h : BitVec 128) (p : List Word) : State :=
  let s := s.setIsland isl { s.island isl with bootQueue := (s.island isl).bootQueue ++ [(h, p)] }
  match p with
  | [w] => s.gradeMarch t w
  | _ => s

/-- HOST_MESSAGE (R301): The island places a HOST message in the host-queue ring. Operands: a = t, b = id. -/
def execHostMessage (s : State) : Out :=
  let t := s.ev.a
  atHome s (fun e => match e.body, e.dst with
    | .msg h p, .island _ =>
      -- a failed island's messages are retried to the new home (R410)
      let isl := s.homeOf t
      let r := (s.tile t).region
      if s.islandDown isl || (r != 0 && (s.ring (hostRing r)).full) || !(s.tile t).q.firstOf e || !s.vc6Turn t e.id then .next (s.refuse t e)
      -- a tile of no region talks to the firmware of its field's island (R479)
      else if r = 0 then .next ((s.bootMessage isl t h p).accept t e)
      else
        let v := h.toNat + p.zipIdx.foldl (fun acc x => acc + x.1.toNat * 2 ^ (128 + 64 * x.2)) 0
        .next (((s.ringWrite (hostRing r) v).interruptRegion r 1).accept t e)
    | _, _ => .next s)

/-- MESSAGE_REFUSAL (R288): A refusal makes the source keep the message and hold later ones: the first of its VC and destination is injected
again, one refused in its turn is held behind it. Operands: a = t, b = id. -/
def execMessageRefusal (s : State) : Out :=
  let t := s.ev.a
  match s.flying t s.ev.b with
  | some e => backHome s e 6 (fun s e =>
      -- the gate's error reply stands for a refusal that it cannot pass on
      if e.code ≠ 0 then .next ((s.setEntry t { e with state := .done }).answer t e)
      else if (s.tile t).q.firstOf e then .next ((s.setEntry t { e with state := .refused, again := true }).later .refusedReinject { a := t, b := e.id })
      else .next (s.setEntry t { e with state := .held }))
  | none => .next s

/-- REFUSED_REINJECT (R288): 256 cycles after a refusal the message is injected again. Operands: a = t, b = id. -/
def execRefusedReinject (s : State) : Out :=
  let t := s.ev.a
  match s.entry t s.ev.b with
  | some e =>
    if e.state ≠ .refused ∨ !e.body.isQueued then .next s
    -- nothing is injected by a held tile (R307)
    else if (s.tile t).stopping then notYet s
    else if (s.tile t).q.firstOf e then .next (s.launch t e)
    else .next (s.setEntry t { e with state := .held })
  | none => .next s

/-! ### Events: dispatch and fired sends (R295, R300) -/

/-- The address at which a handler entry starts (R294). -/
def Tile.handlerPc (x : Tile) (w : Word) : Word :=
  if bit w 62 then BitVec.ofNat 64 (2 ^ 63 + fld w 2 54 * 4) else x.addrOf (fld w 2 19 * 4)

/-- The helper context that a dispatch makes (R295). -/
def Tile.helper (x : Tile) (i : QItem) (w : Word) (rs : Word) : Ctx :=
  let y := Ctx.fresh (BitVec.ofNat 2 (fld w 60 2)) (x.handlerPc w)
  let put (y : Ctx) (r : Nat) (v : Word) : Ctx := y.putG false r v
  let y := if i.kind = 1 then put (put y 2 i.stamp) 3 (i.hdr.setWidth 64)
    else put (put (put (put (put y 2 (i.payload.getD 0 0)) 3 (i.payload.getD 1 0)) 4 (i.payload.getD 2 0)) 5 (i.payload.getD 3 0)) 6 (i.hdr.extractLsb' 64 64)
  { y with rstamp := rs }

/-- DISPATCH (R295): The head of the dispatch queue starts a free helper at its handler. Operands: a = t. -/
def execDispatch (s : State) : Out :=
  let t := s.ev.a
  let x := s.tile t
  match x.q.dispatchQ with
  | [] => .next s
  | i :: rest =>
    if x.q.isSealed || x.stopping || x.halted || x.exited then notYet s
    else match x.highFree with
      | none => notYet s
      | some n =>
        let w := fget 0 x.q.handlers i.hidx
        let s := s.updTile t (fun x => x.updQ (fun q => { q with dispatchQ := rest }))
        if i.kind = 2 ∨ !bit w 63 then .next (s.park t i)
        else
          let (rs, s) := if i.kind = 1 then (x.q.tsr, s) else s.receive t i.stamp
          .next (s.updTile t (fun x => (x.updQ (fun q => { q with used := q.used - i.slots })).setCtx n (x.helper i w rs)))

/-- The messages of a fired send. -/
def Tile.firedOf (x : Tile) (f : Nat × Nat) : List Ret := x.q.ret.filter (fun e => decide (f.1 ≤ e.id ∧ e.id < f.1 + f.2))

/-- A fired send may go: the tile is not held, every write it covers is acknowledged (R236), its messages find places, and nothing they
follow is held back (R289, R300, R307). -/
def Tile.mayFire (x : Tile) (f : Nat × Nat) : Bool :=
  let l := x.firedOf f
  match l with
  | [] => true
  | e :: _ => !x.stopping && x.released e.ctx e.mark && decide ((l.filter (fun y => y.state == .formed)).length ≤ x.retFree) &&
      !blockedIn (x.q.before e.id) e.body.vc e.dst

/-- TRIGGERED_SEND_INJECT (R300): A fired send, its payload read, is injected once retention entries are free. Operands: a = t. -/
def execTriggeredSendInject (s : State) : Out :=
  let t := s.ev.a
  let x := s.tile t
  if x.q.fired.isEmpty then .next s
  else match x.q.fired.find? x.mayFire with
    | none => notYet s
    | some f =>
      let s := s.updTile t (fun x => x.updQ (fun q => { q with fired := q.fired.erase f }))
      -- a message of it that went with the one before it, or has gone since, is not sent again
      .next ((x.firedOf f).foldl (fun s e => match s.entry t e.id with
        | some e => if e.state = .held ∨ e.state = .formed then s.release t e else s
        | none => s) s)

end Sys2Proof.Machine
end

