-- ==== Sys2Proof/Machine/VectorInt.lean ====
section
/-! DEFINITION. Vector integers, logic, permutation, broadcast, reduction and carry-less multiply (R162, R163, R165 to R167). -/
namespace Sys2Proof.Machine

/-- Element width of a width field: 8, 16, 32 or 64 bits (R162). -/
def elemWidth (w : BitVec 2) : Nat := 8 * 2 ^ w.toNat

/-- Issue an operation on the lanes of single registers. -/
def viLanes (i : Instr) (readsD : Bool) (vd va vb : BitVec 5) (m : BitVec 3) (w : Nat)
    (f : Nat → Nat → Nat × BitVec 6) (s : State) : Out :=
  vecOp i [va, vb] [vd] readsD m (fun x =>
    let a := x.vread false va.toNat
    let b := x.vread false vb.toNat
    let r := mapLanes (x.mask m.toNat) false w (x.vread false vd.toNat) (fun j => f (lane a w j) (lane b w j))
    (x.vwrite false vd.toNat r.1, r.2)) s

/-- One element of ops 0 to 8 with a prefix, in the order of R152. -/
def intElemOp (md : Modifier) (o : IntOp) (w a b : Nat) : Nat × BitVec 6 :=
  let r := intMod md o w (BitVec.ofNat w a) (BitVec.ofNat w b)
  (r.1.toNat, r.2)

/-- Ops 0 to 8 of 0x22 with a prefix. -/
def viArith (md : Modifier) (i : Instr) (o : IntOp) (vd va vb : BitVec 5) (m : BitVec 3) (w : BitVec 2) (s : State) : Out :=
  viLanes i false vd va vb m (elemWidth w) (intElemOp md o (elemWidth w)) s

/-- The elements whose comparison decides mask bit i, for each width (R162). -/
def cmpElems (w i : Nat) : List Nat :=
  if w = 64 then [i / 2] else (List.range (32 / w)).map (fun k => i * (32 / w) + k)

/-- Whether mask bit i is active: for a 64-bit element its governing bit 2j decides both of its bits (R157, R162). -/
def cmpActive (mask : BitVec 16) (w : Nat) : BitVec 16 :=
  if w = 64 then (List.range 16).foldl (fun acc i => if bit mask (i / 2 * 2) then acc ||| BitVec.twoPow 16 i else acc) 0 else mask

/-- An integer compare into a mask. -/
def viCmp (i : Instr) (f : (w : Nat) → BitVec w → BitVec w → Bool) (md va vb : BitVec 5) (m : BitVec 3) (w : BitVec 2) (s : State) : Out :=
  let n := elemWidth w
  vecCmp i [va, vb] md (fun x =>
    let a := x.vread false va.toNat
    let b := x.vread false vb.toNat
    cmpMask (cmpActive (x.mask m.toNat) n) (x.mask md.toNat) (cmpElems n)
      (fun j => (f n (BitVec.ofNat n (lane a n j)) (BitVec.ofNat n (lane b n j)), 0))) s

/-- A logic or shift operation on elements (R163). -/
def viLogic (i : Instr) (f : (w : Nat) → BitVec w → BitVec w → BitVec w) (vd va vb : BitVec 5) (m : BitVec 3) (w : BitVec 2) (s : State) : Out :=
  let n := elemWidth w
  viLanes i false vd va vb m n (fun a b => ((f n (BitVec.ofNat n a) (BitVec.ofNat n b)).toNat, 0)) s

/-- VADD_I (R162): Integer vector add. -/
def execVaddI (vd va vb : BitVec 5) (m : BitVec 3) (w : BitVec 2) (s : State) : Out :=
  viArith {} (.vaddI vd va vb m w) .add vd va vb m w s

/-- VSUB_I (R162): Integer vector subtract. -/
def execVsubI (vd va vb : BitVec 5) (m : BitVec 3) (w : BitVec 2) (s : State) : Out :=
  viArith {} (.vsubI vd va vb m w) .sub vd va vb m w s

/-- VMUL_I (R162): Integer vector multiply, low half. -/
def execVmulI (vd va vb : BitVec 5) (m : BitVec 3) (w : BitVec 2) (s : State) : Out :=
  viArith {} (.vmulI vd va vb m w) .mul vd va vb m w s

/-- VMULH (R162): Signed vector multiply, high half. -/
def execVmulh (vd va vb : BitVec 5) (m : BitVec 3) (w : BitVec 2) (s : State) : Out :=
  viArith {} (.vmulh vd va vb m w) .mulh vd va vb m w s

/-- VMULHU (R162): Unsigned vector multiply, high half. -/
def execVmulhu (vd va vb : BitVec 5) (m : BitVec 3) (w : BitVec 2) (s : State) : Out :=
  viArith {} (.vmulhu vd va vb m w) .mulhu vd va vb m w s

/-- VMIN_I (R162): Signed vector minimum. -/
def execVminI (vd va vb : BitVec 5) (m : BitVec 3) (w : BitVec 2) (s : State) : Out :=
  viArith {} (.vminI vd va vb m w) .min vd va vb m w s

/-- VMAX_I (R162): Signed vector maximum. -/
def execVmaxI (vd va vb : BitVec 5) (m : BitVec 3) (w : BitVec 2) (s : State) : Out :=
  viArith {} (.vmaxI vd va vb m w) .max vd va vb m w s

/-- VMINU (R162): Unsigned vector minimum. -/
def execVminu (vd va vb : BitVec 5) (m : BitVec 3) (w : BitVec 2) (s : State) : Out :=
  viArith {} (.vminu vd va vb m w) .minu vd va vb m w s

/-- VMAXU (R162): Unsigned vector maximum. -/
def execVmaxu (vd va vb : BitVec 5) (m : BitVec 3) (w : BitVec 2) (s : State) : Out :=
  viArith {} (.vmaxu vd va vb m w) .maxu vd va vb m w s

/-- VCMP_EQ_I (R162): Integer equal compare into a mask. -/
def execVcmpEqI (vd va vb : BitVec 5) (m : BitVec 3) (w : BitVec 2) (s : State) : Out :=
  viCmp (.vcmpEqI vd va vb m w) (fun _ a b => a == b) vd va vb m w s

/-- VCMP_LT_I (R162): Signed less-than compare into a mask. -/
def execVcmpLtI (vd va vb : BitVec 5) (m : BitVec 3) (w : BitVec 2) (s : State) : Out :=
  viCmp (.vcmpLtI vd va vb m w) (fun _ a b => a.slt b) vd va vb m w s

/-- VCMP_LTU (R162): Unsigned less-than compare into a mask. -/
def execVcmpLtu (vd va vb : BitVec 5) (m : BitVec 3) (w : BitVec 2) (s : State) : Out :=
  viCmp (.vcmpLtu vd va vb m w) (fun _ a b => a.ult b) vd va vb m w s

/-- VAND (R163): Vector AND. -/
def execVand (vd va vb : BitVec 5) (m : BitVec 3) (w : BitVec 2) (s : State) : Out :=
  viLogic (.vand vd va vb m w) (fun _ a b => a &&& b) vd va vb m w s

/-- VOR (R163): Vector OR. -/
def execVor (vd va vb : BitVec 5) (m : BitVec 3) (w : BitVec 2) (s : State) : Out :=
  viLogic (.vor vd va vb m w) (fun _ a b => a ||| b) vd va vb m w s

/-- VXOR (R163): Vector XOR. -/
def execVxor (vd va vb : BitVec 5) (m : BitVec 3) (w : BitVec 2) (s : State) : Out :=
  viLogic (.vxor vd va vb m w) (fun _ a b => a ^^^ b) vd va vb m w s

/-- VANDN (R163): Vector AND-NOT. -/
def execVandn (vd va vb : BitVec 5) (m : BitVec 3) (w : BitVec 2) (s : State) : Out :=
  viLogic (.vandn vd va vb m w) (fun _ a b => a &&& ~~~b) vd va vb m w s

/-- VSEL (R163): Selects va or vb by the mask. -/
def execVsel (vd va vb : BitVec 5) (m : BitVec 3) (w : BitVec 2) (s : State) : Out :=
  let n := elemWidth w
  -- the mask selects; every element is written and vd is not read (R158, R163)
  issue { wf := (Instr.vsel vd va vb m w).wf, vsrcs := [va, vb], vdsts := [vd], vec := true } s (fun _ s =>
    .ok (s.updCur (fun x =>
      let a := x.vread false va.toNat
      let b := x.vread false vb.toNat
      x.vwrite false vd.toNat (mapLanes (x.mask m.toNat) false n b (fun j => (lane a n j, 0))).1)).retire)

/-- VSHL (R163): Vector shift left. -/
def execVshl (vd va vb : BitVec 5) (m : BitVec 3) (w : BitVec 2) (s : State) : Out :=
  viLogic (.vshl vd va vb m w) (fun n a b => a <<< (b.toNat % n)) vd va vb m w s

/-- VSHR (R163): Vector logical shift right. -/
def execVshr (vd va vb : BitVec 5) (m : BitVec 3) (w : BitVec 2) (s : State) : Out :=
  viLogic (.vshr vd va vb m w) (fun n a b => a >>> (b.toNat % n)) vd va vb m w s

/-- VSAR (R163): Vector arithmetic shift right. -/
def execVsar (vd va vb : BitVec 5) (m : BitVec 3) (w : BitVec 2) (s : State) : Out :=
  viLogic (.vsar vd va vb m w) (fun n a b => a.sshiftRight (b.toNat % n)) vd va vb m w s

/-- VPERM (R165): Permutes elements of va and old vd by indices in vb. -/
def execVperm (vd va vb : BitVec 5) (m : BitVec 3) (w : BitVec 2) (s : State) : Out :=
  let n := elemWidth w
  let k := laneCount false n
  vecOp (.vperm vd va vb m w) [va, vb] [vd] true m (fun x =>
    let a := x.vread false va.toNat
    let b := x.vread false vb.toNat
    let d := x.vread false vd.toNat
    let r := mapLanes (x.mask m.toNat) false n d (fun j =>
      let q := lane b n j % (2 * k)
      (if q < k then lane a n q else lane d n (q - k), 0))
    (x.vwrite false vd.toNat r.1, 0)) s

/-- VBCAST (R165): Broadcasts a g register into vector elements. -/
def execVbcast (vd va : BitVec 5) (m : BitVec 3) (w : BitVec 2) (s : State) : Out :=
  let n := elemWidth w
  issue { wf := (Instr.vbcast vd va m w).wf, srcs := [blk (g5 va)], vsrcs := if m = 0 then [] else [vd], vdsts := [vd], vec := true } s
    (fun v s => .ok (s.updCur (fun x =>
      x.vwrite false vd.toNat
        (mapLanes (x.mask m.toNat) false n (x.vread false vd.toNat) (fun _ => ((v0 v).toNat % 2 ^ n, 0))).1)).retire)

/-- VEXT (R165): Extracts one element into a g register. -/
def execVext (vd va n : BitVec 5) (w : BitVec 2) (s : State) : Out :=
  let k := elemWidth w
  issue { wf := (Instr.vext vd va n w).wf, vsrcs := [va], dsts := [g5 vd], vec := true } s
    (fun _ s => s.result (g5 vd) ((BitVec.ofNat k (lane (s.cur.vread false va.toNat) k n.toNat)).signExtend 64))

/-- VINS (R165): Inserts a g register into one element. The elements that stay make vd a source, which blocks while it is empty and takes
its mark's fault (DEDUCED, log entry 111). -/
def execVins (vd va n : BitVec 5) (w : BitVec 2) (s : State) : Out :=
  let k := elemWidth w
  issue { wf := (Instr.vins vd va n w).wf, srcs := [blk (g5 va)], vsrcs := [vd], vdsts := [vd], vec := true } s
    (fun v s => .ok (s.updCur (fun x =>
      let d := x.vread false vd.toNat
      x.vwrite false vd.toNat
        (mapLanes 0xFFFF false k d (fun j => (if j = n.toNat then (v0 v).toNat % 2 ^ k else lane d k j, 0))).1)).retire)

/-! ### Reduction (R50, R166) -/

/-- The operations of vred. -/
inductive RedOp where
  | add | max | min
deriving DecidableEq, Repr

/-- One level of the tree: pairs combine, a lone member passes unchanged (R50). -/
def redLevel (f : Nat → Nat → Nat × BitVec 6) : List (Option Nat) → List (Option Nat) × BitVec 6
  | a :: b :: r =>
    let q := redLevel f r
    match a, b with
    | some x, some y => let z := f x y; (some z.1 :: q.1, z.2 ||| q.2)
    | some x, none => (some x :: q.1, q.2)
    | none, y => (y :: q.1, q.2)
  | l => (l, 0)

/-- The levels of the tree, `n` of them. -/
def redTree (f : Nat → Nat → Nat × BitVec 6) : Nat → List (Option Nat) → List (Option Nat) × BitVec 6
  | 0, l => (l, 0)
  | n + 1, l =>
    let a := redLevel f l
    let b := redTree f n a.1
    (b.1, a.2 ||| b.2)

/-- One combination on patterns of a code (R166). -/
def RedOp.combine (o : RedOp) (md : Modifier) (mode : Nat) (flush : Bool) (c a b : Nat) : Nat × BitVec 6 :=
  if c < 8 then
    let q : FpOp := match o with
      | .add => .add
      | .max => .max
      | .min => .min
    fpBin q {} mode flush (fmtOf c) a b
  else
    let w := codeWidth c
    let x := intElem c a
    let y := intElem c b
    match o with
    | .add =>
      if md.sat then
        let r := clampInt (x + y) (intLo w (codeSigned c)) (intHi w (codeSigned c))
        ((BitVec.ofInt w r.1).toNat, r.2)
      else ((BitVec.ofInt w (x + y)).toNat, 0)
    | .max => (if x ≤ y then b else a, 0)
    | .min => (if x ≤ y then a else b, 0)

/-- The identity of an operation (R50, R166). -/
def RedOp.identity (o : RedOp) (c : Nat) : Nat :=
  if c < 8 then match o with
    | .add => 0
    | .max => (fmtOf c).infBits true
    | .min => (fmtOf c).infBits false
  else match o with
    | .add => 0
    | .max => (BitVec.ofInt (codeWidth c) (intLo (codeWidth c) (codeSigned c))).toNat
    | .min => (BitVec.ofInt (codeWidth c) (intHi (codeWidth c) (codeSigned c))).toNat

/-- vred with a prefix: element 0 gets the result, every other bit becomes zero (R166). -/
def vfRed (md : Modifier) (i : Instr) (o : RedOp) (vd va : BitVec 5) (m : BitVec 3) (c : BitVec 4) (s : State) : Out :=
  let w := codeWidth c.toNat
  issue { wf := i.wf, vsrcs := [va], vdsts := [vd], vec := true } s (fun _ s =>
    let x := s.cur
    let a := x.vread false va.toNat
    let l := (List.range (laneCount false w)).map (fun j => if laneOn (x.mask m.toNat) false w j then some (lane a w j) else none)
    let r := redTree (o.combine md (md.mode x.fcsr) (flushOn x.fcsr) c.toNat) 6 l
    let y := match r.1.head? with
      | some (some z) => z
      | _ => o.identity c.toNat
    .ok (s.updCur (fun x => (x.vwrite false vd.toNat y).orFlags r.2)).retire)

/-- VRED_ADD (R166): Reduces active elements by addition through a fixed tree. -/
def execVredAdd (vd va : BitVec 5) (m : BitVec 3) (c : BitVec 4) (s : State) : Out :=
  vfRed {} (.vredAdd vd va m c) .add vd va m c s

/-- VRED_MAX (R166): Reduces active elements by maximum. -/
def execVredMax (vd va : BitVec 5) (m : BitVec 3) (c : BitVec 4) (s : State) : Out :=
  vfRed {} (.vredMax vd va m c) .max vd va m c s

/-- VRED_MIN (R166): Reduces active elements by minimum. -/
def execVredMin (vd va : BitVec 5) (m : BitVec 3) (c : BitVec 4) (s : State) : Out :=
  vfRed {} (.vredMin vd va m c) .min vd va m c s

/-- VCLMUL (R167): Carry-less folds four 128-bit segments. -/
def execVclmul (vd va vb : BitVec 5) (m : BitVec 3) (s : State) : Out :=
  vecOp (.vclmul vd va vb m) [va, vb] [vd] false m (fun x =>
    let a := x.vread false va.toNat
    let b := x.vread false vb.toNat
    let d := x.vread false vd.toNat
    let mul (k : Nat) : BitVec 128 := clmul128 (BitVec.ofNat 64 (lane a 64 k)) (BitVec.ofNat 64 (lane b 64 k))
    let r := (List.range 4).foldl (fun acc g =>
      acc + (if bit (x.mask m.toNat) (4 * g) then (mul (2 * g) ^^^ mul (2 * g + 1)).toNat else lane d 128 g) * 2 ^ (128 * g)) 0
    (x.vwrite false vd.toNat r, 0)) s

end Sys2Proof.Machine
end

