-- ==== Sys2Proof/Machine/Barrier.lean ====
section
/-! DEFINITION. Barriers and collectives (R346 to R358, R51). -/
namespace Sys2Proof.Machine

/-! ### What a launch descriptor says of gang barriers (R385, R399) -/

/-- A field of the launch descriptor (R385). -/
def Kernel.b (k : Kernel) (off n : Nat) : Nat := fld k.desc (8 * off) (8 * n)
def Kernel.gang (k : Kernel) : Bool := bit k.desc (8 * 0x21 + 3)
def Kernel.gto (k : Kernel) : Nat := k.b 0x24 4
def Kernel.gbar (k : Kernel) : Nat := k.b 0x28 8

/-! ### Entries (R346 to R350) -/

/-- The status word of a barrier (R346). -/
def Barrier.status (b : Barrier) : Word :=
  BitVec.ofNat 64 (b.pend % 2 ^ 36 + 2 ^ 36 * (b.arr % 256) + 2 ^ 44 * (b.gen % 16) + 2 ^ 48 * (b.state % 4) + (if b.err then 2 ^ 50 else 0) +
    (if b.ovf then 2 ^ 51 else 0) + (if b.stray then 2 ^ 52 else 0) + 2 ^ 53 * b.cfl.toNat)

/-- An initialising event (R347): the next generation, the sticky fields clear. -/
def Barrier.init (b : Barrier) (pend arr state : Nat) : Barrier :=
  { gen := (b.gen + 1) % 16, pend := pend, arr := arr, state := state }

/-- An arrival (R348): bytes, arrivals, a tag (none is any), an error flag. -/
def Barrier.arrive (b : Barrier) (bytes n : Nat) (tag : Option Nat) (err : Bool) : Barrier :=
  let wrong : Bool := match tag with
    | some g => decide (g % 16 ≠ b.gen)
    | none => false
  if b.state = 0 ∨ b.state = 3 ∨ wrong then { b with stray := true }
  else
    let pend := b.pend - bytes
    let arr := b.arr - n
    { b with
      err := b.err || err
      ovf := b.ovf || decide (b.pend < bytes ∨ b.arr < n)
      pend := pend
      arr := arr
      state := if b.state = 1 ∧ pend = 0 ∧ arr = 0 then 2 else b.state }

/-- An arrival at barrier n of a site. -/
def State.arrive (s : State) (t n bytes arrs : Nat) (tag : Option Nat) (err : Bool) : State :=
  s.updTile t (fun x => x.setBar n ((x.bar n).arrive bytes arrs tag err))

/-- The busy check of binit and coll (R347, R352). -/
def Barrier.busy (b : Barrier) : Bool := b.state == 3 || (b.state == 1 && b.pend != 0)

/-! ### Instructions (R351 to R353) -/

/-- binit and binit.f: the new generation is the result (R352). -/
def binitOp (i : Instr) (forced : Bool) (rd ra n : BitVec 6) (wa : BitVec 1) (s : State) : Out :=
  issue { wf := i.wf, srcs := [(ra, wt wa)], dsts := [rd] } s (fun v s =>
    let w := v0 v
    let b := s.curTile.bar n.toNat
    if fld w 44 20 ≠ 0 then .fault 0x27 0
    else if b.state = 3 ∨ (!forced ∧ b.busy) then .fault 0x28 0
    else
      let pend := fld w 0 36
      let arr := fld w 36 8
      let b' := b.init pend arr (if pend = 0 ∧ arr = 0 then 2 else 1)
      (s.updCurTile (fun x => x.setBar n.toNat b')).result rd (BitVec.ofNat 64 b'.gen))

/-- BINIT (R352): Initialises a barrier with expected counts, with the busy check. -/
def execBinit (rd ra n : BitVec 6) (wa : BitVec 1) (s : State) : Out := binitOp (.binit rd ra n wa) false rd ra n wa s

/-- BINIT_F (R352): Initialises a barrier without the busy check. -/
def execBinitF (rd ra n : BitVec 6) (wa : BitVec 1) (s : State) : Out := binitOp (.binitF rd ra n wa) true rd ra n wa s

/-- BEXP (R352): Adds expected bytes and arrivals to an armed barrier. -/
def execBexp (ra n : BitVec 6) (wa : BitVec 1) (s : State) : Out :=
  issue { wf := (Instr.bexp ra n wa).wf, srcs := [(ra, wt wa)] } s (fun v s =>
    let w := v0 v
    let b := s.curTile.bar n.toNat
    let pend := b.pend + fld w 0 36
    let arr := b.arr + fld w 36 8
    if fld w 44 20 ≠ 0 then .fault 0x27 0
    else if b.state ≠ 1 then .fault 0x29 0
    else if 2 ^ 36 ≤ pend ∨ 256 ≤ arr then .fault 0x27 0
    else .ok (s.updCurTile (fun x => x.setBar n.toNat { b with pend := pend, arr := arr })).retire)

/-- BINV (R352): Invalidates a barrier to idle. -/
def execBinv (n : BitVec 6) (s : State) : Out :=
  issue { wf := (Instr.binv n).wf } s (fun _ s =>
    let b := s.curTile.bar n.toNat
    if b.state = 3 then .fault 0x28 0
    else .ok (s.updCurTile (fun x => x.setBar n.toNat (b.init 0 0 0))).retire)

/-- BTEST (R353): Returns a barrier's status without waiting. -/
def execBtest (rd n : BitVec 6) (s : State) : Out :=
  issue { wf := (Instr.btest rd n).wf, dsts := [rd] } s (fun _ s =>
    let b := s.curTile.bar n.toNat
    -- a generation seen complete is an acquire (R237)
    (if b.state = 2 then s.acquire s.slot.site s.slot.ctx else s).result rd b.status)

/-- BWAIT (R353): Waits for a barrier to complete and returns its status. -/
def execBwait (rd n : BitVec 6) (s : State) : Out :=
  issue { wf := (Instr.bwait rd n).wf, dsts := [rd] } s (fun _ s =>
    let b := s.curTile.bar n.toNat
    if b.state = 0 then .fault 0x29 0
    else if b.state = 2 then (s.acquire s.slot.site s.slot.ctx).result rd b.status
    -- the tick of its first selection, for a gang's timeout (R399)
    else .wait (fun s =>
      if s.cur.waitAt.isSome then s
      else
        -- its first selection: from here on GTO ticks may pass, of a gang kernel on a barrier of GBAR (R399)
        let t := s.slot.site
        let k := (s.region s.curTile.region).kernel s.curTile.kernel
        let s' := s.updCur (fun x => { x with waitAt := some (s.nowAt t) })
        if s.curTile.kernel ≠ 0 ∧ k.gang ∧ k.gbar.testBit n.toNat then s'.later .gangTimeout { a := t, b := s.slot.ctx } else s'))

/-- The target word of barv has no bit set outside its fields, and GEN is zero with ANY (R353). -/
def barvOk (a b : Word) : Bool :=
  fld a 6 2 == 0 && fld a 13 3 == 0 && fld a 32 32 == 0 && !(bit a 12 && fld a 8 4 != 0) && fld b 36 28 == 0

/-- The tag a barv carries (R348, R353). -/
def barvTag (a : Word) : Option Nat := if bit a 12 then none else some (fld a 8 4)

/-- A contribution or a result of a collective waits behind the earlier ones of its tile that wait (R354). -/
def Queues.collTurn (q : Queues) (e : Ret) : Bool :=
  match e.body with
  | .coll _ _ _ _ _ _ => !(q.before e.id).any (fun y => decide (y.state = .formed) && (match y.body with | .coll _ _ _ _ _ _ => true | _ => false))
  | _ => true

/-- Send a VC5 message once its release has happened and an entry is free; until then it is formed and waits in its place (R237, R353 to
R355). -/
def State.sendMarked (s : State) (t c mark : Nat) (b : Body) (u : Nat) : State :=
  let (id, s) := s.fresh
  let e : Ret := { id := id, ctx := c, body := b, dst := .tile u, mark := mark, state := .formed }
  let s := s.keep t e
  if u ≠ t ∧ s.mayGo t e ∧ (s.tile t).q.collTurn e then s.launch t e else s.later e.arrival { a := t, b := id }

/-- A VC5 message whose step comes up: one that waits goes when it may, or, when it is for its own tile, is applied there; one on its way
is opened at its destination (R353 to R355). -/
def vc5Step (s : State) (own : Ret → State → State) (k : Ret → Out) : Out :=
  let t := s.ev.a
  match s.entry t s.ev.b with
  | none => .next s
  | some e =>
    if e.state ≠ .formed then atHome s k
    else if e.dst = .tile t then
      if (s.tile t).stopping || !(s.tile t).released e.ctx e.mark then notYet s else .next (own e (s.freeEntry t e.id))
    else if s.mayGo t e && (s.tile t).q.collTurn e then .next (s.release t e)
    else notYet s

/-- BARV (R353): Makes a released arrival at a barrier of a region tile. -/
def execBarv (ra rb : BitVec 6) (wa wb : BitVec 1) (s : State) : Out :=
  issue { wf := (Instr.barv ra rb wa wb).wf, srcs := [(ra, wt wa), (rb, wt wb)] } s (fun v s =>
    let a := v0 v
    let t := s.slot.site
    let c := s.slot.ctx
    if !barvOk a (v1 v) then .fault 0x27 0
    else match s.sendDest t (fld a 16 8) (fld a 24 8) with
      | .error e => .fault e.1 e.2
      | .ok u =>
        let mark := s.nextId
        if u = t ∧ s.curTile.released c mark then .ok (s.arrive t (fld a 0 6) (fld (v1 v) 0 36) 1 (barvTag a) false).retire
        else if u ≠ t ∧ s.curTile.retFree = 0 then .wait id
        else .ok (s.sendMarked t c mark (.barv a (fld (v1 v) 0 36)) u).retire)

/-- BARV_MESSAGE (R353): A barv message is applied at the target barrier. Operands: a = t, b = id. -/
def execBarvMessage (s : State) : Out :=
  let t := s.ev.a
  vc5Step s
    (fun e s => match e.body with | .barv a bytes => s.arrive t (fld a 0 6) bytes 1 (barvTag a) false | _ => s)
    (fun e => match e.body, e.dst with
      | .barv a bytes, .tile u =>
        if s.turnsAway t u 0 e then .next (s.refuse t e)
        else .next ((s.arrive u (fld a 0 6) bytes 1 (barvTag a) false).accept t e)
      | _, _ => .next s)

/-! ### Collectives (R354, R51) -/

/-- Fields of a collective's descriptor. -/
def collOrg (d : Word) : Nat × Nat := (fld d 0 8, fld d 8 8)
def collDims (d : Word) : Nat × Nat := (fld d 16 8 + 1, fld d 24 8 + 1)
def collOp (d : Word) : RedOp := match fld d 32 2 with | 0 => .add | 1 => .max | _ => .min
def collFmt (d : Word) : Nat := fld d 36 4
def collBar (d : Word) : Nat := fld d 40 6
def collCount (d : Word) : Nat := (collDims d).1 * (collDims d).2

/-- A descriptor's fields are valid (R354). -/
def collOk (d : Word) : Bool :=
  fld d 46 18 == 0 && fld d 34 2 == 0 && fld d 32 2 != 3 && [0, 1, 10, 11, 14, 15].contains (collFmt d)

/-- The tile at a position of a collective. -/
def State.collSite (s : State) (t : Nat) (d : Word) (p : Nat) : Option Nat :=
  match s.placeFrom t ((collOrg d).1 + p % (collDims d).1) ((collOrg d).2 + p / (collDims d).1) with
  | .site u => some u
  | _ => none

/-- One combination of two values of a format (R51, R37, R39). -/
def collCombine (d a b : Word) : Word × BitVec 6 :=
  let r := (collOp d).combine {} 0 false (collFmt d) a.toNat b.toNat
  (BitVec.ofNat 64 r.1, r.2)

/-- The value a participant's register gets (R354). -/
def collResultWord (d v : Word) : Word :=
  match collFmt d with
  | 0 => BitVec.ofNat 64 (fld v 0 32)
  | 14 => BitVec.ofNat 64 (fld v 0 32)
  | 10 => (v.extractLsb' 0 32).signExtend 64
  | _ => v

/-- The children of a position, lowest level first (R51). -/
def collChildren (p n : Nat) : List Nat :=
  ((List.range 16).takeWhile (fun l => p % 2 ^ (l + 1) == 0 && decide (p + 2 ^ l < n))).map (fun l => p + 2 ^ l)

/-- A result reaches a tile: the register, the barrier, and the messages to the children (R354). -/
def State.collFinish (s : State) (t : Nat) (v : Word) (fl : BitVec 6) (err : Bool) : State :=
  let k := (s.tile t).coll
  let d := k.desc
  let s := if err then s.markG t k.ctx k.rd k.mon k.id 0x2A 0 else s.arriveG t k.ctx k.rd k.mon k.id (collResultWord d v)
  let s := s.updTile t (fun x =>
    let b := x.bar (collBar d)
    { x.setBar (collBar d) (if b.state = 3 then { b with state := 2, cfl := fl, err := err } else b) with coll := {} })
  (collChildren k.pos (collCount d)).foldl (fun s q => match s.collSite t d q with
    | some u => s.sendMarked t k.ctx 0 (.coll false d v fl err 0) u
    | none => s) s

/-- Combine what has arrived, level by level; then go to the parent, or at position 0 hold the result (R51, R354). -/
def State.collClimb (s : State) (t : Nat) : Nat → State
  | 0 => s
  | n + 1 =>
    let x := s.tile t
    let k := x.coll
    let d := k.desc
    let l := k.level
    if !k.active then s
    else if k.pos % 2 ^ (l + 1) = 0 ∧ k.pos + 2 ^ l < collCount d then
      let y := fget {} x.levels l
      if !y.full then s
      else
        let r := collCombine d k.partialV y.value
        State.collClimb (s.updTile t (fun x => { x with
          levels := fset {} x.levels l {}
          coll := { k with partialV := r.1, flags := k.flags ||| r.2 ||| y.flags, err := k.err || y.err || decide (y.desc ≠ d), level := l + 1 } })) t n
    else if k.pos = 0 then
      -- position 0 contributes too: its own release comes before the result (R355)
      if k.level = 16 then s
      else if x.released k.ctx k.mark then s.collFinish t k.partialV k.flags k.err
      else (s.updTile t (fun x => { x with coll := { k with level := 16 } })).sendMarked t k.ctx k.mark (.coll false d k.partialV k.flags k.err 0) t
    else
      -- the contribution goes once; level 16 says it has gone
      let q := (List.range 16).find? (fun l => k.pos % 2 ^ (l + 1) ≠ 0)
      match q with
      | some l =>
        if k.level = 16 then s
        else match s.collSite t d (k.pos - 2 ^ l) with
          | some u => (s.updTile t (fun x => { x with coll := { k with level := 16 } })).sendMarked t k.ctx k.mark (.coll true d k.partialV k.flags k.err l) u
          | none => s
      | none => s

/-- COLL (R354): Contributes to a collective reduction over a rectangle. -/
def execColl (rd ra rb : BitVec 6) (wa wb : BitVec 1) (s : State) : Out :=
  issue { wf := (Instr.coll rd ra rb wa wb).wf, srcs := [(ra, wt wa), (rb, wt wb)], dsts := [rd] } s (fun v s =>
    let d := v1 v
    let t := s.slot.site
    let x := s.curTile
    let (oc, orow) := collOrg d
    let (w, h) := collDims d
    let me := if x.region = 0 then (0, 0) else (x.col, x.row)
    let dims := s.dims t
    if !collOk d || !decide (oc ≤ me.1 ∧ me.1 < oc + w ∧ orow ≤ me.2 ∧ me.2 < orow + h) then .fault 0x27 0
    else if dims.1 < oc + w ∨ dims.2 < orow + h then .fault 0x11 (BitVec.ofNat 64 (orow * 2 ^ 29 + oc * 2 ^ 21))
    else match (List.range (collCount d)).find? (fun p => (s.collSite t d p).isNone) with
      | some p => .fault 0x14 (BitVec.ofNat 64 ((orow + p / w) * 2 ^ 29 + (oc + p % w) * 2 ^ 21))
      | none =>
        if x.coll.active ∨ x.retFree = 0 then .wait id
        else
          let b := x.bar (collBar d)
          if b.busy then .fault 0x28 0
          else
            let (id, s) := s.fresh
            let val := if [0, 10, 14].contains (collFmt d) then BitVec.ofNat 64 (fld (v0 v) 0 32) else v0 v
            let k : Coll := { active := true, desc := d, partialV := val, pos := (me.2 - orow) * w + (me.1 - oc), ctx := s.slot.ctx,
                              rd := rd.toNat, mon := s.cur.mon, id := id, mark := id }
            let s := s.updCurTile (fun x => { x.setBar (collBar d) (b.init 0 0 3) with coll := k })
            .ok ((s.emptyG rd id).retire.collClimb t 17))

/-- COLL_CONTRIBUTION (R354): A collective partial arrives at its parent's level slot. Operands: a = t, b = id. -/
def execCollContribution (s : State) : Out :=
  let t := s.ev.a
  vc5Step s (fun _ s => s) (fun e => match e.body, e.dst with
    | .coll true d v fl err l, .tile u =>
      if s.turnsAway t u 0 e || (fget {} (s.tile u).levels l).full then .next (s.refuse t e)
      else
        let y : LevelSlot := { full := true, desc := d, value := v, flags := fl, err := err }
        .next (((s.updTile u (fun x => { x with levels := fset {} x.levels l y })).accept t e).collClimb u 17)
    | _, _ => .next s)

/-- COLL_RESULT (R354): A collective result arrives, writes gd and completes the barrier. Operands: a = t, b = id. -/
def execCollResult (s : State) : Out :=
  let t := s.ev.a
  let finish (u : Nat) (e : Ret) (s : State) : State :=
    match e.body with
    | .coll false d v fl err _ =>
      let k := (s.tile u).coll
      -- the error reaches every participant the result reaches, one of another descriptor too (R354)
      if k.active ∧ k.level = 16 then s.collFinish u v fl (err || decide (k.desc ≠ d)) else s
    | _ => s
  vc5Step s (finish t) (fun e => match e.dst with
    | .tile u => if s.turnsAway t u 0 e then .next (s.refuse t e) else .next (finish u e (s.accept t e))
    | _ => .next s)

end Sys2Proof.Machine
end

