-- ==== Sys2Proof/Machine/Fetch.lean ====
section
/-! DEFINITION. Instruction fetch (R112, R213) and what is decided of a fetched word before its operation. -/
namespace Sys2Proof.Machine

/-- What a fetch answers. -/
inductive Fetched where
  | word (w : BitVec 32) (s : State)
  /-- the word is not here yet; `s` records what has been asked for -/
  | wait (s : State)
  | fault (code : Nat) (tval : Word)

/-- Ask for the translation of a fetch (R255): kind 3, requester 16 plus the context. -/
def State.askFetch (s : State) (t c va : Nat) : State :=
  if (s.ctx t c).xlate = .asked va 3 then s
  else (s.updCtx t c (fun x => { x with xlate := .asked va 3 })).later .l2TlbLookup { a := t, b := 16 + c }

/-- Request the line of another slice or of edge memory that holds an address (R112). -/
def State.askLine (s : State) (t c : Nat) (line : Word) (d : Dst) (x : Option Tlb) : State :=
  ((s.updCtx t c (fun y => { y with lineAsked := true })).request t c (.load line 64) (.fetch c line) d x).2

/-- Fetch the word at an address (R112, R213): from the own slice; else from a line already fetched; else a line is requested.
The faults are those of R209 and the uncorrectable error. -/
def State.fetch (s : State) (t c : Nat) (a : Word) : Fetched :=
  let x := s.ctx t c
  if fld a 0 2 ≠ 0 then .fault 0x03 a
  else match s.checkForm t x.mon a 4 with
    | .error e => .fault e a
    | .ok (.loc off) =>
      -- a word that the instruction before has stored to may have been fetched before the store (R211, R213)
      match (s.tile t).stale.find? (fun e => e.1 == off) with
      | some e =>
        if Config.fetchedBefore s.draws then (match e.2 with | some w => .word w s | none => .fault 0x16 a)
        else if s.uncorrectable t off 4 then .fault 0x16 a else .word (BitVec.ofNat 32 (s.spmRead t off 4)) s
      | none => if s.uncorrectable t off 4 then .fault 0x16 a else .word (BitVec.ofNat 32 (s.spmRead t off 4)) s
    | .ok l =>
      let line := a &&& ~~~(63#64)
      match x.lines.find? (fun y => y.1 == line) with
      | some y => .word (BitVec.ofNat 32 (fld y.2 (8 * fld a 0 6) 32)) s
      | none =>
        if x.lineAsked then .wait s
        else match l with
          | .rem u _ => .wait (s.askLine t c line (.tile u) none)
          | .edge va =>
            let z := s.tile t
            match tlbFind z.itlb z.region (s.nowAt t) va 3 with
            | some e =>
              let s := s.updTile t (fun z => { z with itlb := tlbPut 16 e z.itlb })
              .wait (s.askLine t c line (.edge (e.phys (va / 64 * 64))) (some e))
            | none => match x.once.find? (fun e => e.covers va && e.permits 3) with
              | some e => .wait (s.askLine t c line (.edge (e.phys (va / 64 * 64))) (some e))
              | none => .wait (s.askFetch t c va)
          | .loc _ => .wait s

/-- A word fetched from the own slice counts the correctable error it holds (R212). -/
def State.countWord (s : State) (t c : Nat) (a : Word) : State :=
  match s.checkForm t (s.ctx t c).mon a 4 with
  | .ok (.loc off) => s.countCec t (s.correctables t off 4)
  | _ => s

/-- The word or words of the instruction that a context issues now are counted, unless a frame holds them (R178, R212). -/
def State.countFetch (s : State) (t c : Nat) : State :=
  let x := s.ctx t c
  if x.frame.state = .run then s
  else
    let s' := s.countWord t c x.pc
    match s.fetch t c x.pc with
    | .word w _ => if isModifier w then s'.countWord t c (x.pc + 4) else s'
    | _ => s'

/-- The word stores to memory: op 0x13 scalar stores, 0x14 atomics, 0x27 vector memory (R168, R214, R219). -/
def storesMemory (w : BitVec 32) : Bool := let op := fld w 26 6; op == 0x13 || op == 0x14 || op == 0x27

/-- A cycle without an instruction, or the end of what ran: the next fetch sees every store (R213). -/
def Tile.fetchFresh (x : Tile) : Tile := { x with stale := [] }

/-- After an instruction: the words at which contexts go on that it has changed, as the fetch port has read them in its cycle (R211, R213). -/
def State.noteStale (s old : State) (t : Nat) : State :=
  let words : List (Nat × Option (BitVec 32)) :=
    if storesMemory s.slot.word then
      (s.tile t).ctxs.flatMap (fun e => if e.2.state ≠ .live then [] else ([e.2.pc, e.2.pc + 4] : List Word).filterMap (fun (a : Word) =>
        match s.checkForm t e.2.mon a 4 with
        | .ok (.loc off) =>
          let v := old.spmRead t off 4
          let bad := old.uncorrectable t off 4
          if v = s.spmRead t off 4 ∧ bad = s.uncorrectable t off 4 then none else some (off, if bad then none else some (BitVec.ofNat 32 v))
        | _ => none))
    else []
  s.updTile t (fun x => { x with stale := words })

end Sys2Proof.Machine
end

