-- ==== Sys2Proof/Machine/Matrix.lean ====
section
/-! DEFINITION. The matrix unit (R185 to R207, R49): its instructions, the start, the work and the completion of its commands. -/
namespace Sys2Proof.Machine

/-! ### Fields of a command (R75, R190) -/

def mOp (w : BitVec 32) : Nat := fld w 26 6
def mAcc (w : BitVec 32) : Nat := fld w 24 2
def mFn (w : BitVec 32) : Nat := fld w 0 12
def MCmd.quiet (e : MCmd) : Bool := bit e.gb 63
def MCmd.bar (e : MCmd) : Bool := bit e.gb 62
def MCmd.bnum (e : MCmd) : Nat := fld e.gb 56 6
def MCmd.tag (e : MCmd) : Nat := fld e.gb 48 8

/-- What a command is. -/
inductive MKind where
  | mcfg | munf | mldb | mzero | mstr | mmac | mmacu | mmacs
deriving DecidableEq, Repr

/-- The command of a FIFO word. -/
def MCmd.kind (e : MCmd) : MKind :=
  if mOp e.word = 0x29 then .mmac else if mOp e.word = 0x2A then .mmacu else if mOp e.word = 0x2B then .mmacs
  else match mFn e.word % 16 with
    | 0 => .mcfg
    | 1 => .munf
    | 2 => .mldb
    | 3 => .mzero
    | _ => .mstr

/-- The command belongs to the mmac family. -/
def MKind.isMac : MKind → Bool
  | .mmac => true
  | .mmacu => true
  | .mmacs => true
  | _ => false

/-- FN of a completion record (R192). -/
def MCmd.fnCode (e : MCmd) : Nat :=
  match e.kind with
  | .mmac => 0xA
  | .mmacu => 0xB
  | .mmacs => 0xC
  | _ => mFn e.word % 16

/-- The command names an accumulator. -/
def MCmd.names (e : MCmd) : Bool := e.kind.isMac || e.kind == .mzero || e.kind == .mstr

/-- Format codes of the mmac family (R75). -/
def MCmd.codeA (e : MCmd) : Nat := fld e.word 8 4
def MCmd.codeB (e : MCmd) : Nat := fld e.word 4 4

/-- K, BROW and K0 (R202). -/
def mK (gb : Word) : Nat := fld gb 0 13
def mBrow (gb : Word) : Nat := fld gb 16 10
def mK0 (gb : Word) : Nat := fld gb 28 20

/-- Bits of an element and the step width of a format pair (R186). -/
def stepBits (a : Nat) : Nat := codeWidth a
def stepWidth (a : Nat) : Nat := if a = 6 then 4 else if a = 4 ∨ a = 5 ∨ a = 8 then 2 else 1

/-- Rows of 64 bytes for K slices (R186). -/
def sliceRows (a k : Nat) : Nat := (32 * stepBits a * k / 8 + 63) / 64

/-- B-buffer and scale-store rows a command uses: first and number (R185, R198, R202). -/
def MCmd.bRows (e : MCmd) : Nat × Nat :=
  if e.kind.isMac then (mBrow e.gb, sliceRows e.codeA (mK e.gb))
  else if e.kind = .mldb ∧ !bit e.gb 21 then (fld e.gb 0 10, fld e.gb 10 11) else (0, 0)
def MCmd.sRows (e : MCmd) : Nat × Nat :=
  if e.kind.isMac ∧ e.codeA = 6 ∧ mK e.gb ≠ 0 then
    let lo := 4 * mBrow e.gb / 64
    (lo, (4 * mBrow e.gb + mK e.gb - 1) / 64 - lo + 1)
  else if e.kind = .mldb ∧ bit e.gb 21 then (fld e.gb 0 10, fld e.gb 10 11) else (0, 0)

/-- Units of work a command has in all: rows, or reduction indices. -/
def MCmd.total (e : MCmd) : Nat :=
  match e.kind with
  | .mldb => fld e.gb 10 11
  | .mstr => 32
  | .mmac => mK e.gb
  | .mmacu => mK e.gb
  | .mmacs => mK e.gb
  | _ => 0

/-- A running command is past its last busy cycle, or has met an error: it drains, and completes (R195). -/
def MCmd.drains (e : MCmd) : Bool := e.state == 1 && (e.code != 0 || decide (e.total ≤ e.progress))

/-- Two ranges of rows share a row. -/
def rowsMeet (a b : Nat × Nat) : Bool := decide (0 < a.2 ∧ 0 < b.2 ∧ a.1 < b.1 + b.2 ∧ b.1 < a.1 + a.2)

/-- Bytes that a command owes a barrier (R190). -/
def MCmd.bytes (e : MCmd) : Nat :=
  match e.kind with
  | .mldb => 64 * fld e.gb 10 11
  | .mstr => 1024 * (codeWidth (fld e.word 4 4) / 8)
  | _ => 0

/-! ### Issue (R189, R197 to R203) -/

/-- The offset of an SPM operand of the tile in the slot, if its byte range is allowed. -/
def State.spmOperand (s : State) (a : Word) (n : Nat) : Option Nat :=
  let x := s.curTile
  let me := if x.region = 0 then (0, 0) else (x.col, x.row)
  if fld a 37 27 = 0 ∧ addrCol a = me.1 ∧ addrRow a = me.2 ∧ addrOff a + n ≤ (if s.cur.mon then 0x180000 else 0x170000)
  then some (addrOff a) else none

/-- The FIFO has no place (R189). -/
def Matrix.isFull (m : Matrix) : Bool := decide (8 ≤ m.fifo.length)

/-- Push a command: the unit becomes active when it was empty (R189, R194). -/
def State.pushCmd (s : State) (w : BitVec 32) (ga gb : Word) : State :=
  let t := s.slot.site
  let x := s.curTile
  let m := x.mx
  let e : MCmd := { serial := m.serial, word := w, mon := s.cur.mon, ga := ga, gb := gb, gen := (x.bar (fld gb 56 6)).gen, ctx := s.slot.ctx, mark := s.nextId }
  let awake (st : Nat) : Nat := if st = 0 then 1 else st
  (s.updCurTile (fun x => x.updMx (fun m => { m with
    fifo := m.fifo ++ [e], serial := m.serial + 1,
    state := if m.state = 3 then 3 else awake m.state, kept := if m.state = 3 then awake m.kept else m.kept }))).later .matrixCommandStart { a := t }

/-- A FIFO command: not ready while the FIFO is full; its checks on the operand values; the push (R189), which comes after every access of
the commands that the context has claimed (R235). -/
def fifoOp (i : Instr) (srcs : List (BitVec 6)) (check : State → List Word → Option (Nat × Word)) (args : List Word → Word × Word) (s : State) : Out :=
  issue { wf := i.wf, srcs := srcs.map blk } s (fun v s =>
    if s.curTile.mx.isFull then .wait id
    else match check s v with
      | some e => .fault e.1 e.2
      | none =>
        let w := (encode i).getD 0
        if s.accessHeld then .wait id else .ok (s.pushCmd w (args v).1 (args v).2).retire)

/-- First failing condition of a list: condition, code, TVAL. -/
def firstFault : List (Bool × Nat × Word) → Option (Nat × Word)
  | [] => none
  | (b, c, v) :: r => if b then some (c, v) else firstFault r

/-- MCFG (R197): Pushes a command that loads MCFG at its start. -/
def execMcfg (ga gb : BitVec 6) (s : State) : Out :=
  fifoOp (.mcfg ga gb) [ga, gb] (fun _ v => firstFault
    [(fld (v1 v) 0 48 != 0 || fld (v0 v) 24 40 != 0 || bit (v0 v) 21 || fld (v0 v) 0 5 != 0, 0x20, 0)])
    (fun v => (v0 v, v1 v)) s

/-- MUNF (R188): Pushes a command that loads and checks the unfolding descriptor. -/
def execMunf (ga gb : BitVec 6) (s : State) : Out :=
  fifoOp (.munf ga gb) [ga, gb] (fun s v => firstFault
    [(fld (v1 v) 0 48 != 0, 0x20, 0), ((s.spmOperand (v0 v) 32).isNone, 0x20, v0 v), (fld (v0 v) 0 5 != 0, 0x10, v0 v)])
    (fun v => (v0 v, v1 v)) s

/-- MLDB (R198): Pushes a command that fills B-buffer or scale-store rows. -/
def execMldb (ga gb : BitVec 6) (s : State) : Out :=
  fifoOp (.mldb ga gb) [ga, gb] (fun s v =>
    let b := v1 v
    let n := fld b 10 11
    let spm := !bit b 47
    firstFault
      [(fld b 22 25 != 0 || !decide (1 ≤ n ∧ n ≤ 1024) || decide ((if bit b 21 then 64 else 1024) < fld b 0 10 + n), 0x20, 0),
       (spm && (s.spmOperand (v0 v) (64 * n)).isNone, 0x20, v0 v), (spm && fld (v0 v) 0 6 != 0, 0x10, v0 v)])
    (fun v => (v0 v, v1 v)) s

/-- MZERO (R197): Pushes a command that zeroes an accumulator and its ASTAT. -/
def execMzero (acc : BitVec 2) (gb : BitVec 6) (s : State) : Out :=
  fifoOp (.mzero acc gb) [gb] (fun _ v => firstFault [(fld (v0 v) 0 48 != 0, 0x20, 0)]) (fun v => (0, v0 v)) s

/-- MSTR (R199): Pushes a command that converts and stores an accumulator to SPM. -/
def execMstr (acc : BitVec 2) (ga gb : BitVec 6) (k : BitVec 8) (s : State) : Out :=
  fifoOp (.mstr acc ga gb k) [ga, gb] (fun s v =>
    let z := codeWidth (fld k 0 4) / 8
    let r := fld (v1 v) 0 16
    firstFault
      [(fld (v1 v) 22 26 != 0 || r % 64 != 0 || decide (r < 32 * z), 0x20, 0),
       ((s.spmOperand (v0 v) (31 * r + 32 * z)).isNone, 0x20, v0 v), (fld (v0 v) 0 6 != 0, 0x10, v0 v)])
    (fun v => (v0 v, v1 v)) s

/-- The checks of the mmac family on gb; `u` for mmacu (R202, R207). -/
def macCheck (a : Nat) (u : Bool) (b : Word) : Bool :=
  fld b 13 3 == 0 && (if u then fld b 26 2 == 0 else fld b 26 22 == 0) && decide (mK b ≤ 4096) &&
  decide (mBrow b + sliceRows a (mK b) ≤ 1024) && (a != 6 || mBrow b % 8 == 0)

/-- MMAC (R202): Pushes a matrix multiply-accumulate reading the A panel from SPM. -/
def execMmac (acc : BitVec 2) (ga gb : BitVec 6) (x y : BitVec 4) (s : State) : Out :=
  fifoOp (.mmac acc ga gb x y) [ga, gb] (fun s v =>
    let a := x.toNat
    firstFault
      [(!macCheck a false (v1 v), 0x20, 0), ((s.spmOperand (v0 v) (64 * sliceRows a (mK (v1 v)))).isNone, 0x20, v0 v),
       (fld (v0 v) 0 6 != 0, 0x10, v0 v)])
    (fun v => (v0 v, v1 v)) s

/-- MMACU (R202): Pushes a multiply-accumulate whose A rows come from the unfolding unit. -/
def execMmacu (acc : BitVec 2) (gb : BitVec 6) (x y : BitVec 4) (s : State) : Out :=
  fifoOp (.mmacu acc gb x y) [gb] (fun _ v => firstFault [(x == 6 || !macCheck x.toNat true (v0 v), 0x20, 0)]) (fun v => (0, v0 v)) s

/-- MMACS (R202): Pushes a multiply-accumulate whose A rows come from the stream port. -/
def execMmacs (acc : BitVec 2) (gb : BitVec 6) (x y : BitVec 4) (s : State) : Out :=
  fifoOp (.mmacs acc gb x y) [gb] (fun _ v => firstFault [(!macCheck x.toNat false (v0 v), 0x20, 0)]) (fun v => (0, v0 v)) s

/-- The accumulator is busy (R193). -/
def Matrix.busy (m : Matrix) (acc : Nat) : Bool := m.fifo.any (fun e => e.names && mAcc e.word == acc && decide (e.state < 2))

/-- A word of an accumulator, by its number 0 to 1,023 (R201). -/
def Matrix.word (m : Matrix) (acc e : Nat) : BitVec 32 := fget 0 m.acc (1024 * acc + e)
def Matrix.putWord (m : Matrix) (acc e : Nat) (v : BitVec 32) : Matrix :=
  { m with acc := fset 0 m.acc (1024 * acc + e) v, bad := fset false m.bad (1024 * acc + e) false }

/-- MRD (R201): Reads two accumulator words or ASTAT. -/
def execMrd (acc : BitVec 2) (ga gb : BitVec 6) (s : State) : Out :=
  issue { wf := (Instr.mrd acc ga gb).wf, srcs := [blk gb], dsts := [ga] } s (fun v s =>
    let m := s.curTile.mx
    let q := (v0 v).toNat
    if m.busy acc.toNat then .wait id
    else if 512 < q then .fault 0x20 0
    else s.result ga (if q = 512 then (fget 0 m.astat acc.toNat).setWidth 64 else m.word acc.toNat (2 * q + 1) ++ m.word acc.toNat (2 * q)))

/-- MWR (R201): Writes two accumulator words or ASTAT. -/
def execMwr (acc : BitVec 2) (ga gb : BitVec 6) (s : State) : Out :=
  issue { wf := (Instr.mwr acc ga gb).wf, srcs := [blk ga, blk gb] } s (fun v s =>
    let q := (v1 v).toNat
    let a := v0 v
    let n := acc.toNat
    if s.curTile.mx.busy n then .wait id
    else if 512 < q ∨ (q = 512 ∧ fld a 6 58 ≠ 0) then .fault 0x20 0
    else .ok (s.updCurTile (fun x => x.updMx (fun m =>
      if q = 512 then { m with astat := fset 0 m.astat n (a.setWidth 6) }
      else (m.putWord n (2 * q) (a.setWidth 32)).putWord n (2 * q + 1) (a.extractLsb' 32 32)))).retire)

/-- The unit returns from error-hold, or becomes empty (R194); what a hack keeps follows (R205). -/
def Matrix.settle (m : Matrix) (fromError : Bool) : Matrix :=
  let f (st : Nat) : Nat := if m.fifo.isEmpty then 0 else if fromError ∧ st = 2 then 1 else st
  if m.state = 3 then { m with kept := f m.kept } else { m with state := f m.state }

/-- An entry that an mpop may claim (R200). -/
def MCmd.claimable (e : MCmd) : Bool := !e.claimed && !e.drop && (!e.quiet || (e.state == 2 && e.code != 0))

/-- MPOP (R200): Claims the oldest claimable matrix completion record. -/
def execMpop (ga : BitVec 6) (s : State) : Out :=
  issue { wf := (Instr.mpop ga).wf, dsts := [ga] } s (fun _ s =>
    let t := s.slot.site
    match s.curTile.mx.fifo.find? MCmd.claimable with
    | none => s.lateResult ga 0
    | some e =>
      if e.state = 2 then
        ((s.updCurTile (fun x => x.updMx (fun m => ({ m with fifo := m.fifo.filter (fun y => y.serial != e.serial) }).settle (e.code != 0)))).later
          .matrixCommandStart { a := t }).lateResult ga e.record
      else
        let (id, s) := s.fresh
        let f (y : MCmd) : MCmd :=
          if y.serial = e.serial then { y with claimed := true, claimCtx := s.slot.ctx, claimReg := ga.toNat, claimMon := s.cur.mon, claimAt := id } else y
        let s := s.updCurTile (fun x => x.updMx (fun m => { m with fifo := m.fifo.map f }))
        .ok (s.emptyG ga id).retire)

/-! ### Save and restore (R203, R204) -/

/-- Write a run of (size, value) fields. -/
def State.putFields (s : State) (t off : Nat) : List (Nat × Nat) → State
  | [] => s
  | (n, v) :: r => State.putFields (s.spmStore t off n v) t (off + n) r

/-- The bytes of a FIFO entry in part 0 (R204). -/
def MCmd.image (e : MCmd) : List (Nat × Nat) :=
  [(4, e.word.toNat), (1, if e.claimed then 3 else e.state), (1, e.claimCtx), (1, e.claimReg), (1, if e.mon then 1 else 0),
   (8, if e.state = 2 then e.record.toNat else e.ga.toNat), (8, e.gb.toNat), (4, e.progress), (1, e.flags.toNat), (3, 0)]

/-- The fields of a part (R203, R204). -/
def Matrix.part (m : Matrix) (p : Nat) : List (Nat × Nat) :=
  if p = 0 then
    [(2, 1), (1, if m.state = 3 then m.kept else m.state), (1, m.fifo.length), (4, 0), (8, m.mcfg.toNat), (32, m.desc.toNat),
     (1, if m.descValid then 1 else 0), (15, 0), (32, m.ascale.toNat), (32, 0)] ++
    (m.fifo.flatMap MCmd.image ++ [((8 - m.fifo.length) * 32, 0), (128, 0)])
  else if p ≤ 4 then
    (List.range 1024).map (fun e => (4, (m.word (p - 1) e).toNat)) ++ [(8, (fget 0 m.astat (p - 1)).toNat), (56, 0)]
  else if p ≤ 20 then (List.range 4096).map (fun b => (1, (fget 0 m.bbuf (4096 * (p - 5) + b)).toNat))
  else (List.range 4096).map (fun b => (1, (fget 0 m.scales b).toNat))

/-- Bytes of a part. -/
def partSize (p : Nat) : Nat := if p = 0 then 512 else if p ≤ 4 then 4160 else 4096

/-- Which register a restored record goes to (R204): the one that is empty in state 2 (R123), of g1 to g7 the monitor's when only that one
is, or both are and the context is in monitor mode. -/
def Ctx.claimIsMon (x : Ctx) (r : Nat) : Bool :=
  decide (1 ≤ r ∧ r ≤ 7) && fget .full x.mgs r == .pending && (fget .full x.gs r != .pending || x.mon)

/-- A FIFO entry from its 32 bytes (R204). A claimed entry that has made progress runs, another is queued. -/
def imageCmd (v serial : Nat) : MCmd :=
  let st := natBytes v 4 1
  let prog := natBytes v 24 4
  { serial := serial, word := BitVec.ofNat 32 (natBytes v 0 4),
    state := if st = 3 then (if prog = 0 then 0 else 1) else st,
    claimed := decide (st = 3), claimCtx := natBytes v 5 1, claimReg := natBytes v 6 1,
    mon := (natBytes v 7 1).testBit 0,
    ga := if st = 2 then 0 else BitVec.ofNat 64 (natBytes v 8 8), record := if st = 2 then BitVec.ofNat 64 (natBytes v 8 8) else 0,
    code := if st = 2 ∧ (natBytes v 8 8).testBit 14 then BitVec.ofNat 8 (natBits (natBytes v 8 8) 24 8) else 0,
    gb := BitVec.ofNat 64 (natBytes v 16 8), progress := prog, flags := BitVec.ofNat 6 (natBytes v 28 1) }

/-- An entry of an image is well formed: a FIFO command with a known state. -/
def imageCmdOk (v : Nat) : Bool :=
  decide (natBytes v 4 1 ≤ 3) && natBytes v 29 3 == 0 && decide (natBytes v 5 1 ≤ 11) && decide (natBytes v 7 1 ≤ 1) && decide (natBytes v 28 1 < 64) &&
  (match decode (BitVec.ofNat 32 (natBytes v 0 4)) with
   | .ok (.mcfg _ _) => true
   | .ok (.munf _ _) => true
   | .ok (.mldb _ _) => true
   | .ok (.mzero _ _) => true
   | .ok (.mstr _ _ _ _) => true
   | .ok (.mmac _ _ _ _ _) => true
   | .ok (.mmacu _ _ _ _) => true
   | .ok (.mmacs _ _ _ _) => true
   | _ => false)

/-- Part 0 passes the checks of mrest (R203). -/
def part0Ok (v : Nat) : Bool :=
  natBytes v 0 2 == 1 && decide (natBytes v 3 1 ≤ 8) && decide (natBytes v 2 1 ≤ 2) &&
  (List.range (natBytes v 3 1)).all (fun i => imageCmdOk (natBytes v (0x80 + 32 * i) 32))

/-- What a restored entry carries beside its layout (R204): the generation of its barrier, which the tag of an arrival does not lose (R348,
R357), the port that it reads, and what its accesses come after (R235). They go with the entry they belong to, beside the bytes (log entry
26); where that is not known the generation is the barrier's, and the port that of the restored MCFG, though a later mcfg may have changed it
since the command started (DESIGN CHOICE, log 117). -/
def MCmd.asBefore (e : MCmd) (old : List MCmd) (i bar port : Nat) : MCmd :=
  match old[i]? with
  | some y =>
    if y.word = e.word ∧ y.gb = e.gb then { e with gen := y.gen, port := y.port, ctx := y.ctx, mark := y.mark, claimAt := y.claimAt }
    else { e with gen := bar, port := port }
  | none => { e with gen := bar, port := port }

/-- Bits of MCFG that are not reserved, and of XBASE those that may be set (R187). -/
def mcfgMask : Word := 0xDFFFE0

/-- Load a part (R203, R204): `old` are the entries whose names the loaded ones take over, `bars` gives the generation of a barrier, `mons`
whether a claimed entry goes to a monitor register. Reserved bits of MCFG read zero (R7, R187). The unit keeps being held when it is held. -/
def Matrix.load (m : Matrix) (p v : Nat) (old : List MCmd) (bars : Nat → Nat) (mons : Nat → Nat → Bool) : Matrix :=
  if p = 0 then
    let n := natBytes v 3 1
    let st := natBytes v 2 1
    { m with
      mcfg := BitVec.ofNat 64 (natBytes v 8 8) &&& mcfgMask, desc := BitVec.ofNat 256 (natBytes v 0x10 32), descValid := decide (natBytes v 0x30 1 = 1),
      ascale := BitVec.ofNat 256 (natBytes v 0x40 32),
      fifo := (List.range n).map (fun i =>
        let e := imageCmd (natBytes v (0x80 + 32 * i) 32) (m.serial + i)
        { e.asBefore old i (bars e.bnum) (natBits (natBytes v 8 8) 22 2) with claimMon := e.claimed && mons e.claimCtx e.claimReg }),
      serial := m.serial + n,
      state := if m.state = 3 then 3 else st, kept := if m.state = 3 then st else m.kept }
  else if p ≤ 4 then
    let m := (List.range 1024).foldl (fun m e => m.putWord (p - 1) e (BitVec.ofNat 32 (natBytes v (4 * e) 4))) m
    { m with astat := fset 0 m.astat (p - 1) (BitVec.ofNat 6 (natBytes v 4096 8)) }
  else if p ≤ 20 then
    { m with bbuf := (List.range 4096).foldl (fun b i => fset 0 b (4096 * (p - 5) + i) (BitVec.ofNat 8 (natBytes v i 1))) m.bbuf }
  else { m with scales := (List.range 4096).foldl (fun b i => fset 0 b i (BitVec.ofNat 8 (natBytes v i 1))) m.scales }

/-- The commands of a loaded FIFO go on: running ones from their progress, queued ones when they may start (R205). -/
def State.wakeUnit (s : State) (t : Nat) : State :=
  let l := (s.tile t).mx.fifo
  (l.filter (fun e => e.state == 1)).foldl (fun s e => s.later .matrixCommandComplete { a := t, b := e.serial })
    ((l.filter (fun e => e.state == 0)).foldl (fun s _ => s.later .matrixCommandStart { a := t }) s)

/-- Nothing of the unit drains any more: what it has begun is complete, or keeps its progress (R205). -/
def Matrix.quiescent (m : Matrix) : Bool := m.fifo.all (fun e => !e.drains)

/-- The unit is held, or empty with no busy accumulator (R203). -/
def Matrix.quietFor (m : Matrix) : Bool := m.state == 3 || (m.state == 0 && m.fifo.all (fun e => e.state == 2))

/-- The checks common to msave and mrest. -/
def partCheck (s : State) (v : List Word) : Option (Nat × Word) :=
  let p := (v1 v).toNat
  firstFault
    [(decide (21 < p), 0x20, 0), ((s.spmOperand (v0 v) (partSize p)).isNone, 0x20, v0 v), (fld (v0 v) 0 6 != 0, 0x10, v0 v),
     (!s.curTile.mx.quietFor, 0x18, 0)]

/-- MSAVE (R203): Saves one part of the matrix state to SPM. -/
def execMsave (ga gb : BitVec 6) (s : State) : Out :=
  issue { wf := (Instr.msave ga gb).wf, srcs := [blk ga, blk gb], priv := true } s (fun v s =>
    match partCheck s v with
    | some e => .fault e.1 e.2
    | none =>
      if s.accessHeld ∨ !s.curTile.mx.quiescent then .wait id
      else .ok (s.putFields s.slot.site (addrOff (v0 v)) (s.curTile.mx.part (v1 v).toNat)).retire)

/-- MREST (R203): Restores one part of the matrix state from SPM. -/
def execMrest (ga gb : BitVec 6) (s : State) : Out :=
  issue { wf := (Instr.mrest ga gb).wf, srcs := [blk ga, blk gb], priv := true } s (fun v s =>
    let p := (v1 v).toNat
    let t := s.slot.site
    match partCheck s v with
    | some e => .fault e.1 e.2
    | none =>
      if s.accessHeld ∨ !s.curTile.mx.quiescent then .wait id
      else if s.uncorrectable t (addrOff (v0 v)) (partSize p) then .fault 0x16 (v0 v)
      else
        let d := s.spmRead t (addrOff (v0 v)) (partSize p)
        if p = 0 ∧ !part0Ok d then .fault 0x17 0
        else
          let s := s.updCurTile (fun x => x.updMx (fun m => m.load p d x.mx.fifo (fun n => (x.bar n).gen) (fun c r => (x.ctx c).claimIsMon r)))
          .ok (if p = 0 then s.wakeUnit t else s).retire)

/-! ### Running a command (R195, R196, R49) -/

/-- Replace the entry of a serial number. -/
def Matrix.setCmd (m : Matrix) (e : MCmd) : Matrix := { m with fifo := m.fifo.map (fun y => if y.serial = e.serial then e else y) }

/-- The words of an accumulator, and all of them replaced. -/
def Matrix.accWords (m : Matrix) (acc : Nat) : List (BitVec 32) := (List.range 1024).map (m.word acc)
def Matrix.setAcc (m : Matrix) (acc : Nat) (l : List (BitVec 32)) : Matrix :=
  { m with acc := m.acc.filter (fun e => decide (e.1 < 1024 * acc)) ++
      ((l.zipIdx.filter (fun e => e.1 != 0)).map (fun e => (1024 * acc + e.2, e.1)) ++ m.acc.filter (fun e => decide (1024 * (acc + 1) ≤ e.1))) }

/-- An element of `w` bits, packed from byte 0 of a number up (R3, R30). -/
def elemAt (data w i : Nat) : Nat := data / 2 ^ (w * i) % 2 ^ w

/-- The 64 bytes of a B-buffer or scale-store row. -/
def bufRow (b : FMap Byte) (r : Nat) : Nat := (List.range 64).foldl (fun acc i => acc + (fget 0 b (64 * r + i)).toNat * 2 ^ (8 * i)) 0
def putRow (b : FMap Byte) (r v : Nat) : FMap Byte :=
  (List.range 64).foldl (fun b i => fset 0 b (64 * r + i) (BitVec.ofNat 8 (natBytes v i 1))) b

/-- An exact term of a step: the product of its factors. -/
def termOf (l : List FVal) : FVal × BitVec 6 :=
  l.foldl (fun acc v => let r := fMulV acc.1 v; (r.1, acc.2 ||| r.2)) (.fin false 1 0, 0)

/-- The exact sum of an accumulator value and finite or special terms (R38, R49): invalid sums and NaN give NaN. Zero terms do not
change the sign of a zero accumulator. -/
def sumTerms (acc : FVal) (terms : List FVal) : XVal :=
  let all := acc :: terms
  let pos := all.any (fun v => v.isInf && !v.neg?)
  let neg := all.any (fun v => v.isInf && v.neg?)
  if all.any FVal.isNan || (pos && neg) then .nan
  else if pos then .inf false
  else if neg then .inf true
  else if terms.all FVal.isZero then acc.exact
  else
    let u := all.foldl (fun (u : Int) v => match v with | .fin _ m e => if m = 0 then u else min u e | _ => u) 0
    let total := all.foldl (fun (t : Int) v => match v with | .fin n m e => if m = 0 then t else t + signedUnits n m e u | _ => t) 0
    ofUnits total u false

/-- One floating-point step of one element (R37, R49). A quiet NaN that already stands in the accumulator counts as a NaN operand of the step
and sets NV again: R38 sets none for a quiet NaN, R49 sets it for a NaN operand (DESIGN CHOICE, log 53). -/
def stepFp (acc : BitVec 32) (terms : List (List FVal)) : BitVec 32 × BitVec 6 :=
  let a := fp32.value acc.toNat
  let ps := terms.map termOf
  let x := sumTerms a (ps.map (·.1))
  let r := fp32.deliver {} 0 false x 0
  (BitVec.ofNat 32 r.1, match x with | .nan => r.2 ||| flagNV | _ => r.2)

/-- One INT8 step of one element (R49). -/
def stepInt (acc : BitVec 32) (l : List (Nat × Nat)) : BitVec 32 × BitVec 6 :=
  let x := l.foldl (fun (t : Int) p => t + intElem 8 p.1 * intElem 8 p.2) acc.toInt
  let r := clampInt x (-(2 ^ 31)) (2 ^ 31 - 1)
  (BitVec.ofInt 32 r.1, r.2)

/-- One k-step over all elements (R49): `a` gives the A pattern of (row, k offset), `b` the B pattern of (k offset, column), `xa`
and `xb` the scales of rows and columns, for `n` slices. -/
def Matrix.macStep (m : Matrix) (acc ca cb n : Nat) (a b : Nat → Nat → Nat) (xa xb : Nat → Nat) : Matrix × BitVec 6 :=
  let f (e : BitVec 32 × Nat) : BitVec 32 × BitVec 6 :=
    let i := e.2 / 32
    let j := e.2 % 32
    if ca = 8 then stepInt e.1 ((List.range n).map (fun k => (a i k, b k j)))
    else if ca = 6 then stepFp e.1 ((List.range n).map (fun k => [scaleValue (xa i), scaleValue (xb j), valueOf 6 (a i k), valueOf 6 (b k j)]))
    else stepFp e.1 ((List.range n).map (fun k => [valueOf ca (a i k), valueOf cb (b k j)]))
  let r := (m.accWords acc).zipIdx.map f
  (m.setAcc acc (r.map (·.1)), r.foldl (fun fl p => fl ||| p.2) 0)

/-- The loaded descriptor's fields (R188). -/
def dsc (d : BitVec 256) (off n : Nat) : Nat := fld d (8 * off) (8 * n)

/-- The size of the format that ESZ names (R188). -/
def eszBytes (c : Nat) : Nat := if c = 2 ∨ c = 3 then 2 else 1

/-- The checks of munf (R188). -/
def descOk (d : BitVec 256) : Bool :=
  let c := dsc d 0x0E 2
  let h := dsc d 4 2
  let w := dsc d 6 2
  let ch := dsc d 8 2
  let lim (v : Nat) : Bool := decide (1 ≤ v ∧ v ≤ 4095)
  let xb := dsc d 0 4
  [2, 3, 4, 5, 8].contains c && lim h && lim w && lim ch && lim (dsc d 0xA 2) && lim (dsc d 0xC 2) && decide (xb < 2 ^ 21) &&
  xb % eszBytes c == 0 && decide (xb + h * w * ch * eszBytes c ≤ 0x170000) && dsc d 0x18 8 == 0

/-- Offset of the element of row i and reduction index kk that the unfolding unit reads, none where it gives zero (R188). -/
def unfoldAt (d : BitVec 256) (i kk : Nat) : Option Nat :=
  let h := dsc d 4 2
  let w := dsc d 6 2
  let c := dsc d 8 2
  let ow := dsc d 0xA 2
  let oh := dsc d 0xC 2
  let nib (off hi : Nat) : Nat := natBits (dsc d off 1) (4 * hi) 4
  let p := dsc d 0x10 4 + i
  let ch := kk % c
  let t := kk / c
  let kw := nib 0x14 1 + 1
  let r := t / kw
  let y : Int := (p / ow * (nib 0x15 0 + 1) : Nat) - (nib 0x16 0 : Nat) + (r * (nib 0x17 0 + 1) : Nat)
  let x : Int := (p % ow * (nib 0x15 1 + 1) : Nat) - (nib 0x16 1 : Nat) + (t % kw * (nib 0x17 1 + 1) : Nat)
  if oh * ow ≤ p ∨ nib 0x14 0 + 1 ≤ r ∨ y < 0 ∨ (h : Int) ≤ y ∨ x < 0 ∨ (w : Int) ≤ x then none
  else some (dsc d 0 4 + ((y.toNat * w + x.toNat) * c + ch) * eszBytes (dsc d 0xE 2))

/-- What one unit of work of a running command comes to. -/
inductive Work where
  /-- a step, a row or nothing more to do is done -/
  | done (e : MCmd) (s : State)
  | wait
  | fail (code : Nat) (s : State)

/-- 64-byte units that the unit can take from a port now (R178, R198). -/
def Tile.unitsAt (x : Tile) (p : Nat) : Nat := if (List.range 12).any (fun k => (x.ctx k).frame.ppop && (x.ctx k).frame.port == p) then 0 else (x.q.inq? p).length / 8
/-- Take n units from a port (R198): their bytes, and the pops. -/
def State.takeUnits (s : State) (t p n : Nat) : Nat × State :=
  let l := ((s.tile t).q.inq? p).take (8 * n)
  (l.zipIdx.foldl (fun acc e => acc + e.1.val.toNat * 2 ^ (64 * e.2)) 0, (List.range (8 * n)).foldl (fun s _ => s.popUnit t p) s)

/-- A command wants more units than a port has: it waits, or, once it has taken those that are there and its stream has ended, it meets the
stream error, of which the home island has notice (R196, R202, R341, R446). -/
def State.starve (s : State) (t p : Nat) : Work :=
  let x := s.tile t
  match x.endedSlot p with
  | some n =>
    if (x.q.inq? p).length = 8 * x.unitsAt p then .fail 0x26 ((s.takeUnits t p (x.unitsAt p)).2.streamEnded t n) else .wait
  | none => .wait

/-- The B-buffer rows of a step hold an error, or the scale row of its block, or a word of the accumulator (R196). -/
def Matrix.badStep (m : Matrix) (e : MCmd) (kb n : Nat) : Bool :=
  let acc := mAcc e.word
  let rb := 32 * stepBits e.codeA / 8
  let lo := mBrow e.gb + rb * kb / 64
  let hi := mBrow e.gb + (rb * (kb + n) - 1) / 64
  (List.range 1024).any (fun k => fget false m.bad (1024 * acc + k)) ||
  (List.range (hi - lo + 1)).any (fun r => fget false m.bad (8192 + lo + r)) ||
  (decide (e.codeA = 6) && fget false m.bad (16384 + (4 * mBrow e.gb + kb) / 64))

/-- A completed step counts 1,024·w MACs of its format (R440), and one k-step (R413). -/
def Tile.countMacs (x : Tile) (ca : Nat) : Tile :=
  let i := if ca = 6 then 6 else if ca = 8 then 5 else if ca = 4 ∨ ca = 5 then 4 else if ca = 2 ∨ ca = 3 then 3 else 2
  let c := fset 0 x.counts i (fget 0 x.counts i + 1024 * stepWidth ca)
  { x with counts := fset 0 c 12 (fget 0 c 12 + 1) }

/-- One k-step of a mmac-family command (R202). -/
def State.macWork (s : State) (t : Nat) (e : MCmd) : Work :=
  let x := s.tile t
  let m := x.mx
  let k := mK e.gb
  let ca := e.codeA
  let wb := stepBits ca
  let kb := e.progress
  let n := Nat.min (stepWidth ca) (k - kb)
  let lenA := 32 * wb * n / 8
  let block := ca = 6 ∧ kb % 32 = 0
  let bdata := (List.range ((lenA + 63) / 64 + 1)).foldl (fun acc r =>
    acc + bufRow m.bbuf (mBrow e.gb + 32 * wb * kb / 8 / 64 + r) * 2 ^ (512 * r)) 0
  let b (kk j : Nat) : Nat := elemAt (bdata / 2 ^ (8 * (32 * wb * kb / 8 % 64))) wb (32 * kk + j)
  let q := 4 * mBrow e.gb + kb
  let xb (j : Nat) : Nat := (fget 0 m.scales (32 * (q / 32) + j)).toNat
  let step (s : State) (a : Nat → Nat → Nat) (xa : Nat → Nat) : Work :=
    let r := m.macStep (mAcc e.word) ca e.codeB n a b xa xb
    .done { e with progress := kb + n, flags := e.flags ||| r.2 } (s.updTile t (fun x => (x.updMx (fun m => { m with acc := r.1.acc })).countMacs ca))
  if m.badStep e kb n then .fail 0x16 s
  else match e.kind with
  | .mmac =>
    let off := addrOff e.ga + 32 * wb * kb / 8
    let xoff := fld m.mcfg 0 21 + 32 * (kb / 32)
    if s.uncorrectable t off lenA ∨ (ca = 6 ∧ s.uncorrectable t xoff 32) then .fail 0x16 s
    else
      let d := s.spmRead t off lenA
      let sc := s.spmRead t xoff 32
      let s := s.countCec t (s.correctables t off lenA + (if ca = 6 then s.correctables t xoff 32 else 0))
      step s (fun i kk => elemAt d wb (32 * kk + i)) (fun i => natBytes sc i 1)
  | .mmacu =>
    let z := eszBytes ca
    let at_ (i kk : Nat) : Option Nat := unfoldAt m.desc i (mK0 e.gb + kb + kk)
    let cells := (List.range 32).flatMap (fun i => (List.range n).filterMap (at_ i))
    if cells.any (fun o => s.uncorrectable t o z) then .fail 0x16 s
    else
      let ce := (cells.map (fun o => s.correctables t o z)).sum
      let a (i kk : Nat) : Nat := match at_ i kk with | some o => s.spmRead t o z | none => 0
      step (s.countCec t ce) a (fun _ => 0)
  | _ =>
    let need := (lenA + 63) / 64 + (if block then 1 else 0)
    let have_ := x.unitsAt e.port
    if have_ < need then s.starve t e.port
    else
      let (d, s) := s.takeUnits t e.port need
      let sc := if block then d % 2 ^ 256 else m.ascale.toNat
      let d := if block then d / 2 ^ 512 else d
      step (s.updTile t (fun x => x.updMx (fun m => { m with ascale := BitVec.ofNat 256 sc }))) (fun i kk => elemAt d wb (32 * kk + i)) (fun i => natBytes sc i 1)

/-- One row of an mldb (R198). -/
def State.loadRow (s : State) (t : Nat) (e : MCmd) : Work :=
  let x := s.tile t
  let scl := bit e.gb 21
  let r := fld e.gb 0 10 + e.progress
  let put (s : State) (d : Nat) : Work :=
    .done { e with progress := e.progress + 1 } (s.updTile t (fun x => x.updMx (fun m =>
      if scl then { m with scales := putRow m.scales r d, bad := fset false m.bad (16384 + r) false }
      else { m with bbuf := putRow m.bbuf r d, bad := fset false m.bad (8192 + r) false })))
  if bit e.gb 47 then
    if x.unitsAt e.port = 0 then s.starve t e.port
    else
      let (d, s) := s.takeUnits t e.port 1
      put s d
  else
    let off := addrOff e.ga + 64 * e.progress
    if s.uncorrectable t off 64 then .fail 0x16 s
    else put (s.countCec t (s.correctables t off 64)) (s.spmRead t off 64)

/-- One element of an mstr: pattern and flags (R199). -/
def strElem (k : Nat) (scale : Int) (v : BitVec 32) : Nat × BitVec 6 :=
  let d := k % 16
  let c := if k.testBit 7 then 10 else 0
  if d = 0 ∧ c = 0 ∧ scale = 0 then (v.toNat, 0)
  else cvtElem { scale := scale } 0 false d c (k.testBit 4) v.toNat

/-- One row of an mstr (R199). -/
def State.storeRow (s : State) (t : Nat) (e : MCmd) : Work :=
  let m := (s.tile t).mx
  let k := fld e.word 4 8
  let w := codeWidth (k % 16)
  let i := e.progress
  let acc := mAcc e.word
  let off := addrOff e.ga + i * fld e.gb 0 16
  if (List.range 32).any (fun j => fget false m.bad (1024 * acc + 32 * i + j)) ∨ s.uncorrectable t off (4 * w) then .fail 0x16 s
  else
    let r := (List.range 32).map (fun j => strElem k (e.gb.extractLsb' 16 6).toInt (m.word acc (32 * i + j)))
    -- each element is one access of its width
    .done { e with progress := i + 1, flags := r.foldl (fun fl p => fl ||| p.2) e.flags }
      (r.zipIdx.foldl (fun s p => s.spmStore t (off + w / 8 * p.2) (w / 8) p.1.1) s)

/-- The next unit of work of a running command. -/
def State.work (s : State) (t : Nat) (e : MCmd) : Work :=
  match e.kind with
  | .mldb => s.loadRow t e
  | .mstr => s.storeRow t e
  | _ => s.macWork t e

/-- COUNT of a record (R192). -/
def MCmd.count (e : MCmd) : Nat :=
  match e.kind with
  | .mldb => e.progress
  | .mstr => e.progress * 32 * (codeWidth (fld e.word 4 4) / 8)
  | .mmac => e.progress
  | .mmacu => e.progress
  | .mmacs => e.progress
  | _ => 0

/-- The completion record (R192). -/
def MCmd.recordWord (e : MCmd) : Word :=
  BitVec.ofNat 64 (e.count * 2 ^ 32 + e.code.toNat * 2 ^ 24 + e.tag * 2 ^ 16 + 2 ^ 15 + (if e.code = 0 then 0 else 2 ^ 14) +
    (if e.names then mAcc e.word * 2 ^ 12 else 0) + e.flags.toNat * 2 ^ 6 + e.fnCode)

/-- A command ends (R191 to R196): flags merged, record written, barrier arrival made, error-hold entered, the entry freed or kept. -/
def State.endCmd (s : State) (t : Nat) (e : MCmd) : State :=
  let e := { e with state := 2, record := e.recordWord }
  let s := s.updTile t (fun x => x.updMx (fun m => { m with
    astat := if e.names ∧ e.kind ≠ .mzero then fset 0 m.astat (mAcc e.word) (fget 0 m.astat (mAcc e.word) ||| e.flags) else m.astat }))
  let s := if e.bar then s.arrive t e.bnum e.bytes 0 (some e.gen) (e.code != 0) else s
  let s := if e.claimed then s.arriveG t e.claimCtx e.claimReg e.claimMon e.claimAt e.record else s
  let gone := e.claimed || e.drop || (e.quiet && e.code == 0)
  let s := s.updTile t (fun x => x.updMx (fun m =>
    if gone then ({ m with fifo := m.fifo.filter (fun y => y.serial != e.serial) }).settle false
    else
      let m := m.setCmd e
      if e.code = 0 then m else if m.state = 3 then { m with kept := 2 } else { m with state := 2 }))
  s.later .matrixCommandStart { a := t }

/-- An earlier command of the mmac family has not completed: they complete in their order. -/
def Matrix.macBefore (m : Matrix) (e : MCmd) : Bool :=
  e.kind.isMac && (m.fifo.takeWhile (fun y => y.serial != e.serial)).any (fun y => y.kind.isMac && decide (y.state < 2))

/-- MATRIX_COMMAND_COMPLETE (R195): A running command takes its next step or row; after its last it drains, and completes, writing its record,
flags and barrier arrival. Operands: a = t, b = n. -/
def execMatrixCommandComplete (s : State) : Out :=
  let t := s.ev.a
  let m := (s.tile t).mx
  let on (e : MCmd) (s : State) : Out := .next ((s.updTile t (fun x => x.updMx (fun m => m.setCmd e))).later .matrixCommandComplete { a := t, b := e.serial })
  match m.fifo.find? (fun e => e.serial == s.ev.b && e.state == 1) with
  | none => .next s
  | some e =>
    if e.drains then (if m.macBefore e then notYet s else .next (s.endCmd t e))
    -- a held unit only completes what drains: mcfg, munf and mzero, and what has met an error or the end of its work (R205)
    else if m.state = 3 then notYet s
    else match s.work t e with
      | .wait => notYet s
      | .fail c s => on { e with code := BitVec.ofNat 8 c } s
      | .done e s => on e s

/-- The last command before on the compute path belongs to the mmac family and names the same accumulator: one of the family may start in
the cycle after its last busy cycle (R195 item 6). -/
def MCmd.chains (e : MCmd) (before : List MCmd) : Bool :=
  match (before.filter (fun y => y.kind != .mldb)).getLast? with
  | some y => e.kind.isMac && y.kind.isMac && mAcc y.word == mAcc e.word
  | none => false

/-- The head of the queued entries may start (R195): its path is free of busy commands, no command before it that has not completed uses its
rows or, but for the exception of item 6, its accumulator; the writes before its push are acknowledged (R235). -/
def Tile.mayStart (x : Tile) (e : MCmd) : Bool :=
  let before := (x.mx.fifo.takeWhile (fun y => y.serial != e.serial)).filter (fun y => decide (y.state < 2))
  x.mx.state == 1 && x.released e.ctx e.mark &&
  !before.any (fun y => y.state == 0 || (((y.kind == .mldb) == (e.kind == .mldb)) && !y.drains) || rowsMeet y.bRows e.bRows || rowsMeet y.sRows e.sRows ||
    (y.names && e.names && mAcc y.word == mAcc e.word && !e.chains before))

/-- What a command does at its start, and the error it may end with there (R187, R188, R196, R197, R202). -/
def State.beginCmd (s : State) (t : Nat) (e : MCmd) : MCmd × State :=
  let m := (s.tile t).mx
  let e := { e with state := 1, port := fld m.mcfg 22 2 }
  let upd (f : Matrix → Matrix) : State := s.updTile t (fun x => x.updMx f)
  match e.kind with
  | .mcfg => (e, upd (fun m => { m with mcfg := e.ga }))
  | .mzero => (e, upd (fun m => { m.setAcc (mAcc e.word) (List.replicate 1024 0) with
      astat := fset 0 m.astat (mAcc e.word) 0
      bad := m.bad.filter (fun b => !decide (1024 * mAcc e.word ≤ b.1 ∧ b.1 < 1024 * (mAcc e.word + 1))) }))
  | .munf =>
    let off := addrOff e.ga
    if s.uncorrectable t off 32 then ({ e with code := 0x16 }, s)
    else
      let d := BitVec.ofNat 256 (s.spmRead t off 32)
      let s := s.countCec t (s.correctables t off 32)
      if descOk d then (e, s.updTile t (fun x => x.updMx (fun m => { m with desc := d, descValid := true })))
      else ({ e with code := 0x20 }, s.updTile t (fun x => x.updMx (fun m => { m with descValid := false })))
  | .mmacu => (if m.descValid ∧ dsc m.desc 0xE 2 = e.codeA then e else { e with code := 0x20 }, s)
  | .mmac =>
    (if e.codeA = 6 ∧ (if e.mon then 0x180000 else 0x170000) < fld m.mcfg 0 21 + 32 * ((mK e.gb + 31) / 32) then { e with code := 0x20 } else e, s)
  | _ => (e, s)

/-- MATRIX_COMMAND_START (R195): A queued matrix command starts once its path, rows and accumulator are free. Operands: a = t. -/
def execMatrixCommandStart (s : State) : Out :=
  let t := s.ev.a
  let m := (s.tile t).mx
  match m.fifo.find? (fun e => e.state == 0) with
  | none => .next s
  | some e =>
    if !(s.tile t).mayStart e then notYet s
    else
      let r := s.beginCmd t e
      .next ((r.2.updTile t (fun x => x.updMx (fun m => m.setCmd r.1))).later .matrixCommandComplete { a := t, b := e.serial })

end Sys2Proof.Machine
end

