-- ==== Sys2Proof/Machine/VectorMem.lean ====
section
/-! DEFINITION. Vector loads and stores (R168 to R172, R223). -/
namespace Sys2Proof.Machine

/-- One access of a vector instruction: row or element j, its address and its size in bytes. -/
structure Part where
  j : Nat
  addr : Word
  size : Nat
deriving DecidableEq, Repr

/-- R169 item 1 for every part, in increasing j: the locations, or the first failure. -/
def State.checkParts (s : State) (rd wr : Bool) : List Part → Except (Nat × Word) (List (Part × Loc))
  | [] => .ok []
  | p :: r => match s.precheck p.addr p.size p.size rd wr with
    | .error e => .error e
    | .ok l => match s.checkParts rd wr r with
      | .error e => .error e
      | .ok q => .ok ((p, l) :: q)

/-- R169 item 2: the first edge part without a translation; `skip` names the parts that need none. -/
def State.firstMiss (s : State) (kind : Nat) (skip : Part → Bool) : List (Part × Loc) → Option Nat
  | [] => none
  | (p, l) :: r =>
    if skip p then s.firstMiss kind skip r
    else match s.reach l kind with
      | .miss va _ => some va
      | _ => s.firstMiss kind skip r

/-- The elements of a width that a mask makes active, bit by element. -/
def activeLanes (mask : BitVec 16) (w : Nat) : BitVec 64 :=
  (List.range (512 / w)).foldl (fun acc j => if laneOn mask false w j then acc ||| BitVec.twoPow 64 j else acc) 0

/-- Lay one row or element into the registers of a load (R168). -/
def VecLoad.place (x : VecLoad) (j data : Nat) : VecLoad :=
  let reg (i : Nat) : Nat := (fget 0 x.data i).toNat
  let setLane (w i k v : Nat) (d : FMap VecReg) : FMap VecReg :=
    let old := (fget 0 d i).toNat
    fset 0 d i (BitVec.ofNat 512 (old - lane old w k * 2 ^ (w * k) + v % 2 ^ w * 2 ^ (w * k)))
  let w := 8 * x.size
  match x.kind with
  | 0 => { x with data := fset 0 x.data 0 (BitVec.ofNat 512
      ((List.range (512 / w)).foldl (fun acc k => acc + (if bit x.mask k then lane data w k else lane (reg 0) w k) * 2 ^ (w * k)) 0)) }
  | 1 => { x with data := (List.range 16).foldl (fun d i => setLane 32 i j (lane data 32 i) d) x.data }
  | _ => { x with data := setLane w 0 j data x.data }

/-- Registers of a load. -/
def VecLoad.regs (x : VecLoad) : List Nat := (List.range x.nregs).map (fun i => x.vd + i)

/-- The values of a finished load go to its registers, all full together (R170). -/
def VecLoad.write (x : VecLoad) (y : Ctx) : Ctx :=
  (List.range x.nregs).foldl (fun y i => y.putV (x.vd + i) (fget 0 x.data i)) y

/-- The 8-byte words that a load of `size` bytes needs, as offset and length: of a row only those with an active element (R158). -/
def VecLoad.needs (x : VecLoad) (off size : Nat) : List (Nat × Nat) :=
  if x.kind = 0 then
    ((List.range 8).filter (fun k => (List.range (64 / x.size)).any (fun j => bit x.mask j && decide (j * x.size / 8 = k)))).map (fun k => (off + 8 * k, 8))
  else [(off, size)]

/-- Words that a part of a load needs hold an uncorrectable error (R158, R212). -/
def State.needBad (s : State) (t : Nat) (l : List (Nat × Nat)) : Bool := l.any (fun p => s.uncorrectable t p.1 p.2)

/-- The correctable errors among the words that a part of a load needs are counted (R158, R212). -/
def State.needCount (s : State) (t : Nat) (l : List (Nat × Nat)) : State := s.countCec t ((l.map (fun p => s.correctables t p.1 p.2)).sum)

/-- A part of the own slice cannot be read: an uncorrectable error, unless RAW is set (R212, R480). -/
def State.partBad (s : State) (x : VecLoad) (off : Nat) (size : Nat) : Bool := !s.curTile.spmraw && s.needBad s.slot.site (x.needs off size)

/-- Read a part of the own slice. -/
def State.partRead (s : State) (x : VecLoad) (off size : Nat) : Nat × State :=
  let t := s.slot.site
  if s.curTile.spmraw then (s.spmRaw t off size, s)
  else (s.spmRead t off size, s.needCount t (x.needs off size))

/-- The first part of the own slice with an uncorrectable error. -/
def State.firstBad (s : State) (x : VecLoad) : List (Part × Loc) → Option Word
  | [] => none
  | (p, .loc o) :: r => if s.partBad x o p.size then some p.addr else s.firstBad x r
  | _ :: r => s.firstBad x r

/-- Perform the parts in order: own parts and cache hits at once, requests for the rest (R170, R223). -/
def State.runParts (s : State) (inv : Bool) (serial : Nat) : VecLoad → List (Part × Loc) → VecLoad × State
  | x, [] => (x, s)
  | x, (p, l) :: r =>
    match l with
    | .loc o =>
      let d := s.partRead x o p.size
      d.2.runParts inv serial (x.place p.j d.1) r
    | l => match (if inv then s.invLine p.addr else none) with
      | some line => (s.invTouch line).runParts inv serial (x.place p.j (fld line.data (8 * fld p.addr 0 6) (8 * p.size))) r
      | none =>
        let s := if inv then s.invParity p.addr else s
        match s.reach l 0 with
        | .far d e =>
          let alloc := inv && !(match e with | some y => s.cur.once.contains y | none => false)
          let q := if alloc then s.askInv p.addr (.vec serial p.j true p.addr) d e
            else (s.touch e).request s.slot.site s.slot.ctx (.load p.addr p.size) (.vec serial p.j false p.addr) d e
          q.2.runParts inv serial { x with left := x.left + 1 } r
        | _ => s.runParts inv serial x r

/-- The parts wait for a command that the context has claimed, or for what its last receipt comes after (R235, R236). -/
def State.partsMeet (s : State) (parts : List Part) : Bool := !parts.isEmpty && s.accessHeld

/-- A vector load: every check first, then every access; local or all hits at once, else the registers empty until the last reply
(R169, R170). -/
def State.vecLoad (s : State) (inv : Bool) (x : VecLoad) (parts : List Part) : Act :=
  if s.partsMeet parts then .wait id
  else match s.checkParts true false parts with
  | .error e => .fault e.1 e.2
  | .ok ls => match s.firstMiss 0 (fun p => inv && (s.invLine p.addr).isSome) ls with
    | some va => waitXlate va 0
    | none => match s.firstBad x ls with
      | some a => .fault 0x16 a
      | none =>
        let (serial, s) := s.fresh
        let c := s.slot.ctx
        let r := s.runParts inv serial { x with serial := serial, ctx := c } ls
        if r.1.left = 0 then .ok (r.2.updCur r.1.write).retire
        else
          let s := r.2.updCur (fun y => (r.1.regs.foldl (fun y v => y.putVState v .pending) y).owes)
          .ok (s.updCurTile (fun t => t.updQ (fun q => { q with vloads := q.vloads ++ [r.1] }))).retire

/-- VLD (R168): Loads a 64-byte row into vd. -/
def execVld (vd va vb : BitVec 5) (m : BitVec 3) (w : BitVec 2) (n : BitVec 1) (s : State) : Out :=
  issue { wf := (Instr.vld vd va vb m w n).wf, srcs := [blk (g5 va), blk (g5 vb)], vsrcs := if m = 0 then [] else [vd], vdsts := [vd], vec := true } s
    (fun v s =>
      let a := v0 v + v1 v
      let on := activeLanes (s.cur.mask m.toNat) (elemWidth w)
      let x : VecLoad := { kind := 0, vd := vd.toNat, size := elemWidth w / 8, mask := on, data := fset 0 [] 0 (s.cur.readV vd.toNat) }
      if on = 0 then
        match s.precheck a 64 64 true false with
        | .error e => .fault e.1 e.2
        | .ok l => match s.reach l 0 with
          | .miss va k => waitXlate va k
          | _ => .ok s.retire
      else s.vecLoad (n == 1) x [{ j := 0, addr := a, size := 64 }])

/-- VLDT (R168): Loads and transposes 16 rows into 16 registers. -/
def execVldt (vd va vb : BitVec 5) (n : BitVec 1) (s : State) : Out :=
  issue { wf := (Instr.vldt vd va vb n).wf, srcs := [blk (g5 va), blk (g5 vb)], vec := true,
          vdsts := (List.range 16).map (fun i => vd + BitVec.ofNat 5 i) } s
    (fun v s =>
      s.vecLoad (n == 1) { kind := 1, vd := vd.toNat, nregs := 16, size := 4 }
        ((List.range 16).map (fun j => { j := j, addr := v0 v + BitVec.ofNat 64 j * v1 v, size := 64 })))

/-- Width of gather and scatter elements in bits: 32 or 64 (R168). -/
def gatherWidth (w : BitVec 1) : Nat := if w = 1 then 64 else 32

/-- The active elements of a gather or scatter with their addresses. -/
def gatherParts (x : Ctx) (vd : BitVec 5) (m : BitVec 3) (w : Nat) (a b : Word) : List Part :=
  let idx := x.vread false (vd.toNat + 1)
  ((List.range (512 / w)).filter (fun j => laneOn (x.mask m.toNat) false w j)).map
    (fun j => { j := j, addr := a + (BitVec.ofNat w (lane idx w j)).signExtend 64 * b, size := w / 8 })

/-- VGATHER (R168): Gathers elements by indices in vd+1. -/
def execVgather (vd va vb : BitVec 5) (m : BitVec 3) (w n : BitVec 1) (s : State) : Out :=
  issue { wf := (Instr.vgather vd va vb m w n).wf, srcs := [blk (g5 va), blk (g5 vb)],
          vsrcs := (vd + 1) :: (if m = 0 then [] else [vd]), vdsts := [vd], vec := true } s
    (fun v s =>
      s.vecLoad (n == 1) { kind := 2, vd := vd.toNat, size := gatherWidth w / 8, data := fset 0 [] 0 (s.cur.readV vd.toNat) }
        (gatherParts s.cur vd m (gatherWidth w) (v0 v) (v1 v)))

/-! ### Stores (R168, R171) -/

/-- The bytes of a row that active elements cover. -/
def byteMask (on : BitVec 64) (size : Nat) : BitVec 64 :=
  (List.range 64).foldl (fun acc i => if bit on (i / size) then acc ||| BitVec.twoPow 64 i else acc) 0

/-- A masked row store is blocked at a word that it covers in part and that holds an uncorrectable error (R212). -/
def State.rowBlocked (s : State) (t off : Nat) (mask : BitVec 64) : Bool :=
  (List.range 8).any (fun k => fld mask (8 * k) 8 != 0 && fld mask (8 * k) 8 != 255 && s.uncorrectable t (off + 8 * k) 8)

/-- Write the bytes of a row that a mask names, word by word (R212). -/
def State.rowStore (s : State) (t off : Nat) (mask : BitVec 64) (data : BitVec 512) : State :=
  (List.range 8).foldl (fun s k =>
    let b := fld mask (8 * k) 8
    if b = 0 then s
    else if b = 255 then s.spmStore t (off + 8 * k) 8 (fld data (64 * k) 64)
    else
      let s := s.countCec t (s.correctables t (off + 8 * k) 8)
      let s := (List.range 8).foldl (fun s i => if bit mask (8 * k + i) then s.spmWrite t (off + 8 * k + i) 1 (fld data (64 * k + 8 * i) 8) else s) s
      s.storeEcc t (off + 8 * k) 8) s

/-- VST (R168): Stores active elements of vd to a row. -/
def execVst (vd va vb : BitVec 5) (m : BitVec 3) (w : BitVec 2) (s : State) : Out :=
  issue { wf := (Instr.vst vd va vb m w).wf, srcs := [blk (g5 va), blk (g5 vb)], vsrcs := [vd], vec := true } s
    (fun v s =>
      let a := v0 v + v1 v
      let t := s.slot.site
      let mask := byteMask (activeLanes (s.cur.mask m.toNat) (elemWidth w)) (elemWidth w / 8)
      let data := s.cur.readV vd.toNat
      if s.accessHeld then .wait id
      else match s.precheck a 64 64 false true with
      | .error e => .fault e.1 e.2
      | .ok l => match s.reach l 1 with
        | .own o => if s.rowBlocked t o mask then .fault 0x16 a else .ok (s.rowStore t o mask data).retire
        | .miss va k => waitXlate va k
        | .far d x =>
          if mask = 0 then .ok s.retire
          else if s.curTile.retFree = 0 then .wait id
          else .ok ((s.touch x).request t s.slot.ctx (.row a mask data) .none d x).2.retire)

/-- The parts of a scatter that are sent: among those of one address the one with the highest j (R171). -/
def lastOfEach : List (Part × Loc) → List (Part × Loc)
  | [] => []
  | p :: r => if r.any (fun q => q.1.addr == p.1.addr) then lastOfEach r else p :: lastOfEach r

/-- Perform the parts of a scatter in order. -/
def State.runScatter (s : State) (data : Nat) : List (Part × Loc) → State
  | [] => s
  | (p, l) :: r =>
    let x := lane data (8 * p.size) p.j
    match s.reach l 1 with
    | .own o => (s.spmStore s.slot.site o p.size x).runScatter data r
    | .far d e => ((s.touch e).request s.slot.site s.slot.ctx (.store p.addr p.size x) .none d e).2.runScatter data r
    | .miss _ _ => s.runScatter data r

/-- Parts that leave the tile. -/
def farParts (l : List (Part × Loc)) : Nat := (l.filter (fun p => match p.2 with | .loc _ => false | _ => true)).length

/-- VSCATTER (R168): Scatters elements by indices in vd+1. -/
def execVscatter (vd va vb : BitVec 5) (m : BitVec 3) (w : BitVec 1) (s : State) : Out :=
  issue { wf := (Instr.vscatter vd va vb m w).wf, srcs := [blk (g5 va), blk (g5 vb)], vsrcs := [vd, vd + 1], vec := true } s
    (fun v s =>
      let parts := gatherParts s.cur vd m (gatherWidth w) (v0 v) (v1 v)
      if s.partsMeet parts then .wait id
      else match s.checkParts false true parts with
      | .error e => .fault e.1 e.2
      | .ok ls => match s.firstMiss 1 (fun _ => false) ls with
        | some va => waitXlate va 1
        | none =>
          match ls.find? (fun p => match p.2 with | .loc o => s.storeBlocked s.slot.site o p.1.size | _ => false) with
          | some p => .fault 0x16 p.1.addr
          | none =>
            let sent := lastOfEach ls
            if s.curTile.retFree < farParts sent then .wait id
            else .ok (s.runScatter (s.cur.vread false vd.toNat) sent).retire)

end Sys2Proof.Machine
end

