-- ==== Sys2Proof/Machine/Requests.lean ====
section
/-! DEFINITION. Remote and edge requests on their way: performed at their home, answered, acknowledged, refused (R212, R216 to
R220, R254, R258, R263, R323, R324). -/
namespace Sys2Proof.Machine

/-! ### Memory behind a port (R212, R254, R323) -/

/-- The partner of a mirrored frame (R323). -/
def partnerOf (pa : Nat) : Nat := pa ^^^ 2 ^ 38

/-- Keys of the 8-byte words that `n` bytes at a key touch. -/
def memWords (key n : Nat) : List Nat := (List.range ((key + n + 7) / 8 - key / 8)).map (fun i => (key / 8 + i) * 8)

def State.memBad (s : State) (key n : Nat) : Bool := (memWords key n).any (fun k => s.eccAt k == 66)

/-- Write bytes behind a port; the words written are good again. -/
def State.memStore (s : State) (key n v : Nat) : State :=
  (memWords key n).foldl (fun s k => if s.eccAt k = 0 then s else s.setEcc k 0) (s.memWrite key n v)

/-- The bytes of a mask within 8-byte word k. -/
def wordMask (mask : BitVec 64) (k : Nat) : Nat := fld mask (8 * k) 8

/-- Write the bytes of a row that a mask names; the words written are good again. -/
def State.memRow (s : State) (key : Nat) (mask : BitVec 64) (data : BitVec 512) : State :=
  (List.range 64).foldl (fun s i => if bit mask i then s.memStore (key + i) 1 (fld data (8 * i) 8) else s) s

/-- The port that takes a request: its own, or for a mirrored frame whose group serves none the partner's (R323, R458). -/
def State.arrivalPort (s : State) (e : Ret) (pa : Nat) : Option Nat :=
  match s.servingPort pa with
  | some p => some p
  | none => if e.mirrored then s.servingPort (partnerOf pa) else none

/-- The frames that a request reaches: its own, and of a mirrored frame its partner, as far as their groups serve them (R254, R323). -/
def State.copiesOf (s : State) (e : Ret) (pa : Nat) : List Nat :=
  (if (s.servingPort pa).isSome then [pa] else []) ++ (if e.mirrored ∧ (s.servingPort (partnerOf pa)).isSome then [partnerOf pa] else [])

/-- The request writes. -/
def Body.writes : Body → Bool
  | .load _ _ => false
  | _ => true

/-- The module of a frame answers (R322); another wafer's does when its link is up. -/
def State.answers (s : State) (pa : Nat) : Bool := decide (paWafer pa ≠ s.module.waferNo) || (s.group (paGroup pa)).answering

/-- The copies whose modules must answer: every one for a write, any one for a read (R254, R322). -/
def State.copiesAnswer (s : State) (e : Ret) (pa : Nat) : Bool :=
  if e.body.writes then (s.copiesOf e pa).all s.answers else (s.copiesOf e pa).any s.answers

/-! ### Performing a request at its home -/

/-- What the home of a request answers: data, flags, an error code. -/
structure Answer where
  data : Nat := 0
  flags : BitVec 6 := 0
  code : BitVec 8 := 0

/-- A store discarded after its issue is told to the home island by the tile that finds out (R212, R267). -/
def State.storeError (s : State) (at_ t : Nat) (e : Ret) (code : Nat) : State :=
  let x := s.tile t
  let a : Word := match e.body with
    | .store a _ _ => a
    | .row a _ _ => a
    | _ => 0
  let who := if e.sink.isEngine then 15 else e.ctx
  s.tileEvent at_ 0x44 0 x.col x.row (BitVec.ofNat 64 (code + 256 * who)) a

/-- The bytes that a load of `n` bytes needs, as offset and length: a row of a vector load needs the words of its active elements, a line
to be allocated all of it (R158, R223). -/
def State.needsOf (s : State) (t : Nat) (e : Ret) (off n : Nat) : List (Nat × Nat) :=
  match e.sink with
  | .vec serial _ false _ => match (s.tile t).q.vloads.find? (fun x => x.serial == serial) with
    | some x => x.needs off n
    | none => [(off, n)]
  | _ => [(off, n)]

/-- Perform a request at another tile (R158, R212, R219). -/
def State.performTile (s : State) (t u : Nat) (e : Ret) : Answer × State :=
  match e.body with
  | .load a n =>
    let o := addrOff a
    let l := s.needsOf t e o n
    if s.needBad u l then ({ code := 0x16 }, s) else ({ data := s.spmRead u o n }, s.needCount u l)
  | .store a n d =>
    let o := addrOff a
    if s.storeBlocked u o n then ({}, s.storeError u t e 0x16) else ({}, s.spmStore u o n d)
  | .row a m d =>
    let o := addrOff a
    if s.rowBlocked u o m then ({}, s.storeError u t e 0x16) else ({}, s.rowStore u o m d)
  | .atomic a n op b c =>
    let o := addrOff a
    if s.uncorrectable u o n then ({ code := 0x16 }, s)
    else
      let old := s.spmRead u o n
      let r := amoNew op n old b.toNat c.toNat
      let s := s.countCec u (s.correctables u o n)
      ({ data := old, flags := r.2 }, match r.1 with | some v => s.spmPut u o n v | none => s)
  | _ => ({}, s)

/-- Key `k` of the first copy, in the copy at `pa`. -/
def inCopy (copies : List Nat) (k pa : Nat) : Nat := k + edgeKey pa - edgeKey (copies.headD 0)

/-- The copy that serves the word of a key of the first copy: the first without an uncorrectable error there (R254). -/
def State.goodCopy (s : State) (copies : List Nat) (k : Nat) : Option Nat := copies.find? (fun pa => !s.memBad (inCopy copies k pa) 1)

/-- `n` bytes from a key of the first copy, each from the copy that serves it. -/
def State.copyBytes (s : State) (copies : List Nat) (k : Nat) : Nat → Nat
  | 0 => 0
  | n + 1 => (Memory.byte s.mem (inCopy copies k ((s.goodCopy copies k).getD 0))).toNat + 256 * s.copyBytes copies (k + 1) n

/-- What a read of `n` bytes of the first copy answers: a word with an uncorrectable error is served from the other copy (R254). -/
def State.copyRead (s : State) (copies : List Nat) (n : Nat) : Nat :=
  let k := edgeKey (copies.headD 0)
  if s.memBad k n then s.copyBytes copies k n else s.memRead k n

/-- A word that every copy holds with an uncorrectable error is among these (R254). -/
def State.copiesBad (s : State) (copies : List Nat) (ks : List Nat) : Bool := ks.any (fun k => (s.goodCopy copies k).isNone)

/-- The correctable errors of words that are read behind a port: one for a word served in place of a bad one, one for a word whose bit is
corrected; they count at the site that carries the port (R254, R446; log entry 99). -/
def State.countWords (s : State) (copies : List Nat) (ks : List Nat) : State :=
  ks.foldl (fun s k => match s.goodCopy copies k with
    | none => s
    | some pa => s.countCec (s.portSite ((s.servingPort pa).getD 0))
        ((if copies.head? = some pa then 0 else 1) + (if s.eccAt (inCopy copies k pa) = 0 then 0 else 1))) s

/-- A word that is written in part is read first: a copy whose word is bad takes it whole from the other (R212, R254). -/
def State.healWords (s : State) (copies : List Nat) (ks : List Nat) : State :=
  ks.foldl (fun s k => match s.goodCopy copies k with
    | none => s
    | some g => copies.foldl (fun s pa =>
        if s.memBad (inCopy copies k pa) 8 then s.memStore (inCopy copies k pa) 8 (s.memRead (inCopy copies k g) 8) else s) s) (s.countWords copies ks)

/-- The words that a write of `n` bytes at a key covers in part (R212). -/
def partWords (key n : Nat) : List Nat := (memWords key n).filter (fun k => decide (k < key ∨ key + n < k + 8))

/-- The words that a masked row covers in part (R212). -/
def rowPartWords (key : Nat) (mask : BitVec 64) : List Nat :=
  ((List.range 8).filter (fun k => wordMask mask k != 0 && wordMask mask k != 255)).map (fun k => key + 8 * k)

/-- The words that a read of `n` bytes from a key needs (R158). -/
def State.readWords (s : State) (t : Nat) (e : Ret) (key n : Nat) : List Nat := (s.needsOf t e key n).flatMap (fun p => memWords p.1 p.2)

/-- Perform a request behind a port in every copy that takes it; where a copy holds an uncorrectable error the other serves (R212, R254). -/
def State.performMem (s : State) (t : Nat) (e : Ret) (copies : List Nat) : Answer × State :=
  let k := edgeKey (copies.headD 0)
  match e.body with
  | .load _ n =>
    let ks := s.readWords t e k n
    if s.copiesBad copies ks then ({ code := 0x16 }, s) else ({ data := s.copyRead copies n }, s.countWords copies ks)
  | .store _ n d =>
    let ks := partWords k n
    if s.copiesBad copies ks then ({}, s.storeError t t e 0x16)
    else ({}, copies.foldl (fun s pa => s.memStore (edgeKey pa) n d) (s.healWords copies ks))
  | .row _ m d =>
    let ks := rowPartWords k m
    if s.copiesBad copies ks then ({}, s.storeError t t e 0x16)
    else ({}, copies.foldl (fun s pa => s.memRow (edgeKey pa) m d) (s.healWords copies ks))
  | .atomic _ n op b c =>
    let ks := memWords k n
    if s.copiesBad copies ks then ({ code := 0x16 }, s)
    else
      let old := s.copyRead copies n
      let r := amoNew op n old b.toNat c.toNat
      ({ data := old, flags := r.2 }, match r.1 with
        | some v => copies.foldl (fun s pa => s.memStore (edgeKey pa) n v) (s.healWords copies ks)
        | none => s.countWords copies ks)
  | _ => ({}, s)

/-- The home has performed a request: the reply is on its way. -/
def State.answered (s : State) (t : Nat) (e : Ret) (a : Answer) : State :=
  let e := { e with state := .done, reply := a.data, flags := a.flags, code := a.code }
  (s.setEntry t e).answer t e

/-- REMOTE_REQUEST (R219): A load, store, atomic or line request is performed at its home tile, after the earlier ones of its context to
that tile (R226). Operands: a = t, b = id. -/
def execRemoteRequest (s : State) : Out :=
  let t := s.ev.a
  atHome s (fun e => match e.dst with
    | .tile u =>
      if !(s.tile t).q.inTurn e then notYet s
      else
        let r := s.performTile t u e
        .next (r.2.answered t e r.1)
    | _ => .next s)

/-! ### Replies (R61, R112, R170, R216, R217, R223) -/

/-- The first failing row or element in increasing j (R217). -/
def VecLoad.worse (x : VecLoad) (j : Nat) (code : BitVec 8) (a : Word) : VecLoad :=
  match x.bad with
  | some (k, _, _) => if j < k then { x with bad := some (j, code, a) } else x
  | none => { x with bad := some (j, code, a) }

/-- A row or element of a vector load arrives; with the last one the registers become full, or carry the mark (R170, R217). -/
def State.vecReply (s : State) (t serial j size : Nat) (a : Word) (data : Nat) (code : BitVec 8) : State :=
  match (s.tile t).q.vloads.find? (fun x => x.serial == serial) with
  | none => s
  | some x =>
    let x := if code = 0 then x.place j (natBytes data (if size = 64 ∧ x.kind = 2 then fld a 0 6 else 0) (if x.kind = 2 then x.size else 64)) else x.worse j code a
    let x := { x with left := x.left - 1 }
    let next (l : List VecLoad) : List VecLoad :=
      if x.left = 0 then l.filter (fun y => y.serial != serial) else l.map (fun y => if y.serial = serial then x else y)
    let s := s.updTile t (fun y => y.updQ (fun q => { q with vloads := next q.vloads }))
    if x.left ≠ 0 then s
    else s.updCtx t x.ctx (fun y =>
      (if y.state = .draining then y
       else match x.bad with
         | some (_, code, a) => x.regs.foldl (fun y v => y.putVState v (.marked code a)) y
         | none => x.write y).paid)

/-- A fetched line arrives: it is kept beside the one fetched before it (R112); an error is taken at the instruction,
with the line's address in TVAL (DESIGN CHOICE, log entry 97). -/
def State.lineReply (s : State) (t c : Nat) (line : Word) (data : Nat) (code : BitVec 8) : State :=
  s.updCtx t c (fun x =>
    if code = 0 then { x with lineAsked := false, lines := ((line, BitVec.ofNat 512 data) :: x.lines).take 2 }
    else { x with lineAsked := false, dueFault := some (code, line) })

/-- Deliver a reply to the place that waits for it. -/
def State.deliverTo (s : State) (t : Nat) (e : Ret) : State :=
  let size := match e.body with | .load _ n => n | .atomic _ n _ _ _ => n | _ => 8
  match e.sink with
  | .greg c r mon _ signed =>
    let a : Word := match e.body with | .load a _ => a | .atomic a _ _ _ _ => a | _ => 0
    if e.code = 0 then
      (s.updCtx t c (fun x => if x.state = .draining then x else x.orFlags e.flags)).arriveG t c r mon e.id (extendLoad size signed e.reply)
    else s.markG t c r mon e.id e.code a
  | .vec serial j _ a => s.vecReply t serial j size a e.reply e.code
  | .fetch c l => s.lineReply t c l e.reply e.code
  | .inv _ c r mon a n signed =>
    if e.code = 0 then s.arriveG t c r mon e.id (extendLoad n signed (natBytes e.reply (fld a 0 6) n))
    else s.markG t c r mon e.id e.code a
  | _ => s

/-- A reply arrives: a line asked for is allocated, unless its new translation forbids it, and what waits for the line gets it too (R223). -/
def State.deliver (s : State) (t : Nat) (e : Ret) : State :=
  match e.line with
  | none => s.deliverTo t e
  | some l =>
    let s := if e.code ≠ 0 ∨ e.noAlloc then s
      else s.updTile t (fun x => x.invPut { addr := l, data := BitVec.ofNat 512 e.reply, expiry := match e.dst with | .edge _ => some e.expiry | _ => none })
    let more := (s.tile t).q.lineWaits.filter (fun w => w.line == some l)
    let s := s.updTile t (fun x => x.updQ (fun q => { q with lineWaits := q.lineWaits.filter (fun w => !(w.line == some l)) }))
    more.foldl (fun s w => s.deliverTo t { w with reply := e.reply, code := e.code }) (s.deliverTo t e)

/-- The entry of a name whose request has been performed. -/
def State.answeredEntry (s : State) (t id : Nat) : Option Ret :=
  match s.entry t id with
  | some e => if e.state = .done then some e else none
  | none => none

/-- REMOTE_REPLY (R216): The reply to a remote or edge load, atomic or fetch writes its destination. Operands: a = t, b = id. -/
def execRemoteReply (s : State) : Out :=
  let t := s.ev.a
  match s.answeredEntry t s.ev.b with
  | none => .next s
  | some e =>
    let edge : Bool := match e.dst with | .edge _ => true | _ => false
    -- what another tile answers waits while the tile is held; what a module answers completes (R122, R218)
    if (s.tile t).held ∧ !edge then notYet s
    else backHome s e e.replyKind (fun s e => .next ((s.freeEntry t e.id).deliver t e))

/-! ### The end of a transfer unit (R330, R333) -/

/-- Bytes to copy, and the fields of the control word (R327). -/
def XCmd.len (e : XCmd) : Nat := fld e.gc 0 21
def XCmd.bar (e : XCmd) : Bool := bit e.gc 62
def XCmd.bnum (e : XCmd) : Nat := fld e.gc 56 6
def XCmd.quiet (e : XCmd) : Bool := bit e.gc 63
def XCmd.tag (e : XCmd) : Nat := fld e.gc 48 8

/-- Replace the command of a name. -/
def State.setXfer (s : State) (t : Nat) (e : XCmd) : State :=
  s.updTile t (fun x => { x with xfer := x.xfer.map (fun y => if y.id = e.id then e else y) })

/-- A unit of the command is on its way. -/
def Tile.unitsOut (x : Tile) (cmd : Nat) : Bool :=
  x.q.ret.any (fun e => match e.sink with | .xfer k _ _ => k == cmd | _ => false)

/-- A command that has no more to do: its completion is due (R331). -/
def State.xferSettled (s : State) (t cmd : Nat) : State :=
  match (s.tile t).xfer.find? (fun y => y.id == cmd) with
  | some e => if e.state = 1 ∧ (e.code ≠ 0 ∨ e.len ≤ e.progress) ∧ !(s.tile t).unitsOut cmd then s.later .transferComplete { a := t } else s
  | none => s

/-- A command meets an error at a unit (R333): the lowest such unit counts. -/
def State.xferFail (s : State) (t cmd off : Nat) (code : BitVec 8) : State :=
  match (s.tile t).xfer.find? (fun y => y.id == cmd) with
  | some e => (if e.code = 0 ∨ off < e.errAt then s.setXfer t { e with code := code, errAt := off } else s).xferSettled t cmd
  | none => s

/-- A unit has been written or acknowledged: its bytes count, and its arrival is made unless the destination tile made it (R330). -/
def State.unitDone (s : State) (t cmd n : Nat) (here : Bool) : State :=
  match (s.tile t).xfer.find? (fun y => y.id == cmd) with
  | some e =>
    let s := s.setXfer t { e with acked := e.acked + n }
    (if here ∧ e.bar then s.arrive t e.bnum n 0 (some e.gen) false else s).xferSettled t cmd
  | none => s

/-! ### The end of a stream message (R340) -/

/-- Elements of a stream (R335). -/
def StreamEnd.elements (e : StreamEnd) : Nat := ((List.range 5).map (fun l => fld e.spb (64 + 32 * l) 32)).foldl (· * ·) 1

/-- The streaming tile of a stream end. -/
def StreamEnd.scol (e : StreamEnd) : Nat := fld e.spb 384 8
def StreamEnd.srow (e : StreamEnd) : Nat := fld e.spb 392 8

/-- A stream message of the tile that carries this TAG awaits an acknowledgement. -/
def Tile.messagesOut (x : Tile) (tag : Nat) : Nat :=
  (x.q.ret.filter (fun e => match e.body with | .elems g _ _ _ => g == tag | _ => false)).length

/-- A source whose every element has been sent and acknowledged is finished (R337). -/
def State.streamSettled (s : State) (t tag : Nat) : State :=
  match (List.range 4).find? (fun n => let e := (s.tile t).stream n; e.state == 2 && e.role == 0 && e.tag == tag) with
  | some n =>
    let e := (s.tile t).stream n
    if e.elements ≤ e.injected ∧ (s.tile t).messagesOut tag = 0 then s.updTile t (fun x => x.setStream n { e with state := 3 }) else s
  | none => s

/-- ACKNOWLEDGEMENT (R288): An acknowledgement frees the retention entry of a message, store or atomic. Operands: a = t, b = id. -/
def execAcknowledgement (s : State) : Out :=
  let t := s.ev.a
  match s.entry t s.ev.b with
  | none => .next s
  | some e => match e.body with
    | .elems tag d acc ack =>
      match (if 3 ≤ e.backFails then none else s.sealHitBack t (.tile s.ev.c)) with
      -- an acknowledgement (VC1, KIND 5) whose seal fails is sent again, and after three failures its error reply stands for it (R431)
      | some g =>
        let s := (s.countCec g 1).setEntry t { e with backFails := e.backFails + 1 }
        notYet (if 3 ≤ e.backFails + 1 then s.sealNotice t e 1 5 else s)
      | none =>
      let e := { e with backFails := 0 }
      let ack := ack.filter (· != s.ev.c)
      if ack.isEmpty ∧ acc.isEmpty then .next ((s.freeEntry t e.id).streamSettled t tag)
      else .next (s.setEntry t { e with body := .elems tag d acc ack })
    | _ =>
      if e.state ≠ .done then .next s
      -- delivered after resume (R218, R307)
      else if (s.tile t).held then notYet s
      else backHome s e e.replyKind (fun s e =>
        let s := s.freeEntry t e.id
        let s := if e.code = 0 then s else match e.sink with
          | .xfer _ _ _ => s
          | _ => s.storeError t t e e.code.toNat
        let s := match e.sink with
          | .xfer cmd off n =>
            if e.code = 0 then s.unitDone t cmd n (match e.dst with | .edge _ => true | _ => false) else s.xferFail t cmd off e.code
          | _ => s
        .next (s.releaseHeld t e.body.vc e.dst))

/-! ### The edge (R254, R258, R263, R323, R324) -/

/-- The retained request leaves the mesh with an error reply (R323, R324). -/
def State.edgeError (s : State) (t : Nat) (e : Ret) (code : BitVec 8) : State := s.answered t e { code := code }

/-- A field's ports refuse a request: while its clock-skew fault stands, and within 420 ticks of the request's deadline (R258). -/
def State.portRefuses (s : State) (p : Nat) (e : Ret) : Bool :=
  let f := s.portField p
  decide ((s.field f).state = 2) || decide (e.deadline ≤ s.now f + 420)

/-- A request is refused and returns to its source (R258). -/
def State.edgeRefuse (s : State) (t : Nat) (e : Ret) : State :=
  (s.setEntry t { e with state := .refused }).sendBack t e.dst .edgeRefusal { a := t, b := e.id }

/-- EDGE_PORT_ARRIVAL (R258): The boundary router refuses a request near its deadline or queues it for a slot, after the earlier ones of its
context to that line (R226). Operands: a = t, b = id. -/
def execEdgePortArrival (s : State) : Out :=
  let t := s.ev.a
  atHome s (fun e => match e.dst with
    | .edge pa =>
      match s.arrivalPort e pa with
      | none => .next (s.edgeError t e 0x30)
      | some p =>
        if s.portRefuses p e then .next (s.edgeRefuse t e)
        else if !(s.tile t).q.inTurn e then notYet s
        else .next ((s.setEntry t { e with state := .atPort }).later .edgeSlotSend { a := t, b := e.id })
    | _ => .next s)

/-- EDGE_SLOT_SEND (R324): The port sends a queued request in an eligible slot. What leaves the port is performed within the 420 ticks of
R258, which are therefore tested here once more (R261; log entry 100). Operands: a = t, b = id. -/
def execEdgeSlotSend (s : State) : Out :=
  let t := s.ev.a
  match s.entry t s.ev.b with
  | some e => match e.state, e.dst with
    | .atPort, .edge pa =>
      let r := (s.tile t).region
      match s.arrivalPort e pa with
      | none => .next (s.edgeError t e 0x30)
      | some p =>
        let x := s.port p
        let own := decide (paWafer pa = s.module.waferNo)
        if own ∧ !(List.range 64).any (x.mayUse r) then .next (s.edgeError t e 0x31)
        else if s.portRefuses p e then .next (s.edgeRefuse t e)
        else if !s.portUp p ∨ !s.copiesAnswer e pa then notYet s
        else if own ∧ !x.mayUse r (s.now (s.portField p) / 8 % 64) then notYet s
        else .next (s.later .moduleAccess { a := t, b := e.id })
    | _, _ => .next s
  | none => .next s

/-- An access of this key is turned away at a frame: its tag differs, or it is locked (R263, R433). -/
def FrameTag.denies (x : FrameTag) (kid : Nat) : Bool := decide (x.kid ≠ kid) || x.locked

/-- A write of which only one copy is left: the region's mirror-lost event names what is written and the group of the other (R323, R406,
R409, R458; log entry 55). -/
def State.mirrorLost (s : State) (r pa : Nat) : State :=
  s.event r 0x45 0 0 0 0 0 (BitVec.ofNat 64 pa) (BitVec.ofNat 64 (paGroup (partnerOf pa)))

/-- MODULE_ACCESS (R487): An edge access is performed at its module. Operands: a = t, b = id. -/
def execModuleAccess (s : State) : Out :=
  let t := s.ev.a
  match s.entry t s.ev.b with
  | some e => match e.state, e.dst with
    | .atPort, .edge pa =>
      let copies := s.copiesOf e pa
      let far := if paWafer pa = s.module.waferNo then 0 else Config.farAnswer s.draws
      -- no access is performed at or after the deadline of its translation (R261; log entry 100)
      if e.deadline ≤ s.now (s.portField ((s.arrivalPort e pa).getD 0)) then .next (s.edgeRefuse t e)
      else if copies.isEmpty then .next (s.edgeError t e 0x30)
      -- what the other wafer finds under R323 and R324
      else if far = 0x30 ∨ far = 0x31 then .next (s.edgeError t e far)
      -- the controller of each copy checks its tag on every access (R263, R433)
      else match copies.find? (fun p => if paWafer p = s.module.waferNo then (s.tag (p / 4096)).denies e.kid else far == 0x15) with
        | some p =>
          -- a load or atomic carries the code in a mark, an engine's write in a record, beside the notice; a context's store has its store
          -- error for its only event (R263, R446)
          let plain : Bool := !e.sink.isEngine && (match e.body with | .store _ _ _ => true | .row _ _ _ => true | _ => false)
          let s := if plain then s else s.tileEvent t 0x15 0 0 0 e.body.target (BitVec.ofNat 64 (e.kid + 2 ^ 16 * (s.tag (p / 4096)).kid))
          .next (s.edgeError t e 0x15)
        | none =>
          let s := if e.mirrored ∧ e.body.writes ∧ copies.length = 1 then s.mirrorLost (s.tile t).region (copies.headD pa) else s
          let r := s.performMem t e (if e.body.writes then copies else copies.filter s.answers)
          .next (r.2.answered t e r.1)
    | _, _ => .next s
  | none => .next s

/-- Its access kind (R253): a read, a write, an atomic, a fetch. -/
def Ret.kind (e : Ret) : Nat :=
  match e.body, e.sink with
  | .load _ _, .fetch _ _ => 3
  | .load _ _, _ => 0
  | .atomic _ _ _ _ _, _ => 2
  | _, _ => 1

/-- A refused edge request, which waits for a new translation (R258, R267). -/
def Ret.wantsXlate (e : Ret) : Bool :=
  decide (e.state = .refused) && (match e.dst with | .edge _ => true | _ => false)

/-- The requester number of a retained request and of a stream (see Walker). -/
def whoRetained (id : Nat) : Nat := 64 * id + 14
def whoStream (n : Nat) : Nat := 64 * (n + 1) + 13

/-- EDGE_REFUSAL (R258): A refused request returns, its DTLB entry is dropped and it is re-translated. Operands: a = t, b = id. -/
def execEdgeRefusal (s : State) : Out :=
  let t := s.ev.a
  match s.entry t s.ev.b with
  | some e =>
    if !e.wantsXlate then .next s
    -- a held tile sends nothing again before its save (R122)
    else if (s.tile t).held then notYet s
    else backHome s e 6 (fun s e =>
      -- the gate's error reply stands for a refusal that it cannot pass on (R431)
      if e.code ≠ 0 then .next ((s.setEntry t { e with state := .done }).answer t e)
      else
      let va := e.body.va
      let s := s.updTile t (fun x => { x with dtlb := x.dtlb.filter (fun y => !y.covers va), itlb := if e.kind = 3 then x.itlb.filter (fun y => !y.covers va) else x.itlb })
      .next (s.later .l2TlbLookup { a := t, b := whoRetained e.id }))
  | none => .next s

end Sys2Proof.Machine
end

