-- ==== Sys2Proof/Machine/Translation.lean ====
section
/-! DEFINITION. Translation under leases: lookups, walks, posted faults and their replies (R248 to R269). -/
namespace Sys2Proof.Machine

/-! ### Table entries (R249 to R252, R256) -/

def teValid (e : Nat) : Bool := e.testBit 0
def teLeaf (e : Nat) : Bool := e.testBit 1
def teSz (e : Nat) : Nat := natBits e 2 3
def teLs (e : Nat) : Nat := natBits e 5 4
def teR (e : Nat) : Bool := e.testBit 9
def teW (e : Nat) : Bool := e.testBit 10
def teX (e : Nat) : Bool := e.testBit 11
def teM (e : Nat) : Bool := e.testBit 12
def teS (e : Nat) : Bool := e.testBit 13
def teFrame (e : Nat) : Nat := natBits e 14 38
def teKid (e : Nat) : Nat := natBits e 52 12

/-- log2 of a page size by code, its level, and log2 of its replicas (R252). -/
def pageLg (sz : Nat) : Nat :=
  match sz with
  | 0 => 12 | 1 => 14 | 2 => 16 | 3 => 18 | 4 => 21 | 5 => 24 | 6 => 28 | _ => 32
def pageLevel (sz : Nat) : Nat := if sz ≤ 3 then 0 else if sz ≤ 6 then 1 else 2

/-- Index of an address at a level (R249). -/
def tableIndex (a lvl : Nat) : Nat := a / 2 ^ (12 + 9 * lvl) % 512

/-- What an entry means at a level of a stage (R251). -/
inductive Entry where
  | invalid | table (a : Nat) | leaf | bad
deriving DecidableEq, Repr

/-- The first matching row of R251. -/
def entryOf (stage lvl e : Nat) : Entry :=
  if !teValid e then .invalid
  else if !teLeaf e then
    if 1 ≤ lvl ∧ teSz e = 0 ∧ natBits e 9 5 = 0 ∧ teKid e = 0 then .table (teFrame e * 4096) else .bad
  else
    let fit := decide (pageLevel (teSz e) = lvl ∧ teFrame e * 4096 % 2 ^ pageLg (teSz e) = 0)
    let own := if stage = 1 then decide (teKid e = 0) && !teM e && !teS e else teS e == decide (teKid e ≠ 0)
    if fit && own then .leaf else .bad

/-- The address an address inside a leaf's page maps to. -/
def leafAddr (e a : Nat) : Nat := teFrame e * 4096 + a % 2 ^ pageLg (teSz e)

/-- Lease in ticks; code 0 counts as 1,024 (R256). -/
def leaseOf (e : Nat) : Nat := if teLs e = 0 then 1024 else 2 ^ (teLs e + 9)

/-! ### Structures (R255) -/

/-- The field of a cluster (R12). -/
def fieldOfCluster (k : Nat) : Nat := k / 24 / 3 * 6 + k % 24 / 4

/-- Set of the L2 TLB. -/
def Tlb.set (e : Tlb) : Nat := e.va / 2 ^ e.lg % 512

/-- Put an entry into the L2 TLB: what is held of the region for its address goes; 8 ways a set, the least recently used replaced. -/
def l2Put (e : Tlb) (l : List Tlb) : List Tlb :=
  let l := l.filter (fun x => !(x.region == e.region && (x.covers e.va || e.covers x.va)))
  let same := (l.filter (fun x => x.set == e.set)).take 7
  e :: l.filter (fun x => x.set != e.set || same.contains x)

/-- Put a fresh entry into an ITLB or DTLB: it replaces what is held for its address (R253, R270). -/
def tlbFill (n : Nat) (e : Tlb) (l : List Tlb) : List Tlb :=
  (e :: l.filter (fun x => !(x.region == e.region && (x.covers e.va || e.covers x.va)))).take n

/-- Put an entry into the walker cache. -/
def wcPut (e : WcEntry) (l : List WcEntry) : List WcEntry :=
  (e :: l.filter (fun x => !(x.region == e.region && x.stage == e.stage && x.addr == e.addr))).take 512

/-! ### Requesters (R264, R267, R268) -/

/-- The retained request of a requester number that waits for a translation (R258, R267). -/
def Tile.retained (x : Tile) (who : Nat) : Option Ret :=
  x.q.ret.find? (fun e => whoRetained e.id == who && e.wantsXlate && e.fault.isNone)

/-- The address and access kind that a requester waits for. -/
def State.wanted (s : State) (t who : Nat) : Option (Nat × Nat) :=
  let x := s.tile t
  let ofCtx (c base : Nat) : Option (Nat × Nat) :=
    match (x.ctx c).xlate with
    | .asked va k => if base ≤ k ∧ k < base + 10 then some (va, k - base) else none
    | .none => none
  if who < 12 then ofCtx who 0
  else if who = 12 then
    match x.xfer.find? (fun e => e.walk == 1) with
    | some e =>
      let toEdge := bit e.gd 63
      some (fld (if toEdge then e.gd else e.gs) 0 56 + e.progress, if toEdge then 1 else 0)
    | none => none
  else if who < 28 then ofCtx (who - 16) 0
  else if who < 48 then ofCtx (who - 32) 10
  else if who < 64 then ofCtx (who - 48) 20
  else if who % 64 = 13 then
    let e := x.stream (who / 64 - 1)
    if e.walk = 1 then
      let step (l : Nat) : Int := (BitVec.ofNat 32 (fld e.spb (224 + 32 * l) 32)).toInt
      let cnt (l : Nat) : Nat := fld e.spb (64 + 32 * l) 32
      let r := (List.range 5).foldl (fun (p : Int × Nat) l => (p.1 + (p.2 % cnt l : Nat) * step l, p.2 / cnt l)) ((fld e.spb 0 56 : Int), e.next)
      some (r.1.toNat % 2 ^ 56 / 64 * 64, 0)
    else none
  else match x.retained who with
    | some e => some (e.body.va, e.kind)
    | none => none

/-- A translation for a requester: filled into its structure unless it may be held by none (R256), and the requester goes on. -/
def State.giveXlate (s : State) (t who : Nat) (e : Tlb) (held : Bool) : State :=
  let fillD (s : State) : State := if held then s.updTile t (fun x => { x with dtlb := tlbFill 32 e x.dtlb }) else s
  if who < 12 then
    if held then (fillD s).updCtx t who (fun c => { c with xlate := .none })
    else s.updCtx t who (fun c => { c with xlate := .none, once := e :: c.once })
  else if who = 12 then
    s.updTile t (fun x => { x with xfer := x.xfer.map (fun y => if y.walk = 1 then { y with walk := 2, xl := some e } else y) })
  else if who < 28 then
    let c := who - 16
    let s := if held then s.updTile t (fun x => { x with itlb := tlbFill 16 e x.itlb }) else s.updCtx t c (fun y => { y with once := e :: y.once })
    s.updCtx t c (fun y => { y with xlate := .none })
  else if who < 64 then
    let c := if who < 48 then who - 32 else who - 48
    (fillD s).updCtx t c (fun y => { y with xlate := .none, probed := some (probeWord (s.nowAt t) (some e) 0 0) })
  else if who % 64 = 13 then
    let n := who / 64 - 1
    s.updTile t (fun x => if (x.stream n).walk = 1 then x.setStream n { x.stream n with walk := 2, xl := some e } else x)
  else match (s.tile t).retained who with
    | none => s
    | some y =>
      -- a held tile sends nothing again before its save (R122): it translates afresh at the resume
      if (s.tile t).held then s.later .l2TlbLookup { a := t, b := who }
      else
        let z := { y with dst := .edge (e.phys y.body.va), expiry := e.deadline, kid := e.kid, sealedFrame := e.s, mirrored := e.m, noAlloc := !held }
        -- it carries one deadline with the earlier requests of its context to its line (R258)
        let d := ((s.tile t).q.before y.id).foldl (fun d w => if z.follows w then Nat.min d w.deadline else d) e.deadline
        let s := if held ∧ y.kind = 3 then s.updTile t (fun x => { x with itlb := tlbFill 16 e x.itlb }) else fillD s
        (s.noteDeadline t d).launch t { z with deadline := d }

/-- The cluster of a tile's translation bus. -/
def State.busOf (s : State) (t : Nat) : Nat := s.clusterOf t

/-- L2_TLB_LOOKUP (R255): A DTLB or ITLB miss looks up the cluster's L2 TLB. Operands: a = t, b = who. -/
def execL2TlbLookup (s : State) : Out :=
  let t := s.ev.a
  let who := s.ev.b
  match s.wanted t who with
  | none => .next s
  | some (va, kind) =>
    if 64 ≤ who ∧ who % 64 = 14 ∧ (s.tile t).held then notYet s else
    let k := s.busOf t
    let x := s.cluster k
    match tlbFind x.l2 (s.tile t).region (s.nowAt t) va kind with
    | some e => .next ((s.setCluster k { x with l2 := e :: x.l2.filter (fun y => y != e) }).giveXlate t who e true)
    | none => .next ((s.setCluster k { x with waiting := x.waiting ++ [(t, who)] }).later .walk { a := t, b := who })

/-! ### Walks (R259 to R263) -/

/-- A walk from the roots. -/
def State.walkStart (s : State) (w : Walker) : Walker :=
  { w with phase := 0, l1 := 4, t1 := (s.region w.region).s1root, l2 := 4, t2 := (s.region w.region).s2root,
           tdl := 2 ^ 64, deadline := 2 ^ 64, dlStage := 1, dlLevel := 0, dlAddr := 0, codeZero := false }

/-- WALK (R259): A free walker starts a two-stage walk for an L2 TLB miss. Operands: a = t, b = who. -/
def execWalk (s : State) : Out :=
  let t := s.ev.a
  let who := s.ev.b
  let k := s.busOf t
  let x := s.cluster k
  -- misses wait in arrival order; lrenew joins them here
  let x := if x.waiting.contains (t, who) then x else { x with waiting := x.waiting ++ [(t, who)] }
  let s := s.setCluster k x
  match s.wanted t who with
  | none => .next (s.setCluster k { x with waiting := x.waiting.filter (· != (t, who)) })
  | some (va, kind) =>
    if x.waiting.head? ≠ some (t, who) then notYet s
    else match (List.range 8).find? (fun n => !(fget {} x.walkers n).busy) with
      | none => notYet s
      | some n =>
        let w : Walker := { busy := true, site := t, who := who, region := (s.tile t).region, va := va, kind := kind,
                            fresh := decide ((48 ≤ who ∧ who < 64) ∨ who = 12 ∨ (64 ≤ who ∧ who % 64 = 13)) }
        .next ((s.setCluster k { x with waiting := x.waiting.drop 1, walkers := fset {} x.walkers n (s.walkStart w) }).later .walkerRead { a := k, b := n })

/-- Put a posted fault on its way (R264): the sequence number of the tile goes up, the 32 bytes are formed. -/
def State.postFault (s : State) (t who va kind cause stage level addr ipa : Nat) : Nat × State :=
  let x := s.tile t
  let seq := (x.seq + 1) % 2 ^ 16
  let requester := who % 16
  let word3 : Word := BitVec.ofNat 64 (level + addr / 8 * 8)
  let word2 : Word := BitVec.ofNat 64 (cause + stage * 2 ^ 8 + kind * 2 ^ 16 + requester * 2 ^ 24 + x.col * 2 ^ 32 + x.row * 2 ^ 40 + seq * 2 ^ 48)
  let entry : BitVec 256 := word3 ++ word2 ++ BitVec.ofNat 64 (if stage = 2 then ipa else 0) ++ BitVec.ofNat 64 (2 ^ 63 + va)
  let s := s.updTile t (fun x => { x with seq := seq })
  (seq, State.later { s.fresh.2 with posted := s.posted ++ [{ region := x.region, site := t, stage := stage, entry := entry, seq := s.nextId }] }
    .postedFaultMessage {})

/-- The walk is over: the walker is free. -/
def State.freeWalker (s : State) (k n : Nat) : State :=
  s.setCluster k { s.cluster k with walkers := fset {} (s.cluster k).walkers n {} }

/-- A context waits for the reply to a posted fault (R103, R264): one in user mode in fault-wait; one in monitor mode stays live, as R103
has no event for it, and its access waits; a halted one stays halted (R120). A follower is detached at the word of the stream that faulted, at
its own() address (R367, R369). -/
def State.faultWait (s : State) (t c seq va : Nat) : State :=
  let x := s.tile t
  if (x.ctx c).state ≠ .live then s.updCtx t c (fun y => { y with xlate := .none })
  else if (x.ctx c).mon then s.updCtx t c (fun y => { y with faulted := true, faultSeq := seq, faultAddr := BitVec.ofNat 64 (2 ^ 63 + va) })
  else
    let at_ : Word := match x.train.lane with
      | l :: _ => if c = 0 ∧ x.train.state = 3 then x.own l.1 else (x.ctx c).pc
      | [] => (x.ctx c).pc
    (s.updCtx t c (fun y => { y with state := .faultWait, xlate := .none, faultSeq := seq, faultAddr := BitVec.ofNat 64 (2 ^ 63 + va), pc := at_ })).updTile t
      (fun x => if c = 0 then x.detach else x)

/-- A stop of a walk (R264, R265, R267, R268, R270): tprobe reports it; everyone else posts a fault and waits. The IPA of a LEASE stop that
names a stage-2 entry is that of the access, also where the entry translated a table page (DESIGN CHOICE, log 116: R264 does not say whose). -/
def State.walkStop (s : State) (w : Walker) (cause stage level addr : Nat) (e : Option Tlb) : State :=
  let t := w.site
  let x := s.tile t
  -- the requester no longer waits: its tile is held, or was reset
  if (s.wanted t w.who).isNone ∨ x.held then s
  else if 32 ≤ w.who ∧ w.who < 48 then
    s.updCtx t (w.who - 32) (fun y => { y with xlate := .none, probed := some (probeWord (s.nowAt t) e cause stage) })
  else
    let kind := if 48 ≤ w.who ∧ w.who < 64 then 4 else w.kind
    let ipa := if w.phase = 0 then w.t1 + 8 * tableIndex w.va w.l1 else w.ipa
    let r := s.postFault t w.who w.va kind cause stage level addr ipa
    let s := r.2
    if w.who < 12 then s.faultWait t w.who r.1 w.va
    else if w.who = 12 then s.updTile t (fun x => { x with xfer := x.xfer.map (fun y => if y.walk = 1 then { y with walk := 0, fault := some r.1 } else y) })
    else if w.who < 28 then s.faultWait t (w.who - 16) r.1 w.va
    else if w.who < 64 then s.faultWait t (w.who - 48) r.1 w.va
    else if w.who % 64 = 13 then
      let n := w.who / 64 - 1
      s.updTile t (fun x => x.setStream n { x.stream n with walk := 0, fault := some r.1 })
    else match x.retained w.who with
      | some y => s.setEntry t { y with fault := some r.1 }
      | none => s

/-- The retained request is answered with an error at its source: it leaves for good (R267). -/
def State.retainedError (s : State) (t : Nat) (e : Ret) (code : BitVec 8) : State := s.answered t e { code := code }

/-- A key tag that differs from the stage-2 KID (R263): a precise fault of the access, with its event; an engine stops. -/
def State.keyConflict (s : State) (w : Walker) (e : Tlb) (tag : Nat) : State :=
  let t := w.site
  let x := s.tile t
  let a : Word := BitVec.ofNat 64 (2 ^ 63 + w.va)
  if (s.wanted t w.who).isNone then s
  else if 32 ≤ w.who ∧ w.who < 48 then
    s.updCtx t (w.who - 32) (fun y => { y with xlate := .none, probed := some (probeWord (s.nowAt t) (some e) 6 0) })
  else
    let s := s.tileEvent t 0x15 0 0 0 a (BitVec.ofNat 64 (e.kid + 2 ^ 16 * tag))
    let due (c : Nat) : State := s.updCtx t c (fun y => { y with xlate := .none, dueFault := some (0x15, a) })
    if w.who < 12 then due w.who
    else if w.who = 12 then
      match x.xfer.find? (fun e => e.walk == 1) with
      | some y => (s.setXfer t { y with walk := 0 }).xferFail t y.id y.progress 0x15
      | none => s
    else if w.who < 28 then due (w.who - 16)
    else if w.who < 64 then due (w.who - 48)
    else if w.who % 64 = 13 then
      -- the streamer's stop falls due with its next step (R337)
      let n := w.who / 64 - 1
      s.updTile t (fun x => x.setStream n { x.stream n with walk := 0, code := 0x15 })
    else match x.retained w.who with
      | some y => s.retainedError t y 0x15
      | none => s

/-- The combined entry of the two leaves (R253, R256). -/
def Walker.combined (w : Walker) : Tlb :=
  let lg := Nat.min (pageLg (teSz w.leaf1)) (pageLg (teSz w.leaf2))
  { region := w.region, va := w.va / 2 ^ lg * 2 ^ lg, lg := lg, pa := leafAddr w.leaf2 w.ipa / 2 ^ lg * 2 ^ lg,
    r := teR w.leaf1 && teR w.leaf2, w := teW w.leaf1 && teW w.leaf2, x := teX w.leaf1 && teX w.leaf2,
    m := teM w.leaf2, s := teS w.leaf2, kid := teKid w.leaf2, deadline := w.deadline }

/-- A leaf entry permits an access kind. -/
def teAllows (e kind : Nat) : Bool := if kind = 0 then teR e else if kind = 1 then teW e else if kind = 2 then teR e && teW e else teX e

/-- The walk uses an entry: the earliest deadline so far, stage 2 reported on a tie (R256, R264); of several entries of one stage with that
deadline the one used first (DESIGN CHOICE, log 116: R264 ranks the stages only). -/
def Walker.use (w : Walker) (stage level addr d : Nat) (zero : Bool) : Walker :=
  let w := { w with codeZero := w.codeZero || zero }
  if d < w.deadline ∨ (d = w.deadline ∧ stage = 2 ∧ w.dlStage = 1) then { w with deadline := d, dlStage := stage, dlLevel := level, dlAddr := addr } else w

/-- What a read of a table entry finds: nothing yet; a seal that failed, so that it is sent again (R431); a stage-2 translation of its table
that has expired (R261); an error; the entry with its deadline. -/
inductive Reading where
  | wait
  | again (w : Walker) (s : State)
  | stale
  | error
  | got (e d : Nat) (w : Walker) (s : State)

/-- A read of a walk at a port, as a request of its region (R322 to R324): 0 it goes now, 1 it waits, 2 no memory answers. -/
def State.walkPort (s : State) (r pa : Nat) : Nat :=
  match s.servingPort pa with
  | none => 2
  | some p =>
    let x := s.port p
    let own := decide (paWafer pa = s.module.waferNo)
    if own && !(List.range 64).any (x.mayUse r) then 2
    else if !s.portUp p || !s.answers pa || decide ((s.field (s.portField p)).state = 2) || (own && !x.mayUse r (s.now (s.portField p) / 8 % 64)) then 1
    else 0

/-- Read 8 bytes of a table, from the partner too when its page is mirrored (R254, R265): the frame that serves it. -/
def State.walkFrame (s : State) (r pa : Nat) (mir : Bool) : Option (Option Nat) :=
  let l := (pa :: (if mir then [partnerOf pa] else [])).filter (fun a => s.walkPort r a != 2)
  match l.find? (fun a => s.walkPort r a == 0 && !s.memBad (edgeKey a) 8) with
  | some a => some (some a)
  | none => if l.any (fun a => s.walkPort r a == 1) then some none else none

/-- The route of a walker's read: from the logical tile of its cluster where the walkers attach to the port (R273). -/
def State.walkRoute (s : State) (k pa : Nat) : Route :=
  { src := (k % 24 * 8 + 4 - s.westCut, k / 24 * 6 + 3), dst := s.portTile ((s.servingPort pa).getD (paPort pa)), leaves := true }

/-- The gate, if any, at which the seal of a walker's read or of its reply does not verify (R317, R431). -/
def State.walkSeal (s : State) (k r pa : Nat) : Option Nat :=
  let p := s.walkRoute k pa
  s.sealMiss (s.openings r p ++ s.openingsBack r p)

/-- A sealed read of a walker takes the counters of the sites that seal it and its reply (R430). -/
def State.walkNumber (s : State) (k r pa : Nat) : State :=
  let p := s.walkRoute k pa
  if s.seals r p then (s.takeSeq (s.gateSite p.src)).takeSeq (s.gateSite p.dst) else s

/-- An access of this key is turned away at a frame of this wafer (R263, R433); what another wafer's controller finds is open. -/
def State.frameDenies (s : State) (pa kid : Nat) : Bool := decide (paWafer pa = s.module.waferNo) && (s.tag (pa / 4096)).denies kid

/-- The walker cache may hold an entry: a non-leaf entry of either stage, or a stage-2 leaf for a table page (R255). -/
def keepEntry (stage lvl : Nat) (tbl : Bool) (e : Nat) : Bool :=
  match entryOf stage lvl e with
  | .table _ => true
  | .leaf => stage == 2 && tbl
  | _ => false

/-- The entry at an address: one that this walk has read and that has not expired (R259, R262), from the walker cache, or from memory. A final
leaf of stage 2 never comes from the walker cache (R253, R255). `keep`: the walker cache may hold it. A read from memory is made under a live
translation of its table (R261) and with its key, or stops as an error (R263, R433; log entry 56). -/
def State.readEntry (s : State) (k : Nat) (w : Walker) (stage addr pa : Nat) (mir : Bool) (keep : Nat → Bool) : Reading :=
  let now := s.now (fieldOfCluster k)
  let mine (e : WcEntry) : Bool := e.region == w.region && e.stage == stage && e.addr == addr && decide (now < e.deadline)
  match w.found.find? (fun e => mine e.1) with
  | some (e, _) => .got e.entry e.deadline w s
  | none =>
    let x := s.cluster k
    match (if w.fresh then none else x.wc.find? (fun e => mine e && keep e.entry)) with
    | some e => .got e.entry e.deadline w (s.setCluster k { x with wc := e :: x.wc.filter (fun y => y != e) })
    | none => match s.walkFrame w.region pa mir with
      | none => .error
      | some none => .wait
      | some (some a) =>
        if stage = 1 ∧ w.tdl ≤ now then .stale
        else if s.frameDenies a (if stage = 1 then w.tkid else 0) then .error
        else match s.walkSeal k w.region a with
        | some g => if 2 ≤ w.sealFails then .error else .again { w with sealFails := w.sealFails + 1 } (s.countCec g 1)
        | none =>
        let s := (s.countWords (if a = pa ∨ (s.servingPort pa).isNone then [a] else [pa, a]) [edgeKey (if a = pa ∨ (s.servingPort pa).isNone then a else pa)]).walkNumber k w.region a
        let w := { w with sealFails := 0 }
        let e := s.memRead (edgeKey a) 8
        let y : WcEntry := { region := w.region, stage := stage, addr := addr, entry := e, deadline := now + leaseOf e }
        .got e y.deadline { w with found := (y, keep e && teLs e != 0) :: w.found.filter (fun z => !(z.1.stage == stage && z.1.addr == addr)) } s

/-- At its end a walk gives what it has read to the walker cache: non-leaf entries and stage-2 leaves of table pages, never one with lease
code 0; what the cache held for any address read goes (R255, R256, R270). -/
def State.fillWc (s : State) (k : Nat) (w : Walker) : State :=
  s.setCluster k { s.cluster k with wc := w.found.foldr (fun p l =>
    if p.2 then wcPut p.1 l else l.filter (fun x => !(x.region == p.1.region && x.stage == p.1.stage && x.addr == p.1.addr))) (s.cluster k).wc }

/-- The walker goes on with its next read. -/
def State.walkOn (s : State) (k n : Nat) (w : Walker) : Out :=
  .next ((s.setCluster k { s.cluster k with walkers := fset {} (s.cluster k).walkers n w }).later .walkerRead { a := k, b := n })

/-- An old entry without the permission is replaced by the fresh result even where that lacks it too (R253). A fresh result with lease code 0
may be held by no structure: the old entry then stays (DESIGN CHOICE, log 116: R253 and R256 do not say what becomes of it). -/
def State.replaceHeld (s : State) (k : Nat) (w : Walker) (e : Tlb) : State :=
  if w.codeZero then s
  else
    let x := s.cluster k
    let has (l : List Tlb) : Bool := l.any (fun y => y.region == e.region && y.covers w.va)
    let s := if has x.l2 then s.setCluster k { x with l2 := l2Put e x.l2 } else s
    s.updTile w.site (fun z => { z with
      dtlb := if has z.dtlb then tlbFill 32 e z.dtlb else z.dtlb
      itlb := if has z.itlb then tlbFill 16 e z.itlb else z.itlb })

/-- What a renewal finds may be held by no structure: what they held for the address goes (R256, R270). -/
def State.dropHeld (s : State) (k : Nat) (w : Walker) : State :=
  if w.codeZero ∧ w.fresh then
    let x := s.cluster k
    let keep (y : Tlb) : Bool := !(y.region == w.region && y.covers w.va)
    (s.setCluster k { x with l2 := x.l2.filter keep }).updTile w.site (fun z => { z with dtlb := z.dtlb.filter keep })
  else s

/-- A walk that stops gives what it has read to the walker cache (R255). -/
def State.walkEnd (s : State) (k n : Nat) (w : Walker) (cause stage level addr : Nat) (e : Option Tlb) : Out :=
  .next (((s.fillWc k w).freeWalker k n).walkStop w cause stage level addr e)

/-- The last step of a walk: the key tag is probed, the deadline tested, the result given (R259, R263). -/
def State.walkProbe (s : State) (k n : Nat) (w : Walker) : Out :=
  let e := w.combined
  let pa := e.phys w.va
  let p := s.walkPort w.region pa
  let own := decide (paWafer pa = s.module.waferNo)
  let tag := if own then (s.tag (pa / 4096)).kid else (Config.freeValue 12 s.draws).toNat
  -- the probe is a read at the port, in a slot of the region (R259, R273, R324)
  if p = 1 then notYet s
  else match (if p = 0 then s.walkSeal k w.region pa else none) with
  | some g =>
    let s := s.countCec g 1
    if 2 ≤ w.sealFails then s.walkEnd k n w 5 2 w.leaf2Lvl (w.t2 + 8 * tableIndex w.ipa w.l2) none
    else notYet (s.setCluster k { s.cluster k with walkers := fset {} (s.cluster k).walkers n { w with sealFails := w.sealFails + 1 } })
  | none =>
  let s := if p = 0 then s.walkNumber k w.region pa else s
  let w := { w with sealFails := 0 }
  let s' := s.freeWalker k n
  if p = 0 ∧ (tag ≠ e.kid ∨ s.frameDenies pa e.kid) then .next (s'.keyConflict w e tag)
  else if w.deadline ≤ s.now (fieldOfCluster k) + 420 then
    if w.tries = 2 then s.walkEnd k n w 4 w.dlStage w.dlLevel w.dlAddr none
    else s.walkOn k n (s.walkStart { w with tries := w.tries + 1 })
  else
    let s' := (s'.fillWc k w).dropHeld k w
    let x := s'.cluster k
    let s' := if w.codeZero then s' else s'.setCluster k { x with l2 := l2Put e x.l2 }
    -- a held tile's requester has gone (R259): the result may fill the L2 TLB
    if (s'.wanted w.site w.who).isNone then .next s' else .next (s'.giveXlate w.site w.who e !w.codeZero)

/-- WALKER_READ (R262): A walker read of a table entry or key tag returns and the walk proceeds. Operands: a = cl, b = n. -/
def execWalkerRead (s : State) : Out :=
  let k := s.ev.a
  let n := s.ev.b
  let w := fget {} (s.cluster k).walkers n
  if !w.busy then .next s
  else if w.phase = 3 then s.walkProbe k n w
  else if w.phase = 1 then
    -- an entry of stage 1
    let ipa := w.t1 + 8 * tableIndex w.va w.l1
    match s.readEntry k w 1 ipa w.tpa w.tmir (keepEntry 1 w.l1 true) with
    | .wait => notYet s
    | .again w s => notYet (s.setCluster k { s.cluster k with walkers := fset {} (s.cluster k).walkers n w })
    | .stale => s.walkOn k n { w with phase := 0, l2 := 4, t2 := (s.region w.region).s2root, tdl := 2 ^ 64 }
    | .error => s.walkEnd k n w 5 1 w.l1 ipa none
    | .got e d w s =>
      let w' := w.use 1 w.l1 ipa d (teLs e = 0)
      match entryOf 1 w.l1 e with
      | .invalid => s.walkEnd k n w' 1 1 w.l1 ipa none
      | .bad => s.walkEnd k n w' 3 1 w.l1 ipa none
      | .table a => s.walkOn k n { w' with phase := 0, l1 := w.l1 - 1, t1 := a, l2 := 4, t2 := (s.region w.region).s2root, tdl := 2 ^ 64 }
      | .leaf => s.walkOn k n { w' with phase := 2, leaf1 := e, leafLvl := w.l1, ipa := leafAddr e w.va, l2 := 4, t2 := (s.region w.region).s2root }
  else
    -- an entry of stage 2, for a table of stage 1 or for the final address
    let ipa := if w.phase = 0 then w.t1 + 8 * tableIndex w.va w.l1 else w.ipa
    let pa := w.t2 + 8 * tableIndex ipa w.l2
    match s.readEntry k w 2 pa pa false (keepEntry 2 w.l2 (w.phase == 0)) with
    | .wait => notYet s
    | .again w s => notYet (s.setCluster k { s.cluster k with walkers := fset {} (s.cluster k).walkers n w })
    | .stale => notYet s
    | .error => s.walkEnd k n w 5 2 w.l2 pa none
    | .got e d w s =>
      let w' := { w.use 2 w.l2 pa d (teLs e = 0) with tdl := Nat.min w.tdl d }
      match entryOf 2 w.l2 e with
      | .invalid => s.walkEnd k n w' 1 2 w.l2 pa none
      | .bad => s.walkEnd k n w' 3 2 w.l2 pa none
      | .table a => s.walkOn k n { w' with l2 := w.l2 - 1, t2 := a }
      | .leaf =>
        if w.phase = 0 then
          if !teR e then s.walkEnd k n w' 2 2 w.l2 pa none
          else s.walkOn k n { w' with phase := 1, tpa := leafAddr e ipa, tmir := teM e, tkid := teKid e }
        else
          let w' := { w' with leaf2 := e, leaf2Lvl := w.l2 }
          let c := w'.combined
          if !teAllows e w.kind then (s.replaceHeld k w' c).walkEnd k n w' 2 2 w.l2 pa (some c)
          else if !teAllows w.leaf1 w.kind then
            (s.replaceHeld k w' c).walkEnd k n w' 2 1 w.leafLvl (w.t1 + 8 * tableIndex w.va w.leafLvl) (some c)
          else s.walkOn k n { w' with phase := 3 }

/-- TRANSLATION_EXPIRY (R257): A cached translation dies at its deadline. Operands: a = cl. -/
def execTranslationExpiry (s : State) : Out :=
  let k := s.ev.a
  let now := s.now (fieldOfCluster k)
  let x := s.cluster k
  let alive (e : Tlb) : Bool := decide (now < e.deadline)
  let s := s.setCluster k { x with l2 := x.l2.filter alive, wc := x.wc.filter (fun e => decide (now < e.deadline)) }
  .next { s with tiles := s.tiles.map (fun p =>
    if s.clusterOf p.1 = k then (p.1, { p.2 with itlb := p.2.itlb.filter alive, dtlb := p.2.dtlb.filter alive }) else p) }

/-! ### Posted faults and their replies (R264, R266, R445) -/

/-- Take the first posted fault whose mailbox has room. -/
def State.postedRoom (s : State) (p : Posted) : Bool :=
  if p.stage = 1 then !s.islandDown (s.region p.region).home && !(s.ring (faultRing p.region)).full
  else !s.islandDown (s.region p.region).home

/-- A posted fault or an event of a tile crosses to its island (R317, R430, R431, R440): its flit is counted and it takes its number; where
its seal fails it is refused and sent again, and a site with a spent counter sends nothing. -/
def State.vc6Enter (s : State) (t isl : Nat) : Except State State :=
  if s.sealSpent t (.island isl) then .error s
  else match s.sealHit t (.island isl) with
    | some g => .error (s.countCec g 1)
    | none => .ok ((s.updTile t (fun x => { x with counts := fset 0 x.counts 9 (fget 0 x.counts 9 + 1) })).numberOut t (.island isl))

/-- POSTED_FAULT_MESSAGE (R264): The island accepts a posted page-fault message into the stage-1 mailbox or the hypervisor fault mailbox, raises WIDX and interrupts, or refuses it when the mailbox is full. Operands: a = n. -/
def execPostedFaultMessage (s : State) : Out :=
  if s.posted.isEmpty then .next s
  else match s.posted.find? (fun p => s.postedRoom p && s.vc6Turn p.site p.seq) with
    | none => notYet s
    | some p =>
      let h := (s.region p.region).home
      match s.vc6Enter p.site h with
      | .error s => notYet s
      | .ok s =>
      let s := { s with posted := s.posted.erase p }
      if p.stage = 1 then .next ((s.ringWrite (faultRing p.region) p.entry.toNat).interruptRegion p.region 2)
      -- the hypervisor's mailbox and its interrupt identity: log entry 17
      else .next ((s.setIsland h { s.island h with hypMailbox := (s.island h).hypMailbox ++ [p.entry] }).interruptHyp h)

/-- The context that waits for the reply of a sequence number: in fault-wait, or live in monitor mode (R103). -/
def Tile.faultWaiter (x : Tile) (seq : Nat) : Option Nat :=
  (List.range 12).find? (fun c => (decide ((x.ctx c).state = .faultWait) || (decide ((x.ctx c).state = .live) && (x.ctx c).faulted)) && (x.ctx c).faultSeq == seq)

/-- A reply to a posted fault comes back from the home island: when a gate on the way finds that its seal fails it is sent again (R317, R431). -/
def faultReply (s : State) (k : State → Out) : Out :=
  let d := Dst.island (s.homeOf s.ev.a)
  match s.sealHitBack s.ev.a d with
  | some g => notYet (s.countCec g 1)
  | none => k (s.numberBack s.ev.a d)

/-- RETRY (R266): A RETRY reply reselects the faulting instruction to translate afresh. Operands: a = t, b = seq. -/
def execRetryReply (s : State) : Out := faultReply s fun s =>
  let t := s.ev.a
  let seq := s.ev.b
  let x := s.tile t
  -- a reply that arrives while the tile is held is discarded
  if x.held then .next s
  else match x.faultWaiter seq with
    | some c => .next (s.updCtx t c (fun y => { y with state := .live, xlate := .none, faulted := false }))
    | none =>
      let s := s.updTile t (fun x => { x with
        xfer := x.xfer.map (fun e => if e.fault = some seq then { e with fault := none } else e)
        streams := x.streams.map (fun p => if p.2.fault = some seq then (p.1, { p.2 with fault := none }) else p) })
      match x.q.ret.find? (fun e => e.fault == some seq) with
      | some e => .next ((s.setEntry t { e with fault := none }).later .l2TlbLookup { a := t, b := whoRetained e.id })
      | none => .next s

/-- FAIL (R266): A FAIL reply makes the waiting context take a precise trap with the code. Operands: a = t, b = seq, w = code. -/
def execFailReply (s : State) : Out := faultReply s fun s =>
  let t := s.ev.a
  let seq := s.ev.b
  let x := s.tile t
  -- a code below 0xC0 is delivered as 0xC0 (R445)
  let code : BitVec 8 := if fld s.ev.w 0 8 < 0xC0 then 0xC0 else BitVec.ofNat 8 (fld s.ev.w 0 8)
  if x.held then .next s
  else match x.faultWaiter seq with
    | some c => .next (s.updCtx t c (fun y => { y with state := .live, xlate := .none, faulted := false, dueFault := some (code, y.faultAddr) }))
    | none =>
      let s := match x.xfer.find? (fun e => e.fault == some seq) with
        | some e => (s.setXfer t { e with fault := none }).xferFail t e.id e.progress code
        | none => s
      let s := s.updTile t (fun x => { x with
        streams := x.streams.map (fun p => if p.2.fault = some seq then (p.1, { p.2 with fault := none, code := code }) else p) })
      match x.q.ret.find? (fun e => e.fault == some seq) with
      | some e => .next (s.retainedError t { e with fault := none } code)
      | none => .next s

end Sys2Proof.Machine
end

