-- ==== Sys2Proof/Machine/Stream.lean ====
section
/-! DEFINITION. The transfer engine and the streamer (R326 to R343). -/
namespace Sys2Proof.Machine

/-! ### Transfer commands (R327 to R332) -/

/-- An address is local: its COL and ROW alone decide (R208). -/
def State.ownAddr (s : State) (t : Nat) (a : Word) : Bool :=
  let x := s.tile t
  !bit a 63 && (x.region == 0 || (addrCol a == x.col && addrRow a == x.row))

/-- The checks of one end: R209 items 2 to 6 for an SPM-window address, item 2 alone for an edge address (R328). -/
def State.endOk (s : State) (a : Word) (n : Nat) : Option Nat :=
  match s.checkForm s.slot.site s.cur.mon a n with
  | .error c => some c
  | .ok _ => none

/-- The checks of xcopy in order (R328): the first failure with its TVAL. -/
def State.xcopyCheck (s : State) (gc gd gs : Word) : Option (Nat × Word) :=
  let t := s.slot.site
  let n := fld gc 0 21
  let own := s.ownAddr t
  if fld gc 21 27 ≠ 0 ∨ n % 8 ≠ 0 ∨ n < 8 ∨ 0x170000 < n then some (0x24, 0)
  else if fld gd 0 3 ≠ 0 then some (0x10, gd)
  else if fld gs 0 3 ≠ 0 then some (0x10, gs)
  else if !own gd ∧ !own gs then some (0x24, 0)
  -- the ends in the SPM window first, then those in edge memory
  else match ([gd, gs].filter (fun a => !bit a 63) ++ [gd, gs].filter (fun a => bit a 63)).findSome? (fun a => (s.endOk a n).map (fun c => (c, a))) with
    | some e => some e
    | none => if own gd ∧ own gs ∧ addrOff gd < addrOff gs + n ∧ addrOff gs < addrOff gd + n then some (0x24, 0) else none

/-- XCOPY (R328): Checks and pushes a transfer command. -/
def execXcopy (rd ra rb : BitVec 6) (wa wb : BitVec 1) (s : State) : Out :=
  issue { wf := (Instr.xcopy rd ra rb wa wb).wf, srcs := [(ra, wt wa), (rb, wt wb), blk rd] } s (fun v s =>
    let gc := v2 v
    let t := s.slot.site
    match s.xcopyCheck gc (v0 v) (v1 v) with
    | some e => .fault e.1 e.2
    | none =>
      let x := s.curTile
      if 8 ≤ x.xfer.length ∨ x.retFree = 0 ∨ s.accessHeld then .wait id
      else
        let (id, s) := s.fresh
        let e : XCmd := { id := id, gc := gc, gd := v0 v, gs := v1 v, ctx := s.slot.ctx, gen := (x.bar (fld gc 56 6)).gen, mark := id }
        .ok ((s.updCurTile (fun x => { x with xfer := x.xfer ++ [e] })).later .transferStart { a := t }).retire)

/-- A command that an xpop may claim (R332). -/
def XCmd.claimable (e : XCmd) : Bool := !e.claimed && (!e.quiet || (e.state == 2 && e.code != 0))

/-- XPOP (R332): Claims the oldest claimable transfer record. -/
def execXpop (rd : BitVec 6) (s : State) : Out :=
  issue { wf := (Instr.xpop rd).wf, dsts := [rd] } s (fun _ s =>
    let t := s.slot.site
    match s.curTile.xfer.find? XCmd.claimable with
    | none => s.lateResult rd 0
    | some e =>
      if e.state = 2 then
        ((s.updCurTile (fun x => { x with xfer := x.xfer.filter (fun y => y.id != e.id), xhold := if e.code = 0 then x.xhold else false })).later
          .transferStart { a := t }).lateResult rd e.record
      else
        let (id, s) := s.fresh
        .ok ((s.setXfer t { e with claimed := true, claimCtx := s.slot.ctx, claimReg := rd.toNat, claimMon := s.cur.mon, claimAt := id }).emptyG rd id).retire)

/-! ### The transfer engine (R329 to R334) -/

/-- What a command moves between. -/
inductive XKind where
  | localCopy | pushTile | pushEdge | pullTile | pullEdge
deriving DecidableEq, Repr

def State.xkind (s : State) (t : Nat) (e : XCmd) : XKind :=
  if bit e.gd 63 then .pushEdge
  else if bit e.gs 63 then .pullEdge
  else if s.ownAddr t e.gd ∧ s.ownAddr t e.gs then .localCopy
  else if s.ownAddr t e.gs then .pushTile
  else .pullTile

/-- Length of the unit at the command's progress (R329). -/
def XCmd.unit (e : XCmd) (k : XKind) : Nat :=
  let left := e.len - e.progress
  match k with
  | .pushEdge => Nat.min left (64 - (e.gd.toNat + e.progress) % 64)
  | .pullEdge => Nat.min left (64 - (e.gs.toNat + e.progress) % 64)
  | _ => Nat.min left 192

/-- The remote end of a command on another tile: its site, or the fault that names it. -/
def State.farTile (s : State) (t : Nat) (a : Word) : Except Nat Nat :=
  match s.placeFrom t (addrCol a) (addrRow a) with
  | .site u => .ok u
  | .hole => .error 0x14
  | .outside => .error 0x14

/-- The held translation serves the next request: fresh, or in its page with 2,048 ticks left (R268). -/
def xlGood (xl : Option Tlb) (walk now va kind : Nat) : Option Tlb :=
  match xl with
  | some e => if e.covers va ∧ e.permits kind ∧ (walk = 2 ∨ now + 2048 ≤ e.deadline) then some e else none
  | none => none

/-- What the engine does next for a command. -/
inductive Sent where
  | go (s : State)
  | wait (s : State)

/-- Send the next unit or request of a running command (R329, R333). -/
def State.sendUnit (s : State) (t : Nat) (e : XCmd) : Sent :=
  let k := s.xkind t e
  let n := e.unit k
  let off := e.progress
  let sink : Sink := .xfer e.id off n
  let src := addrOff e.gs + off
  let dst := addrOff e.gd + off
  let next (s : State) : State := s.setXfer t { e with progress := off + n, walk := 0 }
  let put (s : State) (b : Body) (u : Nat) : State :=
    let (id, s) := s.fresh
    (next s).inject t { id := id, ctx := e.ctx, body := b, sink := sink, dst := .tile u }
  let edge (a : Word) (kind : Nat) (b : Word → Body) : Sent :=
    let ga := a + BitVec.ofNat 64 off
    let va := fld ga 0 56
    match xlGood e.xl e.walk (s.nowAt t) va kind with
    | some y => .go ((next s).request t e.ctx (b ga) sink (.edge (y.phys va)) (some y)).2
    | none =>
      if e.fault.isSome ∨ e.walk = 1 then .wait s
      else .wait ((s.setXfer t { e with walk := 1, xl := none }).later .walk { a := t, b := 12 })
  if (s.tile t).retFree = 0 then .wait s
  else match k with
    | .localCopy => .wait s
    | .pushTile => match s.farTile t e.gd with
      | .error c => .go (s.xferFail t e.id off (BitVec.ofNat 8 c))
      | .ok u =>
        if s.uncorrectable t src n then .go (s.xferFail t e.id off 0x16)
        else put (s.countCec t (s.correctables t src n)) (.seg dst n (s.spmRead t src n)) u |> .go
    | .pullTile => match s.farTile t e.gs with
      | .error c => .go (s.xferFail t e.id off (BitVec.ofNat 8 c))
      | .ok u => .go (put s (.xread src n) u)
    | .pushEdge =>
      if s.uncorrectable t src n then .go (s.xferFail t e.id off 0x16)
      else edge e.gd 1 (fun a => .store a n (s.spmRead t src n))
    | .pullEdge => edge e.gs 0 (fun a => .load a n)

/-- A queued command may start (R331, R329). -/
def State.mayStart (s : State) (t : Nat) (e : XCmd) : Bool :=
  let x := s.tile t
  !x.xhold &&
  (x.xfer.takeWhile (fun y => y.id != e.id)).all (fun y => y.state == 2 || (y.state == 1 && y.code == 0 && decide (y.len ≤ y.progress))) &&
  (decide (s.xkind t e = .localCopy) || x.released e.ctx e.mark)

/-- TRANSFER_START (R331): A queued transfer command starts. Operands: a = t. -/
def execTransferStart (s : State) : Out :=
  let t := s.ev.a
  let x := s.tile t
  match x.xfer.find? (fun e => decide (s.xkind t e ≠ .localCopy) && e.state == 1 && e.code == 0 && decide (e.progress < e.len)) with
  | some e =>
    -- a running command sends its next unit; nothing is sent by a held tile (R334)
    if x.stopping then notYet s
    else match s.sendUnit t e with
      | .go s => .next (s.later .transferStart { a := t })
      | .wait s => notYet s
  | none => match x.xfer.find? (fun e => e.state == 0) with
    | none => .next s
    | some e =>
      if x.stopping ∨ !s.mayStart t e then notYet s
      else
        let s := s.setXfer t { e with state := 1 }
        if s.xkind t e = .localCopy then .next ((s.later .transferSegment { a := t }).later .transferStart { a := t })
        else .next (s.later .transferStart { a := t })

/-- Nothing of the transfer engine that left for the same tile before is still on its way (R313). -/
def Queues.vc3Turn (q : Queues) (e : Ret) : Bool :=
  !(q.before e.id).any (fun y => y.body.vc == 3 && decide (y.dst = e.dst) && decide (y.state = .flying))

/-- What is for a halted tile stays with its source (R120). -/
def State.standsStill (s : State) (d : Dst) : Bool :=
  match d with
  | .tile u => (s.tile u).halted
  | _ => false

/-- A pull's read request that the remote tile serves now. -/
def State.readReady (s : State) (t : Nat) (e : Ret) : Bool :=
  decide (e.state = .flying) && !s.goesNowhere e.dst && (s.tile t).q.vc3Turn e && (match e.body with | .xread _ _ => true | _ => false)

/-- TRANSFER_READ_REQUEST (R329): A pull's read request is served at the remote tile. Operands: a = t. -/
def execTransferReadRequest (s : State) : Out :=
  let t := s.ev.a
  match (s.tile t).q.ret.find? (s.readReady t) with
  | none => .next s
  | some e => match s.sealHit t e.dst with
    | some g => s.sealFail t g e
    | none => match e.body, e.dst with
    | .xread o n, .tile u =>
      if s.uncorrectable u o n then .next (s.answered t e { code := 0x16 })
      else .next ((s.countCec u (s.correctables u o n)).answered t e { data := s.spmRead u o n })
    | _, _ => .next s

/-- Write a unit into a slice as aligned doublewords (R329). -/
def State.writeUnit (s : State) (t off n data : Nat) : State :=
  (List.range (n / 8)).foldl (fun s i => s.spmStore t (off + 8 * i) 8 (natBytes data (8 * i) 8)) s

/-- A unit that may be written now: a pushed segment on its way, or a pull's data that has come. -/
def Ret.unitReady (e : Ret) : Bool :=
  match e.body, e.sink with
  | .seg _ _ _, _ => decide (e.state = .flying)
  | .xread _ _, _ => decide (e.state = .done)
  | .load _ _, .xfer _ _ _ => decide (e.state = .done)
  | _, _ => false

/-- A unit that is written in the order of R313, and none for a halted tile (R120). -/
def State.segReady (s : State) (t : Nat) (e : Ret) : Bool :=
  e.unitReady && !(decide (e.state = .flying) && (s.goesNowhere e.dst || s.standsStill e.dst || !(s.tile t).q.vc3Turn e))

/-- Copy the next segment of a local copy (R329, R334). -/
def State.copySegment (s : State) (t : Nat) (e : XCmd) : Out :=
  let n := e.unit .localCopy
  let src := addrOff e.gs + e.progress
  if (s.tile t).stopping then notYet s
  else if s.uncorrectable t src n then .next (s.xferFail t e.id e.progress 0x16)
  else
    let d := s.spmRead t src n
    let s := (s.countCec t (s.correctables t src n)).writeUnit t (addrOff e.gd + e.progress) n d
    let s := (s.setXfer t { e with progress := e.progress + n }).unitDone t e.id n true
    .next (if e.progress + n < e.len then s.later .transferSegment { a := t } else s)

/-- TRANSFER_SEGMENT (R329): A transfer segment or unit is written at its destination. Operands: a = t. -/
def execTransferSegment (s : State) : Out :=
  let t := s.ev.a
  let x := s.tile t
  match x.q.ret.find? (s.segReady t) with
  | some e => match e.body, e.sink, e.dst with
    | .seg o n d, .xfer cmd _ _, .tile u => match s.sealHit t e.dst with
      | some g => s.sealFail t g e
      | none =>
      let s := s.writeUnit u o n d
      let s := match x.xfer.find? (fun y => y.id == cmd) with
        | some y => if y.bar then s.arrive u y.bnum n 0 none false else s
        | none => s
      .next (s.answered t e {})
    | _, .xfer cmd off n, d =>
      let edge : Bool := match d with | .edge _ => true | _ => false
      if x.held ∧ !edge then notYet s
      else backHome s e e.replyKind (fun s e =>
        let s := s.freeEntry t e.id
        if e.code ≠ 0 then .next (s.xferFail t cmd off e.code)
        else match x.xfer.find? (fun y => y.id == cmd) with
          | some y =>
            -- between tiles nothing at or above the failed unit is written (R333)
            if !edge ∧ y.code ≠ 0 ∧ y.errAt ≤ off then .next (s.xferSettled t cmd)
            else .next ((s.writeUnit t (addrOff y.gd + off) n e.reply).unitDone t cmd n true)
          | none => .next s)
    | _, _, _ => .next s
  | none => match x.xfer.find? (fun e => decide (s.xkind t e = .localCopy) && e.state == 1 && e.code == 0 && decide (e.progress < e.len)) with
    | some e => s.copySegment t e
    | none => .next s

/-- The record of a command (R331). -/
def XCmd.recordWord (e : XCmd) : Word :=
  BitVec.ofNat 64 ((if e.code = 0 then e.len else e.errAt) * 2 ^ 32 + e.code.toNat * 2 ^ 24 + e.tag * 2 ^ 16 + 2 ^ 15 + (if e.code = 0 then 0 else 2 ^ 14))

/-- TRANSFER_COMPLETE (R331): A transfer command completes and writes its record. Operands: a = t. -/
def execTransferComplete (s : State) : Out :=
  let t := s.ev.a
  let x := s.tile t
  match x.xfer.find? (fun e => e.state == 1 && (e.code != 0 || decide (e.len ≤ e.progress)) && !x.unitsOut e.id) with
  | none => .next s
  | some e =>
    let err := e.code != 0
    -- the bytes that will not arrive are arrivals with an error, at the tile that the others went to (R330)
    let s := if e.bar ∧ err then
        match s.xkind t e with
        | .pushTile => match s.farTile t e.gd with
          | .ok u => s.arrive u e.bnum (e.len - e.acked) 0 none true
          | .error _ => s
        | _ => s.arrive t e.bnum (e.len - e.acked) 0 (some e.gen) true
      else s
    let e := { e with state := 2, record := e.recordWord, xl := none, walk := 0 }
    let s := if e.claimed then s.arriveG t e.claimCtx e.claimReg e.claimMon e.claimAt e.record else s
    let gone := e.claimed || e.drop || (e.quiet && !err)
    let s := if gone then s.updTile t (fun x => { x with xfer := x.xfer.filter (fun y => y.id != e.id) })
      else (s.setXfer t e).updTile t (fun x => { x with xhold := x.xhold || err })
    .next (s.later .transferStart { a := t })

/-! ### Stream parameter blocks (R335, R336) -/

/-- One bit of the reflected CRC-32 of IEEE 802.3. -/
def crcBit (c : BitVec 32) : BitVec 32 := if c.getLsbD 0 then (c >>> 1) ^^^ 0xEDB88320#32 else c >>> 1

/-- One byte of it. -/
def crcByte (c : BitVec 32) (b : Nat) : BitVec 32 := (List.range 8).foldl (fun c _ => crcBit c) (c ^^^ BitVec.ofNat 32 b)

/-- The digest of an SPB: bytes 0x00 to 0x37, byte 0x36 taken as zero (R336). -/
def spbDigest (b : BitVec 512) : BitVec 32 :=
  ~~~((List.range 0x38).foldl (fun c i => crcByte c (if i = 0x36 then 0 else fld b (8 * i) 8)) 0xFFFFFFFF#32)

/-- The row segment of a stream (R335). -/
def StreamEnd.row (e : StreamEnd) : Nat := fld e.spb 400 8
def StreamEnd.c0 (e : StreamEnd) : Nat := fld e.spb 408 8
def StreamEnd.c1 (e : StreamEnd) : Nat := fld e.spb 416 8

/-- The least and the greatest element address, computed without wrapping (R338). -/
def StreamEnd.bounds (e : StreamEnd) : Int × Int :=
  let span (l : Nat) : Int := ((e.cnt l : Int) - 1) * e.str l
  ((e.base : Int) + ((List.range 5).map (fun l => min 0 (span l))).sum, (e.base : Int) + ((List.range 5).map (fun l => max 0 (span l))).sum)

/-- The limits of R335 and of R338 item 2 that do not name the tile: `w` and `h` are the region's size. -/
def StreamEnd.limitsOk (e : StreamEnd) (w h : Nat) : Bool :=
  let lo := e.bounds.1
  let hi := e.bounds.2
  fld e.spb 0 3 == 0 && fld e.spb 56 8 == 0x80 && fld e.spb 440 72 == 0 && decide (e.role ≤ 1) &&
  (List.range 5).all (fun l => decide (1 ≤ e.cnt l) && decide (e.str l % 8 = 0)) &&
  decide (e.elements ≤ 2 ^ 40 - 1) &&
  decide ((2 ^ 63 : Int) ≤ lo) && decide (hi ≤ 0x80FFFFFFFFFFFFF8) &&
  e.srow == e.row && (e.scol == e.c0 || e.scol == e.c1) && decide (e.c0 < e.c1 ∧ e.c1 < w ∧ e.row < h)

/-- Two ends belong to one stream (R335). -/
def StreamEnd.same (a b : StreamEnd) : Bool := a.scol == b.scol && a.srow == b.srow && a.tag == b.tag

/-- The tiles of a stream other than one of its columns, as sites seen from a tile. -/
def State.streamTiles (s : State) (t : Nat) (e : StreamEnd) (but : Nat) : List Nat :=
  (List.range (e.c1 + 1 - e.c0)).filterMap (fun i =>
    if e.c0 + i = but then none else match s.placeFrom t (e.c0 + i) e.row with | .site u => some u | _ => none)

/-- The slot of a tile that holds an end of a stream in a role. -/
def Tile.endOf (x : Tile) (col row tag role : Nat) : Option Nat :=
  (List.range 4).find? (fun n => let e := x.stream n; e.state != 0 && e.scol == col && e.srow == row && e.tag == tag && e.role == role)

/-- The port that takes the elements of a stream (R338). -/
def Queues.streamPort (q : Queues) (tag : Nat) : Option Nat := q.portFor 4 tag

/-! ### sopen and sclose (R338) -/

/-- SOPEN (R338): Opens a stream end from an SPB. -/
def execSopen (ra : BitVec 6) (n : BitVec 2) (wa : BitVec 1) (s : State) : Out :=
  issue { wf := (Instr.sopen ra n wa).wf, srcs := [(ra, wt wa)] } s (fun v s =>
    let a := v0 v
    let t := s.slot.site
    let x := s.curTile
    let d := s.dims t
    match s.checkAddr t s.cur.mon a 64 64 with
    | .error c => .fault c a
    | .ok (.loc o) =>
      if s.accessHeld then .wait id
      else if s.uncorrectable t o 64 then .fault 0x16 a
      else
        let spb := BitVec.ofNat 512 (s.spmRead t o 64)
        let e : StreamEnd := { state := 1, spb := spb, digest := spbDigest spb, ctx := s.slot.ctx, mark := s.nextId }
        if !e.limitsOk d.1 d.2 ∨ (x.stream n.toNat).state ≠ 0 ∨ (List.range 4).any (fun k => (x.stream k).state != 0 && (x.stream k).same e) then .fault 0x25 0
        else if e.role = 0 ∧ !(x.col == e.scol && x.row == e.srow) then .fault 0x25 0
        else if e.role = 1 ∧ !(x.row == e.row && decide (e.c0 ≤ x.col ∧ x.col ≤ e.c1) && x.col != e.scol && (x.q.streamPort e.tag).isSome) then .fault 0x25 0
        else match (List.range (e.c1 + 1 - e.c0)).find? (fun i => match s.placeFrom t (e.c0 + i) e.row with | .site _ => false | _ => true) with
          | some i => .fault 0x14 (BitVec.ofNat 64 (e.row * 2 ^ 29 + (e.c0 + i) * 2 ^ 21))
          | none =>
            let s := s.countCec t (s.correctables t o 64)
            if e.role = 0 then
              if x.retFree = 0 ∨ s.accessHeld then .wait id
              else .ok (s.updCurTile (fun x => x.setStream n.toNat e)).retire
            else if x.retFree < 2 ∨ 1024 < x.q.used + 16 then .wait id
            else
              let s := s.updCurTile (fun x => (x.setStream n.toNat { e with slots := 16 }).updQ (fun q => { q with used := q.used + 16 }))
              match s.placeFrom t e.scol e.srow with
              | .site u =>
                let (id, s) := s.fresh
                .ok (s.inject t { id := id, ctx := s.slot.ctx, body := .digest e.scol e.srow e.tag e.digest, dst := .tile u }).retire
              | _ => .ok s.retire
    | .ok _ => .fault 0x11 a)

/-- A tile sends a go or an abort; a held one keeps it until its resume (R342). -/
def State.tell (s : State) (t u c : Nat) (b : Body) : State :=
  let (id, s) := s.fresh
  let e : Ret := { id := id, ctx := c, body := b, dst := .tile u, state := .formed }
  let s := s.keep t e
  if (s.tile t).stopping then s.later e.arrival { a := t, b := id } else s.launch t e

/-- A go or an abort: one that has been kept back goes; it comes to its tile when every gate on the way has opened it (R317, R342, R431),
but not to a halted one (R120). -/
def signalHome (s : State) (k : Ret → Out) : Out :=
  let t := s.ev.a
  match s.entry t s.ev.b with
  | none => .next s
  | some e =>
    if e.state = .formed then (if (s.tile t).stopping then notYet s else .next (s.launch t e))
    else if s.standsStill e.dst then notYet s
    else atHome s k

/-- An abort goes to a tile of a stream: with the code of a failure, or from an sclose (R337). -/
def State.sendAbort (s : State) (t : Nat) (e : StreamEnd) (code : BitVec 8) (closed : Bool) (u : Nat) : State :=
  s.tell t u e.ctx (.streamAbort e.scol e.srow e.tag code closed)

/-- The elements of one end's stream, from the streaming tile `src`, that no one has popped go from whatever port they wait at, with the
slots their receiver reserved (R338). -/
def Tile.dropStream (x : Tile) (e : StreamEnd) (src : Option Nat) : Tile :=
  let mine (v : PElem) : Bool := v.stream.isSome && v.stream == src.map (fun u => (u, e.tag))
  x.updQ (fun q => { q with
    inq := (List.range 4).foldl (fun m p => fset [] m p ((fget [] m p).filter (fun v => !mine v))) q.inq
    used := q.used - e.slots })

/-- The site of the streaming tile of a stream, as a tile sees it. -/
def State.streamSrc (s : State) (t : Nat) (e : StreamEnd) : Option Nat :=
  match s.placeFrom t e.scol e.srow with | .site u => some u | _ => none

/-- A receiver gives up the elements of its stream that no one has popped: messages that end with them are acknowledged (R338, R340). -/
def State.dropStream (s : State) (t : Nat) (e : StreamEnd) : State :=
  let src := s.streamSrc t e
  let l := (List.range 4).flatMap (fun p => ((s.tile t).q.inq? p).filter (fun v => v.stream.isSome && v.stream == src.map (fun u => (u, e.tag))))
  l.foldl (fun s v => s.popAck t v) (s.updTile t (fun x => x.dropStream e src))

/-- SCLOSE (R338): Returns a stream end's status and closes or aborts it. -/
def execSclose (rd : BitVec 6) (n : BitVec 2) (s : State) : Out :=
  issue { wf := (Instr.sclose rd n).wf, dsts := [rd] } s (fun _ s =>
    let t := s.slot.site
    let k := n.toNat
    let e := s.curTile.stream k
    if e.state = 0 then s.result rd 0
    else
      let s := if e.role = 1 then s.dropStream t e else s
      if 3 ≤ e.state then (s.updCurTile (fun x => x.setStream k {})).result rd e.status
      else
        let s := s.updCurTile (fun x => x.setStream k { e with state := 5, slots := 0 })
        ((s.streamTiles t e s.curTile.col).foldl (fun s u => s.sendAbort t e 0 true u) s).result rd e.status)

/-! ### Opening (R337, R339) -/

/-- A source fails with a code: its receivers are told (R333, R337); what it has injected before stays retained until they have taken it
(R340). -/
def State.failSource (s : State) (t n : Nat) (code : BitVec 8) : State :=
  let e := (s.tile t).stream n
  let s := s.updTile t (fun x => x.setStream n { e with state := 4, code := code, asked := none, walk := 0 })
  (s.streamTiles t e e.scol).foldl (fun s u => s.sendAbort t e code false u) s

/-- A source fails at a line or an element: the notice names its address (R409, R445); a key conflict has a notice of its own (R263,
R446; log 118). -/
def State.failLine (s : State) (t n : Nat) (code : BitVec 8) (a : Word) : State :=
  (if code = 0x15 then s else s.streamEvent t n ((s.tile t).stream n) a 0).failSource t n code

/-- STREAM_DIGEST (R339): A receiver's digest reaches the streaming tile. Operands: a = t, b = id. -/
def execStreamDigest (s : State) : Out :=
  let t := s.ev.a
  atHome s (fun m => match m.body, m.dst with
    | .digest col row tag d, .tile u =>
      match (s.tile u).endOf col row tag 0 with
        | none => .next (s.refuse t m)
        | some n =>
          let e := (s.tile u).stream n
          if s.turnsAway t u 0 m then .next (s.refuse t m)
          else if e.state = 4 then .next ((s.accept t m).sendAbort u e e.code false t)
          else if e.state ≠ 1 then .next (s.refuse t m)
          else
            let s := s.accept t m
            if d ≠ e.digest then .next ((s.streamEvent u n e (BitVec.ofNat 64 e.base) d).failSource u n 0x26)
            else
              let got := if e.matched.contains t then e.matched else e.matched ++ [t]
              let all := s.streamTiles u e e.scol
              if all.all (fun r => got.contains r) then
                let s := s.updTile u (fun x => x.setStream n { e with matched := got, state := 2 })
                let s := all.foldl (fun s r => s.tell u r e.ctx (.streamGo col row tag e.digest)) s
                .next (s.later .streamMessageInject { a := u, b := n })
              else .next (s.updTile u (fun x => x.setStream n { e with matched := got }))
    | _, _ => .next s)

/-- STREAM_GO (R337): The source's go reaches a receiver, which starts running. Operands: a = t, b = id. -/
def execStreamGo (s : State) : Out :=
  signalHome s (fun m => match m.body, m.dst with
    | .streamGo col row tag d, .tile u =>
      let s := s.freeEntry s.ev.a m.id
      match (s.tile u).endOf col row tag 1 with
      | none => .next s
      | some n =>
        let e := (s.tile u).stream n
        if e.state ≠ 1 then .next s
        else if e.digest = d then .next (s.updTile u (fun x => x.setStream n { e with state := 2 }))
        else .next ((s.updTile u (fun x => x.setStream n { e with state := 4, code := 0x26 })).streamEvent u n e (BitVec.ofNat 64 e.base) d)
    | _, _ => .next s)

/-- STREAM_ABORT (R337): An abort reaches a stream end, which fails or aborts. Operands: a = t, b = id. -/
def execStreamAbort (s : State) : Out :=
  signalHome s (fun m => match m.body, m.dst with
    | .streamAbort col row tag code closed, .tile u =>
      let s := s.freeEntry s.ev.a m.id
      let hit (role : Nat) : Option Nat := (s.tile u).endOf col row tag role
      match (match hit 0 with | some n => some n | none => hit 1) with
      | none => .next s
      | some n =>
        let e := (s.tile u).stream n
        if e.state ≠ 1 ∧ e.state ≠ 2 then .next s
        else .next (s.updTile u (fun x => x.setStream n { e with state := if closed then 5 else 4, code := code, asked := none, walk := 0 }))
    | _, _ => .next s)

/-! ### The source (R340, R342) -/

/-- Elements of message i (R340): 24, or what is left. -/
def StreamEnd.batch (e : StreamEnd) : Nat := Nat.min 24 (e.elements - e.injected)

/-- Put the gathered message on its way to every receiver (R340): its flits are counted, and it takes the counter of the site when a route
is sealed (R430, R440). -/
def State.injectElems (s : State) (t n : Nat) (e : StreamEnd) : State :=
  let rs := s.streamTiles t e e.scol
  let (id, s) := s.fresh
  let s := s.updTile t (fun x => x.setStream n { e with gathered := [], injected := e.injected + e.gathered.length, count := e.count + e.gathered.length })
  let m : Ret := { id := id, ctx := e.ctx, body := .elems e.tag e.gathered rs rs, state := .flying, stamp := s.stampAt t, sealSeq := (s.site t).sealCtr }
  let s := (s.keep t m).updTile t (fun x => { x with counts := fset 0 x.counts 9 (fget 0 x.counts 9 + m.flits) })
  let s := if rs.any (fun u => s.sealedWay t (.tile u)) then s.takeSeq t else s
  rs.foldl (fun s u => s.later .streamMessage { a := t, b := id, c := u }) s

/-- STREAM_MESSAGE_INJECT (R340): The source multicasts a message of 24 elements. Operands: a = t, b = n. -/
def execStreamMessageInject (s : State) : Out :=
  let t := s.ev.a
  let n := s.ev.b
  let x := s.tile t
  let e := x.stream n
  let again (s : State) : Out := .next (s.later .streamMessageInject { a := t, b := n })
  if e.state ≠ 2 ∨ e.role ≠ 0 then .next s
  else if e.code ≠ 0 then .next (s.failLine t n e.code (e.elemAddr e.next))
  else if x.stopping then notYet s
  else if e.elements ≤ e.injected then .next (s.streamSettled t e.tag)
  else if e.gathered.length = e.batch then
    if 4 ≤ x.messagesOut e.tag ∨ x.retFree = 0 ∨ (s.streamTiles t e e.scol).any (fun u => s.sealSpent t (.tile u)) then notYet s else again (s.injectElems t n e)
  else if e.asked.isSome ∨ x.retFree = 0 ∨ !x.released e.ctx e.mark then notYet s
  else
    let a := e.elemAddr e.next
    let va := fld a 0 56 / 64 * 64
    match xlGood e.xl e.walk (s.nowAt t) va 0 with
    | some y =>
      let r := s.request t e.ctx (.load (a &&& ~~~(63#64)) 64) (.strm n a) (.edge (y.phys va)) (some y)
      again (r.2.updTile t (fun x => x.setStream n { e with asked := some r.1, walk := 0 }))
    | none =>
      if e.fault.isSome ∨ e.walk = 1 then notYet s
      else notYet ((s.updTile t (fun x => x.setStream n { e with walk := 1, xl := none })).later .walk { a := t, b := whoStream n })

/-- Take the elements of an arrived line in element order, up to the end of the message (R340). -/
def StreamEnd.gather (e : StreamEnd) (line : Word) (data : Nat) : Nat → StreamEnd
  | 0 => e
  | k + 1 =>
    let a := e.elemAddr e.next
    if e.gathered.length < e.batch ∧ (a &&& ~~~(63#64)) = line then
      StreamEnd.gather { e with gathered := e.gathered ++ [BitVec.ofNat 64 (natBytes data (fld a 0 6) 8)], next := e.next + 1 } line data k
    else e

/-- STREAM_LINE_REPLY (R340): An edge line of the stream arrives at the source. Operands: a = t, b = n. -/
def execStreamLineReply (s : State) : Out :=
  let t := s.ev.a
  let n := s.ev.b
  match (s.tile t).q.ret.find? (fun e => decide (e.state = .done) && (match e.sink with | .strm k _ => k == n | _ => false)) with
  | none => .next s
  | some r => backHome s r r.replyKind (fun s r =>
    let s := s.freeEntry t r.id
    let e := (s.tile t).stream n
    if e.state ≠ 2 ∨ e.asked ≠ some r.id then .next s
    else match r.body with
      | .load a _ =>
        if r.code ≠ 0 then .next (s.failLine t n r.code a)
        else .next (s.updTile t (fun x => x.setStream n { (e.gather a r.reply 24) with asked := none }))
      | _ => .next s)

/-! ### The receivers (R340) -/

/-- The entry is a go. -/
def Body.isGo : Body → Bool
  | .streamGo _ _ _ _ => true
  | _ => false

/-- STREAM_MESSAGE (R340): A receiver accepts a stream message into its VC4 port. Operands: a = t, b = id, c = dst. -/
def execStreamMessage (s : State) : Out :=
  let t := s.ev.a
  let u := s.ev.c
  match s.entry t s.ev.b with
  | none => .next s
  | some m => match m.body with
    | .elems tag d acc ack =>
      if !acc.contains u then .next s
      -- at a halted tile messages stay with their sources (R120), and with those of a region that stands (R307)
      else if (s.tile u).lost || (s.tile u).halted || (s.region (s.tile u).region).stopped then notYet s
      else match s.sealHit t (.tile u) with
      | some g =>
        let s := s.countCec g 1
        -- after three failures the message is discarded for this receiver, with a store-error event of the seal code (R431)
        if 3 ≤ m.sealFails + 1 then
          let m := { m with sealFails := 0, body := .elems tag d (acc.filter (· != u)) (ack.filter (· != u)) }
          .next (((s.setEntry t m).sealNotice t m 4 4).storeError t t m 0x32)
        else notYet (s.setEntry t { m with sealFails := m.sealFails + 1 })
      | none =>
        let x := s.tile t
        let took (s : State) (ack : List Nat) : State := s.setEntry t { m with body := .elems tag d (acc.filter (· != u)) ack }
        match (s.tile u).endOf x.col x.row tag 1 with
        | some n =>
          let e := (s.tile u).stream n
          -- messages follow the go that the source sent before them; to an end that has been opened since they mean nothing
          if e.state = 1 ∧ (s.tile t).q.ret.any (fun y => y.body.isGo && decide (y.dst = .tile u)) then notYet s
          else if e.state ≠ 2 then .next (took s (ack.filter (· != u)))
          else match (s.tile u).q.streamPort tag with
            | none => notYet s
            | some p =>
              let elem (v : Word × Nat) : PElem :=
                { val := v.1, stamp := m.stamp, ack := if v.2 + 1 = d.length then some (t, m.id) else none, stream := some (t, tag) }
              let el := d.zipIdx.map elem
              let e := { e with count := e.count + d.length, state := if e.elements ≤ e.count + d.length then 3 else 2 }
              let s := s.updTile u (fun y => (y.setStream n e).updQ (fun q => { q with inq := fset [] q.inq p (q.inq? p ++ el) }))
              .next (took s ack)
        | none => .next (took s (ack.filter (· != u)))
    | _ => .next s

end Sys2Proof.Machine
end

