-- ==== Sys2Proof/Machine/Train.lean ====
section
/-! DEFINITION. Trains: formation, the train instructions, markers, lines and the VC7 lane (R360 to R376). -/
namespace Sys2Proof.Machine

/-! ### Members and skew (R361, R370) -/

/-- The site at a position of a train that a tile belongs to. -/
def State.memberSite (s : State) (t d : Nat) : Option Nat :=
  let x := s.tile t
  match s.placeFrom t (x.train.c0 + d) x.row with
  | .site u => some u
  | _ => none

/-- The positions after the leader's, as sites. -/
def State.followers (s : State) (t : Nat) : List Nat :=
  ((List.range (s.tile t).train.n).filter (· ≠ 0)).filterMap (s.memberSite t)

/-- σ(d): twice the hops and four times the gates from the leader's column on (R361). -/
def State.sigma (s : State) (t d : Nat) : Nat :=
  let x := s.tile t
  let q := s.sumLinks (s.routeSites x.region ((List.range (d + 1)).map (fun i => (x.train.c0 + i, x.row))))
  2 * q.1 + 4 * q.2

/-- The member at a position is at most its link's skew behind the one to its west: fewer than that many cycles of stream words separate
them (R361, R363). `n` is the number of words that the western member has yet to take. -/
def State.eastNear (s : State) (t d n : Nat) : Bool :=
  match s.memberSite t (d + 1) with
  | some u =>
    let x := (s.tile t).train
    let y := (s.tile u).train
    decide (x.n ≤ d + 1 ∨ y.state < 3 ∨ y.c0 ≠ x.c0 ∨ y.lane.length < n + (s.sigma t (d + 1) - s.sigma t d))
  | none => true

/-- The skew word (R370). -/
def State.skewWord (s : State) (t : Nat) : Word :=
  let x := (s.tile t).train
  if x.state = 0 then 0
  else BitVec.ofNat 64 ((if x.state = 2 ∨ x.state = 3 then 2 ^ 33 else 0) + (if x.state = 2 then 2 ^ 32 else 0) + x.n % 256 * 2 ^ 24 +
    x.d % 256 * 2 ^ 16 + s.sigma t x.d % 2 ^ 16)

/-- Write the result of a train instruction that completes after its issue, full (R368). -/
def State.lateG (s : State) (t r : Nat) (v : Word) : State :=
  if 60 ≤ r then s.push t 0 (r - 56) v else s.updCtx t 0 (fun x => x.putG x.mon r v)

/-! ### Instructions (R368 to R376) -/

/-- A train instruction of a context other than 0 faults (R360); `bad` names the states in which it faults (R368). -/
def trainGate (n : Need) (bad : Train → Bool) (s : State) (body : List Word → State → Act) : Out :=
  issue n s (fun v s' => if s'.slot.ctx ≠ 0 ∨ bad s'.curTile.train then .fault 0x0E 0 else body v s')

/-- TFORM (R371): Starts forming a train as its leader. -/
def execTform (rd ra : BitVec 6) (wa : BitVec 1) (s : State) : Out :=
  trainGate { wf := (Instr.tform rd ra wa).wf, srcs := [(ra, wt wa)], dsts := [rd] } (fun x => x.state != 0) s (fun v s =>
    let w := v0 v
    let t := s.slot.site
    let x := s.curTile
    let n := fld w 0 8
    if fld w 16 48 ≠ 0 ∨ n < 2 ∨ (s.dims t).1 < x.col + n then .fault 0x0E 0
    else match (List.range n).find? (fun d => match s.placeFrom t (x.col + d) x.row with | .site _ => false | _ => true) with
      | some d => .fault 0x14 (BitVec.ofNat 64 (x.row * 2 ^ 29 + (x.col + d) * 2 ^ 21))
      | none =>
        let s := s.retire.updCurTile (fun x => { x.setCtx 0 { x.ctx 0 with formed := true } with
          train := { x.train with state := 1, id := fld w 8 8, c0 := x.col, n := n, d := 0, rd := rd.toNat, joined := false, syncWait := 0, lane := [], frames := [], step := 0 } })
        .ok ((List.range n).foldl (fun s d => if d = 0 then s else s.later .trainFormationRequest { a := t, b := d }) s))

/-- TJOIN (R371): Joins a forming train as a follower. -/
def execTjoin (rd ra : BitVec 6) (wa : BitVec 1) (s : State) : Out :=
  trainGate { wf := (Instr.tjoin rd ra wa).wf, srcs := [(ra, wt wa)], dsts := [rd] } (fun x => x.state != 0) s (fun v s =>
    let w := v0 v
    let x := s.curTile
    match x.train.request with
    | none => .wait id
    | some (rid, c0, n) =>
      if fld w 16 48 ≠ 0 ∨ fld w 0 8 ≠ c0 ∨ fld w 8 8 ≠ rid ∨ x.col ≤ c0 then .fault 0x0E 0
      else
        let s := s.retire.updCurTile (fun x => { x with
          train := { x.train with state := 1, id := rid, c0 := c0, n := n, d := x.col - c0, rd := rd.toNat, joined := true, request := none, lineDue := 0, raised := false, lane := [], frames := [], step := 0 } })
        match s.memberSite s.slot.site 0 with
        | some l => .ok (s.later .trainFormed { a := l })
        | none => .ok s)

/-- TLEAVE (R372): Detaches a follower when ga is non-zero. -/
def execTleave (ra : BitVec 6) (k : BitVec 2) (wa : BitVec 1) (s : State) : Out :=
  trainGate { wf := (Instr.tleave ra k wa).wf, srcs := [(ra, wt wa)] } (fun x => x.state == 0 || x.state == 4) s (fun v s =>
    if s.slot.train ∧ v0 v ≠ 0 then
      let a := s.curTile.own (fget 0 s.cur.t k.toNat)
      if fld a 0 2 ≠ 0 then .fault 0x03 a else .ok ((s.finish a).updCurTile Tile.detach)
    else .ok s.retire)

/-- TMARK (R373): Emits a rejoin marker along the lane. -/
def execTmark (n : BitVec 6) (s : State) : Out :=
  trainGate { wf := (Instr.tmark n).wf } (fun x => x.state == 0) s (fun _ s => .ok s.retire)

/-- TREJOIN (R373): Puts a detached follower into rejoin-wait for a marker. -/
def execTrejoin (rd n : BitVec 6) (s : State) : Out :=
  trainGate { wf := (Instr.trejoin rd n).wf, dsts := [rd] } (fun x => x.state != 4) s (fun _ s =>
    .ok (s.retire.updCurTile (fun x => { x with train := { x.train with state := 5, marker := n.toNat, rd := rd.toNat } })))

/-- Members that are detached or wait to rejoin (R374). -/
def State.detachedCount (s : State) (t : Nat) : Nat :=
  ((s.followers t).filter (fun u => 4 ≤ (s.tile u).train.state)).length

/-- The leader starts a wait for every line: no line is raised yet (R374, R375). -/
def State.startLines (s : State) (kind : Nat) : State :=
  let t := s.slot.site
  if s.curTile.train.state = 2 then
    let s := (s.followers t).foldl (fun s u => s.updTile u (fun y => { y with train := { y.train with raised := false, lineDue := 0 } })) s
    s.updCurTile (fun x => { x with train := { x.train with syncWait := kind } })
  else s

/-- This member's line falls due (R374, R375). -/
def State.dueLine (s : State) (kind : Nat) : State :=
  (s.updCurTile (fun x => { x with train := { x.train with lineDue := kind, raised := false } })).later .tsyncLine { a := s.slot.site }

/-- TSYNC (R374): Synchronises the attached train members as a full region fence. -/
def execTsync (rd : BitVec 6) (s : State) : Out :=
  trainGate { wf := (Instr.tsync rd).wf, dsts := [rd] } (fun x => x.state == 0 || x.state == 4) s (fun _ s =>
    let n := s.detachedCount s.slot.site
    ((s.startLines 1).dueLine 1).result rd (BitVec.ofNat 64 n))

/-- TGANG (R375): Waits until every attached member's matrix unit is empty. -/
def execTgang (s : State) : Out :=
  trainGate { wf := Instr.tgang.wf } (fun x => x.state == 0 || x.state == 4) s (fun _ s =>
    .ok ((s.startLines 2).dueLine 2).retire)

/-- TEND (R376): Dissolves the train. -/
def execTend (s : State) : Out :=
  trainGate { wf := Instr.tend.wf } (fun x => x.state == 0) s (fun _ s =>
    .ok (s.retire.updCurTile (fun x => { x with train := { x.train with state := 0 } })))

/-- RDSKEW (R370): Reads the member's skew word. -/
def execRdskew (rd : BitVec 6) (s : State) : Out :=
  trainGate { wf := (Instr.rdskew rd).wf, dsts := [rd] } (fun _ => false) s (fun _ s => s.result rd (s.skewWord s.slot.site))

/-! ### Events (R364, R371, R373, R374) -/

/-- The word is a tsync or a tgang (R69). -/
def isSync (w : BitVec 32) : Bool := cut w 26 6 == 0x1C#6 && (cut w 0 6 == 5#6 || cut w 0 6 == 6#6)

/-- A member's line is raised, or it does not stand in the wait: it is no member any more, or not attached when the tsync or tgang reaches
it, which is still to come while the word is on its lane (R373 to R375). -/
def Train.lineUp (y : Train) (c0 : Nat) : Bool :=
  y.raised || decide (y.state < 3 ∨ y.c0 ≠ c0) || (decide (3 < y.state) && !y.lane.any (fun w => isSync w.2.1))

/-- Every line the leader waits for is raised; members not attached count as raised (R374). -/
def State.linesUp (s : State) (t : Nat) : Bool :=
  let x := (s.tile t).train
  x.syncWait == 0 || (x.raised && (s.followers t).all (fun u => (s.tile u).train.lineUp x.c0))

/-- The matrix unit is empty (R194). -/
def Matrix.isEmpty (m : Matrix) : Bool := m.fifo.isEmpty && m.state == 0

/-- TSYNC_LINE (R374): A member raises its tsync or tgang line when its condition holds. Operands: a = t. -/
def execTsyncLine (s : State) : Out :=
  let t := s.ev.a
  let x := s.tile t
  let ok := match x.train.lineDue with
    | 1 => (x.ctx 0).owed == 0 && x.quiet 0
    | 2 => x.mx.isEmpty
    | _ => true
  if x.train.lineDue = 0 ∨ x.train.raised then .next s
  else if !ok then notYet s
  else .next (s.updTile t (fun x => { x with train := { x.train with raised := true } }))

/-- VC7_ELEMENT (R364): A VC7 element becomes poppable at the east neighbour. Operands: a = t. -/
def execVc7Element (s : State) : Out :=
  let t := s.ev.a
  let x := s.tile t
  match x.train.wire with
  | [] => .next s
  | (v, k) :: r =>
    -- what a later stream instruction of the member to the west pushes is not here before its cycle (R361, R364)
    if x.train.state == 3 && (match k with | some k => decide (x.train.step ≤ k) | none => false) then notYet s
    else
    let s := s.updTile t (fun x => { x with train := { x.train with wire := r } })
    match (List.range 4).find? (fun p => let w := x.q.cfg p; cfgV w && cfgVc w == 7) with
    | some p => .next (s.updTile t (fun x => x.updQ (fun q => { q with inq := fset [] q.inq p (q.inq? p ++ [{ val := v, stamped := false }]) })))
    | none => .next (s.updTile t (fun x => { x with train := { x.train with vdrop := x.train.vdrop + 1 } }))

/-- TRAIN_FORMATION_REQUEST (R371): A formation request reaches a member tile. Operands: a = t, b = d. -/
def execTrainFormationRequest (s : State) : Out :=
  let t := s.ev.a
  let x := s.tile t
  if x.train.state ≠ 1 then .next s
  else match s.memberSite t s.ev.b with
    | some u =>
      if (s.tile u).train.request.isSome then notYet s
      else .next (s.updTile u (fun y => { y with train := { y.train with request := some (x.train.id, x.train.c0, x.train.n) } }))
    | none => .next s

/-- TRAIN_FORMED (R371): Formation completes and members become leader or attached. Operands: a = t. -/
def execTrainFormed (s : State) : Out :=
  let t := s.ev.a
  let x := s.tile t
  let fs := s.followers t
  let ready (u : Nat) : Bool := let y := (s.tile u).train; y.state == 1 && y.joined && y.c0 == x.train.c0 && y.id == x.train.id
  if x.train.state = 1 ∧ !x.train.joined ∧ (x.ctx 0).formed ∧ fs.length + 1 = x.train.n ∧ fs.all ready then
    let s := s.updTile t (fun x => { x.setCtx 0 { x.ctx 0 with formed := false } with train := { x.train with state := 2, nextAddr := (x.ctx 0).pc } })
    let s := fs.foldl (fun s u => s.updTile u (fun y => { y with train := { y.train with state := 3, joined := false, nextAddr := (x.ctx 0).pc } })) s
    .next ((t :: fs).foldl (fun s u => s.lateG u (s.tile u).train.rd (s.skewWord u)) s)
  else .next s

end Sys2Proof.Machine
end

