-- ==== Sys2Proof/Machine/Kernel.lean ====
section
/-! DEFINITION. Kernels: images, launch requests, placement, timed start, exit, retirement and gangs (R381 to R399, R486). -/
namespace Sys2Proof.Machine

/-! ### What the island reads and writes through a region's tables (R486) -/

/-- The copies of a frame: mirrored, its partner's too (R254). -/
def copiesAt (pa : Nat) (mir : Bool) : List Nat := if mir then [pa, partnerOf pa] else [pa]

/-- A port serves an address and takes the island's request: a port whose field is in skew-fault refuses every one (R277). -/
def State.islandServed (s : State) (pa : Nat) : Bool :=
  match s.servingPort pa with
  | some p => decide ((s.field (s.portField p)).state ≠ 2)
  | none => false

/-- The state with every skew-fault cleared: what it can do more waits for that (R277). -/
def State.unskewed (s : State) : State := { s with fields := s.fields.map (fun e => (e.1, if e.2.state = 2 then { e.2 with state := 1 } else e.2)) }

/-- The first copy that a port serves and that has no uncorrectable error (R254). -/
def State.islandCopy (s : State) (l : List Nat) (n : Nat) : Option Nat :=
  l.find? (fun pa => s.islandServed pa && !s.memBad (edgeKey pa) n)

/-- A stage-2 walk from a table at level `l - 1` down: the leaf. -/
def State.walk2 (s : State) (tbl ipa : Nat) : Nat → Option Nat
  | 0 => none
  | l + 1 =>
    let pa := tbl + 8 * tableIndex ipa l
    if !s.islandServed pa || s.memBad (edgeKey pa) 8 then none
    else
      let e := s.memRead (edgeKey pa) 8
      match entryOf 2 l e with
      | .table a => s.walk2 a ipa l
      | .leaf => some e
      | _ => none

/-- A stage-1 walk, each table address through stage 2: the leaf. -/
def State.walk1 (s : State) (s2root tbl va : Nat) : Nat → Option Nat
  | 0 => none
  | l + 1 =>
    let ipa := tbl + 8 * tableIndex va l
    match s.walk2 s2root ipa 5 with
    | none => none
    | some t =>
      let pa := leafAddr t ipa
      match (if teR t then s.islandCopy (copiesAt pa (teM t)) 8 else none) with
      | none => none
      | some c =>
        let e := s.memRead (edgeKey c) 8
        match entryOf 1 l e with
        | .table a => s.walk1 s2root a va l
        | .leaf => some e
        | _ => none

/-- The island's translation of an address of a region for an access kind (R486): the copies that a port serves, none of which denies the
access (R254, R263), and whether the frame is mirrored. -/
def State.islandXlate (s : State) (r va kind : Nat) : Option (List Nat × Bool) :=
  let x := s.region r
  match s.walk1 x.s2root x.s1root va 5 with
  | none => none
  | some e1 =>
    let ipa := leafAddr e1 va
    match s.walk2 x.s2root ipa 5 with
    | none => none
    | some e2 =>
      let l := (copiesAt (leafAddr e2 ipa) (teM e2)).filter s.islandServed
      if teAllows e1 kind && teAllows e2 kind && !l.isEmpty && l.all (fun pa => !(s.tag (pa / 4096)).denies (teKid e2)) then some (l, teM e2) else none

/-- The island writes every copy (R254, R486); of a mirrored frame of which one is left the region has its mirror-lost event (R458). -/
def State.islandStore (s : State) (r : Nat) (l : List Nat × Bool) (n v : Nat) : State :=
  let s := if l.2 ∧ l.1.length = 1 then s.mirrorLost r (l.1.headD 0) else s
  l.1.foldl (fun s pa => s.memStore (edgeKey pa) n v) s

/-- `n` bytes at an edge address of a region, as the island reads them. -/
def State.readVa (s : State) (r va : Nat) : Nat → Option Nat
  | 0 => some 0
  | n + 1 => match s.islandXlate r va 0 with
    | none => none
    | some l => match s.islandCopy l.1 1, s.readVa r (va + 1) n with
      | some pa, some v => some (s.memRead (edgeKey pa) 1 + 256 * v)
      | _, _ => none

/-! ### Images (R381 to R383) -/

/-- A tile-program descriptor (R382). -/
structure Prog where
  c0 : Nat
  c1 : Nat
  r0 : Nat
  r1 : Nat
  entry : Nat
  textOff : Nat
  textLen : Nat
  textAt : Nat
  dataOff : Nat
  dataLen : Nat
  dataAt : Nat
  handOff : Nat
  zero : Nat
deriving DecidableEq, Repr

/-- An image as placement and loading use it. -/
structure Image where
  w : Nat
  h : Nat
  hwm : Nat
  len : Nat
  progs : List (Prog × FMap Word)
deriving DecidableEq, Repr

/-- A descriptor from its 64 bytes. -/
def Prog.of (v : Nat) : Prog :=
  let b (off n : Nat) : Nat := natBytes v off n
  { c0 := b 0 1, c1 := b 1 1, r0 := b 2 1, r1 := b 3 1, entry := b 4 4, textOff := b 8 8, textLen := b 0x10 4, textAt := b 0x14 4,
    dataOff := b 0x18 8, dataLen := b 0x20 4, dataAt := b 0x24 4, handOff := b 0x28 8, zero := b 0x30 16 }

/-- R383 reason 2 for one descriptor. -/
def Prog.ok (p : Prog) (len : Nat) : Bool :=
  decide (p.textOff + p.textLen ≤ len ∧ p.dataOff + p.dataLen ≤ len) &&
  decide (p.textAt + p.textLen ≤ 0x170000 ∧ p.dataAt + p.dataLen ≤ 0x170000) &&
  !(decide (0 < p.textLen ∧ 0 < p.dataLen ∧ p.textAt < p.dataAt + p.dataLen ∧ p.dataAt < p.textAt + p.textLen)) &&
  p.entry % 4 == 0 && decide (p.textAt ≤ p.entry ∧ p.entry < p.textAt + p.textLen) &&
  (p.handOff == 0 || decide (p.handOff + 512 ≤ len))

/-- The descriptor covers a tile of the rectangle. -/
def Prog.covers (p : Prog) (c r : Nat) : Bool := decide (p.c0 ≤ c ∧ c ≤ p.c1 ∧ p.r0 ≤ r ∧ r ≤ p.r1)

/-- The handler table of a descriptor. -/
def State.readHandlers (s : State) (r img : Nat) (p : Prog) : Option (FMap Word) :=
  if p.handOff = 0 then some []
  else (s.readVa r (img + p.handOff) 512).map (fun v =>
    (List.range 64).foldl (fun m i => fset 0 m i (BitVec.ofNat 64 (natBytes v (8 * i) 8))) [])

/-- Read the descriptors from index i on. -/
def State.readProgs (s : State) (r img doff len : Nat) : Nat → Except Nat (List (Prog × FMap Word))
  | 0 => .ok []
  | n + 1 => match s.readProgs r img doff len n with
    | .error e => .error e
    | .ok l => match s.readVa r (img + doff + 64 * n) 64 with
      | none => .error 5
      | some v =>
        let p := Prog.of v
        if p.zero ≠ 0 then .error 1
        else if !p.ok len then .error 2
        else match s.readHandlers r img p with
          | none => .error 5
          | some hs => if hs.all (fun e => handlerOk e.2) then .ok (l ++ [(p, hs)]) else .error 2

/-- Read and check an image (R381 to R383): the reason of its rejection, or what it holds. -/
def State.readImage (s : State) (r img : Nat) : Except Nat Image :=
  match s.readVa r img 64 with
  | none => .error 5
  | some v =>
    let b (off n : Nat) : Nat := natBytes v off n
    let w := b 8 1 + 1
    let h := b 9 1 + 1
    let n := b 0xA 2
    let len := b 0x18 8
    if b 0 4 ≠ 0x4B4E4946 ∨ b 4 2 ≠ 1 ∨ b 7 1 ≠ 0 ∨ b 0xC 4 ≠ 0 ∨ b 0x20 32 ≠ 0 ∨ 55 < b 6 1 ∨ n = 0 ∨ b 0x10 8 % 64 ≠ 0 then .error 1
    else if len < b 0x10 8 + 64 * n then .error 2
    else match s.readProgs r img (b 0x10 8) len n with
      | .error e => .error e
      | .ok ps =>
        if (List.range h).all (fun y => (List.range w).all (fun x => (ps.filter (fun p => p.1.covers x y)).length == 1)) then
          .ok { w := w, h := h, hwm := b 6 1, len := len, progs := ps }
        else .error 2

/-! ### The launch descriptor (R385) -/

def Kernel.image (k : Kernel) : Nat := k.b 0 7
def Kernel.arg (k : Kernel) : Word := BitVec.ofNat 64 (k.b 8 8)
def Kernel.rrec (k : Kernel) : Nat := k.b 0x18 8
def Kernel.prio (k : Kernel) : Nat := k.b 0x20 1
def Kernel.anyPlace (k : Kernel) : Bool := bit k.desc (8 * 0x21)
def Kernel.timed (k : Kernel) : Bool := bit k.desc (8 * 0x21 + 1)
def Kernel.withNext (k : Kernel) : Bool := bit k.desc (8 * 0x21 + 2)
def Kernel.gangId (k : Kernel) : Nat := k.b 0x30 8

/-- The address of an image or of a retirement record (R385). -/
def edge64 (a : Nat) : Bool := a / 2 ^ 56 == 0x80 && a % 64 == 0

/-- The limits of R385. -/
def Kernel.formatOk (k : Kernel) (host : Bool) : Bool :=
  edge64 (k.b 0 8) && (k.rrec == 0 || edge64 k.rrec) && decide (k.prio ≤ 63) && k.b 0x21 1 / 16 == 0 &&
  (!k.anyPlace || k.b 0x22 2 == 0) && (k.gang || (k.gto == 0 && k.gbar == 0 && k.gangId == 0)) && (!k.gang || host) && k.b 0x38 8 == 0

/-! ### The queue (R386) -/

/-- Column and row of a tile in its region as one number: the name it submits under, which a rehome does not change (R386, R397). -/
def Tile.number (x : Tile) : Nat := x.col + 256 * x.row

/-- Kernels of a region in a launch group. -/
def Region.members (x : Region) (g : Nat) : List Nat := (x.kernels.filter (fun e => e.2.group == g && e.2.state != 0)).map (·.1)

/-- Put a number behind every queued one that goes first. -/
def queueAfter (go : Nat → Bool) (k : Nat) : List Nat → List Nat
  | [] => [k]
  | y :: l => if (y :: l).any go then y :: queueAfter go k l else k :: y :: l

/-- Accept or turn away a launch request (R385, R386, R392): the status and the number. -/
def State.submit (s : State) (r : Nat) (desc : BitVec 512) (submitter deadline : Nat) : (Nat × Nat) × State :=
  let x := s.region r
  let n := x.nextKernel
  let k : Kernel := { state := 1, desc := desc, submitter := submitter, deadline := deadline }
  -- the submitter's open group
  match x.kernels.find? (fun e => e.2.state == 1 && !e.2.closed && e.2.submitter == submitter) with
  | some (_, o) =>
    if !k.formatOk (submitter = 0) then ((2, 0), s)
    else if 256 ≤ x.queue.length then ((1, 0), s)
    else if 8 ≤ (x.members o.group).length then ((3, 0), s)
    else
      let k := { k with group := o.group, closed := !k.withNext }
      let ks := if k.withNext then x.kernels else x.kernels.map (fun e => if e.2.group = o.group then (e.1, { e.2 with closed := true }) else e)
      let q := queueAfter (fun y => (x.kernel y).group == o.group) n x.queue
      ((0, n), (s.setRegion r { x with kernels := fset {} ks n k, nextKernel := n + 1, queue := q }).later .placement { a := r })
  | none =>
    if !k.formatOk (submitter = 0) then ((2, 0), s)
    else if 256 ≤ x.queue.length then ((1, 0), s)
    else
      let k := { k with group := n, closed := !k.withNext }
      let prioOf (y : Nat) : Nat := (x.kernel (x.kernel y).group).prio
      let q := queueAfter (fun y => decide (k.prio ≤ prioOf y)) n x.queue
      ((0, n), (s.setRegion r { x with kernels := fset {} x.kernels n k, nextKernel := n + 1, queue := q }).later .placement { a := r })

/-- LAUNCH_REGISTER_WRITE (R385): The host writes a launch descriptor to the region's launch register. Operands: a = r, b = base. -/
def execLaunchRegisterWrite (s : State) : Out :=
  let r := s.ev.a
  if (s.region r).state ≠ 2 ∧ (s.region r).state ≠ 3 then .next s
  else .next (s.submit r (BitVec.ofNat 512 (s.memRead (sysKey s.ev.b) 64)) 0 0).2

/-! ### kq and kexit (R391 to R394) -/

/-- KQ (R392): Submits a launch descriptor to the home island. -/
def execKq (rd ra : BitVec 6) (wa : BitVec 1) (s : State) : Out :=
  issue { wf := (Instr.kq rd ra wa).wf, srcs := [(ra, wt wa)], dsts := [rd] } s (fun v s =>
    let a := v0 v
    let t := s.slot.site
    match s.checkAddr t s.cur.mon a 64 64 with
    | .error c => .fault c a
    | .ok (.loc o) =>
      if s.accessHeld then .wait id
      else if s.uncorrectable t o 64 then .fault 0x16 a
      else if s.curTile.retFree = 0 then .wait id
      else
        let d := BitVec.ofNat 512 (s.spmRead t o 64)
        (s.countCec t (s.correctables t o 64)).sendLoad rd (.kq d) (.greg s.slot.ctx rd.toNat s.cur.mon 8 false) (.island (s.homeOf t)) none
    | .ok _ => .fault 0x11 a)

/-- KQ_REQUEST (R392): The island queues a kq launch request and returns a status. Operands: a = t, b = id. -/
def execKqRequest (s : State) : Out :=
  let t := s.ev.a
  atHome s (fun e => match e.body with
    | .kq d =>
      let r := (s.tile t).region
      -- a failed or restarting island takes no VC6 message: the request is sent again (R410, R426), after what the tile has sent there before;
      -- from a region that stands it goes on after the resume (R218)
      if s.islandDown (s.homeOf t) || !s.vc6Turn t e.id || (s.region r).stopped then notYet s
      else if r = 0 then .next (s.answered t e { data := 2 ^ 33 })
      else
        let q := s.submit r d (1 + (s.tile t).number) 0
        .next (q.2.answered t e { data := q.1.1 * 2 ^ 32 + q.1.2 })
    | _ => .next s)

/-- What kexit waits for is free: all but queued or finished transfer commands, stream ends and stream messages (R393). -/
def Tile.exitReady (x : Tile) : Bool :=
  x.q.ret.all (fun e => match e.body, e.sink with
    | .elems _ _ _ _, _ => true
    | .streamGo _ _ _ _, _ => true
    | .streamAbort _ _ _ _ _, _ => true
    | .load _ _, .xfer _ _ _ => false
    | .load _ _, .strm _ _ => true
    | .load _ _, _ => true
    | _, _ => false) &&
  x.xfer.all (fun e => e.state != 1)

/-- Replies still on their way no longer have a destination; a request that has not been performed is given up, and with it what a kill
leaves unsent or unaccepted: no access of the kernel is performed after its retirement (R238; log entry 101). -/
def Tile.dropSinks (x : Tile) : Tile :=
  x.updQ (fun q => { q with vloads := [], lineWaits := [], ret := (q.ret.filter (fun e => decide (e.state = .done) || e.body.isSignal)).map (fun e => match e.sink with
    | .greg _ _ _ _ _ => { e with sink := .none }
    | .vec _ _ _ _ => { e with sink := .none }
    | .fetch _ _ => { e with sink := .none }
    | .inv _ _ _ _ _ _ _ => { e with sink := .none }
    | _ => e) })

/-- The command takes units from a port (R198, R202). -/
def MCmd.takesUnits (e : MCmd) : Bool := e.kind == .mmacs || (e.kind == .mldb && bit e.gb 47)

/-- The engines give up what is queued (R194, R393, R395): the counts of matrix and of transfer commands. Running matrix commands complete,
but for one whose units can come no more: of a VC4 port, whose stream has ended, or after a kill (`kill`) of any port. A kill ends running
transfers too, and `all` of a held kernel everything (log entry 101). A held unit stays held. -/
def Tile.discardCmds (x : Tile) (kill all : Bool) : Nat × Nat × Tile :=
  let m := (x.mx.fifo.filter (fun e => e.state == 0 || (all && e.state == 1))).length
  let k := (x.xfer.filter (fun e => e.state == 0 || (kill && e.state == 1))).length
  let starved (e : MCmd) : Bool := e.takesUnits && (kill || cfgVc (x.q.cfg e.port) == 4)
  let fifo := (x.mx.fifo.filter (fun e => e.state == 1 && !all)).map (fun e =>
    { e with drop := true, claimed := false, code := if e.code = 0 ∧ starved e then 0x26 else e.code })
  let st : Nat := if fifo.isEmpty then 0 else 1
  (m, k, { x with
    mx := if x.mx.state = 3 then { x.mx with fifo := fifo, kept := st } else { x.mx with fifo := fifo, state := st }
    xfer := (x.xfer.filter (fun e => e.state == 1 && !kill)).map (fun e => { e with drop := true, claimed := false })
    xhold := false })

/-- A context freed by kexit or retirement (R103): a halted one stays halted, and RSTAMP stays (R279). -/
def Ctx.freed (x : Ctx) : Ctx := match x.state with | .halted => x | _ => { rstamp := x.rstamp }

/-- Everything on a tile that ends with its kernel or with its exit (R393, R395): contexts free, frames idle, commands discarded, triggered
sends that wait for their counter or for their injection discarded. -/
def Tile.stopAll (x : Tile) (kill all : Bool) : Nat × Nat × Nat × Tile :=
  let trig := x.q.triggers.length + x.q.fired.length
  let (m, k, x) := x.discardCmds kill all
  (m, k, trig, { (x.dropSinks.updQ (fun q => { q with triggers := [], fired := [] })).fetchFresh with
    ctxs := (List.range 12).foldl (fun l c => fset Ctx.reset l c (x.ctx c).freed) [] })

/-- No command of the tile still runs (R194). -/
def Tile.settled (x : Tile) : Bool := x.mx.fifo.all (fun e => e.state != 1) && x.xfer.all (fun e => e.state != 1)

/-- Abort every stream end of a tile as sclose does (R393). -/
def State.closeStreams (s : State) (t : Nat) : State :=
  let s := (List.range 4).foldl (fun s n =>
    let e := (s.tile t).stream n
    if e.state = 1 ∨ e.state = 2 then
      (s.streamTiles t e (s.tile t).col).foldl (fun s u => s.sendAbort t e 0 true u) (if e.role = 1 then s.dropStream t e else s)
    else if e.state ≠ 0 ∧ e.role = 1 then s.dropStream t e
    else s) s
  s.updTile t (fun x => { x with streams := [], q := { x.q with ret := x.q.ret.filter (fun e => match e.body with | .elems _ _ _ _ => false | _ => true) } })

/-- Items that a tile's queues hold: queued and parked messages, and those whose elements wait in a port (R307, R395). -/
def Queues.held (q : Queues) : Nat :=
  q.dispatchQ.length + q.unclaimed.length + (q.inq.map (fun e => (e.2.filter (fun y => y.slots != 0)).length)).sum

/-- The queue objects of a tile as reset, timed start and retirement leave them (R291 to R299); what it has sent stays retained. -/
def Queues.cleared (q : Queues) : Queues :=
  { q with portcfg := [], inq := [], gathered := [], used := 0, dispatchQ := [], unclaimed := [], isSealed := false, handlers := [],
           counters := [], triggers := [], fired := [] }

/-- The kernel of a tile's region that holds it, with discards of the tile added. -/
def Kernel.addDiscards (k : Kernel) (m x tr q : Nat) : Kernel :=
  { k with mdisc := k.mdisc + m, xdisc := k.xdisc + x, tdisc := k.tdisc + tr, qdisc := k.qdisc + q }

/-- A region's event that a kernel has retired: the first 8 bytes of its record and RREC (R395, R409). -/
def recordBytes (k : Kernel) (num status reason tick : Nat) : Nat :=
  num + status * 2 ^ 32 + reason * 2 ^ 40 + k.tgo * 2 ^ 64 + tick * 2 ^ 128 + k.exitCol * 2 ^ 192 + k.exitRow * 2 ^ 200 +
  k.exitVal.toNat * 2 ^ 256 + k.exits * 2 ^ 320 + k.mdisc * 2 ^ 352 + k.qdisc * 2 ^ 384 + k.tdisc * 2 ^ 416 + k.xdisc * 2 ^ 448

/-- The sites that a placed kernel's rectangle names, with the tile number inside the rectangle. -/
def State.kernelSites (s : State) (r : Nat) (k : Kernel) : List (Nat × Nat) :=
  (List.range (k.w * k.h)).filterMap (fun i => match s.place r (k.x0 + i % k.w) (k.y0 + i / k.w) with
    | .site t => some (i, t)
    | _ => none)

/-- One tile leaves its kernel (R194, R224, R299, R307, R337, R347, R367, R395). -/
def State.leaveKernel (s : State) (r n t : Nat) : State :=
  let s := s.closeStreams t
  let x := s.tile t
  let (m, k, tr, y) := x.stopAll true true
  let q := x.q.held
  -- a tile that a restore holds outside a hack is let go (R384)
  let stay := x.held && (s.region r).state != 2
  let s := s.setTile t { y with
    q := y.q.cleared, bars := [], coll := {}, levels := [], train := { vdrop := x.train.vdrop }, inv := [], kernel := 0,
    exited := false, exitValue := 0, held := stay, mx := if stay then y.mx else { y.mx with state := 0 } }
  s.updRegion r (fun z => z.setKernel n ((z.kernel n).addDiscards m k tr q))

/-- The retirement record goes to RREC (R395, R486): where only a port that refuses everything stands in the way (R277) it is written later, as
step c = 2 of KERNEL_KILL; where nothing takes it there is the event alone. -/
def State.writeRecord (s : State) (r n rrec tick status reason : Nat) : State :=
  if rrec = 0 then s
  else match s.islandXlate r (rrec % 2 ^ 56) 1 with
    | some l => s.islandStore r l 64 (recordBytes ((s.region r).kernel n) n status reason tick)
    | none =>
      if (s.unskewed.islandXlate r (rrec % 2 ^ 56) 1).isNone then s
      else s.later .kernelKill { a := r, b := n, c := 2, w := BitVec.ofNat 64 tick, i := Int.ofNat (status + 256 * reason) }

/-- RETIREMENT (R395): the tiles become idle, open groups that they submitted are discarded, the record is written to RREC and sent
as an event, placement is tried. -/
def State.retireKernel (s : State) (r n status reason : Nat) : State :=
  let k := (s.region r).kernel n
  let sites := (s.kernelSites r k).map (·.2) |>.filter (fun t => (s.tile t).region == r && (s.tile t).kernel == n)
  let s := sites.foldl (fun s t => s.leaveKernel r n t) s
  let s := s.updRegion r (fun x =>
    let names := (List.range (k.w * k.h)).map (fun i => 1 + (k.x0 + i % k.w) + 256 * (k.y0 + i / k.w))
    let gone (y : Nat) : Bool := let z := x.kernel y; z.state == 1 && !z.closed && names.contains z.submitter
    { x with
      queue := x.queue.filter (fun y => y != n && !gone y)
      kernels := x.kernels.filter (fun e => !gone e.1) })
  let k := { (s.region r).kernel n with state := 7, ending := none, due := [], unrestored := [] }
  let s := s.updRegion r (fun x => x.setKernel n k)
  let bytes := recordBytes k n status reason (s.now (s.region r).home)
  let s := s.writeRecord r n k.rrec (s.now (s.region r).home) status reason
  (s.event r 0x47 0 0 0 0 0 (BitVec.ofNat 64 (bytes % 2 ^ 64)) (BitVec.ofNat 64 k.rrec)).later .placement { a := r }

/-- Every tile of a kernel has finished what runs there. -/
def State.kernelSettled (s : State) (r n : Nat) : Bool := (s.kernelSites r ((s.region r).kernel n)).all (fun p => (s.tile p.2).settled)

/-- A kernel retires, once the commands that still run on its tiles are complete (R194, R238). -/
def State.endKernel (s : State) (r n status : Nat) : State :=
  if s.kernelSettled r n then s.retireKernel r n status 0
  else (s.updRegion r (fun z => z.setKernel n { z.kernel n with ending := some status })).later .kernelKill { a := r, b := n, c := 1 }

/-- One tile of a killed kernel stops: its contexts are free and it dispatches nothing (R103, R384). -/
def State.stopTile (s : State) (r n t : Nat) : State :=
  let s := s.closeStreams t
  let (m, k, tr, y) := (s.tile t).stopAll true false
  (s.setTile t { y with exited := true }).updRegion r (fun z => z.setKernel n ((z.kernel n).addDiscards m k tr 0))

/-- A leader whose kexit is not its own stream word, of another context or in a monitor, dissolves its train all the same (R376, R393): the word
goes down the lane with the address of the stream instruction before the next one, where the followers go on. -/
def State.dissolve (s : State) : State :=
  let t := s.slot.site
  let y := s.ctx t 0
  if (s.tile t).train.state = 2 ∧ !(s.slot.ctx = 0 ∧ !y.mon) then
    s.forwardWord t ((if y.mon then y.tepc else y.pc) - 4) s.slot.word 0
  else s

/-- KEXIT (R393): Exits the tile from its kernel after its retention entries drain. -/
def execKexit (ra : BitVec 6) (wa : BitVec 1) (s : State) : Out :=
  issue { wf := (Instr.kexit ra wa).wf, srcs := [(ra, wt wa)] } s (fun v s =>
    let t := s.slot.site
    if !s.curTile.exitReady then .wait id
    else
      let val := v0 v
      -- a leader dissolves its train as tend does: the word goes down the lane (R376, R393)
      let s := s.dissolve.retire.closeStreams t
      let x := s.tile t
      let (m, k, tr, y) := x.stopAll false false
      let s := s.setTile t { y with exited := true, exitValue := val, train := { wire := x.train.wire, vdrop := x.train.vdrop } }
      let r := x.region
      let n := x.kernel
      if r = 0 ∨ n = 0 then .ok s
      else
        let lower (z : Kernel) : Bool := !z.exitSeen || decide (x.row < z.exitRow ∨ (x.row = z.exitRow ∧ x.col < z.exitCol))
        let s := s.updRegion r (fun z =>
          let kk := (z.kernel n).addDiscards m k tr 0
          let kk := { kk with exits := kk.exits + 1 }
          z.setKernel n (if val ≠ 0 ∧ lower kk then { kk with exitSeen := true, exitCol := x.col, exitRow := x.row, exitVal := val } else kk))
        let kk := (s.region r).kernel n
        if (s.kernelSites r kk).all (fun p => (s.tile p.2).exited) then .ok (s.endKernel r n 0) else .ok s)

/-! ### Placement and loading (R383, R387, R388) -/

/-- The rectangle qualifies at an origin (R387); a halted tile, on which nothing starts, or one of a fenced site, which R90 keeps from service,
does not (R120; log entry 102). -/
def State.fits (s : State) (r : Nat) (im : Image) (x0 y0 : Nat) : Bool :=
  (List.range (im.w * im.h)).all (fun i => match s.place r (x0 + i % im.w) (y0 + i / im.w) with
    | .site t => (s.tile t).region == r && (s.tile t).kernel == 0 && !(s.tile t).halted && decide (s.siteState t ≠ .fenced) && !(decide (40 ≤ im.hwm) && s.isReduced t)
    | _ => false)

/-- The origin a kernel takes now, or the reason of its rejection; none while it has to wait (R383, R387). -/
def State.originOf (s : State) (r : Nat) (k : Kernel) (im : Image) : Except Nat (Option (Nat × Nat)) :=
  let x := s.region r
  let x0 := k.b 0x22 1
  let y0 := k.b 0x23 1
  if x.w < im.w ∨ x.h < im.h ∨ (!k.anyPlace ∧ (x.w < x0 + im.w ∨ x.h < y0 + im.h)) then .error 4
  else if !k.anyPlace then
    if 40 ≤ im.hwm ∧ (List.range (im.w * im.h)).any (fun i => match s.place r (x0 + i % im.w) (y0 + i / im.w) with | .site t => s.isReduced t | _ => false) then .error 3
    else .ok (if s.fits r im x0 y0 then some (x0, y0) else none)
  else .ok ((List.range ((x.w - im.w + 1) * (x.h - im.h + 1))).findSome? (fun i =>
    let c := i % (x.w - im.w + 1)
    let y := i / (x.w - im.w + 1)
    if s.fits r im c y then some (c, y) else none))

/-- Claim a rectangle: the kernel loads (R384). -/
def State.claim (s : State) (r n : Nat) (im : Image) (x0 y0 : Nat) : State :=
  let prog (i : Nat) : Option (Nat × FMap Word) := (im.progs.find? (fun p => p.1.covers (i % im.w) (i / im.w))).map (fun p => (p.1.entry, p.2))
  let progs := (List.range (im.w * im.h)).filterMap (fun i => (prog i).map (fun p => (i, p)))
  let s := s.updRegion r (fun x => { x.setKernel n { x.kernel n with state := 2, x0 := x0, y0 := y0, w := im.w, h := im.h, progs := progs } with
    queue := x.queue.filter (· != n) })
  (s.kernelSites r ((s.region r).kernel n)).foldl (fun s p => s.updTile p.2 (fun z => { z with kernel := n })) s

/-- Place the kernels of a group, one after another; none when one of them has to wait. A rejected kernel retires (R383). -/
def State.placeAll (s : State) (r : Nat) : List Nat → Option State
  | [] => some s
  | n :: l =>
    let k := (s.region r).kernel n
    if k.state = 6 then
      -- a saved kernel comes back at its saved origin (R397): it is held once the host has restored every tile (R384)
      (s.updRegion r (fun x => { x.setKernel n { k with unrestored := (s.kernelSites r k).map (·.1) } with queue := x.queue.filter (· != n) })).placeAll r l
    else match s.readImage r k.image with
      | .error e => (s.retireKernel r n 6 e).placeAll r l
      | .ok im => match s.originOf r k im with
        | .error e => (s.retireKernel r n 6 e).placeAll r l
        | .ok none => none
        | .ok (some o) => (s.claim r n im o.1 o.2).placeAll r l

/-- The region has children: its own tiles are a reserve, which runs nothing (R400). -/
def State.parent_ (s : State) (r : Nat) : Bool := s.regions.any (fun e => decide (1 ≤ e.2.state ∧ e.2.state ≤ 4) && e.2.parent == r)

/-- Only ports in skew-fault stand in the way of reading a group's images (R277). -/
def State.skewed (s : State) (r n : Nat) : Bool :=
  let x := s.region r
  let bad (s : State) (im : Nat) : Bool := match s.readImage r im with | .error 5 => true | _ => false
  (x.queue.filter (fun y => (x.kernel y).group == (x.kernel n).group)).any (fun y => bad s (x.kernel y).image && !bad s.unskewed (x.kernel y).image)

/-- PLACEMENT (R387): The island claims a rectangle for the queue head and starts loading. Operands: a = r. -/
def execPlacement (s : State) : Out :=
  let r := s.ev.a
  let x := s.region r
  match x.queue with
  | [] => .next s
  | n :: _ =>
    let k := x.kernel n
    if x.state ≠ 2 ∧ x.state ≠ 3 then .next s
    -- suspended while a border moves (R416)
    else if bit x.causes 5 then notYet s
    -- a group is eligible once it is closed (R386); the reserve of a parent runs nothing (R400)
    else if !k.closed ∨ s.parent_ r then .next s
    -- a port in skew-fault refuses the island's reads until its field is locked again (R277)
    else if s.skewed r n then notYet s
    else match s.placeAll r (x.queue.filter (fun y => (x.kernel y).group == k.group)) with
      | none => .next s
      | some s => .next ((s.later .loadingDone { a := r, b := n }).later .placement { a := r })

/-- Copy bytes of an image into a slice; false when some byte cannot be read. -/
def State.copyIn (s : State) (r va t off : Nat) : Nat → State × Bool
  | 0 => (s, true)
  | n + 1 => match s.readVa r va 1 with
    | none => (s, false)
    | some v => State.copyIn ((s.spmWrite t off 1 v).storeEcc t off 1) r (va + 1) t (off + 1) n

/-- Load one tile of a kernel (R382, R388). -/
def State.loadTile (s : State) (r img : Nat) (im : Image) (i t : Nat) : State × Bool :=
  match im.progs.find? (fun p => p.1.covers (i % im.w) (i / im.w)) with
  | none => (s, false)
  | some (p, _) =>
    let a := s.copyIn r (img + p.textOff) t p.textAt p.textLen
    if !a.2 then a else a.1.copyIn r (img + p.dataOff) t p.dataAt p.dataLen

/-- Every page of an image can be read: it does not run past mapped memory (R383). -/
def State.mapped (s : State) (r img len : Nat) : Bool :=
  decide (img + len ≤ 2 ^ 56) &&
  (List.range ((img % 4096 + len + 4095) / 4096)).all (fun i => (s.islandXlate r (img / 4096 * 4096 + 4096 * i) 0).isSome)

/-- Load a kernel; false when a read fails or RREC cannot be written (R383, R486). -/
def State.loadKernel (s : State) (r n : Nat) : State × Bool :=
  let k := (s.region r).kernel n
  match s.readImage r k.image with
  | .error _ => (s, false)
  | .ok im =>
    if !s.mapped r k.image im.len then (s, false)
    else if k.rrec ≠ 0 ∧ (s.islandXlate r (k.rrec % 2 ^ 56) 1).isNone then (s, false)
    else (s.kernelSites r k).foldl (fun a p => if a.2 then a.1.loadTile r k.image im p.1 p.2 else a) (s, true)

/-- The kernels of a group are ready, with one T_go (R386, R388); a gang kernel says so (R399). -/
def State.makeReady (s : State) (r : Nat) (tgo : Nat) (ns : List Nat) : State :=
  ns.foldl (fun s n =>
    let s := s.updRegion r (fun x => x.setKernel n { x.kernel n with state := 3, tgo := tgo })
    let s := s.later .timedStart { a := r, b := n }
    if ((s.region r).kernel n).gang then s.later .gangAck { a := r, b := n } else s) s

/-- LOADING_DONE (R388): Loading ends and T_go is fixed or the kernel retires late. Operands: a = r, b = k. -/
def execLoadingDone (s : State) : Out :=
  let r := s.ev.a
  let g := ((s.region r).kernel s.ev.b).group
  let loading (s : State) : List Nat := ((s.region r).members g).filter (fun n => ((s.region r).kernel n).state == 2)
  if (loading s).any (fun n => !(s.loadKernel r n).2 && (s.unskewed.loadKernel r n).2) then notYet s
  else
  let s := (loading s).foldl (fun s n =>
    let a := s.loadKernel r n
    -- of a rejected image no tile is loaded (R383)
    if a.2 then a.1 else s.retireKernel r n 6 5) s
  let now := s.now (s.region r).home
  -- a gang kernel that is not ready at D never starts (R399)
  let s := (loading s).foldl (fun s n => let k := (s.region r).kernel n
    if k.deadline ≠ 0 ∧ k.deadline ≤ now then s.retireKernel r n 3 0 else s) s
  let ns := loading s
  match ns with
  | [] => .next s
  | n :: _ =>
    let k := (s.region r).kernel n
    if !k.timed then .next (s.makeReady r (now + 4096) ns)
    else
      let t := k.b 0x10 8
      if t < now + 1024 then .next (ns.foldl (fun s n => (s.updRegion r (fun x => x.setKernel n { x.kernel n with tgo := t })).retireKernel r n 2 0) s)
      else .next (s.makeReady r t ns)

/-! ### Timed start (R280, R389) -/

/-- A tile's matrix unit at timed start (R389). -/
def Matrix.zeroed (m : Matrix) : Matrix := { m with acc := [], astat := [], bbuf := [], scales := [], mcfg := 0, bad := [] }

/-- The queue objects of a tile at timed start (R291, R294, R299, R389): messages that the tile has accepted stay in its inbox. -/
def Queues.restarted (q : Queues) (handlers : FMap Word) : Queues :=
  { q with portcfg := [], gathered := [], isSealed := false, handlers := handlers, counters := [], triggers := [], fired := [] }

/-- Start context 0 of one tile of a kernel (R127, R389, R398); on a halted tile nothing starts (R120). -/
def State.startTile (s : State) (t n : Nat) (arg : Word) (p : Nat × FMap Word) (again : Bool) : State :=
  let x := s.tile t
  let c := (((Ctx.fresh 2 (x.addrOf p.1)).putG false 2 (x.addrOf 0x170000)).putG false 3 arg).putG false 4 (BitVec.ofNat 64 (n + (if again then 2 ^ 32 else 0)))
  s.setTile t { x with
    q := x.q.restarted p.2, stale := [], bars := [], coll := {}, levels := [], streams := [], train := {}, inv := [],
    mx := x.mx.zeroed, exited := false, exitValue := 0, ctxs := if x.halted then x.ctxs else fset Ctx.reset x.ctxs 0 c }

/-- The copy of a tile's field has reached a tick; in a field that is unset no kernel starts (R276, R280). -/
def State.reached (s : State) (t tgo : Nat) : Bool := decide ((s.field (fieldOf t)).state ≠ 0) && decide (tgo ≤ s.nowAt t)

/-- Start the tiles of a ready kernel, or those still due, that `go` names (R280, R389, R398): the kernel is resident, the rest stays due. -/
def State.startTiles (s : State) (r n : Nat) (go : Nat → Bool) : State :=
  let k := (s.region r).kernel n
  let all := (s.kernelSites r k).filter (fun p => k.state == 3 || k.due.contains p.1)
  let now := all.filter (fun p => go p.2)
  if now.isEmpty then s
  else
    let s := s.updRegion r (fun z => z.setKernel n { k with
      state := 4, due := (all.filter (fun p => !go p.2)).map (·.1), restarted := k.restarted.filter (fun i => !now.any (fun p => p.1 == i)) })
    now.foldl (fun s p => s.startTile p.2 n k.arg (fget (0, []) k.progs p.1) (k.restarted.contains p.1)) s

/-- TIMED_START (R389): At T_go every tile of the kernel resets its objects and starts context 0, each as its own field's copy reaches T_go
(R280). Operands: a = r, b = k. -/
def execTimedStart (s : State) : Out :=
  let r := s.ev.a
  let n := s.ev.b
  let x := s.region r
  let k := x.kernel n
  if k.state < 3 ∨ 6 < k.state ∨ (k.state ≠ 3 ∧ k.due.isEmpty) then .next s
  -- a T_go that passes while the region is held takes effect at resume (R396), of a saved kernel once it is restored (R397)
  else if x.state ≠ 2 ∨ k.state = 6 then notYet s
  else if !(s.kernelSites r k).any (fun p => (k.state == 3 || k.due.contains p.1) && s.reached p.2 k.tgo) then notYet s
  else
    let s := s.startTiles r n (fun t => s.reached t k.tgo)
    .next (if ((s.region r).kernel n).due.isEmpty then s else s.later .timedStart { a := r, b := n })

/-- KERNEL_KILL (R384): The host kills a kernel, which retires; c = 1 is the retirement of a kernel whose last commands were still running
(R194), c = 2 the write of a retirement record that a port has refused (R277). A kernel killed after its gang fault retires with that status
(R399). Operands: a = r, b = k, flag = lost, c = 1 or 2 for those, w = the tick and i = status and reason of the record. -/
def execKernelKill (s : State) : Out :=
  let r := s.ev.a
  let n := s.ev.b
  let k := (s.region r).kernel n
  let status := if s.ev.flag then 4 else if k.gangFault then 5 else 1
  if s.ev.c = 2 then .next (s.writeRecord r n k.rrec s.ev.w.toNat (s.ev.i.toNat % 256) (s.ev.i.toNat / 256))
  else if s.ev.c = 1 then
    match k.ending with
    | none => .next s
    | some st => if s.kernelSettled r n then .next (s.retireKernel r n st 0) else notYet s
  else if k.ending.isSome then .next s
  else if k.state = 5 ∨ k.state = 6 then .next (s.retireKernel r n status 0)
  else if k.state = 4 then .next (((s.kernelSites r k).foldl (fun s p => s.stopTile r n p.2) s).endKernel r n status)
  else .next s

/-! ### Gangs (R399) -/

/-- PREPARE (R399): A gang PREPARE queues a timed gang kernel on a wafer. Operands: a = r, b = base, c = deadline. -/
def execGangPrepare (s : State) : Out :=
  let r := s.ev.a
  if (s.region r).state ≠ 2 ∧ (s.region r).state ≠ 3 then .next s
  else
    let d := BitVec.ofNat 512 (s.memRead (sysKey s.ev.b) 64)
    -- PREPARE queues a TIMED, GANG request
    let d := d ||| BitVec.ofNat 512 (0xA * 2 ^ (8 * 0x21))
    let q := s.submit r d 0 s.ev.c
    if q.1.1 = 0 then .next (q.2.later .gangDeadline { a := r, b := q.1.2 }) else .next q.2

/-- ACK (R399): An island reports its gang kernel ready. Operands: a = r, b = k. -/
def execGangAck (s : State) : Out :=
  let r := s.ev.a
  let n := s.ev.b
  let k := (s.region r).kernel n
  if k.state ≠ 3 ∨ !k.gang ∨ k.acked then .next s
  else .next { s.updRegion r (fun x => x.setKernel n { k with acked := true }) with gangOut := s.gangOut ++ [(k.gangId, 0)] }

/-- A gang fault of a kernel (R399): the region is hacked, the event goes home, the coordinator is told. -/
def State.gangFault (s : State) (r n b : Nat) : State :=
  let k := (s.region r).kernel n
  let s := (s.event r 0x46 0 0 0 0 0 (BitVec.ofNat 64 k.gangId) (BitVec.ofNat 64 b)).addCause r 4
  { s.updRegion r (fun x => x.setKernel n { x.kernel n with gangFault := true }) with gangOut := s.gangOut ++ [(k.gangId, 1)] }

/-- ABORT (R399): A gang ABORT retires the kernel or, after T_go, is a gang fault. Operands: a = r, b = k. -/
def execGangAbort (s : State) : Out :=
  let r := s.ev.a
  let n := s.ev.b
  let k := (s.region r).kernel n
  if !k.gang then .next s
  else if 1 ≤ k.state ∧ k.state ≤ 3 ∧ (k.state < 3 ∨ s.now (s.region r).home < k.tgo) then .next (s.retireKernel r n 3 0)
  else if 3 ≤ k.state ∧ k.state ≤ 6 then .next (s.gangFault r n 63)
  else .next s

/-- GANG_DEADLINE (R399): The gang deadline D passes on a wafer whose gang kernel is not ready, so that wafer never starts it and it retires with status aborted. Operands: a = r, b = k. -/
def execGangDeadline (s : State) : Out :=
  let r := s.ev.a
  let n := s.ev.b
  let k := (s.region r).kernel n
  if k.state < 1 ∨ 3 ≤ k.state then .next s
  else if s.now (s.region r).home < k.deadline then notYet s
  else .next (s.retireKernel r n 3 0)

/-- The barrier of a bwait that a context is about to issue. -/
def bwaitOf (w : BitVec 32) : Option Nat :=
  match decode w with
  | .ok (.bwait _ n) => some n.toNat
  | _ => none

/-- GANG_TIMEOUT (R399): A bwait on a GBAR barrier not ready for GTO ticks raises a gang fault. Operands: a = t, b = c. -/
def execGangTimeout (s : State) : Out :=
  let t := s.ev.a
  let c := s.ev.b
  let x := s.tile t
  let y := x.ctx c
  let k := (s.region x.region).kernel x.kernel
  if x.region = 0 ∨ x.kernel = 0 ∨ !k.gang ∨ y.state ≠ .live then .next s
  else match s.fetch t c y.pc, y.waitAt with
    | .word w _, some since => match bwaitOf w with
      | some b =>
        if !k.gbar.testBit b ∨ (x.bar b).state = 2 then .next s
        else if s.nowAt t < since + k.gto then notYet s
        else .next (s.gangFault x.region x.kernel b)
      | none => .next s
    -- its word is being fetched again
    | _, some _ => notYet s
    | _, none => .next s

end Sys2Proof.Machine
end

