-- ==== Sys2Proof/Machine/Events.lean ====
section
/-! DEFINITION. Home islands, the event rings, island registers and the failure of an island (R405 to R410). -/
namespace Sys2Proof.Machine

/-! ### Home islands (R18, R405) -/

/-- Field steps between two fields. -/
def fieldSteps (a b : Nat) : Nat := gap (a % 6) (b % 6) + gap (a / 6) (b / 6)

/-- The field of a region's centre tile (R405). -/
def State.centreField (s : State) (x : Region) : Nat := s.fieldAt (x.col0 + (x.w - 1) / 2) (x.row0 + (x.h - 1) / 2)

/-- The home island of a rectangle: its centre's, or the nearest working one (R405). -/
def State.homeIsland (s : State) (x : Region) : Nat :=
  let f := s.centreField x
  if !(s.island f).failed then f
  else
    let l := (List.range 36).filter (fun i => !(s.island i).failed)
    let d := (l.map (fieldSteps f)).foldl Nat.min 100
    match l.find? (fun i => fieldSteps f i == d) with
    | some i => i
    | none => f

/-! ### Event rings (R406 to R408) -/

/-- EVENT_MESSAGE (R407): The island writes an event entry to the event ring and interrupts. Operands: a = n. -/
def execEventMessage (s : State) : Out :=
  match s.events with
  | [] => .next s
  | _ =>
    let n := s.events.findIdx (fun e => s.eventRoom e && (match e.src with | some t => s.vc6Turn t e.seq | none => true))
    match s.events[n]? with
    -- refused under R288 and sent again
    | none => notYet s
    | some e =>
      -- one that a tile sends crosses the mesh, sealed where its region's messages are (R317, R430, R431, R440)
      match (match e.src with | some t => s.vc6Enter t (s.eventIsland e) | none => .ok s) with
      | .error s => notYet s
      | .ok s => .next ({ s with events := s.events.eraseIdx n }.eventWrite e)

/-- Name a ring: both indices are 0, and its control block is zero (R408). -/
def State.nameRing (s : State) (k base n size : Nat) : State :=
  (s.memWrite (sysKey (base + n * size)) 64 0).setRing k { base := base, n := n, size := size }

/-- An entry count the spec allows for device-written rings (R401, R408). -/
def ringLenOk (n : Nat) : Bool := (List.range 13).any (fun i => n == 2 ^ (i + 4))

/-- SEVADDR_WRITE (R408): Names an island's site-event ring and zeroes its indices. Operands: a = isl, w = v, b = len. -/
def execSevaddrWrite (s : State) : Out :=
  let i := s.ev.a
  let s := s.setIsland i { s.island i with sevaddr := s.ev.w &&& ~~~(63#64), sevlen := s.ev.b }
  let base := fld s.ev.w 6 58 * 64
  .next (if ringLenOk s.ev.b then s.nameRing (siteRing i) base s.ev.b 32 else s.setRing (siteRing i) {})

/-! ### Registers without behaviour of their own (R7, R88, R325, R456) -/

/-- A write of a BAY register: only RELEASE and LED take part, and RELEASE only while the bay's group has no role (R456). -/
def State.writeBay (s : State) (b : Nat) (release led : Bool) : State :=
  let x := s.bay b
  let on := release && !decide (x.group ≠ 255 ∧ (s.group x.group).role ≠ 0)
  s.setBay b { x with led := led, release := on, latch := on && !x.scrub }

/-- REGISTER_WRITE (R7): A write to a system register without behaviour of its own. Operands: a = isl, b = reg, w = v. The registers by number: 0 CETHR of the
island, 1 WAFERNO, 2 + w the list of link ports to wafer w as one of the words that make it up, 64 + b BAY of bay b; a write to any
other number is a write to a read-only register and has no effect. -/
def execRegisterWrite (s : State) : Out :=
  let i := s.ev.a
  let k := s.ev.b
  let v := s.ev.w
  if k = 0 then .next (s.setIsland i { s.island i with cethr := fld v 0 8 })
  else if k = 1 then .next { s with module := { s.module with waferNo := fld v 0 4 } }
  -- one port of the list: its place in [15:10], 0 starts the list afresh (log entry 27)
  else if k < 18 then
    let l := fget [] s.module.routes (k - 2)
    let l := if fld v 10 6 = 0 then [fld v 0 10] else l.take (fld v 10 6) ++ [fld v 0 10]
    .next { s with module := { s.module with routes := fset [] s.module.routes (k - 2) l } }
  else if 64 ≤ k ∧ k < 128 then .next (s.writeBay (k - 64) (bit v 2) (bit v 1))
  else .next s

/-! ### The failure of an island (R410, R459) -/

/-- ISLAND_FAILURE (R410): A failed island's regions fail over to a new home island. Operands: a = isl. -/
def execIslandFailure (s : State) : Out :=
  let i := s.ev.a
  if (s.island i).failed then .next s
  else
    let s := s.setIsland i { s.island i with failed := true, pcieUp := false }
    .next ((s.regions.filter (fun e => e.2.home == i && e.2.state != 0)).foldl (fun s e =>
      let h := s.homeIsland e.2
      let s := s.updRegion e.1 (fun x => { x with home := h })
      let s := s.addCause1 e.1 6 0
      s.event e.1 0x49 0 0 0 0 0 (BitVec.ofNat 64 i) (BitVec.ofNat 64 h)) s)

end Sys2Proof.Machine
end

