-- ==== Sys2Proof/Machine/Repeater.lean ====
section
/-! DEFINITION. The repeater frame (R175 to R184): its instructions, its fill, and the rotation of register fields. -/
namespace Sys2Proof.Machine

/-! ### Rotation (R180) -/

/-- A 6-bit register field advanced by k places in the window g16 to g47. -/
def rotField (f : BitVec 6) (k : Nat) : BitVec 6 :=
  if 16 ≤ f.toNat ∧ f.toNat ≤ 47 then BitVec.ofNat 6 (16 + (f.toNat - 16 + k) % 32) else f

/-- The register fields of a body word by format: r: rd, ra, rb; i: rd, ra; u: rd; the vector and prefix words have none. -/
def rotateWord (k : Nat) (w : BitVec 32) : BitVec 32 :=
  let op := fld w 26 6
  let rd := rotField (cut w 20 6) k
  let ra := rotField (cut w 14 6) k
  let rb := rotField (cut w 8 6) k
  if op = 0x01 ∨ op = 0x0A ∨ op = 0x0B then cut w 26 6 ++ rd ++ ra ++ rb ++ cut w 0 8
  else if 2 ≤ op ∧ op ≤ 7 then cut w 26 6 ++ rd ++ ra ++ cut w 0 14
  else if op = 8 then cut w 26 6 ++ rd ++ cut w 0 20
  else w

/-- A follower's copy of the frame goes where the leader's frame goes: a word of another address than the copy's shows that a return from a
trap has moved the leader's frame, or left it (R182, R184). -/
def Ctx.inStep (x : Ctx) (a : Word) : Ctx :=
  match x.frame.state with
  | .run =>
    let off := (a - x.frame.base).toNat
    if off = 4 * x.frame.pos then x
    else if off % 4 = 0 ∧ off / 4 < x.frame.len ∧ bodyBoundary x.frame.words (off / 4) then { x with frame := { x.frame with pos := off / 4 } }
    else { x with frame := {} }
  | _ => x

/-- The body word at a position as its pass issues it: the bit of the slot mask at the position of the instruction word
decides (R180). -/
def Frame.wordAt (f : Frame) (i : Nat) : BitVec 32 :=
  let w := f.words.getD i 0
  if f.stride ≠ 0 ∧ bit f.mask i then rotateWord (f.stride * f.pass) w else w

/-! ### The instructions (R177, R178) -/

/-- Begin a frame whose values are known: fill starts. A follower takes its leader's frame as it stands after the leader's
fill (R184). -/
def State.beginFrame (s : State) (f : Frame) : State :=
  let t := s.slot.site
  let c := s.slot.ctx
  if s.slot.train then
    match (s.tile t).train.frames with
    | g :: r =>
      let s := s.updTile t (fun x => { x with train := { x.train with frames := r } })
      -- the copy stands at the follower's own addresses (R184, R363)
      let g := { g with base := (s.tile t).own g.base }
      if g.count = 0 then (s.goOn (g.base + BitVec.ofNat 64 (4 * g.len))).updCur (fun x => { x with frame := {} })
      else s.retire.updCur (fun x => { x with frame := { g with state := .run, pass := 0, pos := 0, ppop := false } })
    | [] => s.retire
  else ((s.goOn s.nextAddr).updCur (fun x => { x with frame := f })).later .repeaterFill { a := t, b := c }

/-- A repeater instruction. A port operand is read now and removed when the fill passes; a follower of a train removes its own at
once. -/
def frameOp (i : Instr) (srcs : List (BitVec 6 × Bool)) (l st : BitVec 4) (f : Word → Option (Nat × BitVec 16)) (s0 : State) : Out :=
  issue { wf := i.wf, srcs := srcs } s0 (fun v s =>
    if s.cur.mon then .fault 0x0D 0
    else match f (v0 v) with
      | none => .fault 0x0D 0
      | some (count, mask) =>
        let port : Option Nat := srcs.findSome? (fun p => if inPort p.1 then some (p.1.toNat - 56) else none)
        let fr : Frame := { state := .fill, base := s.slot.addr + 4, len := l.toNat + 1, count := count, stride := st.toNat, mask := mask,
                            ppop := port.isSome, port := port.getD 0, word := s.slot.word }
        if port.isSome ∧ !s.slot.train then
          .ok ((s0.updCur (fun x => srcs.foldl (fun x p => x.raise p.1.toNat) x)).beginFrame fr)
        else .ok (s.beginFrame fr))

/-- RPT (R177): Starts a repeater frame with an immediate count. -/
def execRpt (l st : BitVec 4) (n : BitVec 16) (s : State) : Out :=
  frameOp (.rpt l st n) [] l st (fun _ => some (n.toNat, 0xFFFF)) s

/-- RPT_R (R177): Starts a repeater frame with a count from ga. -/
def execRptR (l st : BitVec 4) (wa : BitVec 1) (ra : BitVec 6) (s : State) : Out :=
  frameOp (.rptR l st wa ra) [(ra, wt wa)] l st
    (fun v => if fld v 32 32 ≠ 0 then none else some (fld v 0 32, 0xFFFF)) s

/-- RPTX (R177): Starts a repeater frame with count and slot mask from ga. -/
def execRptx (l st : BitVec 4) (wa : BitVec 1) (ra : BitVec 6) (s : State) : Out :=
  frameOp (.rptx l st wa ra) [(ra, wt wa)] l st
    (fun v => if fld v 48 16 ≠ 0 then none else some (fld v 0 32, BitVec.ofNat 16 (fld v 32 16))) s

/-! ### The fill (R176, R178, R179) -/

/-- A word may stand in a body (R179). -/
def bodyWordOk (w : BitVec 32) : Bool :=
  let op := fld w 26 6
  decide ((1 ≤ op ∧ op ≤ 8) ∨ op = 0x0A ∨ op = 0x0B ∨ (0x20 ≤ op ∧ op ≤ 0x26) ∨ op = 0x3E)

/-- What the fetch of a body comes to. -/
inductive Filled where
  | pass (words : List (BitVec 32)) (s : State)
  | fail (s : State)
  | wait (words : List (BitVec 32)) (s : State)
  | fault (at_ : Word) (code : Nat) (tval : Word)

/-- Fetch and check `n` more words of a body (R178, R179). -/
def State.fillBody (s : State) (t c : Nat) (f : Frame) (words : List (BitVec 32)) : Nat → Filled
  | 0 => .pass words s
  | n + 1 =>
    let a := f.base + BitVec.ofNat 64 (4 * words.length)
    match s.fetch t c a with
    | .fault code tval => .fault a code tval
    | .wait s => .wait words s
    | .word w s =>
      let s := s.countWord t c a
      if !bodyWordOk w || (n == 0 && isModifier w) then .fail s
      else s.fillBody t c f (words ++ [w]) n

/-- The fill has passed: the reserved element goes, the frame runs or ends at once, and a leader forwards the repeater
instruction with its frame (R176, R178, R184). -/
def State.fillPassed (s : State) (t c : Nat) (f : Frame) (words : List (BitVec 32)) : State :=
  let s := if f.ppop then s.pop t c f.port else s
  let s := s.atSlot t c (f.base - 4) f.word
  let g : Frame := { f with words := words, ppop := false, pass := 0, pos := 0 }
  let x := s.tile t
  let s := if x.train.state = 2 ∧ c = 0 then
      (List.range x.train.n).foldl (fun s d => match s.place x.region (x.train.c0 + d) x.row with
        | .site u => if d ≠ 0 ∧ 3 ≤ (s.tile u).train.state ∧ (s.tile u).train.c0 = x.train.c0 then s.updTile u (fun y => { y with train := { y.train with frames := y.train.frames ++ [g] } }) else s
        | _ => s) s.forward
    else s
  s.updCtx t c (fun y =>
    if f.count = 0 then { y with frame := {}, pc := f.base + BitVec.ofNat 64 (4 * f.len) }
    else { y with frame := { g with state := .run }, pc := f.base })

/-- The body of a restored frame has been fetched and checked afresh (R183): it goes on at its position, with the words as they are now. -/
def State.refilled (s : State) (t c : Nat) (f : Frame) (words : List (BitVec 32)) : State :=
  s.updCtx t c (fun y => { y with frame := { f with words := words } })

/-- The repeater instruction of a saved fill, whose record does not hold it (R183). -/
def State.frameWord (s : State) (t c : Nat) (f : Frame) : Fetched :=
  if f.word ≠ 0 then .word f.word s
  else match s.fetch t c (f.base - 4) with
    | .fault _ _ => .word 0 s
    | y => y

/-- The frame has no body yet: it is being filled, or a restore has left its body to be fetched (R176, R183). -/
def Frame.lacks (f : Frame) : Bool := decide (f.state = .fill) || (decide (f.state ≠ .idle) && decide (f.words.length < f.len))

/-- REPEATER_FILL (R176): The end of fill checks the body and starts the passes or goes idle; a restored frame's body is fetched too, before it
goes on (R183). Operands: a = t, b = c. -/
def execRepeaterFill (s : State) : Out :=
  let t := s.ev.a
  let c := s.ev.b
  let x := s.ctx t c
  let f := x.frame
  if !f.lacks ∨ x.state = .free then .next s
  else if x.state ≠ .live ∨ f.state = .suspended then notYet s
  else match s.frameWord t c f with
  | .fault _ _ => .next s
  | .wait s => notYet s
  | .word w s =>
  let f := { f with word := w }
  match x.dueFault with
    | some d =>
      let a := f.base + BitVec.ofNat 64 (4 * f.words.length)
      .next (((s.atSlot t c a 0).updCtx t c (fun y => { y with frame := {}, dueFault := none })).takeTrap d.1.toNat a)
    | none => match s.fillBody t c f f.words (f.len - f.words.length) with
      | .pass words s => .next (if f.state = .fill then s.fillPassed t c f words else s.refilled t c f words)
      | .wait words s => notYet (s.updCtx t c (fun y => { y with frame := { f with words := words } }))
      | .fail s => .next (((s.atSlot t c (f.base - 4) f.word).updCtx t c (fun y => { y with frame := {} })).takeTrap 0x0D 0)
      | .fault a code tval => .next (((s.atSlot t c a 0).updCtx t c (fun y => { y with frame := {} })).takeTrap code tval)

end Sys2Proof.Machine
end

