-- ==== Sys2Proof/Machine/Image.lean ====
section
/-! DEFINITION. The tile image: what a save writes and a restore reads (R123 to R126, R183, R203, R279, R308, R356, R379). What the spec
gives no byte layout for travels with the image as the model's own data (log entry 26). -/
namespace Sys2Proof.Machine

/-- Fields one after another, each a size in bytes and a value, little-endian (R3). -/
def packFields : List (Nat × Nat) → Nat
  | [] => 0
  | (n, v) :: r => v % 2 ^ (8 * n) + 2 ^ (8 * n) * packFields r

/-! ### The context record (R123, R125, R217) -/

/-- What the value slot of a register holds: its value, zero, or the lost request (R123, R217; log entry 28). -/
def slotOf (st : RegState) (v : Nat) : Nat :=
  match st with
  | .full => v
  | .marked c a => if c = 0x14 then a.toNat else a.toNat % 2 ^ 54 + c.toNat * 2 ^ 54 + 2 ^ 62 + (if bit a 63 then 2 ^ 63 else 0)
  | _ => 0

/-- A register state read back from its code and slot (R123, R217). -/
def stateFrom (code slot : Nat) : RegState :=
  if code = 0 then .full
  else if code = 1 then .empty
  else if code = 2 then .pending
  else if slot.testBit 62 then .marked (BitVec.ofNat 8 (natBits slot 54 8)) (BitVec.ofNat 64 (slot % 2 ^ 54 + (if slot.testBit 63 then 2 ^ 63 else 0)))
  else .marked 0x14 (BitVec.ofNat 64 slot)

/-- Bytes of the record of context c. -/
def recordSize (c : Nat) : Nat := if c < 4 then 2816 else 704

/-- Register states of a map, two bits each, for the registers of a range. -/
def statesOf (m : FMap RegState) (lo n : Nat) : Nat := ((List.range n).map (fun i => (fget .full m (lo + i)).code * 4 ^ (lo + i))).sum

/-- The state a held context is saved with. -/
def Ctx.savedState (x : Ctx) : CtxState := match x.state with | .held => x.heldFrom | st => st

/-- The record of a context (R125). -/
def Ctx.toRecord (x : Ctx) (c : Nat) : List (Nat × Nat) :=
  let st := x.savedState
  if st = .free then [(recordSize c, 0)]
  else
    let head := [(8, ({ x with state := st } : Ctx).status.toNat), (8, x.pc.toNat), (8, x.fcsr.toNat), (8, x.mirr.toNat),
      (8, x.tepc.toNat), (8, x.tcause.toNat), (8, x.tval.toNat), (8, x.tword.toNat), (8, x.tstat.toNat)] ++
      (List.range 4).map (fun i => (8, (fget 0 x.mscr i).toNat)) ++
      [(8, x.dbgctl.toNat), (8, x.bpa0.toNat), (8, x.bpa1.toNat), (8, x.wpa0.toNat), (8, x.wpa1.toNat), (8, x.wpcfg.toNat)] ++
      (List.range 4).map (fun i => (8, (fget 0 x.t i).toNat)) ++
      [(16, statesOf x.gs 1 55), (8, if c < 4 then statesOf x.vs 0 32 else 0)] ++
      (List.range 7).map (fun i => (8, slotOf (fget .full x.mgs (i + 1)) (fget 0 x.mg (i + 1)).toNat)) ++
      (List.range 55).map (fun i => (8, slotOf (fget .full x.gs (i + 1)) (fget 0 x.g (i + 1)).toNat))
    if c < 4 then
      head ++ (List.range 8).map (fun i => (2, if i = 0 then 0xFFFF else (fget 0 x.masks i).toNat)) ++ [(48, 0)] ++
        (List.range 32).map (fun i => (64, slotOf (fget .full x.vs i) (fget 0 x.v i).toNat))
    else head

/-- Values and states of registers from their slots: `lo` the first number, `at_` the byte of its slot. -/
def slotsFrom (v codes lo n at_ size : Nat) : List (Nat × Nat × RegState) :=
  (List.range n).map (fun i =>
    let slot := natBytes v (at_ + size * i) size
    let st := stateFrom (natBits codes (2 * (lo + i)) 2) (slot % 2 ^ 64)
    (lo + i, (match st with | .full => slot | _ => 0), st))

/-- The state code of a record (R102). -/
def stateOfCode (n : Nat) : CtxState := if n = 1 then .live else if n = 2 then .faultWait else if n = 3 then .draining else .free

/-- FCSR as a restore loads it: reserved bits are dropped and FRM 5 to 7, which a write never leaves, are 0 (R7, R44; DESIGN CHOICE, log entry
103). -/
def fcsrFrom (v : Word) : Word := if 5 ≤ fld v 8 3 then v &&& 0x803F#64 else v &&& 0x873F#64

/-- A context from its record, reserved bits dropped (R7; log entry 103); `keep` brings what is no part of the record (log entry 26). -/
def Ctx.ofRecord (keep : Ctx) (c v : Nat) : Ctx :=
  let w (off : Nat) : Word := BitVec.ofNat 64 (natBytes v off 8)
  let st := natBytes v 0 8
  let words (off n : Nat) : FMap Word := (List.range n).foldl (fun m i => fset 0 m i (w (off + 8 * i))) []
  let g := slotsFrom v (natBytes v 0xB8 16) 1 55 0x108 8
  let mg := slotsFrom v (natBits st 14 16) 1 7 0xD0 8
  let vs := if c < 4 then slotsFrom v (natBytes v 0xC8 8) 0 32 0x300 64 else []
  let x : Ctx := { keep with
    state := stateOfCode (natBits st 0 4), heldFrom := .free, mon := st.testBit 4, pri := BitVec.ofNat 2 (natBits st 5 2), hwm := natBits st 8 6
    pc := w 8, fcsr := fcsrFrom (w 0x10), mirr := w 0x18 &&& 0xBFBFBFBF#64, tepc := w 0x20, tcause := w 0x28 &&& 0x1FF#64, tval := w 0x30
    tword := w 0x38, tstat := w 0x40 &&& 1#64
    mscr := words 0x48 4, dbgctl := w 0x68 &&& 0x7F#64, bpa0 := w 0x70 &&& ~~~(3#64), bpa1 := w 0x78 &&& ~~~(3#64), wpa0 := w 0x80
    wpa1 := w 0x88, wpcfg := w 0x90 &&& 0x1F1F#64
    t := words 0x98 4
    g := g.foldl (fun m e => fset 0 m e.1 (BitVec.ofNat 64 e.2.1)) [], gs := g.foldl (fun m e => fset .full m e.1 e.2.2) []
    mg := mg.foldl (fun m e => fset 0 m e.1 (BitVec.ofNat 64 e.2.1)) [], mgs := mg.foldl (fun m e => fset .full m e.1 e.2.2) []
    v := vs.foldl (fun m e => fset 0 m e.1 (BitVec.ofNat 512 e.2.1)) [], vs := vs.foldl (fun m e => fset .full m e.1 e.2.2) []
    masks := if c < 4 then ((List.range 7).foldl (fun m i => fset 0 m (i + 1) (BitVec.ofNat 16 (natBytes v (0x2C2 + 2 * i) 2))) []) else [] }
  -- in user mode every MG register is full (R116)
  if x.state = .free then {} else if x.mon then x else { x with mgs := [] }

/-! ### The other sections -/

/-- A frame's record (R183). -/
def Frame.toRecord (f : Frame) : List (Nat × Nat) :=
  let code : Nat := match f.state with | .idle => 0 | .fill => 1 | .run => 2 | .suspended => 3
  if code = 0 then [(32, 0)]
  else [(8, f.base.toNat), (4, f.count), (4, f.pass), (2, f.mask.toNat), (1, f.len - 1 + 16 * f.pos),
        (1, f.stride + 16 * code + (if f.ppop then 64 else 0)), (1, if f.ppop then f.port else 0), (11, 0)]

/-- A frame from its record. Its body is fetched afresh before it goes on (R183). -/
def Frame.ofRecord (v : Nat) : Frame :=
  let b := natBytes v 0x13 1
  let code := natBits b 4 2
  if code = 0 then {}
  else
    { state := if code = 1 then .fill else if code = 2 then .run else .suspended
      base := BitVec.ofNat 64 (natBytes v 0 8), count := natBytes v 8 4, pass := natBytes v 0xC 4, mask := BitVec.ofNat 16 (natBytes v 0x10 2)
      len := natBits (natBytes v 0x12 1) 0 4 + 1, pos := natBits (natBytes v 0x12 1) 4 4, stride := natBits b 0 4
      ppop := b.testBit 6, port := natBits (natBytes v 0x14 1) 0 2 }

/-- The stream address of the next stream instruction of a tile's train: where its leader stands, or, while the leader is in a monitor, will go
on (R379). -/
def State.trainNext (s : State) (t : Nat) : Word :=
  if (s.tile t).train.state = 0 then 0
  else match s.memberSite t 0 with
    | some l => let y := s.ctx l 0; if y.mon then y.tepc else y.pc
    | none => (s.tile t).train.nextAddr

/-- The input port bound to VC7. -/
def Queues.port7 (q : Queues) : Option Nat := (List.range 4).find? (fun p => cfgV (q.cfg p) && cfgVc (q.cfg p) == 7)

/-- The train section (R379). -/
def State.trainSection (s : State) (t : Nat) : List (Nat × Nat) :=
  let x := s.tile t
  let q := match x.q.port7 with | some p => x.q.inq? p | none => []
  [(1, x.train.state), (1, x.train.id), (1, x.train.c0), (1, x.train.n), (1, x.train.d), (1, x.train.marker), (2, 0),
   (8, (s.trainNext t).toNat), (8, x.train.vdrop), (1, q.length), (39, 0)] ++
  (q.map (fun e => (8, e.val.toNat)) ++ [(8 * (16 - q.length), 0), (64, 0)])

/-- The elements of the VC7 queue in a train section. -/
def elems7 (v : Nat) : List PElem :=
  (List.range (natBytes v 0x18 1)).map (fun i => { val := BitVec.ofNat 64 (natBytes v (0x40 + 8 * i) 8), stamped := false })

/-- The configuration word of a counter (R298). -/
def Counter.config (c : Counter) : Nat :=
  c.thr % 2 ^ 40 + (if c.messages then 2 ^ 55 else 0) + 2 ^ 56 * c.hidx + (if c.hv then 2 ^ 62 else 0)

/-- The counter section (R308); a trigger slot holds one more than its place in the order of arming, a free one zeros (log entry 26). -/
def Queues.counterSection (q : Queues) : List (Nat × Nat) :=
  (List.range 16).flatMap (fun n => [(8, (q.counterStatus n).toNat), (8, (q.counter n).config)]) ++
  ((q.triggers.take 16).flatMap (fun y => [(4, y.counter), (4, y.order + 1), (8, y.mdw.toNat), (8, y.pw.toNat)]) ++ [(24 * (16 - q.triggers.length), 0)])

/-- The handler section (R308). -/
def Queues.handlerSection (q : Queues) : List (Nat × Nat) :=
  (List.range 64).map (fun n => (8, (fget 0 q.handlers n).toNat)) ++ [(8, if q.isSealed then 1 else 0)]

/-- The port-queue section (R279, R308). -/
def Tile.portSection (x : Tile) : List (Nat × Nat) :=
  (8, x.q.tsr.toNat) :: ((List.range 12).map (fun c => (8, (x.ctx c).rstamp.toNat)) ++ (List.range 8).map (fun p => (8, (x.q.cfg p).toNat)) ++
  (List.range 4).flatMap (fun p => let l := fget [] x.q.gathered (p + 4); l.map (fun e => (8, e.2.toNat)) ++ [(8 * (30 - l.length), 0)]) ++
  (List.range 4).map (fun p => (2, (fget [] x.q.gathered (p + 4)).length)))

/-- Three flags of a value in flight: present, with an error, and its floating-point flags. -/
def valueFlags (on err : Bool) (fl : BitVec 6) : Nat := (if on then 1 else 0) + (if err then 2 else 0) + 256 * fl.toNat

/-- The coll header: 64 bytes (R356). After the four words that the spec names: flags, destination, names (log entry 26). -/
def Coll.record (k : Coll) : List (Nat × Nat) :=
  [(8, k.desc.toNat), (8, k.partialV.toNat), (8, k.pos), (8, k.level), (8, valueFlags k.active k.err k.flags),
   (8, k.ctx + 256 * k.rd + (if k.mon then 2 ^ 16 else 0)), (8, k.id), (8, k.mark)]

/-- A coll header read back. -/
def Coll.ofRecord (v : Nat) : Coll :=
  let w (i : Nat) : Nat := natBytes v (8 * i) 8
  { desc := BitVec.ofNat 64 (w 0), partialV := BitVec.ofNat 64 (w 1), pos := w 2, level := w 3, active := (w 4).testBit 0, err := (w 4).testBit 1,
    flags := BitVec.ofNat 6 (natBits (w 4) 8 6), ctx := natBits (w 5) 0 8, rd := natBits (w 5) 8 8, mon := (w 5).testBit 16, id := w 6, mark := w 7 }

/-- A level slot: 24 bytes (R356). -/
def LevelSlot.record (y : LevelSlot) : List (Nat × Nat) := [(8, y.desc.toNat), (8, y.value.toNat), (8, valueFlags y.full y.err y.flags)]

def LevelSlot.ofRecord (v : Nat) : LevelSlot :=
  { desc := BitVec.ofNat 64 (natBytes v 0 8), value := BitVec.ofNat 64 (natBytes v 8 8), full := (natBytes v 16 8).testBit 0,
    err := (natBytes v 16 8).testBit 1, flags := BitVec.ofNat 6 (natBits (natBytes v 16 8) 8 6) }

/-- The barrier section (R356). -/
def Tile.barrierSection (x : Tile) : List (Nat × Nat) :=
  (List.range 64).map (fun n => (8, (x.bar n).status.toNat)) ++ x.coll.record ++
  (List.range 15).flatMap (fun l => (fget {} x.levels l).record) ++ [(88, 0)]

/-- The matrix section: parts 0 to 21 (R203). -/
def Matrix.section_ (m : Matrix) : List (Nat × Nat) := (List.range 22).flatMap m.part

/-! ### The inbox (R288, R308): its slots, and a tag for each (log entry 26) -/

/-- What stands in the inbox: a list it belongs to (1 the dispatch queue, 2 the unclaimed list, 3 to 6 the queue of a port), what it is, and the
bytes of its slots: 16 bytes of header, then its words. -/
structure Boxed where
  list : Nat
  kind : Nat := 0
  hidx : Nat := 0
  words : Nat
  frees : Nat := 0
  bytes : Nat
deriving DecidableEq, Repr

/-- Slots it takes. -/
def Boxed.slots (b : Boxed) : Nat := (16 + 8 * b.words + 63) / 64

/-- Its tag. -/
def Boxed.tag (b : Boxed) : Nat := b.list + 2 ^ 3 * b.kind + 2 ^ 5 * b.hidx + 2 ^ 11 * b.words + 2 ^ 16 * b.slots + 2 ^ 19 * b.frees

/-- A queued item; of a counter's handler start its value is its one word. -/
def QItem.boxed (i : QItem) (list : Nat) : Boxed :=
  let l := if i.kind = 1 then [i.stamp] else i.payload
  { list := list, kind := i.kind, hidx := i.hidx, words := l.length, frees := i.slots,
    bytes := packFields ((16, i.hdr.toNat) :: l.map (fun w => (8, w.toNat))) }

/-- An item read back. -/
def Boxed.item (b : Boxed) : QItem :=
  let l := (List.range b.words).map (fun i => BitVec.ofNat 64 (natBytes b.bytes (16 + 8 * i) 8))
  { kind := b.kind, hidx := b.hidx, hdr := BitVec.ofNat 128 (natBytes b.bytes 0 16), payload := if b.kind = 1 then [] else l, slots := b.frees,
    stamp := if b.kind = 1 then l.getD 0 0 else BitVec.ofNat 64 (natBytes b.bytes 0 8) }

/-- The element is the last of its message. -/
def PElem.last (e : PElem) : Bool := e.slots != 0 || e.ack.isSome

/-- The elements of a queue by message. -/
def byMessage : List PElem → List (List PElem)
  | [] => []
  | e :: r => match byMessage r with
    | [] => [[e]]
    | g :: l => if e.last then [e] :: g :: l else (e :: g) :: l

/-- A tile's name in its region. -/
def State.nameOf (s : State) (t : Nat) : Nat := (s.tile t).col + 256 * (s.tile t).row

/-- The site of a name in the region of a tile; of a hole, the site that its name had. -/
def State.ofName (s : State) (t n : Nat) : Nat :=
  match s.placeFrom t (n % 256) (n / 256 % 256) with
  | .site u => u
  | _ => (s.siteAt ((s.region (s.tile t).region).col0 + n % 256) ((s.region (s.tile t).region).row0 + n / 256 % 256)).getD t

/-- What is left of a message in a port's queue: the stamp, its stream and the acknowledgement due for it, its elements. -/
def State.boxGroup (s : State) (p : Nat) (g : List PElem) : Boxed :=
  let e := g.getLastD {}
  let src := match e.ack with | some a => s.nameOf a.1 | none => 0
  let str := match e.stream with | some a => a.2 | none => 0
  { list := 3 + p, words := g.length, frees := e.slots,
    bytes := packFields ([(8, e.stamp.toNat), (2, src), (1, str), (1, (if e.ack.isSome then 1 else 0) + (if e.stream.isSome then 2 else 0)),
      (4, match e.ack with | some a => a.2 | none => 0)] ++ g.map (fun v => (8, v.val.toNat))) }

/-- The elements read back. -/
def State.unboxGroup (s : State) (t : Nat) (b : Boxed) : List PElem :=
  let src := s.ofName t (natBytes b.bytes 8 2)
  let f := natBytes b.bytes 11 1
  (List.range b.words).map (fun i =>
    let end_ := decide (i + 1 = b.words)
    { val := BitVec.ofNat 64 (natBytes b.bytes (16 + 8 * i) 8), stamp := BitVec.ofNat 64 (natBytes b.bytes 0 8), slots := if end_ then b.frees else 0,
      ack := if end_ ∧ f.testBit 0 then some (src, natBytes b.bytes 12 4) else none,
      stream := if f.testBit 1 then some (src, natBytes b.bytes 10 1) else none })

/-- Everything in a tile's inbox, in order. -/
def State.boxes (s : State) (t : Nat) : List Boxed :=
  let q := (s.tile t).q
  q.dispatchQ.map (fun i => i.boxed 1) ++ q.unclaimed.map (fun i => i.boxed 2) ++
  (List.range 4).flatMap (fun p => if cfgVc (q.cfg p) = 7 then [] else (byMessage (q.inq? p)).map (s.boxGroup p))

/-- The items that fit into a number of slots; counter starts, which hold none in the tile, may leave the last ones out. -/
def fitBoxes : Nat → List Boxed → List Boxed
  | _, [] => []
  | n, b :: l => if b.slots ≤ n then b :: fitBoxes (n - b.slots) l else []

/-- The inbox section (R308): 1,024 slots, then 1,024 tags of 4 bytes, that of the first slot of an item or 7 for a further one. Bit 31 of the
first tag says that some item did not fit. -/
def State.inboxSection (s : State) (t : Nat) : List (Nat × Nat) :=
  let all := s.boxes t
  let l := fitBoxes 1024 all
  let n := (l.map Boxed.slots).sum
  let more := if l.length = all.length then 0 else 2 ^ 31
  let tags := l.flatMap (fun b => b.tag :: List.replicate (b.slots - 1) 7)
  l.map (fun b => (64 * b.slots, b.bytes)) ++ [(64 * (1024 - n), 0)] ++
  (match tags with | [] => [(4, 0)] | a :: r => (4, a + more) :: r.map (fun x => (4, x))) ++ [(4 * (1024 - Nat.max 1 n), 0)]

/-- The items of an inbox section. -/
def boxesFrom (v : Nat) : List Boxed :=
  (List.range 1024).filterMap (fun i =>
    let g := natBytes v (65536 + 4 * i) 4
    let list := natBits g 0 3
    if list = 0 ∨ list = 7 then none
    else some { list := list, kind := natBits g 3 2, hidx := natBits g 5 6, words := natBits g 11 5, frees := natBits g 19 3,
                bytes := natBytes v (64 * i) (64 * natBits g 16 3) })

/-! ### The retention buffer (R287, R308, R343): entries of 320 bytes -/

/-- Kinds of entries by the first byte: 0 none, 1 a message or request, 2 a transfer command, 3 a stream end (R343), 4 a response (log entry 26). -/
def Body.code : Body → Nat
  | .load _ _ => 0 | .store _ _ _ => 1 | .row _ _ _ => 2 | .atomic _ _ _ _ _ => 3 | .seg _ _ _ => 4 | .xread _ _ => 5 | .msg _ _ => 6
  | .barv _ _ => 7 | .coll _ _ _ _ _ _ => 8 | .kq _ => 9 | .digest _ _ _ _ => 10 | .elems _ _ _ _ => 11
  | .streamGo _ _ _ _ => 12 | .streamAbort _ _ _ _ _ => 13

/-- A set of tiles of a row as a mask of 192 columns. -/
def State.columns (s : State) (l : List Nat) : Nat := (l.map (fun u => 2 ^ (s.tile u).col)).sum
def State.ofColumns (s : State) (t m : Nat) : List Nat :=
  ((List.range 192).filter (fun c => m.testBit c)).map (fun c => s.ofName t (c + 256 * (s.tile t).row))

/-- The payload or request of an entry. -/
def State.bodyFields (s : State) : Body → List (Nat × Nat)
  | .load a n => [(8, a.toNat), (8, n)]
  | .store a n d => [(8, a.toNat), (8, n), (64, d)]
  | .row a m d => [(8, a.toNat), (8, m.toNat), (64, d.toNat)]
  | .atomic a n op b c => [(8, a.toNat), (8, n), (8, op), (8, b.toNat), (8, c.toNat)]
  | .seg o n d => [(8, o), (8, n), (192, d)]
  | .xread o n => [(8, o), (8, n)]
  | .msg h p => (16, h.toNat) :: p.map (fun w => (8, w.toNat))
  | .barv a n => [(8, a.toNat), (8, n)]
  | .coll up d v fl err l => [(8, d.toNat), (8, v.toNat), (8, valueFlags up err fl), (8, l)]
  | .kq d => [(64, d.toNat)]
  | .digest c r g d => [(8, c), (8, r), (8, g), (8, d.toNat)]
  | .streamGo c r g d => [(8, c), (8, r), (8, g), (8, d.toNat)]
  | .streamAbort c r g e closed => [(8, c), (8, r), (8, g), (8, e.toNat), (8, if closed then 1 else 0)]
  | .elems g d acc ack => [(4, g), (4, d.length)] ++ d.map (fun w => (8, w.toNat)) ++ [(8 * (24 - d.length), 0), (24, s.columns acc), (24, s.columns ack)]

/-- The payload or request read back. -/
def State.bodyFrom (s : State) (t code v : Nat) : Body :=
  let n (i : Nat) : Nat := natBytes v (8 * i) 8
  let w (i : Nat) : Word := BitVec.ofNat 64 (n i)
  match code with
  | 0 => .load (w 0) (n 1)
  | 1 => .store (w 0) (n 1) (natBytes v 16 64)
  | 2 => .row (w 0) (w 1) (BitVec.ofNat 512 (natBytes v 16 64))
  | 3 => .atomic (w 0) (n 1) (n 2) (w 3) (w 4)
  | 4 => .seg (n 0) (n 1) (natBytes v 16 192)
  | 5 => .xread (n 0) (n 1)
  | 6 => .msg (BitVec.ofNat 128 (natBytes v 0 16)) ((List.range (natBits (natBytes v 8 8) 32 5)).map (fun i => w (i + 2)))
  | 7 => .barv (w 0) (n 1)
  | 8 => .coll ((n 2).testBit 0) (w 0) (w 1) (BitVec.ofNat 6 (natBits (n 2) 8 6)) ((n 2).testBit 1) (n 3)
  | 9 => .kq (BitVec.ofNat 512 (natBytes v 0 64))
  | 10 => .digest (n 0) (n 1) (n 2) (BitVec.ofNat 32 (n 3))
  | 12 => .streamGo (n 0) (n 1) (n 2) (BitVec.ofNat 32 (n 3))
  | 13 => .streamAbort (n 0) (n 1) (n 2) (BitVec.ofNat 8 (n 3)) (decide (n 4 = 1))
  | _ => .elems (natBytes v 0 4) ((List.range (natBytes v 4 4)).map (fun i => w (i + 1))) (s.ofColumns t (natBytes v 200 24)) (s.ofColumns t (natBytes v 224 24))

/-- State codes of entries. -/
def RetState.code : RetState → Nat
  | .held => 0 | .flying => 1 | .formed => 2 | .atPort => 3 | .refused => 4 | .done => 5 | .waits => 6
def RetState.ofCode (n : Nat) : RetState :=
  match n with | 0 => .held | 1 => .flying | 2 => .formed | 3 => .atPort | 4 => .refused | 5 => .done | _ => .waits

/-- Where a result goes: 16 bytes. A transfer command is named by its place in the FIFO. -/
def Tile.sinkFields (x : Tile) : Sink → List (Nat × Nat)
  | .greg c r mon size sg => [(1, 1), (1, c), (1, r), (1, (if mon then 1 else 0) + (if sg then 2 else 0)), (4, size), (8, 0)]
  | .xfer cmd off len => [(1, 2), (1, x.xfer.findIdx (fun e => e.id == cmd)), (2, 0), (4, len), (8, off)]
  | .strm n a => [(1, 3), (1, n), (6, 0), (8, a.toNat)]
  | .inv _ c r mon a size sg => [(1, 4), (1, c), (1, r), (1, (if mon then 1 else 0) + (if sg then 2 else 0)), (4, size), (8, a.toNat)]
  | _ => [(16, 0)]
def sinkFrom (cmds : List XCmd) (v : Nat) : Sink :=
  let b (i : Nat) : Nat := natBytes v i 1
  if b 0 = 1 then .greg (b 1) (b 2) ((b 3).testBit 0) (natBytes v 4 4) ((b 3).testBit 1)
  else if b 0 = 2 then .xfer (match cmds[b 1]? with | some e => e.id | none => 0) (natBytes v 8 8) (natBytes v 4 4)
  else if b 0 = 3 then .strm (b 1) (BitVec.ofNat 64 (natBytes v 8 8))
  else if b 0 = 4 then
    let a := BitVec.ofNat 64 (natBytes v 8 8)
    .inv (lineOf a) (b 1) (b 2) ((b 3).testBit 0) a (natBytes v 4 4) ((b 3).testBit 1)
  else .none

def State.dstFields (s : State) : Dst → Nat × Nat
  | .tile u => (0, s.nameOf u) | .edge pa => (1, pa) | .island _ => (2, 0)

/-- A message or request: header, payload, state (R308); `kind` is 1 for an entry of the buffer, 6 for a load that waits for the line of
another (R223). -/
def State.retFields (s : State) (t kind : Nat) (e : Ret) : List (Nat × Nat) :=
  let flags := (if e.again then 1 else 0) + (if e.sealedFrame then 2 else 0) + (if e.mirrored then 4 else 0) + (if e.noAlloc then 8 else 0)
  [(1, kind), (1, e.body.code), (1, e.state.code), (1, e.ctx), (1, (s.dstFields e.dst).1), (1, flags), (1, e.sealFails % 16 + 16 * e.backFails),
   (1, e.code.toNat), (6, e.id),
   (2, e.kid), (256, packFields (s.bodyFields e.body)), (8, e.stamp.toNat), (8, e.deadline), (8, (s.dstFields e.dst).2), (8, e.mark)] ++
  (s.tile t).sinkFields e.sink

def State.retFrom (s : State) (t : Nat) (cmds : List XCmd) (v : Nat) : Ret :=
  let b (i : Nat) : Nat := natBytes v i 1
  let d := natBytes v 288 8
  { id := natBytes v 8 6, ctx := b 3, body := s.bodyFrom t (b 1) (natBytes v 16 256), sink := sinkFrom cmds (natBytes v 304 16),
    dst := if b 4 = 0 then .tile (s.ofName t d) else if b 4 = 1 then .edge d else .island (s.homeOf t)
    state := RetState.ofCode (b 2), deadline := natBytes v 280 8, kid := natBytes v 14 2, sealedFrame := (b 5).testBit 1, mirrored := (b 5).testBit 2,
    stamp := BitVec.ofNat 64 (natBytes v 272 8), code := BitVec.ofNat 8 (b 7), sealFails := b 6 % 16, backFails := b 6 / 16, mark := natBytes v 296 8, again := (b 5).testBit 0,
    noAlloc := (b 5).testBit 3 }

/-- A transfer command (R343). -/
def XCmd.fields (e : XCmd) (pos : Nat) : List (Nat × Nat) :=
  [(1, 2), (1, pos), (1, if e.claimed then 3 else e.state), (1, e.claimCtx), (1, e.claimReg), (11, 0), (8, e.gc.toNat), (8, e.gd.toNat), (8, e.gs.toNat),
   (8, e.progress), (8, e.acked), (8, e.record.toNat), (16, 0), (240, 0)]

/-- A transfer command read back. A claimed one that has made progress runs, another is queued. What the layout has no place for comes from the
command it was, if that is known (log entry 26). -/
def XCmd.ofFields (old : Option XCmd) (name : Nat) (bars : Nat → Nat) (mons : Nat → Nat → Bool) (v : Nat) : XCmd :=
  let w (off : Nat) : Word := BitVec.ofNat 64 (natBytes v off 8)
  let st := natBytes v 2 1
  let prog := natBytes v 0x28 8
  let gc := w 0x10
  let y : XCmd := match old with
    | some y => if y.gc = gc ∧ y.gd = w 0x18 ∧ y.gs = w 0x20 then y else { id := name, mark := name, gen := bars (fld gc 56 6) }
    | none => { id := name, mark := name, gen := bars (fld gc 56 6) }
  { y with
    gc := gc, gd := w 0x18, gs := w 0x20, state := if st = 3 then (if prog = 0 then 0 else 1) else st, claimed := decide (st = 3)
    claimCtx := natBytes v 3 1, claimReg := natBytes v 4 1, claimMon := decide (st = 3) && mons (natBytes v 3 1) (natBytes v 4 1)
    progress := prog, acked := natBytes v 0x30 8, record := w 0x38, xl := none, fault := none, walk := 0
    code := if st = 2 then (if bit (w 0x38) 14 then BitVec.ofNat 8 (fld (w 0x38) 24 8) else 0) else y.code }

/-- A stream end (R343). -/
def StreamEnd.fields (e : StreamEnd) (n : Nat) : List (Nat × Nat) :=
  [(1, 3), (1, n), (1, e.state), (13, 0), (64, e.spb.toNat), (4, e.digest.toNat), (8, e.next), (8, e.count), (4, e.matched.length), (8, 0),
   (192, packFields (e.gathered.map (fun w => (8, w.toNat)))), (16, 0)]

/-- A stream end read back: what a source has gathered and not sent lies between COUNT and its next element. What the layout has no place for
comes from the end it was, if that is known (log entry 26). -/
def State.streamFrom (s : State) (t : Nat) (old : StreamEnd) (v : Nat) : StreamEnd :=
  let spb := BitVec.ofNat 512 (natBytes v 0x10 64)
  let st := natBytes v 2 1
  let y : StreamEnd := if old.spb = spb ∧ old.state = st then old else { spb := spb, slots := if st = 5 then 0 else 16 * fld spb 432 8 }
  let next := natBytes v 0x54 8
  let count := natBytes v 0x5C 8
  let k := natBytes v 0x64 4
  { y with
    state := st, digest := BitVec.ofNat 32 (natBytes v 0x50 4), next := next, count := count,
    matched := if y.matched.length = k then y.matched else (s.streamTiles t { y with spb := spb } (fld spb 384 8)).take k
    gathered := if y.role = 0 then (List.range (next - count)).map (fun i => BitVec.ofNat 64 (natBytes v (0x70 + 8 * i) 8)) else []
    injected := if y.role = 0 then count else 0, xl := none, fault := none, asked := none, walk := 0 }

/-- A response to a request that this tile has performed, for the tile of a name (R122). -/
def State.responseFields (s : State) (p : Nat × Ret) : List (Nat × Nat) :=
  [(1, 4), (2, s.nameOf p.1), (1, p.2.code.toNat), (1, p.2.flags.toNat), (3, 0), (8, p.2.id), (256, p.2.reply), (48, 0)]
def State.responseFrom (s : State) (t v : Nat) : Nat × Ret :=
  (s.ofName t (natBytes v 1 2), { id := natBytes v 8 8, code := BitVec.ofNat 8 (natBytes v 3 1), flags := BitVec.ofNat 6 (natBytes v 4 1), reply := natBytes v 16 256 })

/-! #### Vector loads in flight (R172): one entry with the values that have arrived and the requests still out; of the 16 rows of a vldt four
such entries, each with four of its rows -/

/-- The request or wait of part j of a vector load. -/
def Ret.isPart (serial j : Nat) (e : Ret) : Bool := match e.sink with | .vec n k _ _ => n == serial && k == j | _ => false

/-- What part j of a vector load waits for: 1 more than the state of its request, 8 more if its line is to be allocated, or 11 for the wait for
another's line; the address, and the name. -/
def Queues.partOut (q : Queues) (serial j : Nat) : Nat × Nat × Nat :=
  let at_ (e : Ret) : Nat × Nat := match e.sink with | .vec _ _ inv a => (if inv then 8 else 0, a.toNat) | _ => (0, 0)
  match q.ret.find? (Ret.isPart serial j), q.lineWaits.find? (Ret.isPart serial j) with
  | some e, _ => (1 + e.state.code + (at_ e).1, (at_ e).2, e.id)
  | none, some e => (11, (at_ e).2, e.id)
  | none, none => (0, 0, 0)

/-- Rows of a vldt that an entry holds: those from 4·k on; 16 parts of any other load. -/
def VecLoad.parts (x : VecLoad) (k : Nat) : List Nat := if x.kind = 1 then (List.range 4).map (4 * k + ·) else List.range 16

/-- Row j of a vldt as it has arrived; of another load its one register. -/
def VecLoad.rowOf (x : VecLoad) (j : Nat) : Nat :=
  if x.kind = 1 then ((List.range 16).map (fun i => lane (fget 0 x.data i).toNat 32 j * 2 ^ (32 * i))).sum else (fget 0 x.data 0).toNat

/-- The first 64 bytes of an entry of a vector load. -/
def VecLoad.head (x : VecLoad) (k : Nat) (states : Nat) : List (Nat × Nat) :=
  [(1, 5), (1, k), (1, x.ctx), (1, x.kind), (1, x.vd), (1, x.nregs), (1, x.size), (1, x.left), (8, x.mask.toNat), (8, x.serial), (8, states)] ++
  (match x.bad with | some (j, c, a) => [(1, 1), (1, c.toNat), (6, j), (8, a.toNat)] | none => [(16, 0)]) ++ [(16, 0)]

/-- The entries of a vector load. -/
def Queues.vecFields (q : Queues) (x : VecLoad) : List (List (Nat × Nat)) :=
  (List.range (if x.kind = 1 then 4 else 1)).map (fun k =>
    let l := (x.parts k).map (fun j => (j, q.partOut x.serial j))
    let states := (l.zipIdx.map (fun e => e.1.2.1 * 16 ^ e.2)).sum
    x.head k states ++
    (if x.kind = 1 then l.map (fun e => (64, if e.2.1 = 0 then x.rowOf e.1 else e.2.2.1 + e.2.2.2 * 2 ^ 64))
     else (64, x.rowOf 0) :: l.flatMap (fun e => [(8, e.2.2.1), (4, e.2.2.2)])))

/-- The request, or the wait, of a part read back: `v` is the entry, `i` the place in it, `j` the part. An edge access is translated afresh. -/
def State.partFrom (s : State) (t v i j : Nat) : Option (Bool × Ret) :=
  let st := natBits (natBytes v 24 8) (4 * i) 4
  let kind := natBytes v 3 1
  let at_ := if kind = 1 then 64 + 64 * i else 128 + 12 * i
  let a : Word := BitVec.ofNat 64 (natBytes v at_ 8)
  let inv : Bool := decide (8 ≤ st)
  if st = 0 then none
  else some (decide (st = 11),
    { id := natBytes v (at_ + 8) 4, ctx := natBytes v 2 1, body := if inv then .load (lineOf a) 64 else .load a (if kind = 2 then natBytes v 6 1 else 64)
      sink := .vec (natBytes v 16 8) j inv a
      dst := if bit a 63 then .edge 0 else .tile (s.ofName t (addrCol a + 256 * addrRow a))
      state := if st = 11 then .held else RetState.ofCode (st % 8 - 1) })

/-- The parts of an entry that are still out. -/
def State.partsFrom (s : State) (t v : Nat) : List (Bool × Ret) :=
  (VecLoad.parts { kind := natBytes v 3 1 } (natBytes v 1 1)).zipIdx.filterMap (fun e => s.partFrom t v e.2 e.1)

/-- A vector load read back from its entries. -/
def vecFrom (l : List Nat) : VecLoad :=
  let v := l.headD 0
  let x : VecLoad := {
    serial := natBytes v 16 8, ctx := natBytes v 2 1, kind := natBytes v 3 1, vd := natBytes v 4 1, nregs := natBytes v 5 1,
    size := natBytes v 6 1, mask := BitVec.ofNat 64 (natBytes v 8 8), left := natBytes v 7 1,
    bad := (if natBytes v 32 1 = 0 then none else some (natBytes v 34 6, BitVec.ofNat 8 (natBytes v 33 1), BitVec.ofNat 64 (natBytes v 40 8))) }
  if x.kind = 1 then
    l.foldl (fun x v => (x.parts (natBytes v 1 1)).zipIdx.foldl (fun x e =>
      if natBits (natBytes v 24 8) (4 * e.2) 4 = 0 then x.place e.1 (natBytes v (64 + 64 * e.2) 64) else x) x) x
  else { x with data := fset 0 [] 0 (BitVec.ofNat 512 (natBytes v 64 64)) }

/-- The retention section (R172, R308, R343): transfer commands, stream ends, what takes an entry of the buffer, and beside them what fits of
the responses that the tile keeps, of the vector loads in flight, and of the other requests and waits for a line (log entry 26). A fetch is not
saved: it is asked for again. -/
def State.retentionSection (s : State) (t : Nat) : List (Nat × Nat) :=
  let x := s.tile t
  let others := x.q.ret.filter (fun e => !e.counted && (match e.sink with | .fetch _ _ => false | .vec _ _ _ _ => false | _ => true))
  let waits := x.q.lineWaits.filter (fun e => match e.sink with | .vec _ _ _ _ => false | _ => true)
  let l := (x.xfer.zipIdx.map (fun e => e.1.fields e.2) ++
    ((List.range 4).filter (fun n => (x.stream n).state ≠ 0)).map (fun n => (x.stream n).fields n) ++
    (x.q.ret.filter Ret.counted).map (s.retFields t 1) ++ x.q.responses.map s.responseFields ++ x.q.vloads.flatMap x.q.vecFields ++
    others.map (s.retFields t 1) ++ waits.map (s.retFields t 6)).take 128
  l.map (fun f => (320, packFields f)) ++ [(320 * (128 - l.length), 0)]

/-! ### The header (R124) -/

/-- Lengths of the sections, by entry of the section table. -/
def sectionSizes (spm : Bool) : List Nat := [16896, 384, 256, 86784, 1024, 640, 520, 69632, 40960, 1136, if spm then 0x180000 else 0, 0, 0, 0]

/-- Offset of section i in the images the model writes: one after another behind the header, each at a multiple of 64. -/
def sectionAt (i : Nat) : Nat := 256 + (((sectionSizes true).take i).map (fun n => (n + 63) / 64 * 64)).sum

/-- Bytes that an image takes. -/
def imageSize : Nat := sectionAt 11

/-- The header of an image. -/
def State.header (s : State) (t : Nat) (spm : Bool) : List (Nat × Nat) :=
  let x := s.tile t
  let cs := (List.range 12).filter (fun c => (x.ctx c).savedState ≠ .free)
  [(2, 1), (2, if spm then 1 else 0), (1, x.col), (1, x.row), (1, (cs.map (fun c => (x.ctx c).hwm)).foldl Nat.max 0), (1, 0),
   (2, (cs.map (fun c => 2 ^ c)).sum), (6, 0), (8, x.hackAt), (8, 0)] ++
  ((sectionSizes spm).zipIdx.flatMap (fun e => [(8, if e.1 = 0 then 0 else sectionAt e.2), (8, e.1)]))

/-! ### Save and restore (R122, R126) -/

/-- The bytes of a section. -/
def State.section_ (s : State) (t i : Nat) : List (Nat × Nat) :=
  let x := s.tile t
  if i = 0 then (List.range 12).flatMap (fun c => (x.ctx c).toRecord c)
  else if i = 1 then (List.range 12).flatMap (fun c => (x.ctx c).frame.toRecord)
  else if i = 2 then s.trainSection t
  else if i = 3 then x.mx.section_
  else if i = 4 then x.barrierSection
  else if i = 5 then x.q.counterSection
  else if i = 6 then x.q.handlerSection
  else if i = 7 then s.inboxSection t
  else if i = 8 then s.retentionSection t
  else if i = 9 then x.portSection
  else []

/-- Write fields into the islands' memory. -/
def State.putSys (s : State) (a : Nat) : List (Nat × Nat) → State
  | [] => s
  | (n, v) :: r => (s.memWrite (sysKey a) n v).putSys (a + n) r

/-- Hardware dumps the context section to SPM offset 0x17_8000 (R124). -/
def State.dumpContexts (s : State) (t : Nat) : State := s.putFields t 0x178000 (s.section_ t 0)

/-- Save a tile: its image goes to an address of the islands' memory (R124). -/
def State.saveTile (s : State) (t base : Nat) (spm : Bool) : State :=
  let x := s.tile t
  let s := s.putSys base (s.header t spm)
  let s := (List.range 10).foldl (fun s i => s.putSys (base + sectionAt i) (s.section_ t i)) s
  let s := if spm then (List.range (0x180000 / 8)).foldl (fun s i => s.memWrite (sysKey (base + sectionAt 10 + 8 * i)) 8 (s.spmRead t (8 * i) 8)) s else s
  { s with images := fset Tile.reset s.images base x }

/-- Offset and length of a section in an image. -/
def State.sectionOf (s : State) (base i : Nat) : Nat × Nat :=
  (s.memRead (sysKey (base + 0x20 + 16 * i)) 8, s.memRead (sysKey (base + 0x28 + 16 * i)) 8)

/-- A tile can hold the train position that an image gives it (R380): its column, and room for the train in its region. -/
def State.trainFits (s : State) (t v : Nat) : Bool :=
  let b (i : Nat) : Nat := natBytes v i 1
  b 0 % 8 == 0 || (decide (b 2 + b 4 = (s.tile t).col) && decide (b 2 + b 3 ≤ (s.dims t).1) && decide (b 4 < b 3))

/-- R126, R380: 0 when an image may be restored onto a tile, or the check that fails. -/
def State.restoreCheck (s : State) (t base : Nat) : Nat :=
  let spm := (s.memRead (sysKey (base + 2)) 2).testBit 0
  let l := (List.range 14).map (s.sectionOf base)
  let used := l.filter (fun e => e.2 != 0)
  let apart : Bool := used.zipIdx.all (fun a => (used.drop (a.2 + 1)).all (fun b => decide (a.1.1 + a.1.2 ≤ b.1 ∨ b.1 + b.2 ≤ a.1.1)))
  if s.memRead (sysKey base) 2 ≠ 1 ∨ !apart ∨ used.any (fun e => decide (e.1 < 256)) ∨ l.map (·.2) ≠ sectionSizes spm then 1
  else if s.isReduced t ∧ 40 ≤ s.memRead (sysKey (base + 6)) 1 then 2
  else if !s.trainFits t (s.memRead (sysKey (base + (s.sectionOf base 2).1)) 64) then 3
  else 0

/-- A receive counter from its two words (R298, R308). -/
def counterFrom (st cfg : Nat) : Counter :=
  { value := natBits st 0 40, state := natBits st 40 2, thr := natBits cfg 0 40, messages := cfg.testBit 55, hidx := natBits cfg 56 6, hv := cfg.testBit 62 }

/-- A barrier from its status word (R346). -/
def barrierFrom (v : Nat) : Barrier :=
  { pend := natBits v 0 36, arr := natBits v 36 8, gen := natBits v 44 4, state := natBits v 48 2, err := v.testBit 50, ovf := v.testBit 51,
    stray := v.testBit 52, cfl := BitVec.ofNat 6 (natBits v 53 6) }

/-- The trigger slots of a counter section; who armed one is known where the model has kept it (log entry 26). -/
def triggersFrom (keep : List Trigger) (v : Nat) : List Trigger :=
  (List.range 16).filterMap (fun i =>
    let at_ := 256 + 24 * i
    let o := natBytes v (at_ + 4) 4
    if o = 0 then none
    else
      let y := (keep.find? (fun y => y.order + 1 == o)).getD {}
      some { y with counter := natBytes v at_ 4, order := o - 1, mdw := BitVec.ofNat 64 (natBytes v (at_ + 8) 8), pw := BitVec.ofNat 64 (natBytes v (at_ + 16) 8) })

/-- The gathered elements of an output port in a port section. -/
def gatheredFrom (keep : List (Nat × Word)) (v p : Nat) : List (Nat × Word) :=
  (List.range (natBytes v (1128 + 2 * p) 2)).map (fun i => (match keep[i]? with | some y => y.1 | none => 0, BitVec.ofNat 64 (natBytes v (168 + 240 * p + 8 * i) 8)))

/-- Put an entry at its place in the order of names. -/
def insertRet (e : Ret) : List Ret → List Ret
  | [] => [e]
  | y :: l => if e.id < y.id then e :: y :: l else y :: insertRet e l

/-- A PORTCFG as a restore loads it: reserved bits are dropped (R7, R291). -/
def portcfgFrom (p : Nat) (w : Word) : Word := w &&& (if p < 4 then 0x0000FF0080070000#64 else 0xFFFFFF1F8007FFFF#64)

/-- A handler entry as a restore loads it: reserved bits and, of a handler in SPM, PC bits that must be zero are dropped (R7, R294). -/
def handlerFrom (w : Word) : Word := w &&& (if bit w 62 then 0xF0FFFFFFFFFFFFFC#64 else 0xF0000000001FFFFC#64)

/-- The queue objects of an image (R308): what its bytes give, and beside it what found no entry there (log entry 26). -/
def State.queuesFrom (s : State) (t : Nat) (keep : Queues) (cmds : List XCmd) (ends : FMap StreamEnd) (ct hs ib rb ps tr : Nat) : Queues :=
  let boxes := boxesFrom ib
  let more := (natBytes ib 65536 4).testBit 31
  let items (n : Nat) : List QItem := (boxes.filter (fun b => b.list == n)).map Boxed.item
  let triggers := triggersFrom keep.triggers ct
  let slots := (List.range 128).map (fun i => natBytes rb (320 * i) 320)
  let vecs := slots.filter (fun v => v % 256 == 5)
  let vecs := vecs.filter (fun v => (vecs.filter (fun y => natBytes y 16 8 == natBytes v 16 8)).length == (if natBytes v 3 1 = 1 then 4 else 1))
  let parts := vecs.flatMap (s.partsFrom t)
  let ret := (slots.filter (fun v => v % 256 == 1)).map (s.retFrom t cmds) ++ (parts.filter (fun e => !e.1)).map (·.2)
  let waits := (slots.filter (fun v => v % 256 == 6)).map (s.retFrom t cmds) ++ (parts.filter (fun e => e.1)).map (·.2)
  let loads := (vecs.filter (fun v => natBytes v 1 1 == 0)).map (fun v =>
    vecFrom (v :: vecs.filter (fun y => natBytes y 16 8 == natBytes v 16 8 && natBytes y 1 1 != 0)))
  let answers := (slots.filter (fun v => v % 256 == 4)).map (s.responseFrom t)
  let isFetch (e : Ret) : Bool := match e.sink with | .fetch _ _ => true | _ => false
  let q : Queues := { keep with
    portcfg := (List.range 8).foldl (fun l p => fset 0 l p (portcfgFrom p (BitVec.ofNat 64 (natBytes ps (104 + 8 * p) 8)))) []
    gathered := (List.range 4).foldl (fun l p => fset [] l (p + 4) (gatheredFrom (fget [] keep.gathered (p + 4)) ps p)) []
    tsr := BitVec.ofNat 64 (natBytes ps 0 8)
    counters := (List.range 16).foldl (fun l n => fset {} l n (counterFrom (natBytes ct (16 * n) 8) (natBytes ct (16 * n + 8) 8))) []
    handlers := (List.range 64).foldl (fun l n => fset 0 l n (handlerFrom (BitVec.ofNat 64 (natBytes hs (8 * n) 8)))) []
    isSealed := (natBytes hs 512 8).testBit 0
    triggers := triggers, armed := triggers.foldl (fun m y => Nat.max m (y.order + 1)) 0, refusing := []
    ret := ret.foldl (fun l e => insertRet e l) (keep.ret.filter (fun e => !e.counted && !isFetch e && !ret.any (fun y => y.id == e.id)))
    lineWaits := waits ++ keep.lineWaits.filter (fun e => !waits.any (fun y => y.id == e.id))
    vloads := loads ++ keep.vloads.filter (fun x => !loads.any (fun y => y.serial == x.serial))
    responses := answers ++ keep.responses.drop answers.length }
  if more then q
  else
    let inq := (List.range 4).foldl (fun l p => fset [] l p ((boxes.filter (fun b => b.list == 3 + p)).flatMap (s.unboxGroup t))) []
    let inq := match q.port7 with | some p => fset [] inq p (elems7 tr) | none => inq
    { q with
      dispatchQ := items 1, unclaimed := items 2, inq := inq
      used := (boxes.map (fun b => b.frees)).sum + ((List.range 4).map (fun n => (fget {} ends n).slots)).sum }

/-- Load the sections of an image into a tile, as the hack left it: held (R126). -/
def State.loadTileImage (s : State) (t base : Nat) : State :=
  let keep := fget Tile.reset s.images base
  let x := s.tile t
  let sec (i : Nat) : Nat := let e := s.sectionOf base i; s.memRead (sysKey (base + e.1)) e.2
  let cs := sec 0
  let fs := sec 1
  let tr := sec 2
  let mx := sec 3
  let bs := sec 4
  let rb := sec 8
  let ps := sec 9
  let ctxOf (c : Nat) : Ctx :=
    let y := (keep.ctx c).ofRecord c (natBytes cs (if c < 4 then 2816 * c else 4 * 2816 + 704 * (c - 4)) (recordSize c))
    let y : Ctx := { y with frame := Frame.ofRecord (natBytes fs (32 * c) 32), rstamp := BitVec.ofNat 64 (natBytes ps (8 + 8 * c) 8), lines := [],
                            lineAsked := false, once := [], xlate := .none, probed := none, faulted := false, dueFault := none }
    -- only a tile reset ends halted (R103, R120)
    if (x.ctx c).state = .halted then x.ctx c else { y with heldFrom := y.state, state := .held }
  let ctxs := (List.range 12).foldl (fun m c => fset Ctx.reset m c (ctxOf c)) []
  let mons (c r : Nat) : Bool := (ctxOf c).claimIsMon r
  let bars := (List.range 64).foldl (fun l n => fset {} l n (barrierFrom (natBytes bs (8 * n) 8))) []
  let barGen (n : Nat) : Nat := (fget {} bars n).gen
  let partAt (p : Nat) : Nat := ((List.range p).map partSize).sum
  let m := (List.range 22).foldl (fun m p => m.load p (natBytes mx (partAt p) (partSize p)) keep.mx.fifo barGen mons) ({ state := 3, serial := keep.mx.serial } : Matrix)
  let slots := (List.range 128).map (fun i => natBytes rb (320 * i) 320)
  let cmds := (List.range 8).filterMap (fun p => (slots.find? (fun v => v % 256 == 2 && natBytes v 1 1 == p)).map
    (XCmd.ofFields keep.xfer[p]? (s.nextId + p) barGen mons))
  let ends := (List.range 4).foldl (fun l n => match slots.find? (fun v => v % 256 == 3 && natBytes v 1 1 == n) with
    | some v => fset {} l n (s.streamFrom t (keep.stream n) v)
    | none => l) []
  let train : Train := { keep.train with
    state := natBits tr 0 3, id := natBytes tr 1 1, c0 := natBytes tr 2 1, n := natBytes tr 3 1, d := natBytes tr 4 1, marker := natBits (natBytes tr 5 1) 0 6,
    nextAddr := BitVec.ofNat 64 (natBytes tr 8 8), vdrop := natBytes tr 0x10 8, wire := [], lane := [], frames := [] }
  let known := s.images.any (fun e => e.1 == base)
  { s with nextId := s.nextId + 8 }.setTile t { x with
    ctxs := ctxs, stale := [], tok := 0, rr := 0, mx := m, q := s.queuesFrom t keep.q cmds ends (sec 5) (sec 6) (sec 7) rb ps tr, bars := bars,
    coll := Coll.ofRecord (natBytes bs 0x200 64),
    levels := (List.range 15).foldl (fun l n => fset {} l n (LevelSlot.ofRecord (natBytes bs (0x240 + 24 * n) 24))) []
    xfer := cmds, xhold := cmds.any (fun e => e.state == 2 && e.code != 0), streams := ends, train := train, inv := []
    exited := if known then keep.exited else x.exited, exitValue := if known then keep.exitValue else x.exitValue }

/-- A tile whose contexts and objects have gone elsewhere: contexts free but halted ones, stamps kept (R103, R279). -/
def Tile.emptied (x : Tile) : Tile :=
  { x with
    ctxs := (List.range 12).foldl (fun l c => fset Ctx.reset l c (x.ctx c).freed) []
    mx := { state := if x.held then 3 else 0 }, q := { tsr := x.q.tsr }, bars := [], coll := {}, levels := [], xfer := [], xhold := false, streams := [],
    train := {}, inv := [], stale := [] }

/-! ### Going on (R103, R122, R183, R205, R218, R266, R268, R307, R334, R342) -/

/-- A held context goes on (R103, R183, R266). -/
def Ctx.resume (x : Ctx) : Ctx :=
  if x.state ≠ .held then x
  else
    let st : CtxState := match x.heldFrom with
      | .faultWait => .live
      | .draining => if x.owed = 0 then .free else .draining
      | y => y
    let f := match x.frame.state with
      | .fill => { x.frame with words := [] }
      | _ => x.frame
    if st = .free then { rstamp := x.rstamp }
    else { x with state := st, heldFrom := .free, xlate := .none, once := [], probed := none, faulted := false, frame := f, waitAt := none, lines := []
                  dueFault := x.dueFault.filter (fun e => e.1 != 0x15) }

/-- A tile resumes (R194, R205, R268, R334, R342). -/
def Tile.resume (x : Tile) : Tile :=
  { x with
    held := false
    ctxs := (List.range 12).foldl (fun m c => fset Ctx.reset m c (x.ctx c).resume) []
    mx := if x.mx.state = 3 then { x.mx with state := x.mx.kept, kept := 0 } else x.mx
    xfer := x.xfer.map (fun e => { e with xl := none, fault := none, walk := 0 })
    streams := x.streams.map (fun e => (e.1, { e.2 with xl := none, fault := none, walk := 0 }))
    q := { x.q with ret := x.q.ret.map (fun e => { e with fault := none }) } }

/-- Every retained request whose translation had failed or was asked for is translated afresh (R258, R267). -/
def State.askRetained (s : State) (t : Nat) : State :=
  ((s.tile t).q.ret.filter Ret.wantsXlate).foldl (fun s e => s.later .l2TlbLookup { a := t, b := whoRetained e.id }) s

/-- A frame whose body is not held here is fetched and checked before it goes on (R183). -/
def State.refill (s : State) (t : Nat) : State :=
  (List.range 12).foldl (fun s c => if (s.ctx t c).frame.lacks then s.later .repeaterFill { a := t, b := c } else s) s

/-- The responses that a tile has kept go to their requesters (R122, R218). -/
def State.sendResponses (s : State) (t : Nat) : State :=
  (s.tile t).q.responses.foldl (fun s p => match s.entry p.1 p.2.id with
    | some e =>
      if e.state ≠ .waits then s
      else
        let e := { e with state := .done, reply := p.2.reply, flags := p.2.flags, code := p.2.code }
        let b := e.back p.1
        (s.setEntry p.1 e).later b.1 b.2
    | none => s) (s.updTile t (fun x => x.updQ (fun q => { q with responses := [] })))

/-- A tile goes on at the resume. -/
def State.resumeTile (s : State) (t : Nat) : State := (((s.updTile t Tile.resume).askRetained t).refill t).sendResponses t

/-- The step's first operand is the site that it acts for. -/
def actsFor (i : Instr) : Bool :=
  match i with
  | .remoteRequest => true
  | .remoteReply => true
  | .acknowledgement => true
  | .edgePortArrival => true
  | .edgeSlotSend => true
  | .moduleAccess => true
  | .edgeRefusal => true
  | .portMessage => true
  | .putMessage => true
  | .amMessage => true
  | .hostMessage => true
  | .messageRefusal => true
  | .refusedReinject => true
  | .barvMessage => true
  | .collContribution => true
  | .collResult => true
  | .kqRequest => true
  | .streamDigest => true
  | .streamLineReply => true
  | .streamMessageInject => true
  | .streamMessage => true
  | .transferStart => true
  | .transferReadRequest => true
  | .transferSegment => true
  | .transferComplete => true
  | .matrixCommandStart => true
  | .matrixCommandComplete => true
  | .repeaterFill => true
  | .dispatch => true
  | .triggeredSendInject => true
  | .tsyncLine => true
  | .trainFormationRequest => true
  | .trainFormed => true
  | .l2TlbLookup => true
  | _ => false

/-- The steps due for what a site held go with it. -/
def State.dropSteps (s : State) (t : Nat) : State := { s with agenda := s.agenda.filter (fun e => !(actsFor e.1 && e.2.a == t)) }

/-- The step that is due for an entry of a restored buffer. -/
def State.wakeEntry (s : State) (t : Nat) (e : Ret) : State :=
  match e.state, e.body with
  | .refused, b => if b.isQueued then s.later .refusedReinject { a := t, b := e.id } else s
  | .done, _ => let b := e.back t; s.later b.1 b.2
  | .formed, b => if b.vc = 5 ∨ b.isSignal then s.later e.arrival { a := t, b := e.id } else s
  | .flying, .elems _ _ acc _ => acc.foldl (fun s u => s.later .streamMessage { a := t, b := e.id, c := u }) s
  | .flying, _ => s.later e.arrival { a := t, b := e.id }
  | _, _ => s

/-- Every step that what a restore has loaded calls for (R126, R205, R218, R246). -/
def State.wakeTile (s : State) (t : Nat) : State :=
  let x := s.tile t
  let s := x.q.ret.foldl (fun s e => s.wakeEntry t e) (s.wakeUnit t)
  let s := x.q.fired.foldl (fun s _ => s.later .triggeredSendInject { a := t }) s
  let s := x.q.dispatchQ.foldl (fun s _ => s.later .dispatch { a := t }) s
  let s := x.xfer.foldl (fun s e =>
    if e.state = 2 then s
    else
      let s := s.later .transferStart { a := t }
      if e.state = 1 ∧ s.xkind t e = .localCopy ∧ e.progress < e.len then s.later .transferSegment { a := t } else s.xferSettled t e.id) s
  let s := (List.range 4).foldl (fun s n => let e := x.stream n
    if e.state = 2 ∧ e.role = 0 then s.later .streamMessageInject { a := t, b := n } else s) s
  let s := if x.train.lineDue = 0 ∨ x.train.raised then s else s.later .tsyncLine { a := t }
  if x.train.state ≠ 1 then s
  else if x.train.joined then (match s.memberSite t 0 with | some l => s.later .trainFormed { a := l } | none => s)
  else
    -- members that the formation request had not reached
    (List.range x.train.n).foldl (fun s d => match s.memberSite t d with
      | some u => if d = 0 ∨ (s.tile u).train.request.isSome ∨ (s.tile u).train.state ≠ 0 then s else s.later .trainFormationRequest { a := t, b := d }
      | none => s) (s.later .trainFormed { a := t })

/-- The place of a tile in its kernel's rectangle. -/
def Kernel.indexOf (k : Kernel) (x : Tile) : Nat := (x.row - k.y0) * k.w + (x.col - k.x0)

/-- The tile belongs to a saved kernel: it runs again only with the whole kernel (R384). -/
def State.ofSaved (s : State) (t : Nat) : Bool :=
  let x := s.tile t
  x.region != 0 && x.kernel != 0 && ((s.region x.region).kernel x.kernel).state == 6

/-- Load an image into a tile (R126): a tile of a held region, or of a saved kernel, stays held until its resume; another goes on at once. -/
def State.loadImage (s : State) (t base : Nat) : State :=
  let held := (s.tile t).held
  let s := ((s.dropSteps t).loadTileImage t base).wakeTile t
  let spm := s.sectionOf base 10
  let s := (List.range (spm.2 / 8)).foldl (fun s i => s.spmPut t (8 * i) 8 (s.memRead (sysKey (base + spm.1 + 8 * i)) 8)) s
  if held then s else if s.ofSaved t then s.updTile t (fun x => { x with held := true }) else s.resumeTile t

/-- A tile of a saved kernel is restored: with the last one the kernel is held, and goes on at once in a region that runs (R384). -/
def State.noteRestored (s : State) (t : Nat) : State :=
  let r := (s.tile t).region
  (s.region r).kernels.foldl (fun s e =>
    let i := e.2.indexOf (s.tile t)
    if (s.tile t).kernel ≠ e.1 ∨ !e.2.unrestored.contains i then s
    else
      let left := e.2.unrestored.filter (· != i)
      let s := s.updRegion r (fun z => z.setKernel e.1 { z.kernel e.1 with unrestored := left })
      if !left.isEmpty then s
      else if (s.region r).state ≠ 2 then s.updRegion r (fun z => z.setKernel e.1 { z.kernel e.1 with state := 5 })
      else ((s.kernelSites r e.2).map (·.2)).foldl State.resumeTile (s.updRegion r (fun z => z.setKernel e.1 { z.kernel e.1 with state := 4 }))) s

/-- An image has been loaded into a tile since its inspection: what the inspection saved is not loaded at the resume (R450). -/
def State.dropSaved (s : State) (t : Nat) : State := s.updRegion (s.tile t).region (fun z => { z with saved := z.saved.filter (· != t) })

/-- The restore fault changes no state of the tile (R97, R126). -/
def State.restoreFault (s : State) (t base c : Nat) : State :=
  s.tileEvent t 0x17 0 0 0 (BitVec.ofNat 64 (c + 256 * s.memRead (sysKey (base + 6)) 1)) (BitVec.ofNat 64 base)

/-- RESTORE (R126): Checks and loads a tile image, returning each context to its saved state. Operands: a = t, b = img. -/
def execRestore (s : State) : Out :=
  let t := s.ev.a
  let base := s.ev.b
  let c := s.restoreCheck t base
  if c ≠ 0 then .next (s.restoreFault t base c)
  else .next (((s.loadImage t base).noteRestored t).dropSaved t)

end Sys2Proof.Machine
end

