-- ==== Sys2Proof/Machine/Meter.lean ====
section
/-! DEFINITION. Metering: reports, counters, usage records and the rings they are written to (R408, R440 to R443). -/
namespace Sys2Proof.Machine

/-! ### Counters (R440, R441) -/

/-- What the SEC has summed for a region: by counter of R440, and at 12 the ticks for which its tiles were held. -/
def Region.sum (x : Region) (i : Nat) : Nat := fget 0 x.meter i

/-- A saturating 64-bit counter. -/
def sat64 (n : Nat) : Nat := Nat.min n (2 ^ 64 - 1)

/-- The energy estimate in thousandths of a picojoule (R441). -/
def energyOf (c : Nat → Nat) : Nat :=
  40000 * c 0 + 30000 * c 1 + 1200 * c 2 + 300 * c 3 + 150 * c 4 + 120 * c 5 + 75 * c 6 + 50000 * c 9

/-- Ticks in cycles: 2.4 to a tick, rounded up (R5). -/
def ticksToCycles (n : Nat) : Nat := (12 * n + 4) / 5

/-- The twelve counters from the sums (R440), a tile's cycles from its ticks. -/
def counterOf (m : FMap Nat) (i : Nat) : Nat :=
  let base (i : Nat) : Nat := if i = 0 then ticksToCycles (fget 0 m 12) else fget 0 m i
  if i = 7 then sat64 (1572864 * fget 0 m 12 / 10 ^ 9)
  else if i = 10 then sat64 (energyOf base / 10 ^ 12)
  else if i = 11 then 0
  else sat64 (base i)

/-- The read-only window of a region (R440); before the first record there is no digest of one. -/
def Region.window (x : Region) : List (Nat × Nat) :=
  (List.range 12).map (fun i => (8, counterOf x.meter i)) ++ [(8, x.recNum), (24, 0), (64, if x.recNum = 0 then 0 else x.recDigest.toNat), (64, 0)]

/-- The boundaries passed by a stamp get the counters as they stand: no report so far is stamped as late (R442). -/
def Region.snapTo (x : Region) (stamp : Nat) : Region :=
  let last := match x.snaps.getLast? with | some e => e.1 | none => x.lastBoundary
  let n := (stamp - last) / 10 ^ 9
  { x with snaps := x.snaps ++ (List.range n).map (fun i => (last + (i + 1) * 10 ^ 9, x.meter)) }

/-- A report with a stamp counts in the running counters, and at every boundary above its stamp (R442). -/
def Region.count (x : Region) (stamp : Nat) (add : FMap Nat → FMap Nat) : Region :=
  let x := x.snapTo stamp
  { x with meter := add x.meter, snaps := x.snaps.map (fun e => if stamp < e.1 then (e.1, add e.2) else e) }

/-- Frames that a region owns (R433, R441). -/
def State.framesOf (s : State) (r : Nat) : Nat := (s.tags.filter (fun e => e.2.owner == r)).length

/-- A tile reports its counts, under its send stamp (R278, R442): both security cores add them (R421). -/
def State.reportTile (s : State) (t : Nat) : State :=
  let x := s.tile t
  let r := x.region
  let s := s.setTile t { x with counts := [], metered := s.tick }
  if r = 0 then s
  else
    let z := s.region r
    let put (m : FMap Nat) (i n : Nat) : FMap Nat := fset 0 m i (fget 0 m i + n)
    let add (m : FMap Nat) : FMap Nat :=
      put (put (([1, 2, 3, 4, 5, 6, 9]).foldl (fun m i => put m i (fget 0 x.counts i)) m) 12 (s.tick - x.metered)) 8
        (4096 * s.framesOf r * (s.tick - z.framesTo))
    s.setRegion r { z.count (s.stampAt t).toNat add with framesTo := s.tick, ks := z.ks + fget 0 x.counts 12, cc := z.cc + fget 0 x.counts 1 }

/-- METERING_REPORT (R442): A tile reports its counts to the security cores at least every 65,536 cycles. Operands: a = t. -/
def execMeteringReport (s : State) : Out := .next (s.reportTile s.ev.a)

/-! ### Usage records (R442, R443) -/

/-- The seed of the identity key pair: the digest of the bytes QNMO-ID and the UDS (R422). -/
def idSeed : BitVec 256 := Config.shake256 256 312 (packFields [(1, 0x51), (1, 0x4E), (1, 0x4D), (1, 0x4F), (1, 0x2D), (1, 0x49), (1, 0x44), (32, Config.uds.toNat)])

/-- DEVID: the digest of the public identity key (R422; log entry 8). -/
def devid : BitVec 256 := Config.shake256 256 15616 (Config.keyGen idSeed).1.toNat

/-- A signature under the private identity key (R422, R439, R442). -/
def signed (len v : Nat) : Nat := (Config.sign (Config.keyGen idSeed).2 len v).toNat

/-- The body of a usage record (R442). -/
def Region.recordBody (x : Region) (r final b : Nat) (m : FMap Nat) : Nat :=
  packFields ([(2, 1), (1, final), (1, 0), (2, r), (2, 0), (8, x.recNum + 1), (8, b), (4, x.gap), (4, 0), (64, x.recDigest.toNat)] ++
    (List.range 12).map (fun i => (8, counterOf m i)) ++ [(32, devid.toNat), (32, 0)])

/-- Build a record: it is held until the ring takes it (R443). -/
def Region.build (x : Region) (r final b : Nat) (m : FMap Nat) : Region :=
  let body := x.recordBody r final b m
  let full : BitVec 28672 := BitVec.ofNat 28672 (body + signed 2048 body * 2 ^ 2048)
  { x with recNum := x.recNum + 1, gap := 0, recDigest := Config.shake256 512 2048 body, heldRecs := x.heldRecs ++ [full] }

/-- Write the records that are held, oldest first, while the ring has room (R443). -/
def State.writeHeld (s : State) : List Nat → State
  | [] => { s with heldOrder := [] }
  | r :: rest =>
    if (s.ring usageRing).full then { s with heldOrder := r :: rest }
    else match (s.region r).heldRecs with
      | [] => s.writeHeld rest
      | e :: l => ({ s.updRegion r (fun x => { x with heldRecs := l }) with lastRecord := r }.ringWrite usageRing e.toNat).writeHeld rest

def State.flushUsage (s : State) : State := s.writeHeld s.heldOrder

/-- A record of a region is held, the newest of all (R443). -/
def State.holdRecord (s : State) (r : Nat) : State := { s with heldOrder := s.heldOrder ++ [r] }

/-- USAGE_RECORD (R442): At B + 100,000 ticks the SEC builds and signs a usage record. Operands: a = r. -/
def execUsageRecord (s : State) : Out :=
  let r := s.ev.a
  let x := s.region r
  if x.finalDue then
    -- the final record, at the last release tick; the region's number is free again
    let x := x.build r 1 x.finalAt x.meter
    .next ((s.setRegion r { heldRecs := x.heldRecs }).holdRecord r).flushUsage
  else if x.state = 0 ∨ x.state = 5 then .next s
  else
    let b := x.lastBoundary + 10 ^ 9
    if s.now x.home < b + 100000 then notYet s
    else
      let x := x.snapTo (s.now x.home)
      let m := match x.snaps.find? (fun e => e.1 == b) with | some e => e.2 | none => x.meter
      let x := { x with lastBoundary := b, snaps := x.snaps.filter (fun e => decide (b < e.1)) }
      let full := decide (4 ≤ x.heldRecs.length)
      let x := if full then { x with gap := x.gap + 1 } else x.build r 0 b m
      let s := s.setRegion r x
      .next ((if full then s else s.holdRecord r).flushUsage.later .usageRecord { a := r })

/-- RING_RIDX_WRITE (R443): Software writes RIDX of a device-written ring, freeing space so that usage records the SEC holds are written and an out-of-range index stops being treated as full. Operands: a = ring, b = v. -/
def execRingRidxWrite (s : State) : Out :=
  let k := s.ev.a
  let v := s.ev.b
  let x := s.ring k
  if x.n = 0 then .next s
  else
    let s := s.memWrite (sysKey (x.base + x.n * x.size + 8)) 8 v
    if x.widx < v ∨ v < x.ridx then .next (s.setRing k { x with bad := true })
    else
      let s := s.setRing k { x with ridx := v, bad := false }
      .next (if k = usageRing then s.flushUsage else s)

end Sys2Proof.Machine
end

