-- ==== Sys2Proof/Machine/Sites.lean ====
section
/-! DEFINITION. Sites and the tiles on them: reset, death, fencing, retest, rehoming and release (R86 to R96, R417, R418). -/
namespace Sys2Proof.Machine

/-! ### Scrub, monitor, tile reset (R103, R416, R417, R424) -/

/-- Scrub a site's SPM: every byte reads zero; the scrub's end is noted, 24,576 cycles later (R416 to R418). -/
def State.scrub (s : State) (t : Nat) : State :=
  let lo := spmBase t
  let e := s.ecc.filter (fun e => decide (e.1 < lo / 8 ∨ lo / 8 + 2 ^ 18 ≤ e.1))
  ({ s with mem := Memory.clear s.mem lo (2 ^ 21), ecc := e }).updTile t (fun x => { x with scrubEnd := s.nowAt t + 10240 })

/-- Load the tile monitor at SPM offset 0x17_0000, all of bank 23, row by row where its repair table puts it (R417, R424; log entry 8). -/
def State.loadMonitor (s : State) (t : Nat) : State :=
  let a := spmBase t + 0x170000
  let old := s.mem
  let m := Memory.fill old a 65536 (fun i => if s.spmKey t (0x170000 + i) = a + i then Config.monitorImage i else Memory.byte old (a + i))
  let e := s.ecc.filter (fun e => decide (e.1 < a / 8 ∨ a / 8 + 8192 ≤ e.1))
  (List.range 4).foldl (fun s k =>
    let row := fld (fget 0 (s.tile t).reptab (94 + k)) 0 10
    let b := s.spmKey t (0x170000 + 64 * row)
    if b = a + 64 * row then s
    else { s with mem := Memory.fill s.mem b 64 (fun i => Config.monitorImage (64 * row + i)), ecc := s.ecc.filter (fun e => decide (e.1 < b / 8 ∨ b / 8 + 8 ≤ e.1)) })
    { s with mem := m, ecc := e }

/-- A tile at tile reset in a region: what a tile reset keeps (R87, R103). -/
def Tile.fresh (x : Tile) (r col row tick : Nat) : Tile :=
  { region := r, col := col, row := row, reptab := x.reptab, rfbad := x.rfbad, dmax := x.dmax, scrubEnd := x.scrubEnd, metered := tick, leaving := x.leaving }

/-! ### The hop table and the loading of routes (R93, R94, R312) -/

/-- The four bytes of a tile in the hop table (R94). -/
def State.hopBytes (s : State) (r n : Nat) : Nat :=
  let w := (s.region r).w
  match s.place r (n % w) (n / w) with
  | .site t => ((List.range 4).map (fun d => fld (s.hopWord t d) 0 6 * 256 ^ d)).sum
  | _ => 0

/-- Write a region's hop table at HOPTAB, through its tables (R94, R486). -/
def State.writeHopTable (s : State) (r : Nat) : State :=
  let x := s.region r
  let a := x.field 0x038 7
  (List.range (x.w * x.h)).foldl (fun s n => match s.islandXlate r (a + 4 * n) 1 with
    | some l => s.islandStore r l 4 (s.hopBytes r n)
    | none => s) s

/-- Reload a region's neighbour-pointer and hop registers and its hop table (R93, R94). -/
def State.reloadRegion (s : State) (r : Nat) : State := ((s.regionSites r).foldl State.loadNbr s).writeHopTable r

/-! ### The loss of a tile (R96) -/

/-- What becomes of an entry retained at a source for a lost tile: whether it counts as a discarded message, and the state. What the tile had
performed and not answered is lost with it. -/
def State.loseEntry (s : State) (u lost : Nat) (e : Ret) : Bool × State :=
  match e.body with
  | .elems tag d acc ack =>
    if acc.contains lost ∨ ack.contains lost then
      let acc := acc.filter (· != lost)
      let ack := ack.filter (· != lost)
      (true, if acc.isEmpty ∧ ack.isEmpty then (s.freeEntry u e.id).streamSettled u tag else s.setEntry u { e with body := .elems tag d acc ack })
    else (false, s)
  | _ =>
    if e.dst ≠ .tile lost then (false, s)
    else match e.body, e.sink with
      | .seg _ _ _, .xfer cmd off _ => (true, (s.freeEntry u e.id).xferFail u cmd off 0x14)
      | _, .xfer cmd off _ => (false, (s.freeEntry u e.id).xferFail u cmd off 0x14)
      | .load _ _, _ => (false, (s.freeEntry u e.id).deliver u { e with code := 0x14 })
      | .atomic _ _ _ _ _, _ => (false, (s.freeEntry u e.id).deliver u { e with code := 0x14 })
      | _, _ => (true, s.freeEntry u e.id)

/-- The entries of one source. -/
def State.loseAt (s : State) (lost u : Nat) : Nat × State :=
  (s.tile u).q.ret.foldl (fun p e => let q := p.2.loseEntry u lost e; (if q.1 then p.1 + 1 else p.1, q.2)) (0, s)

/-- A running source fails when a tile of its row segment becomes an address hole (R333, R337). -/
def State.loseStreams (s : State) (u col row : Nat) : State :=
  (List.range 4).foldl (fun s n =>
    let e := (s.tile u).stream n
    if e.state = 2 ∧ e.role = 0 ∧ e.row = row ∧ e.c0 ≤ col ∧ col ≤ e.c1 then s.failLine u n 0x14 (e.elemAddr e.next) else s) s

/-- At the hack (R96): the name becomes an address hole, what is retained for the tile is discarded, the tile-lost event goes out. -/
def State.loseTile (s : State) (r t : Nat) : State :=
  let x := s.tile t
  let z := s.region r
  let s := s.setRegion r { z with holes := z.holes ++ [x.row * z.w + x.col], lostDue := z.lostDue.filter (· != t) }
  let sources := (s.tiles.filter (fun e => e.2.region == r && e.1 != t)).map (·.1)
  let q := sources.foldl (fun (p : Nat × Nat × State) u =>
    let a := p.2.2.loseAt t u
    (p.1 + a.1, if a.1 = 0 then p.2.1 else p.2.1 + 1, a.2.loseStreams u x.col x.row)) (0, 0, s)
  q.2.2.event r 0x41 0 x.col x.row 0 0 (BitVec.ofNat 64 q.1) (BitVec.ofNat 64 q.2.1)

/-- An assigned tile is lost (R96, R417): the region is hacked, and at the hack the rest follows; the tile itself holds nothing any more. -/
def State.tileLost (s : State) (t : Nat) (dead : Bool) : State :=
  let x := s.tile t
  let r := x.region
  let s := s.reportTile t
  let s := s.setTile t { x.fresh r x.col x.row s.tick with kernel := x.kernel, lost := true, halted := dead }
  if r = 0 then s.setTile t (x.fresh 0 0 0 s.tick)
  else
    let s := (s.updRegion r (fun z => { z with lostDue := z.lostDue ++ [t] })).addCause r 2
    if (s.region r).state = 3 ∧ !(s.region r).stopped then s else s.loseTile r t

/-- TILE_RESET (R417): Reloads the tile monitor and frees every context. Operands: a = t. -/
def execTileReset (s : State) : Out :=
  let t := s.ev.a
  if s.siteState t = .dead ∨ s.siteState t = .excluded then .next s else .next ((s.tileLost t false).loadMonitor t)

/-- A site dies (R90). -/
def State.die (s : State) (t : Nat) : State :=
  if s.siteState t = .dead ∨ s.siteState t = .excluded then s else (s.setSite t { s.site t with state := some .dead }).tileLost t true

/-- TILE_DEATH (R96): An assigned tile becomes dead, the region is hacked and the name becomes an address hole. Operands: a = t. -/
def execTileDeath (s : State) : Out := .next (s.die s.ev.a)

/-- TILE_HEARTBEAT (R93): The cluster gate's heartbeat every 1,048,576 cycles; two missed answers make the site dead. Operands: a = t, flag = answered. -/
def execTileHeartbeat (s : State) : Out :=
  let t := s.ev.a
  let x := s.site t
  if s.ev.flag then .next (s.setSite t { x with missed := 0 })
  else
    let s := s.setSite t { x with missed := x.missed + 1 }
    .next (if 2 ≤ x.missed + 1 then s.die t else s)

/-! ### Fencing and retest (R86, R90) -/

/-- SITE_FENCE (R90): The host's fence command takes a site to fenced. Operands: a = t. -/
def execSiteFence (s : State) : Out :=
  let t := s.ev.a
  let x := s.tile t
  match s.siteState t with
  | .dead => .next s
  | .fenced => .next s
  | .excluded => .next s
  | .assigned =>
    let s := s.setSite t { s.site t with state := some .fenced }
    -- a site that still backs its name leaves a hole there (log entry 29)
    if x.region ≠ 0 ∧ s.place x.region x.col x.row = .site t then .next (s.tileLost t false)
    else .next ((s.reportTile t).setTile t (x.fresh 0 0 0 s.tick))
  | _ => .next (s.setSite t { s.site t with state := some .fenced })

/-- A site with one more defect: kind, row, bank (R425). -/
def Site.defect (x : Site) (d : Nat × Nat × Nat) : Site :=
  if d.1 = 0 then { x with broken := true }
  else if d.1 = 1 then { x with badRows := x.badRows ||| BitVec.twoPow 57 d.2.1 }
  else if d.1 = 2 then (if x.badSpm.contains (d.2.2, d.2.1) then x else { x with badSpm := x.badSpm ++ [(d.2.2, d.2.1)] })
  else x

/-- What self-test finds of a site, and what the defect map in use says of it (R425). -/
def Site.withMap (x : Site) : Site := x.mapped.foldl Site.defect x

/-- Rows of the register file that fail. -/
def badCount (b : BitVec 57) : Nat := ((List.range 57).filter (fun i => b.getLsbD i)).length

/-- The grade "none": the site is dead (R86). -/
def Site.noGrade (x : Site) : Bool :=
  x.broken || decide (18 < badCount x.badRows) || (List.range 24).any (fun b => decide (4 < (x.badSpm.filter (fun e => e.1 == b)).length))

/-- The repair table that a site's failing rows call for (R86, R87). -/
def Site.repairs (x : Site) : FMap (BitVec 32) :=
  let put (m : FMap (BitVec 32)) (i row : Nat) : FMap (BitVec 32) := fset 0 m i (BitVec.ofNat 32 (2 ^ 31 + row))
  let rows := (List.range 57).filter (fun i => x.badRows.getLsbD i)
  let m := if rows.length ≤ 2 then rows.zipIdx.foldl (fun m e => put m e.2 e.1) [] else []
  (List.range 24).foldl (fun m b => (x.badSpm.filter (fun e => e.1 == b)).zipIdx.foldl (fun m e => put m (2 + 4 * b + e.2) e.1.2) m) m

/-- What a site's self-test leaves in its grade, RFBAD and REPTAB (R86, R87). -/
def State.gradeSite (s : State) (t : Nat) : State :=
  let x := (s.site t).withMap
  let n := badCount x.badRows
  let s := s.setSite t { s.site t with reduced := decide (3 ≤ n) }
  s.updTile t (fun y => { y with rfbad := if 3 ≤ n then x.badRows else 0, reptab := x.repairs })

/-- The name that the boot remap gave a site stands for another site, of a region that has rehomed it: the site backs no name (R90, R95). -/
def State.rehomedAway (s : State) (t : Nat) : Bool :=
  match s.logicalOf t with
  | none => false
  | some n => s.regions.any (fun e => let x := e.2
      decide (1 ≤ x.state ∧ x.state ≤ 4 ∧ x.col0 ≤ n.1 ∧ n.1 < x.col0 + x.w ∧ x.row0 ≤ n.2 ∧ n.2 < x.row0 + x.h) &&
      (match x.rehomed (n.1 - x.col0) (n.2 - x.row0) with | some u => u != t | none => false))

/-- SERVICE_RETEST (R90): A passed service retest returns a fenced site to service and clears CEC: as free where it backs a logical name, else as
a spare. Operands: a = t. -/
def execServiceRetest (s : State) : Out :=
  let t := s.ev.a
  let x := s.tile t
  -- the status word of the march routine condemns the site too (R482, R483)
  let w := (s.site t).marchStatus (x.rfbad != 0 || fget 0 x.reptab 0 != 0 || fget 0 x.reptab 1 != 0)
  if s.siteState t ≠ .fenced ∨ (s.site t).withMap.noGrade ∨ marchBankx w ≠ 0 then .next s
  else
    let back := (s.logicalOf t).isSome && !s.rehomedAway t
    let s := s.setSite t { s.site t with state := some (if back then .free else .spare), cec := 0, degrade := false, missed := 0 }
    .next (s.gradeSite t)

/-! ### Rehoming (R95, R312) -/

/-- The bits of a rehome register that are kept (R7, R95). -/
def rehomeMask : Word := 0x800000FFFFFC7C1F#64

/-- Messages and requests for the old site of a name go to its new one; so do acknowledgements due to it. -/
def retargetTile (a b : Nat) (x : Tile) : Tile :=
  let m (l : List Nat) : List Nat := l.map (fun u => if u = a then b else u)
  let now (k : Nat × Nat) : Nat × Nat := if k.1 = a then (b, k.2) else k
  x.updQ (fun q => { q with
    ret := q.ret.map (fun e => { e with
      dst := if e.dst = .tile a then .tile b else e.dst
      body := match e.body with | .elems g d p r => .elems g d (m p) (m r) | y => y })
    refusing := q.refusing.map (fun k => if k.1 = a then (b, k.2) else k)
    responses := q.responses.map (fun k => if k.1 = a then (b, k.2) else k)
    inq := q.inq.map (fun e => (e.1, e.2.map (fun y => { y with ack := y.ack.map now, stream := y.stream.map now }))) })

/-- A name moves from a site that still stands to a spare (R95, R398). -/
def State.retarget (s : State) (a b : Nat) : State :=
  { s with
    tiles := s.tiles.map (fun e => (e.1, retargetTile a b e.2))
    images := s.images.map (fun e => (e.1, retargetTile a b e.2)) }

/-- Some route to or from a name would exceed 63 hops (R95). Which routes count the rule does not say: those between the name and every name of its
region, not those to edge ports and islands (DESIGN CHOICE, log entry 115). -/
def State.tooFar (s : State) (r col row : Nat) : Bool :=
  let x := s.region r
  (List.range (x.w * x.h)).any (fun n => decide (63 < (s.routeCost r (n % x.w) (n / x.w) col row).1) || decide (63 < (s.routeCost r col row (n % x.w) (n / x.w)).1))

/-- The kernel that holds a name, if its tiles count as busy (R384). -/
def Region.holder (x : Region) (col row : Nat) : Option Nat :=
  (x.kernels.find? (fun e => let k := e.2; decide (2 ≤ k.state ∧ k.state ≤ 6 ∧ k.x0 ≤ col ∧ col < k.x0 + k.w ∧ k.y0 ≤ row ∧ row < k.y0 + k.h))).map (·.1)

/-- The cluster of a rehomed site holds the gate key of a confidential region too (R429; log entry 95). -/
def State.shareKey (s : State) (r t : Nat) : State :=
  let k := s.clusterOf t
  let y := s.cluster k
  if !(s.region r).conf ∨ y.gateKeys.contains (s.levelOne r) then s else s.setCluster k { y with gateKeys := y.gateKeys ++ [s.levelOne r] }

/-- REHOME_WRITE (R95): A write of a rehome register assigns a spare site and reloads routes. A write that clears V ends an entry: its name stands
for its boot site again, whatever that site's state, and the routes are loaded again; so that a running region sees no route change (R312) it is
refused there (DESIGN CHOICE, log entry 105). Operands: a = r, b = k, w = v. -/
def execRehomeWrite (s : State) : Out :=
  let r := s.ev.a
  let k := s.ev.b
  let v := s.ev.w &&& rehomeMask
  let x := s.region r
  if 8 ≤ k ∨ x.state = 0 then .next s
  else if !bit v 63 then
    if !bit (fget 0 x.rhm k) 63 then .next (s.setRegion r { x with rhm := fset 0 x.rhm k v })
    else if x.state ≠ 3 ∨ !x.stopped then .next s
    else .next ((s.setRegion r { x with rhm := fset 0 x.rhm k v }).reloadRegion r)
  else
    let col := fld v 24 8
    let row := fld v 32 8
    let t := 640 * fld v 18 6 + 32 * fld v 0 5 + fld v 10 5
    let name := row * x.w + col
    let others : Region := { x with rhm := fset 0 x.rhm k 0 }
    let taken := (others.rehomed col row).isSome
    let lost := x.holes.contains name
    let old : Option Nat := match s.place r col row with | .site u => some u | _ => none
    let s1 := s.setRegion r { x with rhm := fset 0 x.rhm k v, holes := x.holes.filter (· != name) }
    if x.state ≠ 3 ∨ !x.stopped ∨ 36 ≤ fld v 18 6 ∨ 20 ≤ fld v 0 5 ∨ s.siteState t ≠ .spare ∨ x.w ≤ col ∨ x.h ≤ row ∨ taken ∨ s1.tooFar r col row then .next s
    else
      let s := s1.setSite t { s1.site t with state := some .assigned }
      let kn := (x.holder col row).getD 0
      let s := s.setTile t { (s.tile t).fresh r col row s.tick with kernel := kn, held := true }
      let s := (s.scrub t).loadMonitor t
      -- a lost tile's program starts afresh at the resume (R398); a tile that was saved is restored by the host
      let kk := x.kernel kn
      let i := (row - kk.y0) * kk.w + (col - kk.x0)
      let s := if lost ∧ 3 ≤ kk.state ∧ kk.state ≤ 5 then s.updRegion r (fun z => z.setKernel kn { z.kernel kn with restarted := (z.kernel kn).restarted ++ [i] }) else s
      -- what the old site held has been saved (R398); a fenced site leaves the region
      let s := match old with
        | some u =>
          if lost ∨ u = t then s
          else
            let s : State := ((s.retarget u t).dropSteps u).updTile u Tile.emptied
            if s.siteState u = SiteState.fenced then (s.reportTile u).setTile u ((s.tile u).fresh 0 0 0 s.tick) else s
        | none => s
      -- a tile is idle again where there was a hole: the queue is tried (R387)
      .next (((s.shareKey r t).reloadRegion r).later .placement { a := r })

/-! ### Release (R257, R418, R442) -/

/-- A tile starts to leave its region, or to rejoin it after a reset: it is scrubbed, and its release tick is awaited. -/
def State.beginRelease (s : State) (t to_ : Nat) : State :=
  let s := s.reportTile t
  let x := s.tile t
  let s := s.setTile t { x.fresh x.region x.col x.row s.tick with held := true, leaving := some to_, lost := x.lost, halted := x.lost && x.halted }
  (s.scrub t).later .tileRelease { a := t }

/-- Drop every translation of a region that clusters hold (R257). -/
def State.dropEntries (s : State) (r : Nat) : State :=
  { s with clusters := s.clusters.map (fun e => (e.1, { e.2 with l2 := e.2.l2.filter (fun y => y.region != r), wc := e.2.wc.filter (fun y => y.region != r) })) }

/-- At region end nothing of its translation is left, before its number is used again: no entry, and no walk under way (R257). -/
def State.dropRegion (s : State) (r : Nat) : State :=
  let s := s.dropEntries r
  { s with clusters := s.clusters.map (fun e => (e.1, { e.2 with
      walkers := e.2.walkers.map (fun w => (w.1, if w.2.region = r then {} else w.2)) })) }

/-- The roots of the control block come into force (R248): every entry cached for the region goes, and a walk under way starts afresh (R257). -/
def State.adoptRoots (s : State) (r : Nat) : State :=
  let x := s.region r
  if x.s1root = x.field 0x028 8 ∧ x.s2root = x.field 0x030 8 then s
  else
    let s := (s.dropEntries r).updRegion r (fun z => { z with s1root := z.field 0x028 8, s2root := z.field 0x030 8 })
    { s with clusters := s.clusters.map (fun e => (e.1, { e.2 with
        walkers := e.2.walkers.map (fun w => (w.1, if w.2.busy ∧ w.2.region = r then { s.walkStart w.2 with found := [] } else w.2)) })) }

/-- The neighbour-pointer and hop registers of a tile that has joined a region, and of its neighbours there, are loaded (R93). -/
def State.loadAround (s : State) (t : Nat) : State :=
  let x := s.tile t
  let l := (List.range 4).filterMap (fun d => match neighbour x.col x.row d with
    | some (c, r) => (match s.place x.region c r with | .site u => some u | _ => none)
    | none => none)
  (t :: l).foldl State.loadNbr s

/-- TILE_RELEASE (R418): At its release tick a tile leaves or rejoins its region. Operands: a = t. -/
def execTileRelease (s : State) : Out :=
  let t := s.ev.a
  let x := s.tile t
  match x.leaving with
  | none => .next s
  | some g =>
    if s.nowAt t < Nat.max x.scrubEnd (x.dmax + 2 * epsilon) then notYet s
    else
      let r := x.region
      let s := s.reportTile t
      let y : Tile := { x.fresh r x.col x.row s.tick with leaving := none, dmax := 0 }
      let z := s.region g
      let s :=
        if g = r then (s.setTile t { y with held := true, lost := x.lost, halted := x.lost && x.halted }).loadNbr t
        else if g = 0 then
          (s.setTile t { y with region := 0, col := 0, row := 0 }).setSite t
            { s.site t with state := if s.siteState t = .assigned then some .free else (s.site t).state }
        else
          -- the same place of the wafer, counted from the new region's corner; one that is being created keeps its tiles held
          (s.setTile t { y with region := g, col := (s.region r).col0 + x.col - z.col0, row := (s.region r).row0 + x.row - z.row0,
                                held := decide (z.state = 1) }).loadAround t
      -- the tile is idle now: a queue of its region is tried (R387)
      let s := if g = 0 then s else s.later .placement { a := g }
      let s := if (s.region r).state = 5 then s.updRegion r (fun w => { w with finalAt := Nat.max w.finalAt (Nat.max x.scrubEnd (x.dmax + 2 * epsilon)) }) else s
      let left := s.tiles.any (fun e => e.2.region == r && e.2.leaving.isSome)
      if left then .next s
      else if (s.region r).state = 5 then .next (((s.dropRegion r).updRegion r (fun w => { w with finalDue := true })).later .usageRecord { a := r })
      else if (s.region r).state = 4 then .next (s.later .regionResetDone { a := r })
      else .next s

end Sys2Proof.Machine
end

