-- ==== Sys2Proof/Machine/Hack.lean ====
section
/-! DEFINITION. The hack and the resume of a region, evacuation and inspection (R122, R183, R205, R378, R380, R396 to R398, R450, R485). -/
namespace Sys2Proof.Machine

/-- The tiles of a region that it holds itself. -/
def State.ownTiles (s : State) (r : Nat) : List Nat := (s.tiles.filter (fun e => e.2.region == r && e.2.leaving.isNone)).map (·.1)

/-- A context when the hack reaches it (R122). -/
def Ctx.hold (y : Ctx) : Ctx :=
  match y.state with
  | .halted => y
  | .held => y
  | st => { y with heldFrom := st, state := .held }

/-- The hack stops a tile's contexts from number `lo` on and its matrix unit (R122, R194); by the resume every fetch sees what was stored (R213). -/
def Tile.stop (x : Tile) (lo : Nat) : Tile :=
  { x.fetchFresh with
    ctxs := (List.range 12).foldl (fun m c => fset Ctx.reset m c (if c < lo then x.ctx c else (x.ctx c).hold)) []
    mx := if x.mx.state = 3 then x.mx else { x.mx with kept := x.mx.state, state := 3 } }

/-- The hack reaches a tile (R122): its contexts and its matrix unit are held. -/
def Tile.hold (x : Tile) : Tile := { x.stop 0 with held := true }

/-- A follower still has words of its leader to execute, or elements on its VC7 wire; one in rejoin-wait will have when its marker is among
them (R373, R378). -/
def Tile.following (x : Tile) : Bool :=
  (x.train.state == 3 && (!x.train.lane.isEmpty || !x.train.wire.isEmpty)) ||
  (x.train.state == 5 && x.train.lane.any (fun w => isTmark w.2.1 && fld w.2.1 8 6 == x.train.marker))

/-- The hack reaches a tile at a tick (R122, R124): a follower's context 0 goes on to the stop marker, everything else on it stops (R378). -/
def State.hackTile (s : State) (t : Nat) : State :=
  if (s.tile t).held then s
  else s.updTile t (fun x =>
    let x := if x.stopping then x else { x with hackAt := s.nowAt t }
    if x.following then x.stop 1 else x.hold)

/-- A receiver will take or turn away a stream message that is on its way (R307, R340). -/
def State.willTake (s : State) (t u tag : Nat) : Bool :=
  let y := s.tile u
  !y.lost && !y.halted &&
  (match y.endOf (s.tile t).col (s.tile t).row tag 1 with
   | some n => (y.stream n).state != 1 && ((y.stream n).state != 2 || (y.q.streamPort tag).isSome)
   | none => true)

/-- The links are not empty yet for an entry of a tile (R122, R307): it is on its way to a tile or an island, or what a module has performed for
it has not come back. A launch request waits for its island as long as it takes, and what is for a lost tile waits for its loss (R96, R410). -/
def State.onLinks (s : State) (t : Nat) (e : Ret) : Bool :=
  match e.state, e.body, e.dst with
  | .flying, .elems g _ acc _, _ => acc.any (fun u => s.willTake t u g)
  | .flying, .kq _, _ => false
  | .flying, _, .edge _ => false
  -- a go, an abort, a segment or a pull's read for a halted tile stays with its source (R120)
  | .flying, b, d => !s.goesNowhere d && (s.tile t).q.inTurn e && !((b.isSignal || b.vc == 3) && s.standsStill d)
  | .done, .load _ _, .edge _ => true
  | .done, .atomic _ _ _ _ _, .edge _ => true
  | _, _, _ => false

/-- A step of the agenda carries something over the region's links to or from one of its tiles: an access on its way to its module, or the
acknowledgement of a stream message (R122, R307). -/
def State.carries (s : State) (ts : List Nat) (p : Instr × EvArgs) : Bool :=
  ts.contains p.2.a &&
  (match p.1 with
   | .moduleAccess => match s.entry p.2.a p.2.b with | some e => decide (e.state = .atPort) | none => false
   | .acknowledgement => match s.entry p.2.a p.2.b with | some e => (match e.body with | .elems _ _ _ _ => true | _ => false) | none => false
   | _ => false)

/-- The region's links are empty, and nothing of a matrix unit drains (R122, R205, R307, R378). -/
def State.linksEmpty (s : State) (ts : List Nat) : Bool :=
  ts.all (fun t => let x := s.tile t
    x.train.lane.isEmpty && x.train.wire.isEmpty && x.mx.quiescent && x.q.ret.all (fun e => !s.onLinks t e)) &&
  !s.agenda.any (s.carries ts)

/-- What a tile holds when the links are empty (R122, R218, R258): an edge request that has not reached its module is retained, to be translated
afresh at the resume (log entry 101); the response to what another tile has performed is kept there. -/
def State.settleTile (s : State) (t : Nat) : State :=
  (s.tile t).q.ret.foldl (fun s e => match e.state, e.dst with
    | .flying, .edge _ => s.setEntry t { e with state := .refused }
    | .atPort, .edge _ => s.setEntry t { e with state := .refused }
    | .done, .tile u =>
      (s.setEntry t { e with state := .waits, reply := 0, code := 0 }).updTile u (fun x => x.updQ (fun q => { q with responses := q.responses ++ [(t, e)] }))
    | _, _ => s) s

/-- Every resident kernel of the region becomes held, or resident again (R396), whatever gang fault it has had (R399). -/
def Region.moveKernels (x : Region) (from_ to_ : Nat) : Region :=
  { x with kernels := x.kernels.map (fun e =>
      if e.2.state = from_ then (e.1, { e.2 with state := to_, gangFault := e.2.gangFault && to_ != 4 }) else e) }

/-- Where the image of a tile stands that the device saves itself: at an inspection (R450), after a gang fault (R399); DESIGN CHOICE, log
entry 104. -/
def inspectAt (t : Nat) : Nat := 2 ^ 56 + t * 2 ^ 21

/-- After a gang fault the island saves its region (R399). -/
def State.saveGang (s : State) (r : Nat) (ts : List Nat) : State :=
  if bit (s.region r).causes 4 then ts.foldl (fun s t => s.saveTile t (inspectAt t) true) s else s

/-- HACK_BROADCAST (R122): At the stop tick the hack reaches each tile and holds its contexts. Operands: a = r. -/
def execHackBroadcast (s : State) : Out :=
  let r := s.ev.a
  let x := s.region r
  match x.stopTick with
  | none => .next s
  | some th =>
    let ts := s.ownTiles r
    if x.state ≠ 3 ∨ x.stopped then .next s
    else if ts.any (fun t => decide (s.nowAt t < th)) then notYet s
    else
      -- followers go on to the stop marker (R378)
      let s := ts.foldl State.hackTile s
      if ts.any (fun t => !(s.tile t).held) || !s.linksEmpty ts then notYet s
      else
        -- what a lost tile takes with it goes before the save (R96, R123)
        let s := (s.region r).lostDue.foldl (fun s t => s.loseTile r t) s
        let s := (ts.foldl State.dumpContexts (ts.foldl State.settleTile s)).saveGang r ts
        .next ((s.adoptRoots r).updRegion r (fun z => { (z.moveKernels 4 5) with stopped := true, stopTick := none }))

/-- Tiles of saved kernels: they stay held until their kernel is restored whole (R384). -/
def State.restoring (s : State) (r : Nat) : List Nat := (s.ownTiles r).filter s.ofSaved

/-- What the inspection of a tile has saved is loaded, with what island software has written there; an image that a restore would refuse raises
the restore fault, and the tile goes on as it was (R97, R126, R450). -/
def State.loadInspected (s : State) (t : Nat) : State :=
  let c := s.restoreCheck t (inspectAt t)
  if c = 0 then s.loadImage t (inspectAt t) else s.restoreFault t (inspectAt t) c

/-- A tile that was lost and rehomed has its program loaded again; where its kernel runs there, it starts afresh at once (R398). -/
def State.restartTile (s : State) (r n i : Nat) : State :=
  let k := (s.region r).kernel n
  match s.place r (k.x0 + i % k.w) (k.y0 + i / k.w) with
  | .site t =>
    let s := match s.readImage r k.image with
      | .ok im => (s.loadTile r k.image im i t).1
      | .error _ => s
    if k.state = 4 ∧ !k.due.contains i then
      (s.updRegion r (fun z => z.setKernel n { z.kernel n with restarted := (z.kernel n).restarted.filter (· != i) })).startTile t n k.arg
        (fget (0, []) k.progs i) true
    else s
  | _ => s

/-- What starts in the resume cycle: lost tiles afresh (R398), and the tiles of kernels whose T_go has passed while the region was held (R396). -/
def State.restartKernels (s : State) (r tr : Nat) : State :=
  (s.region r).kernels.foldl (fun s e =>
    let s := if e.2.state = 3 ∨ e.2.state = 4 then e.2.restarted.foldl (fun s i => s.restartTile r e.1 i) s else s
    if (e.2.state = 3 ∨ (e.2.state = 4 ∧ !e.2.due.isEmpty)) ∧ e.2.tgo ≤ tr then s.startTiles r e.1 (fun t => s.reached t e.2.tgo) else s) s

/-- RESUME_TICK (R485): At the resume tick every tile of the region resumes. Operands: a = r. -/
def execResumeTick (s : State) : Out :=
  let r := s.ev.a
  let x := s.region r
  match x.resumeTick with
  | none => .next s
  | some tr =>
    let ts := s.ownTiles r
    if x.state ≠ 3 ∨ x.causes ≠ 0 then .next s
    else if !x.stopped ∨ ts.any (fun t => decide (s.nowAt t < tr)) then notYet s
    else
      let s := x.saved.foldl State.loadInspected s
      let still := s.restoring r
      let s := (ts.filter (fun t => !still.contains t)).foldl State.resumeTile s
      let s := s.updRegion r (fun z => { (z.moveKernels 5 4) with state := 2, stopped := false, resumeTick := none, saved := [] })
      let s := s.restartKernels r tr
      .next (s.event r 0x48 0 0 0 0 0 (BitVec.ofNat 64 1) 0)

/-! ### Evacuation (R397, R398) -/

/-- A saved tile is evacuated: its contexts become free (R103), and its objects have gone with the image; a site with DEGRADE set is fenced
(R90). -/
def State.emptyTile (s : State) (t : Nat) : State :=
  let s := ((s.dropSteps t).dropSaved t).updTile t Tile.emptied
  if (s.site t).degrade ∧ s.siteState t = .assigned then s.setSite t { s.site t with state := some .fenced } else s

/-- Save a tile and evacuate it (R398). -/
def State.evacuate (s : State) (t base : Nat) : State := (s.saveTile t base true).emptyTile t

/-- EVACUATION (R398): The host saves a tile or whole kernel with SPM and moves it. Operands: a = r, b = t, flag = whole, w = address of the image. -/
def execEvacuation (s : State) : Out :=
  let r := s.ev.a
  let t := s.ev.b
  let base := s.ev.w.toNat
  let x := s.region r
  if x.state ≠ 3 ∨ !x.stopped ∨ (s.tile t).region ≠ r then .next s
  else if !s.ev.flag then .next (s.evacuate t base)
  else
    let n := (s.tile t).kernel
    let k := x.kernel n
    if k.state ≠ 5 then .next s
    else
      -- every tile is saved before the first is emptied: a follower's image names where its leader stands (R379)
      let l := s.kernelSites r k
      let s := l.foldl (fun s p => s.emptyTile p.2) (l.foldl (fun s p => s.saveTile p.2 (base + imageSize * p.1) true) s)
      -- the kernel goes back to the head of its priority level
      let q := queueAfter (fun y => decide (k.prio < (x.kernel (x.kernel y).group).prio)) n x.queue
      .next (s.updRegion r (fun z => { z.setKernel n { k with state := 6 } with queue := q }))

/-! ### Inspection (R450) -/

/-- INSPECTION_REQUEST (R450): The owner adds the inspection cause through the inspection register. A further request changes nothing of what the
first has saved. Operands: a = r, flag = byHyp, b = the level-1 region of the guest that asks. -/
def execInspectionRequest (s : State) : Out :=
  let r := s.ev.a
  let x := s.region r
  -- refused with status STATE: a confidential region to all but the guest that owns its level-1 ancestor, or a region neither running nor held
  if (x.conf ∧ (s.ev.flag ∨ s.ev.b ≠ s.levelOne r)) ∨ (x.state ≠ 2 ∧ x.state ≠ 3) then .next (s.setRegion r { x with inspStatus := 4 })
  else if bit x.causes 7 then .next (s.setRegion r { x with inspStatus := 0 })
  else .next (((s.setRegion r { x with inspStatus := 0, saved := [] }).addCause1 r 7 0).later .inspectionReady { a := r })

/-- INSPECTION_READY (R450): Once every tile is saved an inspection-ready event is written. Operands: a = r. -/
def execInspectionReady (s : State) : Out :=
  let r := s.ev.a
  let x := s.region r
  if x.state ≠ 3 ∨ !bit x.causes 7 ∨ !x.saved.isEmpty then .next s
  else if !x.stopped then notYet s
  else
    let ts := s.ownTiles r
    let s := ts.foldl (fun s t => s.saveTile t (inspectAt t) true) s
    .next ((s.updRegion r (fun x => { x with saved := ts })).event r 0x4D 0 0 0 0 0 (BitVec.ofNat 64 ts.length) 0)

end Sys2Proof.Machine
end

