-- ==== Sys2Proof/Machine/Rings.lean ====
section
/-! DEFINITION. Authenticated command rings: how an entry is decided, run and answered (R421, R434 to R438). -/
namespace Sys2Proof.Machine

/-- Statuses (R403, R436). -/
inductive Status where
  | ok | format | budget | notiles | state | entropy | busy | replay | skip | badtag | exhausted | interrupted | keybusy | halted
deriving DecidableEq, Repr

def Status.code : Status → Nat
  | .ok => 0 | .format => 1 | .budget => 2 | .notiles => 3 | .state => 4 | .entropy => 5 | .busy => 6 | .replay => 7 | .skip => 8
  | .badtag => 9 | .exhausted => 10 | .interrupted => 11 | .keybusy => 12 | .halted => 13

/-- An entry of a ring: its 256 bytes as a number (R434). -/
structure Cmd where
  v : Nat
deriving DecidableEq, Repr

def Cmd.seq (e : Cmd) : Nat := natBytes e.v 0 8
def Cmd.code (e : Cmd) : Nat := natBytes e.v 8 2
def Cmd.plen (e : Cmd) : Nat := natBytes e.v 0xA 2
def Cmd.ring (e : Cmd) : Nat := natBytes e.v 0xC 2
/-- Bytes of the payload. -/
def Cmd.p (e : Cmd) (off n : Nat) : Nat := natBytes e.v (0x10 + off) n
def Cmd.tag (e : Cmd) : Nat := natBytes e.v 0xE0 32

/-- The payload length of each command code (R437); none for a code that is not assigned. -/
def cmdLen (code : Nat) : Option Nat :=
  if code = 1 then some 56 else if 2 ≤ code ∧ code ≤ 5 then some 8 else if code = 6 then some 16 else if code = 7 then some 8
  else if code = 0x10 ∨ code = 0x11 then some 8 else if code = 0x12 ∨ code = 0x20 then some 16 else if code = 0x21 then some 80
  else if code = 0x30 then some 64 else if code = 0x31 then some 32 else if code = 0x32 then some 16 else none

/-- The commands of ring 0 alone (R436). -/
def ringZeroOnly (code : Nat) : Bool := code == 0x10 || code == 0x11 || code == 0x12 || code == 0x20 || code == 0x32

/-- The layout of an entry is that of R434 and R437: nothing outside the payload's length, the ring's own number. -/
def Cmd.formOk (e : Cmd) (ring : Nat) : Bool :=
  (match cmdLen e.code with | some n => e.plen == n && e.p n (176 - n) == 0 | none => false) &&
  natBytes e.v 0xE 2 == 0 && natBytes e.v 0xC0 32 == 0 && e.ring == ring && (ring == 0 || !ringZeroOnly e.code)

/-- The tag of 224 bytes under a ring key (R434). -/
def ringTag (key : BitVec 256) (v : Nat) : Nat := (Config.kmac256 256 key 1792 (v % 2 ^ 1792) 0).toNat

/-- The address of a ring's control block (R438). -/
def CmdRing.ctl (x : CmdRing) : Nat := x.base + 256 * x.n

/-- The entry that a ring's RIDX names, when software has written it (R438). -/
def State.pending (s : State) (k : Nat) : Option Cmd :=
  let x := s.cmdRing k
  let widx := Nat.min (s.memRead (sysKey x.ctl) 8) (x.ridx + x.n)
  if s.sec.booted ∧ (s.sec.stateA = 0 ∨ s.sec.stateB = 0) ∧ x.isOpen ∧ x.n ≠ 0 ∧ x.ridx < widx then some ⟨s.memRead (sysKey (x.base + 256 * (x.ridx % x.n))) 256⟩ else none

/-- Answer the entry at RIDX and go on to the next (R437, R438). `word` is the first payload word of the response. -/
def State.respond (s : State) (k : Nat) (e : Cmd) (st : Status) (word : Nat) : State :=
  let x := s.cmdRing k
  let body := packFields [(8, e.seq), (2, e.code), (2, e.plen), (2, e.ring), (2, st.code), (4, word)]
  let s := s.memWrite (sysKey (x.base + 256 * (x.ridx % x.n))) 256 (body + ringTag x.key body * 2 ^ 1792)
  let s := s.memWrite (sysKey (x.ctl + 8)) 8 (x.ridx + 1)
  s.setCmdRing k { x with ridx := x.ridx + 1, waiting := false, creating := 0, retries := 0, cut := false }

/-- What R435 decides of an entry: the first matching row. -/
def CmdRing.decide_ (x : CmdRing) (e : Cmd) : Status :=
  let tagOk := decide (e.tag = ringTag x.key e.v)
  let covers := decide (e.code = 0x31 ∧ e.p 0 32 = x.challenge.toNat) && tagOk
  if x.halted ∧ !covers then .halted
  else if !tagOk then .badtag
  else if e.seq ≤ x.acc then .replay
  else if x.acc + 1 < e.seq ∧ !x.halted then .skip
  else if e.seq = 2 ^ 64 - 1 ∧ e.code ≠ 0x30 then .exhausted
  else .ok

/-- The ring halts on a skipped number: a new challenge is published (R435, R438). -/
def State.haltRing (s : State) (k : Nat) : State :=
  let x := s.cmdRing k
  let c : BitVec 256 := (Config.drbg s.sec.draws).truncate 256
  let s := s.memWrite (sysKey (x.ctl + 0x10)) 1 1
  let s := s.memWrite (sysKey (x.ctl + 0x20)) 32 c.toNat
  ({ s with sec := { s.sec with draws := s.sec.draws + 1 } }).setCmdRing k { x with halted := true, challenge := c }

/-- What running an accepted command answers. -/
inductive Ran where
  /-- a status and the first word of the response's payload -/
  | done (st : Status) (word : Nat) (s : State)
  /-- the command goes on; its answer comes later -/
  | later (s : State)

/-- Rings with an entry to be served now. -/
def State.ready (s : State) : List Nat := (s.sec.rings.filter (fun e => !e.2.waiting && (s.pending e.1).isSome)).map (·.1)

/-- It is a ring's turn (R434): after the ring served last none with an entry to be served comes before it. -/
def State.ringsTurn (s : State) (k : Nat) : Bool :=
  let after (j : Nat) : Nat := (j + 65536 - s.sec.turn % 65536 - 1) % 65536
  s.ready.all (fun j => decide (after k ≤ after j))

/-- A ring is served: the others come before it again (R434). -/
def State.takeTurn (s : State) (k : Nat) : State := { s with sec := { s.sec with turn := k } }

/-- Serve the entry at a ring's RIDX when it holds this command, or one that no command event serves, in the ring's turn (R434 to R437). A
command that was cut off while it ran is answered so, with the flag whether its effect took place (R421). -/
def State.serve (s : State) (k code : Nat) (run : Cmd → State → Ran) : Out :=
  let x := s.cmdRing k
  match s.pending k with
  | none => .next s
  | some e =>
    if x.waiting ∨ (e.code ≠ code ∧ (cmdLen e.code).isSome) then .next s
    else if !s.ringsTurn k then notYet s
    else
    let s := s.takeTurn k
    match x.decide_ e with
      | .ok =>
        let s := s.setCmdRing k { x with acc := e.seq }
        if !e.formOk k then .next (s.respond k e .format 0)
        else match run e s with
          | .done st w s => .next (if x.cut then s.respond k e .interrupted (if st = .ok then Nat.max w 1 else 0) else s.respond k e st w)
          | .later s => .next (s.setCmdRing k { s.cmdRing k with waiting := true })
      | .skip => .next ((s.haltRing k).respond k e .skip 0)
      | st => .next (s.respond k e st 0)

/-- The level-1 ancestor of a region (R400). -/
def State.rootOf (s : State) (r : Nat) : Nat → Nat
  | 0 => r
  | n + 1 => let p := (s.region r).field 4 2; if p = 0 then r else s.rootOf p n

/-- The ring may name a region of this level and parent (R403): the hypervisor any, a guest the deeper regions under its own. -/
def State.mayName (s : State) (k level parent : Nat) : Bool :=
  k == 0 || (decide (2 ≤ level) && s.rootOf parent 4 == (s.cmdRing k).region)

/-- A draw of the DRBG after its reseed, when the reseed succeeds (R427). -/
def State.drawKey (s : State) : Option (BitVec 512) × State :=
  let n := s.sec.draws
  let s := { s with sec := { s.sec with draws := n + 1 } }
  (if Config.reseedOk n then some (Config.drbg n) else none, s)

/-- After a takeover an interrupted command is answered, with the flag whether its effect took place, which of a RETAG is the number of frames
done (R421, R437; log entry 66). -/
def State.interruptRing (s : State) (k : Nat) (done : Nat) : State :=
  match s.pending k with
  | some e => if (s.cmdRing k).waiting then s.respond k e .interrupted done else s
  | none => s

/-- A measurement extends a register (R423): the data by its length in bits and its value. -/
def measure (m : BitVec 512) (len v : Nat) : BitVec 512 :=
  let d : BitVec 512 := Config.shake256 512 len v
  Config.shake256 512 1024 (m.toNat + d.toNat * 2 ^ 512)

def State.setMeas (s : State) (i : Nat) (m : BitVec 512) : State := { s with sec := { s.sec with meas := fset 0 s.sec.meas i m } }

/-- Extend a measurement register with data given by bits and value (R423). -/
def State.extend (s : State) (i len v : Nat) : State := s.setMeas i (measure (fget 0 s.sec.meas i) len v)

/-- The tile monitor image as a number. -/
def monitorValue : Nat := packFields ((List.range (Config.firmwareLen 2)).map (fun j => (1, (Config.monitorImage j).toNat)))

/-- The bytes of QNMO-WRAP as a number (R435, R437). -/
def wrapText : Nat := packFields [(1, 0x51), (1, 0x4E), (1, 0x4D), (1, 0x4F), (1, 0x2D), (1, 0x57), (1, 0x52), (1, 0x41), (1, 0x50)]

/-- REKEY (R435): Installs a new ring key and resets the sequence. Operands: a = ring. -/
def execRekey (s : State) : Out :=
  let k := s.ev.a
  s.serve k 0x30 (fun e s =>
    let x := s.cmdRing k
    let wrap : BitVec 256 := Config.kmac256 256 x.key 72 wrapText 1
    if e.p 0xC 4 ≠ 0 then .done .format 0 s
    else match Config.gcmOpen wrap (BitVec.ofNat 96 (e.p 0 12)) (BitVec.ofNat 128 (natBytes e.v 0 16)) (BitVec.ofNat 256 (e.p 0x10 32)) (BitVec.ofNat 128 (e.p 0x30 16)) with
      | some key => .done .ok 0 (s.setCmdRing k { x with key := key, acc := 0 })
      | none => .done .badtag 0 s)

/-- RESYNC (R435): Resumes a halted ring against the published challenge. Operands: a = ring. -/
def execResync (s : State) : Out :=
  let k := s.ev.a
  s.serve k 0x31 (fun _ s =>
    let x := s.cmdRing k
    -- a ring that is not halted has no challenge to cover (log entry 30)
    if !x.halted then .done .state 0 s
    else .done .ok 0 ((s.memWrite (sysKey (x.ctl + 0x10)) 1 0).setCmdRing k { x with halted := false }))

end Sys2Proof.Machine
end

