-- ==== Sys2Proof/Machine/Regions.lean ====
section
/-! DEFINITION. Region control blocks, region commands, creation, reset, the regulator and border moves (R400 to R419, R429). -/
namespace Sys2Proof.Machine

/-! ### The tree and the control block (R400 to R402) -/


/-- The region exists (R404). -/
def Region.exists_ (x : Region) : Bool := decide (1 ≤ x.state ∧ x.state ≤ 4)

/-- Regions that exist under a parent; level 1 under 0. -/
def State.children (s : State) (r : Nat) : List (Nat × Region) := s.regions.filter (fun e => e.2.exists_ && e.2.parent == r)

/-- The effective value of a budget with an OVR bit (R402): its own, or its nearest ancestor's that sets the bit. -/
def State.effective (s : State) (rcb : BitVec 2048) (ovr off n : Nat) : Nat → Nat
  | 0 => 0
  | f + 1 =>
    if bit rcb (64 + ovr) then fld rcb (8 * off) (8 * n)
    else s.effective (s.region (fld rcb 32 16)).rcb ovr off n f

/-- The effective value of a share (R402): the control block's own, or with its OVR bit 0 the value in force at the parent. -/
def State.inherits (s : State) (rcb : BitVec 2048) (ovr own : Nat) (at_ : Region → Nat) : Nat :=
  if bit rcb (64 + ovr) then own else at_ (s.region (fld rcb 32 16))

/-- A region as its control block describes it. -/
def State.regionFrom (s : State) (addr : Nat) : Region :=
  let b : BitVec 2048 := BitVec.ofNat 2048 (s.memRead (edgeKey addr) 256)
  let f (off n : Nat) : Nat := fld b (8 * off) (8 * n)
  let x : Region := {
    rcb := b, rcbAddr := addr, col0 := f 0x10 1, row0 := f 0x11 1, w := f 0x12 1 + 1, h := f 0x13 1 + 1,
    prio := s.inherits b 5 (f 9 1) Region.prio, lsh := s.inherits b 4 (f 0xA 1) Region.lsh
    slots := s.inherits b 3 (f 0xB 1) Region.slots, fdom := s.inherits b 6 (f 0xC 2) Region.fdom
    grow := f 0xE 1, kt := f 0x68 8, ct := f 0x70 8, s1root := f 0x28 8, s2root := f 0x30 8 }
  { x with conf := if x.level = 1 then bit b 56 else (s.region x.parent).conf }

/-- The number in a control block. -/
def Region.number (x : Region) : Nat := x.field 2 2

def powerOf2 (lo hi n : Nat) : Bool := (List.range 20).any (fun i => n == 2 ^ i) && decide (lo ≤ n ∧ n ≤ hi)

/-- Two rectangles share no tile. -/
def Region.apart (a b : Region) : Bool := decide (a.col0 + a.w ≤ b.col0 ∨ b.col0 + b.w ≤ a.col0 ∨ a.row0 + a.h ≤ b.row0 ∨ b.row0 + b.h ≤ a.row0)

/-- A rectangle inside another. -/
def Region.inside (a b : Region) : Bool :=
  decide (b.col0 ≤ a.col0 ∧ a.col0 + a.w ≤ b.col0 + b.w ∧ b.row0 ≤ a.row0 ∧ a.row0 + a.h ≤ b.row0 + b.h)

/-- Every field of a control block is within its limits (R401, R402). -/
def State.rcbOk (s : State) (x : Region) : Bool :=
  let f := x.field
  let b := x.rcb
  let p := s.region x.parent
  let own (i off n : Nat) : Bool := bit b (64 + i) || f off n == 0
  x.rcbAddr % 256 == 0 && f 0 2 == 1 && decide (1 ≤ x.number) && decide (1 ≤ x.level ∧ x.level ≤ 4) && f 7 1 / 2 == 0 && !bit b 71 &&
  (if x.level = 1 then x.parent == 0 && f 8 1 == 0x7F else p.exists_ && p.level + 1 == x.level && f 0x30 8 == p.field 0x30 8) &&
  own 0 0x14 4 && own 1 0x18 8 && own 2 0x20 8 && own 3 0xB 1 && own 4 0xA 1 && own 5 9 1 && own 6 0xC 2 &&
  decide (f 9 1 ≤ 63 ∧ f 0xB 1 ≤ 64 ∧ f 0xC 2 ≤ 4095 ∧ f 0xE 1 ≤ 32) && f 0xF 1 == 0 &&
  (!bit b 68 || decide (1 ≤ f 0xA 1 ∧ f 0xA 1 ≤ 16)) &&
  f 0x38 8 % 64 == 0 && f 0x3F 1 == 0x80 && f 0x40 8 % 256 == 0 && powerOf2 16 65536 (f 0x48 4) && powerOf2 16 65536 (f 0x4C 4) &&
  f 0x50 8 % 64 == 0 && f 0x58 8 % 64 == 0 && decide (f 0x60 2 ≤ 575) && decide (f 0x60 4 < 2 ^ 22) && decide (1 ≤ f 0x64 2 ∧ f 0x64 2 ≤ 2045) &&
  f 0x66 2 == 0 && f 0x80 8 % 4096 == 0 && f 0x88 8 % 4096 == 0 && decide (f 0x88 8 ≤ 2 ^ 32) &&
  -- a root is a table's 50-bit address, PTDST a 50-bit PA (R248)
  f 0x28 8 % 4096 == 0 && f 0x30 8 % 4096 == 0 && decide (f 0x28 8 < 2 ^ 50 ∧ f 0x30 8 < 2 ^ 50 ∧ f 0x80 8 + f 0x88 8 ≤ 2 ^ 50) && f 0x90 112 == 0 &&
  decide (x.col0 + x.w ≤ s.meshW ∧ x.row0 + x.h ≤ 108) && (x.level == 1 || x.inside p) &&
  (s.children x.parent).all (fun e => e.1 == x.number || x.apart e.2)

/-! ### Budgets (R411, R429) -/

def Region.tiles (x : Region) : Nat := x.w * x.h

/-- A region within its own budgets. -/
def State.withinBudget (s : State) (x : Region) : Bool :=
  decide (x.tiles ≤ s.effective x.rcb 0 0x14 4 4) && decide (x.tiles * 1572864 ≤ s.effective x.rcb 1 0x18 8 4)

/-- SLOTS that a region sets itself. -/
def Region.ownSlots (x : Region) : Nat := if bit x.rcb 67 then x.slots else 0

/-- The slots that the children of a region may take together: what a SHARE under way leaves it counts (R411). -/
def State.slotsOf (s : State) (x : Region) : Nat :=
  if x.shareDue then Nat.min x.slots (s.inherits x.rcb 3 (x.field 0xB 1) Region.slots) else x.slots

/-- The children of a parent, one of them as given, within the parent's own; at level 1 the slots of all sum to at most 64. -/
def State.siblingsFit (s : State) (n : Nat) (x : Region) : Bool :=
  let l := x :: ((s.children x.parent).filter (fun e => e.1 != n)).map (·.2)
  let slots := (l.map Region.ownSlots).sum
  let tiles := (l.map Region.tiles).sum
  if x.level = 1 then decide (slots ≤ 64)
  else
    let p := s.region x.parent
    decide (tiles ≤ p.tiles) && decide (slots ≤ s.slotsOf p)

/-- The slots of a region's own children stay within what it is to have (R411). -/
def State.childrenFit (s : State) (n : Nat) (x : Region) : Bool := decide (((s.children n).map (fun e => e.2.ownSlots)).sum ≤ x.slots)

def State.budgetOk (s : State) (n : Nat) (x : Region) : Bool := s.withinBudget x && s.siblingsFit n x

/-- Clusters that a rectangle meets. -/
def State.clustersOf (s : State) (x : Region) : List Nat :=
  let c0 := (x.col0 + s.westCut) / 8
  let c1 := (x.col0 + x.w - 1 + s.westCut) / 8
  let r0 := x.row0 / 6
  let r1 := (x.row0 + x.h - 1) / 6
  (List.range (r1 - r0 + 1)).flatMap (fun r => (List.range (c1 - c0 + 1)).map (fun c => (r0 + r) * 24 + c0 + c))

/-- No cluster would hold a ninth gate key (R429). -/
def State.keysFit (s : State) (n : Nat) (x : Region) : Bool :=
  !x.conf || x.level != 1 || (s.clustersOf x).all (fun k => let g := (s.cluster k).gateKeys; g.contains n || decide (g.length < 8))

/-- The gate key of a confidential level-1 region is in every cluster that it covers, every edge port and every island gate (R429). -/
def State.loadGateKeys (s : State) (n : Nat) : State :=
  let x := s.region n
  if !x.conf ∨ x.level ≠ 1 then s
  else
    let put (l : List Nat) : List Nat := if l.contains n then l else l ++ [n]
    let s := (s.clustersOf x).foldl (fun s k => let y := s.cluster k; s.setCluster k { y with gateKeys := put y.gateKeys }) s
    -- every edge port and every island gate holds the key of every confidential level-1 region (R429)
    let s := (List.range 576).foldl (fun s p => let y := s.port p; s.setPort p { y with gateKeys := put y.gateKeys }) s
    (List.range 36).foldl (fun s i => let y := s.island i; s.setIsland i { y with gateKeys := put y.gateKeys }) s

/-! ### Commands that name a region (R403) -/

/-- A command that names a control block: the number and the region in it, when it validates and the ring may name it. The control block of a
region that exists has that region's level and parent, so that the ring's authority is over the region itself (R403; log entry 119). -/
def State.namedBy (s : State) (k addr : Nat) : Option (Nat × Region) :=
  let x := s.regionFrom addr
  let y := s.region x.number
  if s.rcbOk x && (!y.exists_ || (y.level == x.level && y.parent == x.parent)) && s.mayName k x.level x.parent then some (x.number, x) else none

/-- A region-state event (R409): its code, with the causes and the command's status. -/
def State.stateEvent (s : State) (r code : Nat) (st : Status) : State :=
  s.event r 0x48 0 0 0 0 0 (BitVec.ofNat 64 (code + 256 * (s.region r).causes.toNat)) (BitVec.ofNat 64 st.code)

/-- The device has validated the block anew (R402, R439). New roots come into force at once in a region that stands hacked, in a running one when
the next hack has stopped it (R248; log entry 106). -/
def State.noteRcb (s : State) (r : Nat) (x : Region) : State :=
  let s := s.updRegion r (fun y => { y with rcb := x.rcb, rcbAddr := x.rcbAddr })
  if (s.region r).stopped then s.adoptRoots r else s

/-- HACK (R404): Adds the host hack cause to a region. Operands: a = ring. -/
def execHackRegion (s : State) : Out :=
  s.serve s.ev.a 3 (fun e s =>
    let r := e.p 0 2
    let x := s.region r
    if e.p 2 6 ≠ 0 ∨ !s.mayName s.ev.a x.level x.parent then .done .format 0 s
    else if x.state ≠ 2 ∧ x.state ≠ 3 then .done .state 0 s
    else .done .ok 0 (s.addCause1 r 0 0))

/-- RESUME (R404): Removes the host hack cause. Operands: a = ring. -/
def execResumeRegion (s : State) : Out :=
  s.serve s.ev.a 4 (fun e s =>
    let r := e.p 0 2
    let x := s.region r
    if e.p 2 6 ≠ 0 ∨ !s.mayName s.ev.a x.level x.parent then .done .format 0 s
    else if x.state ≠ 2 ∧ x.state ≠ 3 then .done .state 0 s
    -- every cause but a border move under way, which its own completion removes (R404, R410; log entry 31)
    else .done .ok 0 ([0, 1, 2, 3, 4, 6, 7].foldl (fun s c => s.removeCause r c) s))

/-! ### Creation (R419) -/

/-- The sites of a rectangle by logical number, those without a site left out. -/
def State.rectSites (s : State) (x : Region) : List (Nat × Nat × Nat) :=
  (List.range (x.w * x.h)).filterMap (fun n =>
    let c := x.col0 + n % x.w
    let r := x.row0 + n / x.w
    if x.level = 1 then (s.siteAt c r).map (fun t => (n, n / x.w, t))
    else
      let p := s.region x.parent
      match s.place x.parent (c - p.col0) (r - p.row0) with
      | .site t => some (n, n / x.w, t)
      | _ => none)

/-- A tile of the rectangle may be claimed (R403): in the parent's reserve, or free. -/
def State.claimable (s : State) (x : Region) (t : Nat) : Bool :=
  if x.level = 1 then decide (s.siteState t = .free) && (s.tile t).region == 0
  else (s.tile t).region == x.parent && (s.tile t).kernel == 0 && (s.tile t).leaving.isNone

/-- Claim and scrub the tiles (R90, R419): a free one joins the region at once, one of a parent's reserve at its release tick (R418). -/
def State.claimTiles (s : State) (r : Nat) (l : List (Nat × Nat × Nat)) : State :=
  let w := (s.region r).w
  l.foldl (fun s e =>
    let t := e.2.2
    let s := s.setSite t { s.site t with state := some .assigned }
    if (s.tile t).region ≠ 0 then s.beginRelease t r
    else (s.setTile t { (s.tile t).fresh r (e.1 % w) e.2.1 s.tick with held := true, leaving := none }).scrub t) s

/-- A region's three rings (R408). -/
def State.nameRings (s : State) (r : Nat) : State :=
  let f := (s.region r).field
  ((s.nameRing (hostRing r) (f 0x40 8) (f 0x48 4) 256).nameRing (eventRing r) (f 0x50 8) (f 0x4C 4) 32).nameRing (faultRing r) (f 0x58 8) 256 32

/-- Copy bytes from the islands' memory to edge memory. -/
def State.copyTables (s : State) (src dst : Nat) : Nat → State
  | 0 => s
  | n + 1 => State.copyTables (s.memStore (edgeKey dst) 1 (s.memRead (sysKey src) 1)) (src + 1) (dst + 1) n

/-- A creation or a region ends: its tiles go to the parent's reserve or become free (R404, R418). -/
def State.abandon (s : State) (r : Nat) (st : Status) : State :=
  let x := s.region r
  let to_ := if x.level = 1 then 0 else x.parent
  let ts := s.ownTiles r
  let s : State := s.updRegion r (fun x => { x with state := 5, causes := 0, stopTick := none, resumeTick := none, stopped := false, queue := [], kernels := [] })
  let s := s.stateEvent r 4 st
  let s : State := { s with
    sec := { s.sec with gateKeys := ferase s.sec.gateKeys r }
    clusters := s.clusters.map (fun e => (e.1, { e.2 with gateKeys := e.2.gateKeys.filter (· != r) }))
    ports := s.ports.map (fun e => (e.1, { e.2 with gateKeys := e.2.gateKeys.filter (· != r) }))
    islands := s.islands.map (fun e => (e.1, { e.2 with gateKeys := e.2.gateKeys.filter (· != r) })) }
  -- tiles that were on their way into it stay where they are
  let s : State := { s with tiles := s.tiles.map (fun e => (e.1, if e.2.leaving = some r then { e.2 with leaving := some e.2.region } else e.2)) }
  let s := if x.level = 1 ∧ x.ring ≠ 0 then s.setCmdRing x.ring {} else s
  let s := ts.foldl (fun s t => s.beginRelease t to_) s
  if ts.isEmpty then (s.updRegion r (fun x => { x with finalDue := true, finalAt := s.now x.home })).later .usageRecord { a := r } else s

/-- The key step of a creation (R419, R428): none needed, drawn, or to be tried again. -/
def State.gateKeyStep (s : State) (k r : Nat) : State :=
  let x := s.region r
  if !x.conf ∨ x.level ≠ 1 then s.later .regionCreated { a := r }
  else match s.drawKey with
    | (some key, s) => ({ s with sec := { s.sec with gateKeys := fset 0 s.sec.gateKeys r (key.truncate 256) } }).later .regionCreated { a := r }
    | (none, s) => s.later .entropyRetry { a := k, b := s.tick + 200000 }

/-- No kernel in the states loading to saved (R415). -/
def Region.noKernels (x : Region) : Bool := x.kernels.all (fun e => !(decide (2 ≤ e.2.state ∧ e.2.state ≤ 6)))

/-- CREATE (R419): Creates a region through its creation steps. Operands: a = ring. -/
def execCreateRegion (s : State) : Out :=
  let k := s.ev.a
  s.serve k 1 (fun e s =>
    let x := s.regionFrom (e.p 0 8)
    let r := x.number
    let guest : Bool := if x.level = 1 then e.p 8 8 % 256 == 0 && powerOf2 16 4096 (e.p 0x10 4) && e.p 0x14 4 == 0 else e.p 8 48 == 0
    let l := s.rectSites x
    if !s.rcbOk x ∨ !guest ∨ !s.mayName k x.level x.parent ∨ (s.region r).state ≠ 0 ∨ (2 ≤ x.level ∧ (s.region x.parent).state ≠ 2 ∧ (s.region x.parent).state ≠ 3) then
      .done .format 0 s
    else if !s.budgetOk r x ∨ !s.keysFit r x ∨ 4096 ≤ (s.regions.filter (fun e => e.2.exists_)).length then .done .budget 0 s
    -- a parent that still runs kernels has no reserve (R400; log entry 119)
    else if l.length ≠ x.w * x.h ∨ l.any (fun e => !s.claimable x e.2.2) ∨ (x.level ≠ 1 ∧ !(s.region x.parent).noKernels) then .done .notiles 0 s
    else
      let ring := if x.level = 1 then r else 0
      let now := s.now (s.homeIsland x)
      let y : Region := { x with
        state := 1, home := s.homeIsland x, ring := ring, lastBoundary := now / 10 ^ 9 * 10 ^ 9, framesTo := s.tick,
        heldRecs := (s.region r).heldRecs }
      let s := (s.setRegion r y).nameRings r
      let s := (s.stateEvent r 0 .ok).claimTiles r l
      let s := if x.level = 1 then
          let c : CmdRing := { isOpen := true, base := e.p 8 8, n := e.p 0x10 4, key := BitVec.ofNat 256 (e.p 0x18 32), region := r }
          (s.memWrite (sysKey c.ctl) 64 0).setCmdRing ring c
        else s
      .later ((s.setCmdRing k { s.cmdRing k with creating := r }).gateKeyStep k r))

/-- The ring whose command creates a region. -/
def State.creator (s : State) (r : Nat) : Option Nat := (s.sec.rings.find? (fun e => e.2.creating == r && e.2.waiting)).map (·.1)

/-- Answer the CREATE of a region. -/
def State.answerCreate (s : State) (r : Nat) (st : Status) : State :=
  match s.creator r with
  | some k => match s.pending k with
    | some e => s.respond k e st 0
    | none => s
  | none => s

/-- Bytes 0x000 to 0x2FF of an attestation report (R439). The tick is that of field 14's copy, beside which SEC-A stands (R19), whichever
core is active (DESIGN CHOICE, log entry 108). -/
def State.attestBody (s : State) (r nonce : Nat) : Nat :=
  let x := s.region r
  packFields ([(32, devid.toNat)] ++ (List.range 8).map (fun i => (64, (fget 0 s.sec.meas i).toNat)) ++
    [(4, (if s.sec.selfDerived then 1 else 0) + (if s.sec.stateB = 0 then 2 else 0) + (if x.conf then 4 else 0)), (4, s.sec.mapExt), (4, s.sec.launches),
     (2, r), (2, 0), (64, if r = 0 then 0 else (Config.shake256 512 2048 x.rcb.toNat).toNat), (64, nonce), (8, s.now 14), (72, 0)])

/-- A report with its signature (R439). -/
def State.attestation (s : State) (r nonce : Nat) : Nat :=
  let b := s.attestBody r nonce
  b + signed 6144 b * 2 ^ 6144

/-- REGION_CREATED (R419): The last creation step completes and the region runs. Operands: a = r. -/
def execRegionCreated (s : State) : Out :=
  let r := s.ev.a
  let x := s.region r
  if x.state ≠ 1 then .next s
  -- every tile has been scrubbed and has joined (R418, R419)
  else if s.tiles.any (fun e => e.2.leaving == some r) ∨ (s.ownTiles r).any (fun t => decide (s.nowAt t < (s.tile t).scrubEnd)) then notYet s
  else
    let s := s.loadGateKeys r
    -- the tile monitor is loaded, and measured once (R419, R423; log entry 120)
    let s := (s.ownTiles r).foldl State.loadMonitor s
    let s := s.extend 3 (8 * Config.firmwareLen 2) monitorValue
    let s := s.copyTables (x.field 0x78 8) (x.field 0x80 8) (x.field 0x88 8)
    let s := s.reloadRegion r
    let s := (s.ownTiles r).foldl (fun s t => s.updTile t (fun y => { y with held := false })) s
    -- the attestation of the creation starts the chain of usage records (R419, R442)
    let d : BitVec 512 := Config.shake256 512 32616 (s.attestation r 0)
    let s := s.updRegion r (fun y => { y with state := 2, recDigest := d })
    let s := ((s.stateEvent r 1 .ok).answerCreate r .ok).later .usageRecord { a := r }
    -- a host cause that came while it was being created holds it now (R454)
    .next (if bit x.causes 0 then s.addCause1 r 0 0 else s)

/-! ### Destroy, reset (R403, R417) -/

/-- Every kernel of a region retires with status killed, and its launch queue is empty (R395, R417). -/
def State.killAll (s : State) (r : Nat) : State :=
  let s := s.updRegion r (fun x => { x with queue := [] })
  (s.region r).kernels.foldl (fun s e => let st := ((s.region r).kernel e.1).state
    if 1 ≤ st ∧ st ≤ 6 then s.retireKernel r e.1 1 0 else s) s

/-- The reset or the end of a region ends a border move that it takes part in: the region on the other side has its cause removed (R404, R416). -/
def State.endMove (s : State) (r : Nat) : State :=
  let x := s.region r
  let s := s.updRegion r (fun y => { y with strip := [] })
  let s := if x.strip.isEmpty ∨ x.stripFrom = 0 then s else s.removeCause x.stripFrom 5
  (s.regions.filter (fun e => e.2.stripFrom == r && !e.2.strip.isEmpty)).foldl (fun s e =>
    (s.updRegion e.1 (fun y => { y with strip := [] })).removeCause e.1 5) s

/-- DESTROY (R403): Resets a region and releases its tiles. Operands: a = ring. -/
def execDestroyRegion (s : State) : Out :=
  s.serve s.ev.a 2 (fun e s =>
    match s.namedBy s.ev.a (e.p 0 8) with
    | none => .done .format 0 s
    | some (r, x) =>
      let st := (s.region r).state
      if !(s.children r).isEmpty ∨ (st ≠ 2 ∧ st ≠ 3) then .done .state 0 s
      else .done .ok 0 (((((s.noteRcb r x).killAll r).endMove r).abandon r .ok).dropRegion r))

/-- RESET (R417): Resets a region, killing its kernels and scrubbing its tiles. Operands: a = ring. -/
def execRegionReset (s : State) : Out :=
  s.serve s.ev.a 5 (fun e s =>
    match s.namedBy s.ev.a (e.p 0 8) with
    | none => .done .format 0 s
    | some (r, x) =>
      let st := (s.region r).state
      if st ≠ 2 ∧ st ≠ 3 then .done .state 0 s
      else
        let s := ((s.noteRcb r x).killAll r).endMove r
        -- a tile lost before the hack has come leaves its hole and its event (R96, R417)
        let s := (s.region r).lostDue.foldl (fun s t => s.loseTile r t) s
        let ts := s.ownTiles r
        let s := s.updRegion r (fun y => { y with state := 4, causes := 0, stopTick := none, resumeTick := none, stopped := false, lostDue := [] })
        let s := s.stateEvent r 3 .ok
        let s := ts.foldl (fun s t => s.beginRelease t r) (s.adoptRoots r)
        .done .ok 0 (if ts.isEmpty then s.later .regionResetDone { a := r } else s))

/-- REGION_RESET_DONE (R417): A region reset completes and the region runs again. Operands: a = r. -/
def execRegionResetDone (s : State) : Out :=
  let r := s.ev.a
  if (s.region r).state ≠ 4 then .next s
  else if s.tiles.any (fun e => e.2.region == r && e.2.leaving.isSome) then notYet s
  else
    let s := (s.ownTiles r).foldl (fun s t => (s.updTile t (fun y => { y with held := false })).loadMonitor t) s
    let s := (s.updRegion r (fun x => { x with state := 2, causes := 0 })).reloadRegion r
    .next (s.stateEvent r 1 .ok)

/-! ### SHARE and the regulator (R403, R411, R413, R414) -/

/-- SHARE (R403): Loads a region's shares and targets for the next period. Operands: a = ring. -/
def execShareRegion (s : State) : Out :=
  s.serve s.ev.a 7 (fun e s =>
    match s.namedBy s.ev.a (e.p 0 8) with
    | none => .done .format 0 s
    | some (r, x) =>
      if !(s.region r).exists_ then .done .format 0 s
      else if !s.budgetOk r { x with col0 := (s.region r).col0, row0 := (s.region r).row0, w := (s.region r).w, h := (s.region r).h } ∨ !s.childrenFit r x then
        .done .budget 0 s
      else .done .ok 0 ((s.noteRcb r x).updRegion r (fun y => { y with shareDue := true })))

/-- Shares loaded by SHARE take effect (R413); what a region inherits follows its parent (R402). -/
def State.applyShare (s : State) (r : Nat) : State :=
  let x := s.region r
  let val (ovr own : Nat) (at_ : Region → Nat) : Nat := s.inherits x.rcb ovr (if x.shareDue then own else at_ x) at_
  let x := { x with
    prio := val 5 (x.field 9 1) Region.prio, lsh := val 4 (x.field 0xA 1) Region.lsh
    slots := val 3 (x.field 0xB 1) Region.slots, fdom := val 6 (x.field 0xC 2) Region.fdom }
  s.setRegion r (if x.shareDue then { x with shareDue := false, grow := x.field 0xE 1, kt := x.field 0x68 8, ct := x.field 0x70 8 } else x)

/-- The shares of all regions, parents before their children (R400, R413). -/
def State.applyShares (s : State) : State :=
  ([1, 2, 3, 4]).foldl (fun s l => (s.regions.filter (fun e => e.2.exists_ && e.2.level == l)).foldl (fun s e => s.applyShare e.1) s) s

/-- A score: a fraction, or none for unbounded (R413). -/
abbrev Score := Option (Nat × Nat)

def scoreLt (a b : Score) : Bool :=
  match a, b with
  | some (p, q), some (u, v) => decide (p * v < u * q)
  | some _, none => true
  | none, _ => false

def Region.score (x : Region) : Score :=
  let k : Score := if x.kt = 0 then none else some (x.ks, x.kt)
  let c : Score := if x.ct = 0 then none else some (x.cc, x.ct)
  if scoreLt c k then c else k

/-- A score below 1. -/
def belowOne (a : Score) : Bool := scoreLt a (some (1, 1))

/-- Regions without children (R413). -/
def State.leaves (s : State) : List (Nat × Region) := s.regions.filter (fun e => e.2.exists_ && (s.children e.1).isEmpty)

/-- Deal the 64 slots in turn (R414): to the region whose share less what it has been dealt is largest, the lower number first. -/
def dealSlots : Nat → Nat → List (Nat × Nat) → FMap Nat → FMap Nat
  | 0, _, _, m => m
  | n + 1, j, l, m =>
    let best := (l.map (·.2)).foldl Nat.max 0
    match l.find? (fun e => e.2 == best && best != 0) with
    | none => m
    | some e => dealSlots n (j + 1) (l.map (fun y => if y.1 = e.1 then (y.1, y.2 - 1) else y)) (fset 0 m j e.1)

/-- Rewrite the slot table of every port in the memory role (R414). -/
def State.dealAll (s : State) : State :=
  let m := dealSlots 64 0 (s.leaves.map (fun e => (e.1, e.2.slots))) []
  (List.range 72).foldl (fun s g => if (s.group g).role = 1 then (List.range 8).foldl (fun s i => s.setPort (8 * g + i) { s.port (8 * g + i) with slots := m }) s else s) s

/-! ### Border moves (R415, R416) -/

/-- The strip on a side of a rectangle: 0 east, 1 south, 2 west, 3 north. -/
def Region.stripOf (x : Region) (side n : Nat) : Option Region :=
  if side = 0 then some { col0 := x.col0 + x.w, row0 := x.row0, w := n, h := x.h }
  else if side = 1 then some { col0 := x.col0, row0 := x.row0 + x.h, w := x.w, h := n }
  else if side = 2 then (if x.col0 < n then none else some { col0 := x.col0 - n, row0 := x.row0, w := n, h := x.h })
  else (if x.row0 < n then none else some { col0 := x.col0, row0 := x.row0 - n, w := x.w, h := n })

/-- A rectangle grown on a side, and one cut back on the opposite side of what it loses. -/
def Region.grown (x : Region) (side n : Nat) : Region :=
  if side = 0 then { x with w := x.w + n } else if side = 1 then { x with h := x.h + n }
  else if side = 2 then { x with col0 := x.col0 - n, w := x.w + n } else { x with row0 := x.row0 - n, h := x.h + n }
def Region.cut (x : Region) (side n : Nat) : Region :=
  if side = 0 then { x with col0 := x.col0 + n, w := x.w - n } else if side = 1 then { x with row0 := x.row0 + n, h := x.h - n }
  else if side = 2 then { x with w := x.w - n } else { x with h := x.h - n }

/-- The neighbour shares the whole of that side and keeps a column or row (R415). -/
def Region.sharesSide (a b : Region) (side n : Nat) : Bool :=
  if side = 0 then decide (b.col0 = a.col0 + a.w ∧ b.row0 = a.row0 ∧ b.h = a.h ∧ n < b.w)
  else if side = 1 then decide (b.row0 = a.row0 + a.h ∧ b.col0 = a.col0 ∧ b.w = a.w ∧ n < b.h)
  else if side = 2 then decide (b.col0 + b.w = a.col0 ∧ b.row0 = a.row0 ∧ b.h = a.h ∧ n < b.w)
  else decide (b.row0 + b.h = a.row0 ∧ b.col0 = a.col0 ∧ b.w = a.w ∧ n < b.h)

/-- The sites of a rectangle of the wafer as a region sees them, or the reserve's. -/
def State.stripSites (s : State) (n parent level : Nat) (st : Region) : Option (List Nat) :=
  let one (i : Nat) : Option Nat :=
    let c := st.col0 + i % st.w
    let r := st.row0 + i / st.w
    let owner := if n = 0 then parent else n
    if n = 0 ∧ level = 1 then s.siteAt c r
    else
      let z := s.region owner
      if c < z.col0 ∨ r < z.row0 then none
      else match s.place owner (c - z.col0) (r - z.row0) with
        | .site t => some t
        | _ => none
  let l := (List.range (st.w * st.h)).map one
  if l.all Option.isSome then some (l.filterMap id) else none

/-- Conditions 2 and 4 to 7 of R415: the strip's sites, or the status of the refusal. -/
def State.moveOk (s : State) (a n side : Nat) : Except Status (List Nat) :=
  let x := s.region a
  let y := s.region n
  let len := x.grow
  match x.stripOf side len with
  | none => .error .busy
  | some st =>
    match s.stripSites n x.parent x.level st with
    | none => .error .busy
    | some l =>
      let owner := if n = 0 then (if x.level = 1 then 0 else x.parent) else n
      let idle (t : Nat) : Bool := let z := s.tile t
        z.region == owner && (owner != 0 || decide (s.siteState t = .free)) && z.kernel == 0 && z.leaving.isNone &&
        decide (Nat.max z.scrubEnd (z.dmax + 2 * epsilon) < s.nowAt t)
      let nSide : Bool := n == 0 || (y.exists_ && y.parent == x.parent && x.sharesSide y side len)
      let origin : Bool := if side = 0 ∨ side = 1 then n == 0 || y.noKernels else x.noKernels
      let quiet : Bool := x.state == 2 && !x.moved && (n == 0 || (y.state == 2 && !y.moved))
      let g := x.grown side len
      let inP : Bool := x.level == 1 && decide (g.col0 + g.w ≤ s.meshW ∧ g.row0 + g.h ≤ 108) || x.level != 1 && g.inside (s.region x.parent)
      if len = 0 ∨ !nSide ∨ !inP ∨ !l.all idle ∨ !origin ∨ !quiet then .error .busy
      -- budgets hold with the neighbour cut back (R411)
      else if !(if n = 0 then s else s.setRegion n (y.cut side len)).budgetOk a g ∨ !s.keysFit a g then .error .budget
      else .ok l

/-- Begin a border move (R416): both regions are held with the border-move cause. -/
def State.beginMove (s : State) (a n side : Nat) (l : List Nat) : State :=
  let s := s.updRegion a (fun x => { x with moved := true, strip := l, stripFrom := n, stripSide := side, stripLen := x.grow })
  let s := if n = 0 then s else s.updRegion n (fun x => { x with moved := true })
  let s := s.addCause1 a 5 0
  let s := if n = 0 then s else s.addCause1 n 5 0
  s.later .borderMoveDone { a := a }

/-- MOVE (R415): Moves one border on the host's command. Operands: a = ring. -/
def execMoveBorder (s : State) : Out :=
  s.serve s.ev.a 6 (fun e s =>
    match s.namedBy s.ev.a (e.p 0 8) with
    | none => .done .format 0 s
    | some (a, x) =>
      let n := e.p 8 2
      let side := e.p 0xA 1
      if 3 < side ∨ e.p 0xB 5 ≠ 0 ∨ !(s.region a).exists_ then .done .format 0 s
      else
        let s := s.noteRcb a x
        match s.moveOk a n side with
        | .error st => .done st 0 s
        | .ok l => .done .ok 0 (s.beginMove a n side l))

/-- A logical number after a rectangle has changed: its column and row shifted, the width new. -/
def renumber (x y : Region) (n : Nat) : Nat :=
  let c := x.col0 + n % x.w - y.col0
  let r := x.row0 + n / x.w - y.row0
  r * y.w + c

/-- A region takes its new rectangle: coordinates of its tiles and its holes, home island, routes (R405, R416). -/
def State.reshape (s : State) (r : Nat) (y : Region) : State :=
  let x := s.region r
  let z : Region := { x with col0 := y.col0, row0 := y.row0, w := y.w, h := y.h, holes := x.holes.map (renumber x y) }
  let h := s.homeIsland z
  let s := s.setRegion r { z with home := h }
  let s := (s.ownTiles r).foldl (fun s t => s.updTile t (fun v => { v with col := x.col0 + v.col - y.col0, row := x.row0 + v.row - y.row0 })) s
  s.loadGateKeys r

/-- BORDER_MOVE_DONE (R416): The border move's steps: with both regions stopped the strip's scrub starts, at its end the strip is reassigned and
the cause is removed. Operands: a = r, flag = the scrub has started. -/
def execBorderMoveDone (s : State) : Out :=
  let a := s.ev.a
  let x := s.region a
  let n := x.stripFrom
  if x.strip.isEmpty then .next s
  else if !x.stopped ∨ (n ≠ 0 ∧ !(s.region n).stopped) then notYet s
  else
    if !s.ev.flag then .next ((x.strip.foldl State.scrub s).later .borderMoveDone { a := a, flag := true })
    else if x.strip.any (fun t => decide (s.nowAt t < (s.tile t).scrubEnd)) then notYet s
    else
    let g := x.grown x.stripSide x.stripLen
    let s := x.strip.foldl (fun s t => (s.reportTile t).updTile t (fun y => { (y.fresh y.region y.col y.row s.tick) with held := true })) s
    let s := s.reshape a g
    let s := if n = 0 then s else s.reshape n ((s.region n).cut x.stripSide x.stripLen)
    -- the strip's tiles join the gaining region; their translations are dropped (R257)
    let s := x.strip.zipIdx.foldl (fun s e =>
      let st := (x.stripOf x.stripSide x.stripLen).getD {}
      let s := s.setSite e.1 { s.site e.1 with state := some .assigned }
      (s.updTile e.1 (fun y => { y with region := a, col := st.col0 + e.2 % st.w - g.col0, row := st.row0 + e.2 / st.w - g.row0, itlb := [], dtlb := [] })).loadMonitor e.1) s
    let s := s.updRegion a (fun y => { y with strip := [] })
    let s := s.reloadRegion a
    let s := if n = 0 then s else s.reloadRegion n
    -- tiles have become idle: the queues are tried (R387)
    let s := (s.removeCause a 5).later .placement { a := a }
    .next (if n = 0 then s else (s.removeCause n 5).later .placement { a := n })

/-- Put a candidate into its order: rising score, then falling PRIO, then rising number (R415). -/
def insertCand (e : Nat × Region) : List (Nat × Region) → List (Nat × Region)
  | [] => [e]
  | y :: l =>
    let first : Bool := scoreLt e.2.score y.2.score ||
      (!scoreLt y.2.score e.2.score && (decide (y.2.prio < e.2.prio) || (decide (y.2.prio = e.2.prio) && decide (e.1 < y.1))))
    if first then e :: y :: l else y :: insertCand e l

/-- The move that a candidate makes, the sides tried in their order (R415). -/
def State.tryMoves (s : State) (a : Nat) : List Nat → Option State
  | [] => none
  | side :: rest =>
    let x := s.region a
    let near := (s.children x.parent).filter (fun e => e.1 != a && x.sharesSide e.2 side x.grow)
    let from_ := match near with | e :: _ => (e.1, belowOne e.2.score) | [] => (0, false)
    match s.moveOk a from_.1 side with
    | .ok l => if from_.2 then s.tryMoves a rest else some (s.beginMove a from_.1 side l)
    | .error _ => s.tryMoves a rest

def State.mapRegions (s : State) (f : Region → Region) : State := { s with regions := s.regions.map (fun e => (e.1, f e.2)) }

/-- REGULATOR_PERIOD (R413): At each period end the regulator scores regions and applies shares. -/
def execRegulatorPeriod (s : State) : Out :=
  let p := s.tick / 10000000
  if p ≤ s.period then notYet s
  else
    let s := { s with period := p }
    -- what the tiles have counted in the period (R413)
    let s := (s.tiles.filter (fun e => e.2.region != 0)).foldl (fun s e => s.reportTile e.1) s
    let s := s.applyShares
    let s := s.dealAll
    let s := s.mapRegions (fun x => { x with moved := false })
    let cands : List (Nat × Region) := (s.leaves.filter (fun e => belowOne e.2.score && !e.2.queue.isEmpty && e.2.grow != 0)).foldl (fun l e => insertCand e l) []
    let s := cands.foldl (fun s e => (s.tryMoves e.1 [0, 1, 2, 3]).getD s) s
    let s := s.mapRegions (fun x => { x with ks := 0, cc := 0 })
    .next (s.later .regulatorPeriod {})

end Sys2Proof.Machine
end

