-- ==== Sys2Proof/Machine/Trust.lean ====
section
/-! DEFINITION. Keys, retagging, late launch, attestation, the usage ring and the security cores (R420 to R443). -/
namespace Sys2Proof.Machine

/-! ### Keys (R427, R428, R432) -/

/-- The SEC loads a key into the key table of every attached module, or erases it there (R432). -/
def State.loadKey (s : State) (kid : Nat) (key : Option (BitVec 512)) : State :=
  { s with groups := s.groups.map (fun e => (e.1,
      if e.2.role = 1 ∧ e.2.answering then { e.2 with keys := (match key with | some k => fset 0 e.2.keys kid k | none => ferase e.2.keys kid) } else e.2)) }

/-- The SEC keeps a new key and its region, and every attached module has it (R432). -/
def State.bindKey (s : State) (kid r : Nat) (key : BitVec 512) : State :=
  { s with sec := { s.sec with keys := fset (0, 0) s.sec.keys kid (r, key) } }.loadKey kid (some key)

/-- The key of a KEYNEW is drawn and bound; a failed reseed is tried again 200 µs later (R427, R428, R432). -/
def State.makeKey (s : State) (k : Nat) (e : Cmd) : Ran :=
  match s.drawKey with
  | (some key, s) => .done .ok 0 (s.bindKey (e.p 0 2) (e.p 4 2) key)
  | (none, s) => .later (s.later .entropyRetry { a := k, b := s.tick + 200000 })

/-- A KID that may hold a key (R432). -/
def kidOk (kid : Nat) : Bool := decide (1 ≤ kid ∧ kid ≤ 4095)

/-- KEYNEW (R432): Makes and binds an XTS key for a KID. Operands: a = ring. -/
def execKeynew (s : State) : Out :=
  let k := s.ev.a
  s.serve k 0x10 (fun e s =>
    if !kidOk (e.p 0 2) ∨ e.p 2 2 ≠ 0 ∨ e.p 6 2 ≠ 0 ∨ e.p 4 2 = 0 then .done .format 0 s
    else s.makeKey k e)

/-- KEYDEL (R432): Erases a KID's key. Operands: a = ring. -/
def execKeydel (s : State) : Out :=
  s.serve s.ev.a 0x11 (fun e s =>
    let kid := e.p 0 2
    if !kidOk kid ∨ e.p 2 6 ≠ 0 then .done .format 0 s
    else if s.tags.any (fun f => f.2.kid == kid) then .done .keybusy 0 s
    else .done .ok 0 ({ s with sec := { s.sec with keys := ferase s.sec.keys kid } }.loadKey kid none))

/-- ENTROPY_RETRY (R428): A failed reseed is retried 200 µs later. Operands: a = ring, b = tick. -/
def execEntropyRetry (s : State) : Out :=
  let k := s.ev.a
  let x := s.cmdRing k
  match s.pending k with
  | none => .next s
  | some e =>
    if !x.waiting ∨ (x.creating = 0 ∧ e.code ≠ 0x10) then .next s
    else if s.tick < s.ev.b then notYet s
    else
      let n := x.retries + 1
      let s := s.setCmdRing k { x with retries := n }
      let d := s.drawKey
      match d.1 with
      | some key =>
        if x.creating = 0 then
          .next ((d.2.bindKey (e.p 0 2) (e.p 4 2) key).respond k e .ok 0)
        else
          .next ({ d.2 with sec := { d.2.sec with gateKeys := fset 0 d.2.sec.gateKeys x.creating (key.truncate 256) } }.later .regionCreated { a := x.creating })
      | none =>
        if n < 3 then .next (d.2.later .entropyRetry { a := k, b := s.tick + 200000 })
        -- the fourth attempt has failed: the command changes nothing (R404, R428)
        else if x.creating = 0 then .next (d.2.respond k e .entropy 0)
        else .next ((d.2.abandon x.creating .entropy).respond k e .entropy 0)

/-! ### RETAG (R433) -/

/-- The frame number at which a RETAG starts, and its KID and owner. -/
def Cmd.frame (e : Cmd) : Nat := e.p 0 8 / 4096
def Cmd.count (e : Cmd) : Nat := e.p 8 4

/-- The frames lie in one module that answers, and the counts are within their limits (R433). -/
def State.retagOk (s : State) (e : Cmd) : Bool :=
  let pa := e.p 0 8
  pa % 4096 == 0 && decide (1 ≤ e.count ∧ e.count ≤ 2 ^ 20) && decide (e.p 12 2 ≤ 4095) && decide (pa < 2 ^ 49) && paWafer pa == s.module.waferNo &&
  paNamesPort pa && (s.group (paGroup pa)).role == 1 && (s.group (paGroup pa)).answering && decide (pa % 2 ^ 38 + 4096 * e.count ≤ 192 * 2 ^ 30)

/-- Zero the bytes between two keys: they are no longer listed, and their codes are good. -/
def State.zeroKeys (s : State) (lo hi : Nat) : State :=
  { s with mem := Memory.clear s.mem lo (hi - lo), ecc := s.ecc.filter (fun c => decide (c.1 < lo / 8 ∨ hi / 8 ≤ c.1)) }

/-- The module locks a frame; an access to it now is answered as a key conflict. -/
def State.lockFrame (s : State) (f : Nat) : State := s.setTag f { s.tag f with locked := true }

/-- Frames that a region owns are metered up to now, before their number changes (R440). -/
def State.meterFrames (s : State) (r : Nat) : State :=
  if r = 0 then s
  else s.updRegion r (fun x => { x with meter := fset 0 x.meter 8 (fget 0 x.meter 8 + 4096 * s.framesOf r * (s.tick - x.framesTo)), framesTo := s.tick })

/-- A locked frame gets its tags and zeros, and is unlocked. -/
def State.retagFrame (s : State) (f kid owner : Nat) : State :=
  let s := (s.meterFrames (s.tag f).owner).meterFrames owner
  (s.setTag f { kid := kid, owner := owner, locked := false }).zeroKeys (edgeKey (4096 * f)) (edgeKey (4096 * f + 4096))

/-- RETAG (R433): Sets key tag and owner of frames, scrubbing each. Operands: a = ring; with flag the frame b of the command under way. -/
def execRetag (s : State) : Out :=
  let k := s.ev.a
  let n := s.ev.b
  if s.ev.flag then
    match s.pending k with
    | none => .next s
    | some e =>
      let f := e.frame + n
      if !(s.cmdRing k).waiting ∨ e.code ≠ 0x12 ∨ e.count ≤ n ∨ !(s.tag f).locked then .next s
      else
        let s := s.retagFrame f (e.p 12 2) (e.p 14 2)
        if n + 1 < e.count then .next ((s.lockFrame (f + 1)).later .retag { a := k, b := n + 1, flag := true })
        else .next (s.respond k e .ok e.count)
  else
    s.serve k 0x12 (fun e s =>
      if !s.retagOk e then .done .format 0 s
      else .later ((s.lockFrame e.frame).later .retag { a := k, b := 0, flag := true }))

/-! ### Late launch (R423, R426) -/

/-- The islands by number. -/
def State.mapIslands (s : State) (f : Island → Island) : State := (List.range 36).foldl (fun s i => s.setIsland i (f (s.island i))) s

/-- LATELAUNCH (R426): Verifies a runtime image, remeasures and restarts the islands. Operands: a = ring. -/
def execLatelaunch (s : State) : Out :=
  s.serve s.ev.a 0x20 (fun e s =>
    let n := e.p 8 8
    let v := s.memRead (edgeKey (e.p 0 8)) n
    if !Config.imageOk n v then .done .format 0 s
    else
      let s := s.setMeas 4 (measure 0 (8 * n) v)
      let s := { s with sec := { s.sec with launches := s.sec.launches + 1 } }
      .done .ok 0 ((s.mapIslands (fun x => { x with restarting := true })).later .runtimeRestartDone {}))

/-- RUNTIME_RESTART_DONE (R426): The runtime firmware restart of the islands after LATELAUNCH ends, and the islands stop refusing VC6 messages. -/
def execRuntimeRestartDone (s : State) : Out := .next (s.mapIslands (fun x => { x with restarting := false }))

/-! ### Attestation and the usage ring (R439, R443) -/

/-- ATTEST (R439): Writes a signed attestation report. Operands: a = ring. -/
def execAttest (s : State) : Out :=
  s.serve s.ev.a 0x21 (fun e s =>
    let r := e.p 0 2
    let a := e.p 8 8
    if e.p 2 6 ≠ 0 ∨ a % 64 ≠ 0 ∨ (r ≠ 0 ∧ !(s.region r).exists_) then .done .format 0 s
    else .done .ok 0 (s.memWrite (sysKey a) 4096 (s.attestation r (e.p 0x10 64))))

/-- USAGERING (R443): Names the ring to which usage records are written. Operands: a = ring. -/
def execUsagering (s : State) : Out :=
  s.serve s.ev.a 0x32 (fun e s =>
    let base := e.p 0 8
    let n := e.p 8 4
    if base % 64 ≠ 0 ∨ !powerOf2 16 65536 n ∨ e.p 12 4 ≠ 0 then .done .format 0 s
    else .done .ok 0 (s.nameRing usageRing base n 3584).flushUsage)

/-! ### The two cores (R420, R421) -/

/-- What becomes of a command under way that is cut off (R421): a creation counts as a failed step, a frame that its module has locked is done.
Its retry and its next frame go with it. -/
def State.cutOff (s : State) (k : Nat) : State :=
  let x := s.cmdRing k
  let s : State := { s with agenda := s.agenda.filter (fun a => !((a.1 == Instr.entropyRetry && a.2.a == k) || (a.1 == Instr.retag && a.2.a == k && a.2.flag))) }
  match s.pending k with
  | none => s
  | some e =>
    if !x.waiting then s
    else
      let s : State := if x.creating ≠ 0 then s.abandon x.creating .interrupted else s
      if e.code = 0x12 then
        match s.tags.find? (fun f => f.2.locked && decide (e.frame ≤ f.1 ∧ f.1 < e.frame + e.count)) with
        | some f => (s.retagFrame f.1 (e.p 12 2) (e.p 14 2)).interruptRing k (f.1 - e.frame + 1)
        | none => s.interruptRing k 0
      else s.interruptRing k 0

/-- The failed core may have been serving an entry that the model has not begun to serve: as a free value has it, it had not, or the entry is
answered as cut off without its effect, or takes its effect and is answered so (R421; log entry 66). -/
def State.cutBegun (s : State) (k : Nat) : State :=
  let x := s.cmdRing k
  match s.pending k with
  | none => s
  | some e =>
    let v := (Config.freeValue 2 s.draws).toNat
    let s : State := { s with draws := s.draws + 1 }
    if x.waiting ∨ x.decide_ e ≠ .ok ∨ !e.formOk k ∨ v = 0 then s
    else if v = 1 then (s.setCmdRing k { x with acc := e.seq }).respond k e .interrupted 0
    else s.setCmdRing k { x with cut := true }

/-- The standby core takes over (R420, R421); with no core left no command is served. -/
def State.takeover (s : State) : State :=
  if s.sec.stateB = 1 ∧ s.sec.stateA = 0 then
    let s := { s with sec := { s.sec with stateA := 2, stateB := 0, missed := 0 } }
    s.sec.rings.foldl (fun s e => if e.2.waiting then s.cutOff e.1 else s.cutBegun e.1) s
  else if s.sec.stateB = 0 then { s with sec := { s.sec with stateB := 2, missed := 0 } }
  else s

/-- SEC_HEARTBEAT (R421): The active security core's heartbeat every 10,000 ticks. Operands: flag = arrived. -/
def execSecHeartbeat (s : State) : Out :=
  if s.sec.stateB ≠ 1 then .next s
  else if s.ev.flag then .next { s with sec := { s.sec with missed := 0 } }
  else if 3 ≤ s.sec.missed + 1 then .next s.takeover
  else .next { s with sec := { s.sec with missed := s.sec.missed + 1 } }

/-- SEC_TAKEOVER (R421): The standby core takes over after three missed heartbeats or a failure report. -/
def execSecTakeover (s : State) : Out := .next s.takeover

end Sys2Proof.Machine
end

