-- ==== Sys2Proof/Machine/Clock.lean ====
section
/-! DEFINITION. The discipline of a field's chronometer (R274 to R277). -/
namespace Sys2Proof.Machine

/-- The regulator waits for the next period end (R413). -/
def State.regulated (s : State) : State := if s.agenda.any (fun a => a.1 == .regulatorPeriod) then s else s.later .regulatorPeriod {}

/-- CHRONOMETER_SET (R276): The reference sets an unset field copy, which becomes locked. Operands: a = f, b = v. -/
def execChronometerSet (s : State) : Out :=
  let f := s.ev.a
  if (s.field f).state ≠ 0 then .next s
  else .next (s.setField f { state := 1, base := s.ev.b % 2 ^ 64, since := s.tick, holdFor := 0, goodSince := s.tick }).regulated

/-- A field drops what it has cached: translations and invariant lines (R224, R257, R277). -/
def State.dropField (s : State) (f : Nat) : State :=
  { s with
    tiles := s.tiles.map (fun e => if fieldOf e.1 = f then (e.1, { e.2 with itlb := [], dtlb := [], inv := [] }) else e)
    clusters := s.clusters.map (fun e => if fieldOfCluster e.1 = f then (e.1, { e.2 with l2 := [], wc := [] }) else e) }

/-- The copy goes on from what it reads now, `add` later, after holding for `hold` ticks (R275). -/
def State.correct (s : State) (f add hold : Nat) : State :=
  s.setField f { s.field f with base := (s.now f + add) % 2 ^ 64, since := s.tick, holdFor := hold }

/-- How many ticks a copy is still held (R275). -/
def State.stillHeld (s : State) (f : Nat) : Nat := (s.field f).holdFor - (s.tick - (s.field f).since)

/-- A correction of a copy by its error (R275): beyond ε a step forward, or a hold until the reference reaches it; within ε a
running hold still ends there, and otherwise one count is added or withheld, at most one in 1,024 ns. -/
def State.steer (s : State) (f : Nat) (err : Int) : State :=
  if epsilon < err.natAbs then (if err < 0 then s.correct f err.natAbs 0 else s.correct f 0 err.natAbs)
  else if 0 < s.stillHeld f ∧ 1 < (s.field f).holdFor then s.correct f 0 err.toNat
  else if err = 0 ∨ s.tick < (s.field f).since + 1024 then s
  else if err < 0 then s.correct f 1 (s.stillHeld f) else s.correct f 0 (s.stillHeld f + 1)

/-- CHRONOMETER_DISCIPLINE (R275): The discipliner slews, steps or holds the field's copy. Operands: a = f, i = err. -/
def execChronometerDiscipline (s : State) : Out :=
  let f := s.ev.a
  let err := s.ev.i
  let c := s.field f
  if c.state = 0 then .next s
  else
    let bad : Bool := decide (epsilon < err.natAbs)
    let s := s.steer f err
    -- a held copy comes within ε of the reference only once all but ε of its hold has passed
    if !bad then .next (s.setField f { s.field f with goodSince := min (s.field f).goodSince s.tick })
    else
      let s := s.setField f { s.field f with state := 2, goodSince := s.tick + (err.toNat - epsilon) }
      -- a step or a hold in skew-fault drops what has been cached since too (R275)
      if c.state = 2 then .next (s.dropField f)
      else .next (((s.dropField f).siteEvent f 0x4B (BitVec.ofInt 64 err) (BitVec.ofNat 64 f)).later .clockRestored { a := f })

/-- CLOCK_RESTORED (R276): After 1,000,000 ticks within ε the field returns to locked. Operands: a = f. -/
def execClockRestored (s : State) : Out :=
  let f := s.ev.a
  let c := s.field f
  if c.state ≠ 2 then .next s
  else if s.tick < c.goodSince + 1000000 then notYet s
  else .next ((s.setField f { c with state := 1 }).siteEvent f 0x4C 0 (BitVec.ofNat 64 f))

end Sys2Proof.Machine
end

