-- ==== Sys2Proof/Machine/Prefix.lean ====
section
/-! DEFINITION. The modifier prefix and the pairs it forms (R65 to R67, R43, R151, R152). -/
namespace Sys2Proof.Machine

/-- Which fields of a modifier an instruction accepts (R66). -/
structure Accepts where
  sat : Bool := false
  clamp : Bool := false
  a : Bool := false
  b : Bool := false
  scale : Bool := false
  rnd : Bool := false

/-- Every non-zero field of the modifier is accepted. -/
def Modifier.fits (m : Modifier) (c : Accepts) : Bool :=
  (!m.sat || c.sat) && (!m.clamp || c.clamp) && (!(m.absa || m.nega) || c.a) && (!(m.absb || m.negb) || c.b) &&
  (m.scale == 0 || c.scale) && (m.rnd == 0 || c.rnd)

/-- The classes of R66. -/
def scalarInt : Accepts := { sat := true, a := true, b := true, scale := true }
def scalarImm : Accepts := { sat := true, a := true, scale := true }
def vectorFp2 : Accepts := { sat := true, clamp := true, a := true, b := true, scale := true, rnd := true }
def vectorFp1 : Accepts := { sat := true, clamp := true, a := true, scale := true, rnd := true }
def vectorInt : Accepts := { sat := true, a := true, b := true, scale := true }
def convert (fp : Bool) : Accepts := { clamp := fp, a := true, scale := true, rnd := true }
def reductionFp : Accepts := { rnd := true }
def reductionInt : Accepts := { sat := true }

/-- The class of an instruction, none when no prefix may stand in front of it (R66). -/
def acceptsOf : Instr → Option Accepts
  | .add _ _ _ _ _ => some scalarInt
  | .sub _ _ _ _ _ => some scalarInt
  | .min _ _ _ _ _ => some scalarInt
  | .max _ _ _ _ _ => some scalarInt
  | .minu _ _ _ _ _ => some scalarInt
  | .maxu _ _ _ _ _ => some scalarInt
  | .mul _ _ _ _ _ => some scalarInt
  | .mulh _ _ _ _ _ => some scalarInt
  | .mulhu _ _ _ _ _ => some scalarInt
  | .addi _ _ _ _ => some scalarImm
  | .vaddF _ _ _ _ _ => some vectorFp2
  | .vsubF _ _ _ _ _ => some vectorFp2
  | .vmulF _ _ _ _ _ => some vectorFp2
  | .vminF _ _ _ _ _ => some vectorFp2
  | .vmaxF _ _ _ _ _ => some vectorFp2
  | .vfma _ _ _ _ _ => some vectorFp2
  | .vfms _ _ _ _ _ => some vectorFp2
  | .vfnma _ _ _ _ _ => some vectorFp2
  | .vfnms _ _ _ _ _ => some vectorFp2
  | .vrcp _ _ _ _ => some vectorFp1
  | .vrsq _ _ _ _ => some vectorFp1
  | .vsqrt _ _ _ _ => some vectorFp1
  | .vexp2 _ _ _ _ => some vectorFp1
  | .vlog2 _ _ _ _ => some vectorFp1
  | .vtanh _ _ _ _ => some vectorFp1
  | .vaddI _ _ _ _ _ => some vectorInt
  | .vsubI _ _ _ _ _ => some vectorInt
  | .vmulI _ _ _ _ _ => some vectorInt
  | .vmulh _ _ _ _ _ => some vectorInt
  | .vmulhu _ _ _ _ _ => some vectorInt
  | .vminI _ _ _ _ _ => some vectorInt
  | .vmaxI _ _ _ _ _ => some vectorInt
  | .vminu _ _ _ _ _ => some vectorInt
  | .vmaxu _ _ _ _ _ => some vectorInt
  | .vcvt _ _ _ _ e _ => some (convert (decide (e.toNat < 8)))
  | .vredAdd _ _ _ c => if c.toNat ≤ 3 then some reductionFp else if 8 ≤ c.toNat then some reductionInt else none
  | .vredMax _ _ _ c => if c.toNat ≤ 3 then some reductionFp else none
  | .vredMin _ _ _ c => if c.toNat ≤ 3 then some reductionFp else none
  | _ => none

/-- A pair: the second instruction under the modifier. The fallback is out of reach for an accepted instruction. -/
def runPair (m : Modifier) (i : Instr) (s : State) : Out :=
  match i with
  | .add rd ra rb wa wb => aluMod m i .add rd ra rb wa wb s
  | .sub rd ra rb wa wb => aluMod m i .sub rd ra rb wa wb s
  | .min rd ra rb wa wb => aluMod m i .min rd ra rb wa wb s
  | .max rd ra rb wa wb => aluMod m i .max rd ra rb wa wb s
  | .minu rd ra rb wa wb => aluMod m i .minu rd ra rb wa wb s
  | .maxu rd ra rb wa wb => aluMod m i .maxu rd ra rb wa wb s
  | .mul rd ra rb wa wb => aluMod m i .mul rd ra rb wa wb s
  | .mulh rd ra rb wa wb => aluMod m i .mulh rd ra rb wa wb s
  | .mulhu rd ra rb wa wb => aluMod m i .mulhu rd ra rb wa wb s
  | .addi rd ra wa imm => addiMod m i rd ra wa imm s
  | .vaddF vd va vb k t => vfBin m i .add vd va vb k t s
  | .vsubF vd va vb k t => vfBin m i .sub vd va vb k t s
  | .vmulF vd va vb k t => vfBin m i .mul vd va vb k t s
  | .vminF vd va vb k t => vfBin m i .min vd va vb k t s
  | .vmaxF vd va vb k t => vfBin m i .max vd va vb k t s
  | .vfma vd va vb k t => vfFma m i .fma vd va vb k t s
  | .vfms vd va vb k t => vfFma m i .fms vd va vb k t s
  | .vfnma vd va vb k t => vfFma m i .fnma vd va vb k t s
  | .vfnms vd va vb k t => vfFma m i .fnms vd va vb k t s
  | .vrcp vd va k t => vfSpec m i .rcp vd va k t s
  | .vrsq vd va k t => vfSpec m i .rsq vd va k t s
  | .vsqrt vd va k t => vfSpec m i .sqrt vd va k t s
  | .vexp2 vd va k t => vfSpec m i .exp2 vd va k t s
  | .vlog2 vd va k t => vfSpec m i .log2 vd va k t s
  | .vtanh vd va k t => vfSpec m i .tanh vd va k t s
  | .vaddI vd va vb k w => viArith m i .add vd va vb k w s
  | .vsubI vd va vb k w => viArith m i .sub vd va vb k w s
  | .vmulI vd va vb k w => viArith m i .mul vd va vb k w s
  | .vmulh vd va vb k w => viArith m i .mulh vd va vb k w s
  | .vmulhu vd va vb k w => viArith m i .mulhu vd va vb k w s
  | .vminI vd va vb k w => viArith m i .min vd va vb k w s
  | .vmaxI vd va vb k w => viArith m i .max vd va vb k w s
  | .vminu vd va vb k w => viArith m i .minu vd va vb k w s
  | .vmaxu vd va vb k w => viArith m i .maxu vd va vb k w s
  | .vcvt vd va n k e c => vfCvt m i vd va n k e c s
  | .vredAdd vd va k c => vfRed m i .add vd va k c s
  | .vredMax vd va k c => vfRed m i .max vd va k c s
  | .vredMin vd va k c => vfRed m i .min vd va k c s
  | _ => trap s 0x01 0

/-- The modifier a prefix word names. -/
def modifierOf (rnd : BitVec 3) (scale : BitVec 6) (absb absa negb nega clamp sat : BitVec 1) : Modifier :=
  { rnd := rnd.toNat, scale := scale.toInt, absb := absb == 1, absa := absa == 1, negb := negb == 1, nega := nega == 1,
    clamp := clamp == 1, sat := sat == 1 }

/-- The instruction of a word that a modifier may stand in front of. -/
def pairInstr (m : Modifier) (w : BitVec 32) : Option Instr :=
  match decode w with
  | .ok i => match acceptsOf i with
    | some c => if m.fits c then some i else none
    | none => none
  | .error _ => none

/-- PFX (R65): Modifier prefix that binds to the next arithmetic word as one pair. -/
def execPfx (rnd : BitVec 3) (scale : BitVec 6) (absb absa negb nega clamp sat : BitVec 1) (s : State) : Out :=
  let m := modifierOf rnd scale absb absa negb nega clamp sat
  if !(Instr.pfx rnd scale absb absa negb nega clamp sat).wf then trap s 0x01 0
  else match pairInstr m s.slot.word2 with
    | some i => runPair m i s
    | none => trap s 0x01 0

end Sys2Proof.Machine
end

