-- ==== Sys2Proof/Machine/Issue.lean ====
section
/-! DEFINITION. Issue: the meaning of an instruction word, what selection decides of a context, and the choice among contexts
(R67, R77, R104 to R113, R362, R447, R449). -/
namespace Sys2Proof.Machine

/-- What an instruction word does at the slot; a table row that is no word does nothing here. -/
def issueWord (i : Instr) (s : State) : Out :=
  match i with
  | .add rd ra rb wa wb => execAdd rd ra rb wa wb s
  | .sub rd ra rb wa wb => execSub rd ra rb wa wb s
  | .andG rd ra rb wa wb => execAndG rd ra rb wa wb s
  | .orG rd ra rb wa wb => execOrG rd ra rb wa wb s
  | .xorG rd ra rb wa wb => execXorG rd ra rb wa wb s
  | .andn rd ra rb wa wb => execAndn rd ra rb wa wb s
  | .shl rd ra rb wa wb => execShl rd ra rb wa wb s
  | .shr rd ra rb wa wb => execShr rd ra rb wa wb s
  | .sar rd ra rb wa wb => execSar rd ra rb wa wb s
  | .rot rd ra rb wa wb => execRot rd ra rb wa wb s
  | .slt rd ra rb wa wb => execSlt rd ra rb wa wb s
  | .sltu rd ra rb wa wb => execSltu rd ra rb wa wb s
  | .seq rd ra rb wa wb => execSeq rd ra rb wa wb s
  | .sel rd ra rb wa wb => execSel rd ra rb wa wb s
  | .min rd ra rb wa wb => execMin rd ra rb wa wb s
  | .max rd ra rb wa wb => execMax rd ra rb wa wb s
  | .minu rd ra rb wa wb => execMinu rd ra rb wa wb s
  | .maxu rd ra rb wa wb => execMaxu rd ra rb wa wb s
  | .addi rd ra wa imm => execAddi rd ra wa imm s
  | .andi rd ra wa imm => execAndi rd ra wa imm s
  | .ori rd ra wa imm => execOri rd ra wa imm s
  | .xori rd ra wa imm => execXori rd ra wa imm s
  | .shli rd ra wa n => execShli rd ra wa n s
  | .shri rd ra wa n => execShri rd ra wa n s
  | .sari rd ra wa n => execSari rd ra wa n s
  | .roti rd ra wa n => execRoti rd ra wa n s
  | .slti rd ra wa k => execSlti rd ra wa k s
  | .sltiu rd ra wa k => execSltiu rd ra wa k s
  | .lih rd imm => execLih rd imm s
  | .adr rd imm => execAdr rd imm s
  | .mul rd ra rb wa wb => execMul rd ra rb wa wb s
  | .mulh rd ra rb wa wb => execMulh rd ra rb wa wb s
  | .mulhu rd ra rb wa wb => execMulhu rd ra rb wa wb s
  | .div rd ra rb wa wb => execDiv rd ra rb wa wb s
  | .divu rd ra rb wa wb => execDivu rd ra rb wa wb s
  | .rem rd ra rb wa wb => execRem rd ra rb wa wb s
  | .remu rd ra rb wa wb => execRemu rd ra rb wa wb s
  | .clz rd ra wa => execClz rd ra wa s
  | .ctz rd ra wa => execCtz rd ra wa s
  | .popc rd ra wa => execPopc rd ra wa s
  | .ext rd ra rb wa wb => execExt rd ra rb wa wb s
  | .ins rd ra rb wa wb => execIns rd ra rb wa wb s
  | .bswap rd ra wa => execBswap rd ra wa s
  | .clmul rd ra rb wa wb => execClmul rd ra rb wa wb s
  | .clmulh rd ra rb wa wb => execClmulh rd ra rb wa wb s
  | .j disp => execJ disp s
  | .jal disp => execJal disp s
  | .pbr t imm => execPbr t imm s
  | .br t => execBr t s
  | .ret ra => execRet ra s
  | .bcEq ra rb t => execBcEq ra rb t s
  | .bcNe ra rb t => execBcNe ra rb t s
  | .bcLt ra rb t => execBcLt ra rb t s
  | .bcGe ra rb t => execBcGe ra rb t s
  | .bcLtu ra rb t => execBcLtu ra rb t s
  | .bcGeu ra rb t => execBcGeu ra rb t s
  | .bEq ra rb disp => execBEq ra rb disp s
  | .bNe ra rb disp => execBNe ra rb disp s
  | .bLt ra rb disp => execBLt ra rb disp s
  | .bGe ra rb disp => execBGe ra rb disp s
  | .bLtu ra rb disp => execBLtu ra rb disp s
  | .bGeu ra rb disp => execBGeu ra rb disp s
  | .bAl disp => execBAl disp s
  | .startCtx rd ra rb wa wb => execStartCtx rd ra rb wa wb s
  | .endCtx => execEndCtx s
  | .yield => execYield s
  | .trapN n => execTrapN n s
  | .sysc n => execSysc n s
  | .mret => execMret s
  | .rdsys rd q => execRdsys rd q s
  | .wrsys rs q => execWrsys rs q s
  | .brk n => execBrk n s
  | .mkfull rd k => execMkfull rd k s
  | .mkempty rd k => execMkempty rd k s
  | .mirr ra wa => execMirr ra wa s
  | .rdctx rd ra wa => execRdctx rd ra wa s
  | .lb rd ra wa n off => execLb rd ra wa n off s
  | .lbu rd ra wa n off => execLbu rd ra wa n off s
  | .lh rd ra wa n off => execLh rd ra wa n off s
  | .lhu rd ra wa n off => execLhu rd ra wa n off s
  | .lw rd ra wa n off => execLw rd ra wa n off s
  | .lwu rd ra wa n off => execLwu rd ra wa n off s
  | .ld rd ra wa n off => execLd rd ra wa n off s
  | .sb rs ra wa off => execSb rs ra wa off s
  | .sh rs ra wa off => execSh rs ra wa off s
  | .sw rs ra wa off => execSw rs ra wa off s
  | .sd rs ra wa off => execSd rs ra wa off s
  | .amoadd rd ra rb wa wb z => execAmoadd rd ra rb wa wb z s
  | .amoand rd ra rb wa wb z => execAmoand rd ra rb wa wb z s
  | .amoor rd ra rb wa wb z => execAmoor rd ra rb wa wb z s
  | .amoxor rd ra rb wa wb z => execAmoxor rd ra rb wa wb z s
  | .amomin rd ra rb wa wb z => execAmomin rd ra rb wa wb z s
  | .amomax rd ra rb wa wb z => execAmomax rd ra rb wa wb z s
  | .amominu rd ra rb wa wb z => execAmominu rd ra rb wa wb z s
  | .amomaxu rd ra rb wa wb z => execAmomaxu rd ra rb wa wb z s
  | .amoswap rd ra rb wa wb z => execAmoswap rd ra rb wa wb z s
  | .amocas rd ra rb wa wb z => execAmocas rd ra rb wa wb z s
  | .amoaddf rd ra rb wa wb z => execAmoaddf rd ra rb wa wb z s
  | .fenceRel q => execFenceRel q s
  | .fenceAcq q => execFenceAcq q s
  | .fenceFull q => execFenceFull q s
  | .tprobe rd ra rb wa wb => execTprobe rd ra rb wa wb s
  | .lrenew rd ra rb wa wb => execLrenew rd ra rb wa wb s
  | .tdrop ra rb wa wb => execTdrop ra rb wa wb s
  | .rdtime rd => execRdtime rd s
  | .rdtsr rd => execRdtsr rd s
  | .twait ra wa => execTwait ra wa s
  | .rdnbr rd e => execRdnbr rd e s
  | .rdhop rd e => execRdhop rd e s
  | .rdmap rd ra wa => execRdmap rd ra wa s
  | .rtwr ra rb wa wb => execRtwr ra rb wa wb s
  | .rtrd rd ra wa => execRtrd rd ra wa s
  | .send ra rb wa wb => execSend ra rb wa wb s
  | .sendh ra rb wa wb => execSendh ra rb wa wb s
  | .sendN ra rb wa wb => execSendN ra rb wa wb s
  | .sendE ra rb wa wb => execSendE ra rb wa wb s
  | .sendS ra rb wa wb => execSendS ra rb wa wb s
  | .sendW ra rb wa wb => execSendW ra rb wa wb s
  | .qcfg ra n wa => execQcfg ra n wa s
  | .hset ra n wa => execHset ra n wa s
  | .hclr n => execHclr n s
  | .hseal => execHseal s
  | .hopen => execHopen s
  | .rcarm ra n wa => execRcarm ra n wa s
  | .rcrd rd n => execRcrd rd n s
  | .tsend n ra rb wa wb => execTsend n ra rb wa wb s
  | .tcancel rd n => execTcancel rd n s
  | .hmsg ra rb wa wb => execHmsg ra rb wa wb s
  | .sopen ra n wa => execSopen ra n wa s
  | .sclose rd n => execSclose rd n s
  | .xcopy rc ra rb wa wb => execXcopy rc ra rb wa wb s
  | .xpop rd => execXpop rd s
  | .binit rd ra n wa => execBinit rd ra n wa s
  | .binitF rd ra n wa => execBinitF rd ra n wa s
  | .bexp ra n wa => execBexp ra n wa s
  | .barv ra rb wa wb => execBarv ra rb wa wb s
  | .bwait rd n => execBwait rd n s
  | .btest rd n => execBtest rd n s
  | .binv n => execBinv n s
  | .coll rd ra rb wa wb => execColl rd ra rb wa wb s
  | .tform rd ra wa => execTform rd ra wa s
  | .tjoin rd ra wa => execTjoin rd ra wa s
  | .tleave ra t wa => execTleave ra t wa s
  | .tmark n => execTmark n s
  | .trejoin rd n => execTrejoin rd n s
  | .tsync rd => execTsync rd s
  | .tgang => execTgang s
  | .tend => execTend s
  | .rdskew rd => execRdskew rd s
  | .kq rd ra wa => execKq rd ra wa s
  | .kexit ra wa => execKexit ra wa s
  | .rpt l q n => execRpt l q n s
  | .rptR l q wa ra => execRptR l q wa ra s
  | .rptx l q wa ra => execRptx l q wa ra s
  | .vaddF vd va vb m t => execVaddF vd va vb m t s
  | .vsubF vd va vb m t => execVsubF vd va vb m t s
  | .vmulF vd va vb m t => execVmulF vd va vb m t s
  | .vminF vd va vb m t => execVminF vd va vb m t s
  | .vmaxF vd va vb m t => execVmaxF vd va vb m t s
  | .vcmpEqF vd va vb m t => execVcmpEqF vd va vb m t s
  | .vcmpLtF vd va vb m t => execVcmpLtF vd va vb m t s
  | .vcmpLe vd va vb m t => execVcmpLe vd va vb m t s
  | .vcmpUn vd va vb m t => execVcmpUn vd va vb m t s
  | .vfma vd va vb m t => execVfma vd va vb m t s
  | .vfms vd va vb m t => execVfms vd va vb m t s
  | .vfnma vd va vb m t => execVfnma vd va vb m t s
  | .vfnms vd va vb m t => execVfnms vd va vb m t s
  | .vaddI vd va vb m w => execVaddI vd va vb m w s
  | .vsubI vd va vb m w => execVsubI vd va vb m w s
  | .vmulI vd va vb m w => execVmulI vd va vb m w s
  | .vmulh vd va vb m w => execVmulh vd va vb m w s
  | .vmulhu vd va vb m w => execVmulhu vd va vb m w s
  | .vminI vd va vb m w => execVminI vd va vb m w s
  | .vmaxI vd va vb m w => execVmaxI vd va vb m w s
  | .vminu vd va vb m w => execVminu vd va vb m w s
  | .vmaxu vd va vb m w => execVmaxu vd va vb m w s
  | .vcmpEqI vd va vb m w => execVcmpEqI vd va vb m w s
  | .vcmpLtI vd va vb m w => execVcmpLtI vd va vb m w s
  | .vcmpLtu vd va vb m w => execVcmpLtu vd va vb m w s
  | .vand vd va vb m w => execVand vd va vb m w s
  | .vor vd va vb m w => execVor vd va vb m w s
  | .vxor vd va vb m w => execVxor vd va vb m w s
  | .vandn vd va vb m w => execVandn vd va vb m w s
  | .vsel vd va vb m w => execVsel vd va vb m w s
  | .vshl vd va vb m w => execVshl vd va vb m w s
  | .vshr vd va vb m w => execVshr vd va vb m w s
  | .vsar vd va vb m w => execVsar vd va vb m w s
  | .vrcp vd va m t => execVrcp vd va m t s
  | .vrsq vd va m t => execVrsq vd va m t s
  | .vsqrt vd va m t => execVsqrt vd va m t s
  | .vexp2 vd va m t => execVexp2 vd va m t s
  | .vlog2 vd va m t => execVlog2 vd va m t s
  | .vtanh vd va m t => execVtanh vd va m t s
  | .vcvt vd va n m e q => execVcvt vd va n m e q s
  | .vperm vd va vb m w => execVperm vd va vb m w s
  | .vbcast vd va m w => execVbcast vd va m w s
  | .vext vd va n w => execVext vd va n w s
  | .vins vd va n w => execVins vd va n w s
  | .vredAdd vd va m c => execVredAdd vd va m c s
  | .vredMax vd va m c => execVredMax vd va m c s
  | .vredMin vd va m c => execVredMin vd va m c s
  | .vclmul vd va vb m => execVclmul vd va vb m s
  | .vld vd va vb m w n => execVld vd va vb m w n s
  | .vst vd va vb m w => execVst vd va vb m w s
  | .vldt vd va vb n => execVldt vd va vb n s
  | .vgather vd va vb m w n => execVgather vd va vb m w n s
  | .vscatter vd va vb m w => execVscatter vd va vb m w s
  | .mcfg ga gb => execMcfg ga gb s
  | .munf ga gb => execMunf ga gb s
  | .mldb ga gb => execMldb ga gb s
  | .mzero acc gb => execMzero acc gb s
  | .mstr acc ga gb k => execMstr acc ga gb k s
  | .mrd acc ga gb => execMrd acc ga gb s
  | .mwr acc ga gb => execMwr acc ga gb s
  | .mpop ga => execMpop ga s
  | .msave ga gb => execMsave ga gb s
  | .mrest ga gb => execMrest ga gb s
  | .mmac acc ga gb x y => execMmac acc ga gb x y s
  | .mmacu acc gb x y => execMmacu acc gb x y s
  | .mmacs acc gb x y => execMmacs acc gb x y s
  | .pfx rnd scale absb absa negb nega clamp sat => execPfx rnd scale absb absa negb nega clamp sat s
  | _ => stall s

/-- The word at a context's pc: from the running frame, else fetched, with the second word of a pair (R67, R178). -/
inductive Picked where
  | word (s : State)
  | wait (s : State)
  | fault (s : State) (code : Nat) (tval : Word)

/-- Put the next instruction of a context into the slot. -/
def State.pickWord (s : State) (t c : Nat) : Picked :=
  let x := s.ctx t c
  match x.frame.state with
  | .run =>
    let f := x.frame
    let w := f.wordAt f.pos
    let l : Slot := { site := t, ctx := c, addr := f.base + BitVec.ofNat 64 (4 * f.pos), word := w, framed := true }
    .word { s with slot := if isModifier w then { l with pair := true, word2 := f.wordAt (f.pos + 1) } else l }
  | _ =>
    let s := s.atSlot t c x.pc 0
    match s.fetch t c x.pc with
    | .fault code tval => .fault s code tval
    | .wait s => .wait s
    | .word w s =>
      if isModifier w then
        match s.fetch t c (x.pc + 4) with
        -- a fault of the second word is reported at the first (R77); no pair has been read: PAIR and TWORD[63:32] are zero (DESIGN CHOICE,
        -- log entry 97)
        | .fault code tval => .fault (s.atSlot t c x.pc w) code tval
        | .wait s => .wait s
        | .word w2 s => .word { s with slot := { site := t, ctx := c, addr := x.pc, word := w, word2 := w2, pair := true } }
      else .word (s.atSlot t c x.pc w)

/-- A breakpoint matches the address (R447). -/
def Ctx.breaks (x : Ctx) (a : Word) : Bool :=
  !x.mon && !x.skip && ((bit x.dbgctl 2 && x.bpa0 == a) || (bit x.dbgctl 3 && x.bpa1 == a))

/-- The instruction in the slot is executed, or taken for illegal (R76). -/
def State.runSlot (s : State) : Out :=
  match decode s.slot.word with
  | .ok i => issueWord i s
  | .error _ => trap s 0x01 0

/-- Selection of a context (R77, R117, R447, R449): a single-step trap that is due, a fault found for it before, a fetch fault, a breakpoint,
 an illegal word, or the instruction. -/
def State.attempt (s : State) (t c : Nat) : Out :=
  let x := s.ctx t c
  let p := s.pickWord t c
  let s1 := match p with | .word s => s | .wait _ => s.atSlot t c x.pc 0 | .fault s _ _ => s
  -- a single-step trap comes before anything of the next instruction, its fetch included (R449)
  if x.stepDue then match p, x.dueFault with
    | .wait s, none => stall s
    | _, _ => trap (s1.updCtx t c (fun y => { y with dueFault := none })) 0x09 0
  else match x.dueFault with
  | some d => trap (s1.updCtx t c (fun y => { y with dueFault := none })) d.1.toNat d.2
  | none => match p with
      | .wait s => stall s
      | .fault s code tval => trap s code tval
      | .word s => if x.breaks s.slot.addr then trap s 0x0A 0 else s.runSlot

/-- The context may be considered at this opportunity, apart from its next instruction (R102, R113, R176, R221, R362, R371 to R375). -/
def State.candidate (s : State) (t c : Nat) : Bool :=
  let x := s.tile t
  let y := x.ctx c
  decide (y.state = .live) && !y.yielded && !(y.frame.lacks && decide (y.frame.state ≠ .suspended)) && x.fenceDone c &&
  (c != 0 ||
    -- attached, waiting to rejoin, or waiting for formation: in monitor mode too (R362, R366, R371)
    (x.train.state != 3 && x.train.state != 5 && !(x.train.state == 1 && (y.formed || x.train.joined)) &&
      -- the stream, which a monitor in the leader leaves standing (R369, R374)
      (y.mon || !(x.train.state == 2 && (!s.linesUp t || !s.eastNear t 0 0)))))

/-- The step left the slot's instruction where it was. -/
def stalledOut : Out → Option State
  | .next s => if s.slot.stalled then some { s with slot := {} } else none
  | _ => none

/-- Try the contexts in turn: those that are ready, and the state with what the others have asked for meanwhile (R105). -/
def State.poll (s : State) (t : Nat) : List Nat → List Nat × State
  | [] => ([], s)
  | c :: r =>
    if s.candidate t c then
      match stalledOut (s.attempt t c) with
      | some s' => s'.poll t r
      | none => let q := s.poll t r
                (c :: q.1, q.2)
    else s.poll t r

/-- A ready context issues: its word counts a correctable error (R212), and what it stores to may be fetched as it was (R213). -/
def State.issueAt (s : State) (t c : Nat) : Out :=
  match (s.countFetch t c).attempt t c with
  | .next s' => .next (s'.noteStale s t)
  | o => o

/-- Effective priority (R105, R116). -/
def Ctx.epri (x : Ctx) : Nat := if x.mon then 3 else x.pri.toNat

/-- The choice among the ready contexts (R105): the guaranteed turn, else the highest priority, first from RR. -/
def Tile.choose (x : Tile) (cand : List Nat) : Option Nat × Nat :=
  if cand.isEmpty then (none, x.rr)
  else if cand.contains x.tok then (some x.tok, x.rr)
  else
    let p := (cand.map (fun c => (x.ctx c).epri)).foldl Nat.max 0
    match (List.range 12).findSome? (fun i => let c := (x.rr + i) % 12; if cand.contains c && (x.ctx c).epri == p then some c else none) with
    | some c => (some c, (c + 1) % 12)
    | none => (none, x.rr)

/-- One issue opportunity of a tile (R104 to R106, R128, R362). -/
def State.issueSlot (s : State) (t : Nat) : Out :=
  let x := s.tile t
  if x.held ∨ x.halted then .next s
  else
    let q := s.poll t (List.range 12)
    let s := q.2
    let leads := x.train.state = 2 ∧ !(x.ctx 0).mon ∧ q.1.contains 0
    -- a stream instruction takes the slot ahead of every local context
    if leads then s.issueAt t 0
    else
      let p := (s.tile t).choose q.1
      let s := s.updTile t (fun x => { x with tok := (x.tok + 1) % 12, rr := p.2, ctxs := x.ctxs.map (fun e => (e.1, { e.2 with yielded := false })) })
      match p.1 with
      | some c => s.issueAt t c
      | none => .next (s.updTile t Tile.fetchFresh)

end Sys2Proof.Machine
end

