-- ==== Sys2Proof/Machine/Follow.lean ====
section
/-! DEFINITION. What a follower of a train does with the words on its lane (R184, R363, R369, R376). -/
namespace Sys2Proof.Machine

/-- A word that only the leader's path decides: a jump or branch; its register write alone is made (R363). -/
def followTransfer (i : Instr) (s : State) : Option State :=
  match i with
  | .j _ => some s
  | .jal _ => some (s.updCur (fun x => x.putG x.mon 1 s.nextAddr))
  | .pbr t imm => some (s.updCur (fun x => { x with t := fset 0 x.t t.toNat (s.curTile.own (s.target (imm.signExtend 64))) }))
  | .br _ => some s
  | .ret _ => some s
  | .bcEq _ _ _ => some s
  | .bcNe _ _ _ => some s
  | .bcLt _ _ _ => some s
  | .bcGe _ _ _ => some s
  | .bcLtu _ _ _ => some s
  | .bcGeu _ _ _ => some s
  | .bEq _ _ _ => some s
  | .bNe _ _ _ => some s
  | .bLt _ _ _ => some s
  | .bGe _ _ _ => some s
  | .bLtu _ _ _ => some s
  | .bGeu _ _ _ => some s
  | .bAl _ => some s
  | .kq _ _ _ => some s
  | _ => none

/-- Words that dissolve the train when they come down the lane (R376, R393). -/
def endsTrain (w : BitVec 32) : Bool :=
  match decode w with
  | .ok .tend => true
  | .ok (.kexit _ _) => true
  | _ => false

/-- A repeater instruction, which brings a frame of the leader with it (R184). -/
def bringsFrame (w : BitVec 32) : Bool :=
  match decode w with
  | .ok (.rpt _ _ _) => true
  | .ok (.rptR _ _ _ _) => true
  | .ok (.rptx _ _ _ _) => true
  | _ => false

/-- A member that is not attached lets a word go by; the train's end reaches it there (R376). -/
def State.passBy (s : State) (t : Nat) (w : BitVec 32) : State :=
  let x := (s.tile t).train
  let s := if bringsFrame w then s.updTile t (fun y => { y with train := { y.train with frames := y.train.frames.drop 1 } }) else s
  -- a wait that passes a member counts it as raised (R374)
  let s := if isSync w then s.updTile t (fun y => { y with train := { y.train with raised := true } }) else s
  if endsTrain w then
    let s := s.updTile t (fun y => { y with train := { y.train with state := 0 } })
    if x.state = 5 then s.lateG t x.rd 0 else s
  else s

/-- The member to the west has executed the word at the head of this member's lane (R361). -/
def State.westAhead (s : State) (t : Nat) : Bool :=
  let x := (s.tile t).train
  if x.d ≤ 1 then true
  else match s.memberSite t (x.d - 1) with
    | some u => let y := (s.tile u).train; decide (y.c0 ≠ x.c0 ∨ y.state < 3 ∨ y.lane.length < x.lane.length)
    | none => true

/-- An attached follower executes a word whose slot is set (R363). -/
def State.followWord (s : State) : Out :=
  let x := s.cur
  if x.stepDue then trap (s.updCur (fun y => { y with dueFault := none })) 0x09 0
  else match x.dueFault with
  | some d => trap (s.updCur (fun y => { y with dueFault := none })) d.1.toNat d.2
  | none =>
    if x.breaks s.slot.addr then trap s 0x0A 0
    else match decode s.slot.word with
      | .error _ => trap s 0x01 0
      | .ok (.kexit _ _) => .next ((s.goOn s.nextAddr).updCurTile (fun y => { y with train := { y.train with state := 0 } }))
      | .ok i => match followTransfer i s with
        | some s' => .next (s'.goOn s.nextAddr)
        | none => issueWord i s

/-- The frame that comes with a repeater instruction has gone with it, or goes by (R184). -/
def Train.dropFrame (y : Train) (w : BitVec 32) (had : Nat) : Train :=
  if bringsFrame w ∧ y.frames.length = had then { y with frames := y.frames.drop 1 } else y

/-- An attached follower executes the word at the head of its lane at its skew (R361, R363, R364): it waits for the members beside it, for the
elements that are due before its cycle and for its fence. One that is not ready by then underruns (R369). -/
def State.laneWord (s : State) (a : Word) (w w2 : BitVec 32) (r : List (Word × BitVec 32 × BitVec 32)) : Out :=
  let t := s.ev.a
  let x := s.tile t
  let count (s : State) : State := s.updTile t (fun y => { y with train := ({ y.train with step := y.train.step + 1 }.dropFrame w x.train.frames.length) })
  if !s.westAhead t ∨ !s.eastNear t x.train.d x.train.lane.length ∨
      x.train.wire.any (fun e => match e.2 with | some k => decide (k < x.train.step) | none => false) ∨ !x.fenceDone 0 then notYet s
  else
    let y := (x.ctx 0).inStep (x.own a)
    let l : Slot := { site := t, ctx := 0, addr := x.own a, word := w, word2 := w2, pair := isModifier w, train := true, framed := decide (y.frame.state = .run) }
    let s1 := { s.updTile t (fun z => { z.setCtx 0 y with train := { z.train with lane := r, nextAddr := a + BitVec.ofNat 64 l.size } }) with slot := l }
    match s1.followWord with
    | .next s2 =>
      if !s2.slot.stalled then .next ((count s2).noteStale s1 t)
      else if (s2.ctx t 0).xlate ≠ .none then
        -- a translation is on its way: the word waits
        notYet (s2.updTile t (fun y => { y with train := { y.train with lane := (a, w, w2) :: r, nextAddr := x.train.nextAddr } }))
      else trap (count s1) 0x0F 0
    | o => o

/-- TRAIN_STREAM_WORD (R363): An attached follower executes a forwarded stream word at its skew; another member lets it go by. Operands: a = t. -/
def execTrainStreamWord (s : State) : Out :=
  let t := s.ev.a
  let x := s.tile t
  match x.train.lane with
  | [] => .next s
  | (a, w, w2) :: r =>
    -- a marker has an event of its own
    if isTmark w then notYet s
    else if x.train.state ≠ 3 then
      .next ((s.updTile t (fun y => { y with train := { y.train with lane := r, step := y.train.step + 1 } })).passBy t w)
    else s.laneWord a w w2 r

/-- TRAIN_MARKER (R373): A marker reaching a member in rejoin-wait reattaches it; an attached one executes it as any other word (R363).
Operands: a = t, b = n. -/
def execTrainMarker (s : State) : Out :=
  let t := s.ev.a
  let x := s.tile t
  match x.train.lane with
  | [] => .next s
  | (a, w, w2) :: r =>
    -- words of the lane go in order
    if !isTmark w then notYet s
    else if x.train.state = 3 then s.laneWord a w w2 r
    else
      let s := s.updTile t (fun x => { x with train := { x.train with lane := r, nextAddr := a + 4, step := x.train.step + 1 } })
      if x.train.state = 5 ∧ x.train.marker = fld w 8 6 then
        .next ((s.updTile t (fun x => { x with train := { x.train with state := 3, lineDue := 0 } })).lateG t x.train.rd 1)
      else .next s

end Sys2Proof.Machine
end

