-- ==== Sys2Proof/Machine/Links.lean ====
section
/-! DEFINITION. Edge ports, port groups, bays and their modules (R20 to R22, R320 to R323, R456 to R458). -/
namespace Sys2Proof.Machine

/-! ### Registers as words (R321, R322, R456) -/

/-- PORTSTAT (R321). -/
def State.portStat (s : State) (p : Nat) : Word :=
  let x := s.port p
  BitVec.ofNat 64 (s.portState p + (if x.sp then 128 + 256 * x.lane else 0) + 2 ^ 16 * x.extra + 2 ^ 24 * x.replays)

/-- PGCFG (R322). -/
def State.pgcfg (s : State) (g : Nat) : Word := BitVec.ofNat 64 ((s.group g).role + 2 ^ 16 * (s.group g).status)

/-- BAY (R456). -/
def State.bayWord (s : State) (b : Nat) : Word :=
  let x := s.bay b
  let n (f : Bool) (k : Nat) : Nat := if f then k else 0
  BitVec.ofNat 64 (n x.present 1 + n x.led 2 + n x.release 4 + n x.latch 8 + n x.scrub 16 + 256 * x.group)

/-! ### Ports (R320, R321) -/

/-- A lane of a port fails (R321). -/
def Port.laneFail (x : Port) (lane : Nat) : Port :=
  if x.state = 3 then (if x.sp then { x with state := 5 } else { x with state := 4, sp := true, lane := lane % 8, replayFails := 0 })
  else if x.state = 4 then { x with state := 5 }
  else x

/-- LANE_FAILURE (R321): A failed lane is replaced by the spare or fails the port. Operands: a = p, b = lane. -/
def execLaneFailure (s : State) : Out :=
  let p := s.ev.a
  .next (s.setPort p ((s.port p).laneFail s.ev.b))

/-- LINK_REPLAY (R320): A flit failing its CRC is replayed from the port buffer. Operands: a = p, flag = the replay fails too, b = lane. -/
def execLinkReplay (s : State) : Out :=
  let p := s.ev.a
  let x := s.port p
  if x.state ≠ 3 ∧ x.state ≠ 4 then .next s
  else
    let y := { x with replays := Nat.min 255 (x.replays + 1), replayFails := if s.ev.flag then x.replayFails + 1 else 0 }
    -- three failed replays of one flit in a row (R320)
    .next (s.setPort p (if 3 ≤ y.replayFails then { y with replayFails := 0 }.laneFail s.ev.b else y))

/-- Ports of a group. -/
def portsOf (g : Nat) : List Nat := (List.range 8).map (fun i => 8 * g + i)

/-- The bay cabled to a group. -/
def State.bayOf (s : State) (g : Nat) : Option Nat := (List.range 64).find? (fun b => (s.bay b).group == g)

/-- A module answers in the group's bay. -/
def State.moduleIn (s : State) (g : Nat) : Bool :=
  match s.bayOf g with
  | some b => (s.bay b).present
  | none => false

/-- Every frame behind a group is zeroed and carries tag 0, and its module's key table is empty (R322, R457). -/
def State.eraseGroup (s : State) (g : Nat) : State :=
  let pa := s.module.waferNo * 2 ^ 45 + g * 2 ^ 38
  let s := (s.tags.filter (fun e => decide (pa ≤ 4096 * e.1 ∧ 4096 * e.1 < pa + 2 ^ 38))).foldl (fun s e => (s.meterFrames e.2.owner).setTag e.1 {}) s
  (s.zeroKeys (edgeKey pa) (edgeKey (pa + 2 ^ 38))).setGroup g { s.group g with keys := [] }

/-- Once a memory group's ports have trained, its module is attested and scrubbed, has every key in its key table, and the group answers (R322,
R432). -/
def State.attach (s : State) (g : Nat) : State :=
  let x := s.group g
  if x.role = 1 ∧ !x.answering ∧ s.moduleIn g ∧ !(portsOf g).any (fun p => s.portState p == 2) ∧ (portsOf g).any s.portUp then
    (s.eraseGroup g).setGroup g { x with answering := true, keys := s.sec.keys.map (fun e => (e.1, e.2.2)) }
  else s

/-- PORT_TRAINING (R321): Port training passes or fails. Operands: a = p, flag = passed, b = extra. -/
def execPortTraining (s : State) : Out :=
  let p := s.ev.a
  let x := s.port p
  if s.portState p ≠ 2 then .next s
  else
    let y : Port :=
      if s.ev.flag then { state := 3, extra := s.ev.b % 256, slots := x.slots }
      else if 3 ≤ x.trainFails + 1 then { x with state := 5, trainFails := 0 } else { x with trainFails := x.trainFails + 1 }
    .next ((s.setPort p y).attach (p / 8))

/-! ### The role of a group (R21, R22, R322, R457) -/

/-- A leaf at stage 2 maps memory behind group g of wafer w, or the partner copy of it (R21, R254, R323). -/
def leafInGroup (w g e : Nat) : Bool :=
  let pa := teFrame e * 4096
  -- an address with bit 49 set, or 192 GiB or more into its module, maps no memory (R323)
  paWafer pa == w && paNamesPort pa && decide (pa % 2 ^ 38 < 192 * 2 ^ 30) && (paGroup pa == g || (teM e && paGroup (partnerOf pa) == g))

/-- A stage-2 table of a region maps memory behind a group. -/
def State.tableMaps (s : State) (g tbl : Nat) : Nat → Bool
  | 0 => false
  | l + 1 => (List.range 512).any (fun i =>
    let e := s.memRead (edgeKey (tbl + 8 * i)) 8
    match entryOf 2 l e with
    | .table a => s.tableMaps g a l
    | .leaf => leafInGroup s.module.waferNo g e
    | _ => false)

/-- A region maps memory behind the group, or a route to another wafer crosses it. -/
def State.groupBusy (s : State) (g : Nat) : Bool :=
  s.regions.any (fun e => e.2.exists_ && s.tableMaps g e.2.s2root 5) || s.module.routes.any (fun e => e.2.any (fun p => p / 8 == g))

/-- The status of a write of ROLE that would change it (R322). -/
def State.roleStatus (s : State) (g role : Nat) : Nat :=
  if s.groupBusy g then 1
  else if role ≠ 0 ∧ (portsOf g).any s.portAbsent then 2
  else if role = 1 ∧ 64 ≤ ((List.range 72).filter (fun i => (s.group i).role == 1)).length then 3
  else if role = 1 ∧ !s.moduleIn g then 4
  else 0

/-- A port of a group under a role: down under no role or with nothing attached; with a partner present a port that is down
starts to train. A failed port stays so until the role is unused (R321). -/
def Port.underRole (x : Port) (role : Nat) (partner : Bool) : Port :=
  if role = 0 ∨ (!partner ∧ x.state ≠ 5) then { x with state := 1, sp := false, lane := 0, trainFails := 0, replayFails := 0 }
  else if x.state = 1 then { x with state := 2, trainFails := 0 }
  else x

/-- The ports of a group under a role (R321). -/
def State.retrain (s : State) (g role : Nat) (partner : Bool) : State :=
  (portsOf g).foldl (fun s p => if s.portState p = 0 then s else s.setPort p ((s.port p).underRole role partner)) s

/-- A write of ROLE (R322). -/
def State.writeRole (s : State) (g role : Nat) (partner : Bool) : State :=
  let x := s.group g
  if 72 ≤ g then s
  else if x.role = role then (s.setGroup g { x with status := 0 }).retrain g role partner
  else
    let st := s.roleStatus g role
    if st ≠ 0 then s.setGroup g { x with status := st }
    else
      let s := s.setGroup g { x with role := role, status := 0, answering := false }
      let s := s.retrain g role partner
      match s.bayOf g with
      | none => if x.role = 1 then s.eraseGroup g else s.attach g
      | some b =>
        -- leaving the memory role erases the module (R457); taking a role closes the latch (R456)
        let s := if role ≠ 0 then s.setBay b { s.bay b with release := false, latch := false } else s
        if x.role = 1 ∧ (s.bay b).present then ((s.eraseGroup g).setBay b { s.bay b with scrub := true, latch := false }).later .moduleScrubDone { a := b } else s.attach g

/-- ROLE_UNUSED (R322): PGCFG write setting the group unused, with module erasure. Operands: a = g. -/
def execRoleUnused (s : State) : Out := .next (s.writeRole s.ev.a 0 false)

/-- ROLE_MEMORY (R322): PGCFG write setting the group to the memory role. Operands: a = g. -/
def execRoleMemory (s : State) : Out := .next (s.writeRole s.ev.a 1 true)

/-- ROLE_LINK (R322): PGCFG write setting the group to the link role. Operands: a = g. -/
def execRoleLink (s : State) : Out := .next (s.writeRole s.ev.a 2 s.ev.flag)

/-! ### Bays (R322, R456 to R458) -/

/-- MODULE_SEATED (R322): A bay reports a seated module. Operands: a = b, b = g, the group cabled to the bay; no group has a number above 71 (R456). -/
def execModuleSeated (s : State) : Out :=
  let b := s.ev.a
  .next (s.setBay b { s.bay b with present := true, group := if s.ev.b < 72 then s.ev.b else 255 })

/-- A request to the group that its module has performed, and whose reply has not passed the boundary router, has the no-memory code for its
answer; whether one had passed a free value says (R458; log entry 121). -/
def State.loseReplies (s : State) (g : Nat) : State :=
  s.tiles.foldl (fun s t => t.2.q.ret.foldl (fun s e => match e.state, e.dst with
    | .done, .edge pa =>
      if paWafer pa ≠ s.module.waferNo ∨ paGroup pa ≠ g ∨ e.mirrored then s
      else
        let s' := { s with draws := s.draws + 1 }
        if (Config.freeValue 1 s.draws).toNat = 0 then s' else s'.setEntry t.1 { e with code := 0x30, reply := 0, flags := 0 }
    | _, _ => s) s) s

/-- MODULE_REMOVED (R458): A module removed under the memory role fails its ports. Operands: a = b. -/
def execModuleRemoved (s : State) : Out :=
  let b := s.ev.a
  let x := s.bay b
  let g := x.group
  if !x.present then .next s
  else
    let s := s.setBay b { x with present := false }
    if (s.group g).role ≠ 1 then .next s
    else
      let s := (s.setGroup g { s.group g with answering := false, keys := [] }).loseReplies g
      .next ((portsOf g).foldl (fun s p => if s.portState p = 0 then s else s.setPort p { s.port p with state := 5 }) s)

/-- MODULE_SCRUB_DONE (R457): The module's erasure ends and SCRUB clears. Operands: a = b. -/
def execModuleScrubDone (s : State) : Out :=
  let b := s.ev.a
  let x := s.bay b
  if !x.scrub then .next s else .next (s.setBay b { x with scrub := false, latch := x.release })

/-- BAY_RELEASE (R456): A write of the BAY register, whose RELEASE requests the bay latch and whose LED sets the service indicator. Operands:
a = b, flag = v, the RELEASE bit, w = the word for its LED bit. -/
def execBayRelease (s : State) : Out := .next (s.writeBay s.ev.a s.ev.flag (bit s.ev.w 1))

end Sys2Proof.Machine
end

