-- ==== Sys2Proof/Machine/Power.lean ====
section
/-! DEFINITION. Thermal state, power, wafer reset, the boot remap and measured boot (R90, R91, R417, R420 to R425, R453 to R455). -/
namespace Sys2Proof.Machine

/-! ### Thermal state (R453, R454) -/

/-- MODSTAT (R453). -/
def State.modStat (s : State) : Word :=
  let x := s.module
  let n (f : Bool) (k : Nat) : Nat := if f then k else 0
  BitVec.ofNat 64 (x.therm % 4 + n x.feedA 16 + n x.feedB 32 + 2 ^ 8 * (x.flow % 256) + 2 ^ 16 * (x.outlet % 256) + 2 ^ 24 * (x.inlet % 256))

/-- The conditions of the table of R454 in the measured values: an alert condition; a condition that shuts down at once, or after 5 s. -/
def Module.alertNow (x : Module) : Bool := decide (45 < x.inlet) || decide (x.flow < 81) || !x.feedA || !x.feedB
def Module.dead_ (x : Module) : Bool := !x.feedA && !x.feedB
def Module.hotNow (x : Module) : Bool := decide (55 < x.outlet) || decide (x.flow < 60)

/-- New measured values, as MODSTAT lays them out (R453): since when no alert condition holds, and since when a shutdown condition does. -/
def State.measured (s : State) (w : Word) : State :=
  let x := { s.module with inlet := fld w 24 8, outlet := fld w 16 8, flow := fld w 8 8, feedA := bit w 4, feedB := bit w 5 }
  let since (on : Bool) (old : Option Nat) : Option Nat := if !on then none else match old with | some t => some t | none => some s.tick
  { s with module := { x with clearSince := since (!x.alertNow) x.clearSince, hotSince := since x.hotNow x.hotSince } }

/-- A condition has held for so many ticks. -/
def heldFor (since : Option Nat) (now n : Nat) : Bool := match since with | some t => decide (t + n ≤ now) | none => false

/-- THERM changes: every working island's hypervisor is interrupted (R454). -/
def State.setTherm (s : State) (v : Nat) : State :=
  (List.range 36).foldl (fun s i => if (s.island i).failed then s else s.interruptHyp i) { s with module := { s.module with therm := v } }

/-- The values of a thermal report, once: a report that waits for its time to pass has flag set. -/
def State.report (s : State) : State := if s.ev.flag then s else s.measured s.ev.w

/-- THERMAL_ALERT (R454): An alert condition moves THERM to alert. Operands: w = the measured values. -/
def execThermalAlert (s : State) : Out :=
  let s := s.report
  .next (if s.module.therm = 0 ∧ s.module.alertNow then s.setTherm 1 else s)

/-- THERMAL_NORMAL (R454): Alert conditions clear for 60 s and THERM returns to normal. Operands: w = the measured values, flag = they have been
taken. -/
def execThermalNormal (s : State) : Out :=
  let s := s.report
  if s.module.therm ≠ 1 ∨ s.module.clearSince.isNone then .next s
  else if heldFor s.module.clearSince s.tick 60000000000 then .next (s.setTherm 0)
  else if s.ev.flag then notYet s
  else .next (s.later .thermalNormal { s.ev with flag := true })

/-- The host cause is added to every region; one that is being created keeps it until it runs (R404, R454). -/
def State.haltAll (s : State) : State :=
  s.regions.foldl (fun s e => if e.2.state = 1 then s.updRegion e.1 (fun x => { x with causes := x.causes ||| 1 }) else s.addCause1 e.1 0 0) s

/-- THERMAL_SHUTDOWN (R454): A shutdown condition hacks every region. Operands: w = the measured values, flag = they have been taken. -/
def execThermalShutdown (s : State) : Out :=
  let s := s.report
  if 2 ≤ s.module.therm then .next s
  else if s.module.dead_ || heldFor s.module.hotSince s.tick 5000000000 then
    .next ((s.setTherm 2).haltAll.later .powerRemoval { a := s.tick + 2000000000 })
  else if s.module.hotSince.isNone then .next s
  else if s.ev.flag then notYet s
  else .next (s.later .thermalShutdown { s.ev with flag := true })

/-- Steps of bays and modules, whose power is their own (R454). -/
def keepsPower (i : Instr) : Bool :=
  match i with
  | .powerOn => true
  | .moduleSeated => true
  | .moduleRemoved => true
  | .moduleScrubDone => true
  | _ => false

/-- What a site is, whatever its state: the defects that self-test finds. -/
def Site.cold (x : Site) : Site := { broken := x.broken, badRows := x.badRows, badSpm := x.badSpm }

def State.mapSites (s : State) (f : Site → Site) : State := { s with sites := s.sites.map (fun e => (e.1, f e.2)) }

/-- What stays when wafer power goes: the edge modules and bays, the flash, and the defects of the sites (R454). -/
def State.unpowered (s : State) : State :=
  { tick := s.tick, draws := s.draws, nextId := s.nextId, period := s.period,
    agenda := s.agenda.filter (fun x => keepsPower x.1),
    mem := s.mem.filter (fun c => decide (edgeKey 0 ≤ c.1 ∧ c.1 < sysKey 0)),
    ecc := s.ecc.filter (fun c => decide (edgeKey 0 / 8 ≤ c.1 ∧ c.1 < sysKey 0 / 8)),
    groups := s.groups, bays := s.bays, tags := s.tags, images := s.images,
    sites := s.sites.map (fun e => (e.1, { e.2.cold with bootDead := e.2.bootDead })),
    islands := s.islands.map (fun e => (e.1, { failed := e.2.failed, pcieUp := e.2.pcieUp })),
    sec := { draws := s.sec.draws },
    module := { s.module with powered := false } }

/-- POWER_REMOVAL (R454): Wafer power is removed 2 s after shutdown. Operands: a = tick. -/
def execPowerRemoval (s : State) : Out :=
  if s.tick < s.ev.a then notYet s else .next s.unpowered

/-! ### The defect map (R425) -/

/-- Bytes of a copy as a number. -/
def bytesNat (l : List Byte) (off n : Nat) : Nat := ((l.drop off).take n).foldr (fun b v => b.toNat + 256 * v) 0

def mapSerial (l : List Byte) : Nat := bytesNat l 4 4
def mapCount (l : List Byte) : Nat := bytesNat l 0x28 4

/-- A copy of the defect map is valid: magic, DEVID and signature (R425). -/
def mapValid (l : List Byte) : Bool :=
  let n := 0x30 + 8 * mapCount l
  bytesNat l 0 4 == 0x4D464544 && bytesNat l 8 32 == devid.toNat && decide (n + 3309 ≤ l.length) && Config.verifies Config.signingKey (n + 3309) (bytesNat l 0 (n + 3309))

/-- The map used at boot: the bytes of its entries and before; none when self-test derives it. -/
def Module.selectMap (x : Module) : Option (List Byte) :=
  let a := mapValid x.mapA
  let b := mapValid x.mapB
  if a && b then
    if mapSerial x.mapA = mapSerial x.mapB then (if x.mapA = x.mapB then some x.mapA else none)
    else if mapSerial x.mapA < mapSerial x.mapB then some x.mapB else some x.mapA
  else if a then some x.mapA
  else if b then some x.mapB
  else none

/-- One entry of the map: the site, the kind, the row, the bank. -/
def mapEntry (l : List Byte) (i : Nat) : Nat × Nat × Nat × Nat :=
  let f (o n : Nat) : Nat := bytesNat l (0x30 + 8 * i + o) n
  (640 * f 0 1 + 32 * f 2 1 + f 1 1, f 3 1, f 4 2, f 6 1)

def mapEntries (l : List Byte) : List (Nat × Nat × Nat × Nat) := (List.range (mapCount l)).map (mapEntry l)

/-- Entries that describe what self-test finds of a site, in the format of the map (R425). -/
def Site.found (x : Site) (t : Nat) : List (Nat × Nat) :=
  let e (kind row bank : Nat) : Nat × Nat := (8, fieldOf t + 2 ^ 8 * siteCol t + 2 ^ 16 * siteRow t + 2 ^ 24 * kind + 2 ^ 32 * row + 2 ^ 48 * bank)
  (if x.noGrade then [e 0 0 0] else []) ++ ((List.range 57).filter (fun i => x.badRows.getLsbD i)).map (fun i => e 1 i 0) ++ x.badSpm.map (fun b => e 2 b.2 b.1)

/-- Sites that fail self-test though the map lists them as good (R425). -/
def State.mapExtension (s : State) (l : List (Nat × Nat × Nat × Nat)) : Nat :=
  (s.sites.filter (fun e => e.2.noGrade && !l.any (fun d => d.1 == e.1 && d.2.1 == 0))).length

/-! ### Wafer reset and the boot remap (R90, R91, R417) -/

/-- The tile monitor in every tile that is not dead (R424). -/
def State.loadAll (s : State) : State := (List.range 23040).foldl (fun s t => if (s.site t).bootDead || s.fieldOut (fieldOf t) then s else s.loadMonitor t) s

/-- Self-test and the boot remap: each site is good, reduced, spare or dead (R86, R90, R91). -/
def State.bootRemap (s : State) : State :=
  let l := match s.module.selectMap with | some m => mapEntries m | none => []
  let s := s.mapSites (fun x => { x with mapped := [] })
  let s := l.foldl (fun s d => s.setSite d.1 { s.site d.1 with mapped := (s.site d.1).mapped ++ [d.2] }) s
  s.sites.foldl (fun s e => (s.setSite e.1 { s.site e.1 with bootDead := (s.site e.1).withMap.noGrade }).gradeSite e.1) s

/-- Wafer reset (R417): every site, chronometer and region is reset; the security cores are as at power-on (R420). -/
def State.waferReset (s : State) : State :=
  let s := s.sec.rings.foldl (fun s e => s.cutOff e.1) s
  let held := (s.regions.filter (fun e => !e.2.heldRecs.isEmpty)).map (fun e => (e.1, ({ heldRecs := e.2.heldRecs } : Region)))
  let s := { s with
    -- a power removal that is due comes all the same (R454)
    agenda := s.agenda.filter (fun x => keepsPower x.1 || x.1 == Instr.powerRemoval), events := [], posted := [], gangOut := [], slot := {}
    tiles := [], clusters := [], fields := [], regions := held
    rings := s.rings.filter (fun e => decide (1000000 ≤ e.1))
    sec := { s.sec with stateA := 0, stateB := 1, missed := 0, gateKeys := [], rings := s.sec.rings.filter (fun e => e.2.region == 0) } }
  (s.mapSites Site.cold).bootRemap.loadAll

/-- WAFER_RESET (R417): Resets every site, chronometer and region. -/
def execWaferReset (s : State) : Out := .next s.waferReset

/-! ### Measured boot (R422 to R425) -/

/-- The map in use is measured, or the derived one, and the count of what self-test adds is taken. -/
def State.measureMap (s : State) : State :=
  match s.module.selectMap with
  | some m =>
    let n := 0x30 + 8 * mapCount m
    let s := s.extend 1 (8 * (n + 3309)) (bytesNat m 0 (n + 3309))
    { s with sec := { s.sec with selfDerived := false, mapExt := s.mapExtension (mapEntries m) } }
  | none =>
    let l := s.sites.flatMap (fun e => e.2.found e.1)
    let s := s.extend 1 (64 * l.length) (packFields l)
    { s with sec := { s.sec with selfDerived := true, mapExt := 0 } }

/-- A firmware image is verified and extended into a register; none where the check fails (R424). -/
def State.bootImage (s : State) (i reg : Nat) : Option State :=
  let n := Config.firmwareLen i
  -- the tile monitor is the image that tiles are loaded with
  let v := if i = 2 then monitorValue else Config.firmware i
  if Config.imageOk n v then some (s.extend reg (8 * n) v) else none

/-- Each island's boot firmware is verified and extended into MEAS2 (R424). -/
def State.bootIslands (s : State) : List Nat → Option State
  | [] => some s
  | i :: l => match s.bootImage (64 + i) 2 with
    | some s => s.bootIslands l
    | none => none

/-- The key of ring 0, drawn up to four times, 200 µs apart (R427, R428). -/
def State.drawKeys (s : State) : Nat → Option (BitVec 512) × State
  | 0 => (none, s)
  | n + 1 => match s.drawKey with
    | (some k, s) => (some k, s)
    | (none, s) => ({ s with tick := s.tick + (if n = 0 then 0 else 200000) } : State).drawKeys n

/-- The SEC names ring 0 as island 0's boot firmware asks, and gives it its key (R424, R438). -/
def State.openRing0 (s : State) (base n : Nat) : State :=
  match s.drawKeys 4 with
  | (none, s) => s
  | (some key, s) =>
    let s := { s with sec := { s.sec with booted := true } }
    let s := s.setIsland 0 { s.island 0 with ringKey := some (key.truncate 256) }
    if base % 256 ≠ 0 ∨ !powerOf2 16 4096 n then s
    else (s.memWrite (sysKey (base + 256 * n)) 64 0).setCmdRing 0 { isOpen := true, base := base, n := n, key := key.truncate 256 }

/-- Boot in its order; a step whose check fails stops it (R424). -/
def State.boot (s : State) (base n : Nat) : State :=
  match s.bootImage 0 0 with
  | none => s
  | some s =>
    let s := s.measureMap.bootRemap
    match s.bootIslands (List.range 36) with
    | none => s
    | some s => match s.bootImage 2 3 with
      | none => s
      | some s => match s.loadAll.bootImage 3 4 with
        | none => s
        | some s => s.openRing0 base n

/-- Every field's chronometer is set from the reference and locks (R276, R455). -/
def State.lockFields (s : State) : State :=
  ((List.range 36).foldl (fun s f => s.setField f { state := 1, base := s.tick % 2 ^ 64, since := s.tick, goodSince := s.tick }) s).regulated

/-- POWER_ON (R455): Module power-on brings up rails, resets, boots and locks the chronometer. Operands: a = base, b = entries of ring 0. -/
def execPowerOn (s : State) : Out :=
  let base := s.ev.a
  let n := s.ev.b
  -- power-on starts from what a loss of power leaves
  let u : State := s.unpowered
  let u : State := { u.mapSites Site.cold with
    module := { u.module with powered := true, therm := 0, hotSince := none }
    bays := u.bays.map (fun e => (e.1, { e.2 with led := false, release := false, latch := false })) }
  let u := (u.boot base n).lockFields
  .next ((List.range 72).foldl (fun s g =>
    let x := s.group g
    if x.role = 0 then s else s.retrain g x.role (x.role == 2 || s.moduleIn g)) u)

end Sys2Proof.Machine
end

