-- ==== Sys2Proof/Machine/Dispatch.lean ====
section
/-! DEFINITION. The meaning of every row of the opcode table, one arm each. -/
namespace Sys2Proof.Machine

def exec (i : Instr) (s : State) : Host.Outcome State Fault Refusal :=
  match i with
  | .add rd ra rb wa wb => Sys2Proof.Machine.execAdd rd ra rb wa wb s
  | .sub rd ra rb wa wb => Sys2Proof.Machine.execSub rd ra rb wa wb s
  | .andG rd ra rb wa wb => Sys2Proof.Machine.execAndG rd ra rb wa wb s
  | .orG rd ra rb wa wb => Sys2Proof.Machine.execOrG rd ra rb wa wb s
  | .xorG rd ra rb wa wb => Sys2Proof.Machine.execXorG rd ra rb wa wb s
  | .andn rd ra rb wa wb => Sys2Proof.Machine.execAndn rd ra rb wa wb s
  | .shl rd ra rb wa wb => Sys2Proof.Machine.execShl rd ra rb wa wb s
  | .shr rd ra rb wa wb => Sys2Proof.Machine.execShr rd ra rb wa wb s
  | .sar rd ra rb wa wb => Sys2Proof.Machine.execSar rd ra rb wa wb s
  | .rot rd ra rb wa wb => Sys2Proof.Machine.execRot rd ra rb wa wb s
  | .slt rd ra rb wa wb => Sys2Proof.Machine.execSlt rd ra rb wa wb s
  | .sltu rd ra rb wa wb => Sys2Proof.Machine.execSltu rd ra rb wa wb s
  | .seq rd ra rb wa wb => Sys2Proof.Machine.execSeq rd ra rb wa wb s
  | .sel rd ra rb wa wb => Sys2Proof.Machine.execSel rd ra rb wa wb s
  | .min rd ra rb wa wb => Sys2Proof.Machine.execMin rd ra rb wa wb s
  | .max rd ra rb wa wb => Sys2Proof.Machine.execMax rd ra rb wa wb s
  | .minu rd ra rb wa wb => Sys2Proof.Machine.execMinu rd ra rb wa wb s
  | .maxu rd ra rb wa wb => Sys2Proof.Machine.execMaxu rd ra rb wa wb s
  | .addi rd ra wa imm => Sys2Proof.Machine.execAddi rd ra wa imm s
  | .andi rd ra wa imm => Sys2Proof.Machine.execAndi rd ra wa imm s
  | .ori rd ra wa imm => Sys2Proof.Machine.execOri rd ra wa imm s
  | .xori rd ra wa imm => Sys2Proof.Machine.execXori rd ra wa imm s
  | .shli rd ra wa n => Sys2Proof.Machine.execShli rd ra wa n s
  | .shri rd ra wa n => Sys2Proof.Machine.execShri rd ra wa n s
  | .sari rd ra wa n => Sys2Proof.Machine.execSari rd ra wa n s
  | .roti rd ra wa n => Sys2Proof.Machine.execRoti rd ra wa n s
  | .slti rd ra wa k => Sys2Proof.Machine.execSlti rd ra wa k s
  | .sltiu rd ra wa k => Sys2Proof.Machine.execSltiu rd ra wa k s
  | .lih rd imm => Sys2Proof.Machine.execLih rd imm s
  | .adr rd imm => Sys2Proof.Machine.execAdr rd imm s
  | .mul rd ra rb wa wb => Sys2Proof.Machine.execMul rd ra rb wa wb s
  | .mulh rd ra rb wa wb => Sys2Proof.Machine.execMulh rd ra rb wa wb s
  | .mulhu rd ra rb wa wb => Sys2Proof.Machine.execMulhu rd ra rb wa wb s
  | .div rd ra rb wa wb => Sys2Proof.Machine.execDiv rd ra rb wa wb s
  | .divu rd ra rb wa wb => Sys2Proof.Machine.execDivu rd ra rb wa wb s
  | .rem rd ra rb wa wb => Sys2Proof.Machine.execRem rd ra rb wa wb s
  | .remu rd ra rb wa wb => Sys2Proof.Machine.execRemu rd ra rb wa wb s
  | .clz rd ra wa => Sys2Proof.Machine.execClz rd ra wa s
  | .ctz rd ra wa => Sys2Proof.Machine.execCtz rd ra wa s
  | .popc rd ra wa => Sys2Proof.Machine.execPopc rd ra wa s
  | .ext rd ra rb wa wb => Sys2Proof.Machine.execExt rd ra rb wa wb s
  | .ins rd ra rb wa wb => Sys2Proof.Machine.execIns rd ra rb wa wb s
  | .bswap rd ra wa => Sys2Proof.Machine.execBswap rd ra wa s
  | .clmul rd ra rb wa wb => Sys2Proof.Machine.execClmul rd ra rb wa wb s
  | .clmulh rd ra rb wa wb => Sys2Proof.Machine.execClmulh rd ra rb wa wb s
  | .j disp => Sys2Proof.Machine.execJ disp s
  | .jal disp => Sys2Proof.Machine.execJal disp s
  | .pbr t imm => Sys2Proof.Machine.execPbr t imm s
  | .br t => Sys2Proof.Machine.execBr t s
  | .ret ra => Sys2Proof.Machine.execRet ra s
  | .bcEq ra rb t => Sys2Proof.Machine.execBcEq ra rb t s
  | .bcNe ra rb t => Sys2Proof.Machine.execBcNe ra rb t s
  | .bcLt ra rb t => Sys2Proof.Machine.execBcLt ra rb t s
  | .bcGe ra rb t => Sys2Proof.Machine.execBcGe ra rb t s
  | .bcLtu ra rb t => Sys2Proof.Machine.execBcLtu ra rb t s
  | .bcGeu ra rb t => Sys2Proof.Machine.execBcGeu ra rb t s
  | .bEq ra rb disp => Sys2Proof.Machine.execBEq ra rb disp s
  | .bNe ra rb disp => Sys2Proof.Machine.execBNe ra rb disp s
  | .bLt ra rb disp => Sys2Proof.Machine.execBLt ra rb disp s
  | .bGe ra rb disp => Sys2Proof.Machine.execBGe ra rb disp s
  | .bLtu ra rb disp => Sys2Proof.Machine.execBLtu ra rb disp s
  | .bGeu ra rb disp => Sys2Proof.Machine.execBGeu ra rb disp s
  | .bAl disp => Sys2Proof.Machine.execBAl disp s
  | .startCtx rd ra rb wa wb => Sys2Proof.Machine.execStartCtx rd ra rb wa wb s
  | .endCtx => Sys2Proof.Machine.execEndCtx s
  | .yield => Sys2Proof.Machine.execYield s
  | .trapN n => Sys2Proof.Machine.execTrapN n s
  | .sysc n => Sys2Proof.Machine.execSysc n s
  | .mret => Sys2Proof.Machine.execMret s
  | .rdsys rd q => Sys2Proof.Machine.execRdsys rd q s
  | .wrsys rs q => Sys2Proof.Machine.execWrsys rs q s
  | .brk n => Sys2Proof.Machine.execBrk n s
  | .mkfull rd k => Sys2Proof.Machine.execMkfull rd k s
  | .mkempty rd k => Sys2Proof.Machine.execMkempty rd k s
  | .mirr ra wa => Sys2Proof.Machine.execMirr ra wa s
  | .rdctx rd ra wa => Sys2Proof.Machine.execRdctx rd ra wa s
  | .lb rd ra wa n off => Sys2Proof.Machine.execLb rd ra wa n off s
  | .lbu rd ra wa n off => Sys2Proof.Machine.execLbu rd ra wa n off s
  | .lh rd ra wa n off => Sys2Proof.Machine.execLh rd ra wa n off s
  | .lhu rd ra wa n off => Sys2Proof.Machine.execLhu rd ra wa n off s
  | .lw rd ra wa n off => Sys2Proof.Machine.execLw rd ra wa n off s
  | .lwu rd ra wa n off => Sys2Proof.Machine.execLwu rd ra wa n off s
  | .ld rd ra wa n off => Sys2Proof.Machine.execLd rd ra wa n off s
  | .sb rs ra wa off => Sys2Proof.Machine.execSb rs ra wa off s
  | .sh rs ra wa off => Sys2Proof.Machine.execSh rs ra wa off s
  | .sw rs ra wa off => Sys2Proof.Machine.execSw rs ra wa off s
  | .sd rs ra wa off => Sys2Proof.Machine.execSd rs ra wa off s
  | .amoadd rd ra rb wa wb z => Sys2Proof.Machine.execAmoadd rd ra rb wa wb z s
  | .amoand rd ra rb wa wb z => Sys2Proof.Machine.execAmoand rd ra rb wa wb z s
  | .amoor rd ra rb wa wb z => Sys2Proof.Machine.execAmoor rd ra rb wa wb z s
  | .amoxor rd ra rb wa wb z => Sys2Proof.Machine.execAmoxor rd ra rb wa wb z s
  | .amomin rd ra rb wa wb z => Sys2Proof.Machine.execAmomin rd ra rb wa wb z s
  | .amomax rd ra rb wa wb z => Sys2Proof.Machine.execAmomax rd ra rb wa wb z s
  | .amominu rd ra rb wa wb z => Sys2Proof.Machine.execAmominu rd ra rb wa wb z s
  | .amomaxu rd ra rb wa wb z => Sys2Proof.Machine.execAmomaxu rd ra rb wa wb z s
  | .amoswap rd ra rb wa wb z => Sys2Proof.Machine.execAmoswap rd ra rb wa wb z s
  | .amocas rd ra rb wa wb z => Sys2Proof.Machine.execAmocas rd ra rb wa wb z s
  | .amoaddf rd ra rb wa wb z => Sys2Proof.Machine.execAmoaddf rd ra rb wa wb z s
  | .fenceRel q => Sys2Proof.Machine.execFenceRel q s
  | .fenceAcq q => Sys2Proof.Machine.execFenceAcq q s
  | .fenceFull q => Sys2Proof.Machine.execFenceFull q s
  | .tprobe rd ra rb wa wb => Sys2Proof.Machine.execTprobe rd ra rb wa wb s
  | .lrenew rd ra rb wa wb => Sys2Proof.Machine.execLrenew rd ra rb wa wb s
  | .tdrop ra rb wa wb => Sys2Proof.Machine.execTdrop ra rb wa wb s
  | .rdtime rd => Sys2Proof.Machine.execRdtime rd s
  | .rdtsr rd => Sys2Proof.Machine.execRdtsr rd s
  | .twait ra wa => Sys2Proof.Machine.execTwait ra wa s
  | .rdnbr rd e => Sys2Proof.Machine.execRdnbr rd e s
  | .rdhop rd e => Sys2Proof.Machine.execRdhop rd e s
  | .rdmap rd ra wa => Sys2Proof.Machine.execRdmap rd ra wa s
  | .rtwr ra rb wa wb => Sys2Proof.Machine.execRtwr ra rb wa wb s
  | .rtrd rd ra wa => Sys2Proof.Machine.execRtrd rd ra wa s
  | .send ra rb wa wb => Sys2Proof.Machine.execSend ra rb wa wb s
  | .sendh ra rb wa wb => Sys2Proof.Machine.execSendh ra rb wa wb s
  | .sendN ra rb wa wb => Sys2Proof.Machine.execSendN ra rb wa wb s
  | .sendE ra rb wa wb => Sys2Proof.Machine.execSendE ra rb wa wb s
  | .sendS ra rb wa wb => Sys2Proof.Machine.execSendS ra rb wa wb s
  | .sendW ra rb wa wb => Sys2Proof.Machine.execSendW ra rb wa wb s
  | .qcfg ra n wa => Sys2Proof.Machine.execQcfg ra n wa s
  | .hset ra n wa => Sys2Proof.Machine.execHset ra n wa s
  | .hclr n => Sys2Proof.Machine.execHclr n s
  | .hseal => Sys2Proof.Machine.execHseal s
  | .hopen => Sys2Proof.Machine.execHopen s
  | .rcarm ra n wa => Sys2Proof.Machine.execRcarm ra n wa s
  | .rcrd rd n => Sys2Proof.Machine.execRcrd rd n s
  | .tsend n ra rb wa wb => Sys2Proof.Machine.execTsend n ra rb wa wb s
  | .tcancel rd n => Sys2Proof.Machine.execTcancel rd n s
  | .hmsg ra rb wa wb => Sys2Proof.Machine.execHmsg ra rb wa wb s
  | .sopen ra n wa => Sys2Proof.Machine.execSopen ra n wa s
  | .sclose rd n => Sys2Proof.Machine.execSclose rd n s
  | .xcopy rc ra rb wa wb => Sys2Proof.Machine.execXcopy rc ra rb wa wb s
  | .xpop rd => Sys2Proof.Machine.execXpop rd s
  | .binit rd ra n wa => Sys2Proof.Machine.execBinit rd ra n wa s
  | .binitF rd ra n wa => Sys2Proof.Machine.execBinitF rd ra n wa s
  | .bexp ra n wa => Sys2Proof.Machine.execBexp ra n wa s
  | .barv ra rb wa wb => Sys2Proof.Machine.execBarv ra rb wa wb s
  | .bwait rd n => Sys2Proof.Machine.execBwait rd n s
  | .btest rd n => Sys2Proof.Machine.execBtest rd n s
  | .binv n => Sys2Proof.Machine.execBinv n s
  | .coll rd ra rb wa wb => Sys2Proof.Machine.execColl rd ra rb wa wb s
  | .tform rd ra wa => Sys2Proof.Machine.execTform rd ra wa s
  | .tjoin rd ra wa => Sys2Proof.Machine.execTjoin rd ra wa s
  | .tleave ra t wa => Sys2Proof.Machine.execTleave ra t wa s
  | .tmark n => Sys2Proof.Machine.execTmark n s
  | .trejoin rd n => Sys2Proof.Machine.execTrejoin rd n s
  | .tsync rd => Sys2Proof.Machine.execTsync rd s
  | .tgang => Sys2Proof.Machine.execTgang s
  | .tend => Sys2Proof.Machine.execTend s
  | .rdskew rd => Sys2Proof.Machine.execRdskew rd s
  | .kq rd ra wa => Sys2Proof.Machine.execKq rd ra wa s
  | .kexit ra wa => Sys2Proof.Machine.execKexit ra wa s
  | .rpt l q n => Sys2Proof.Machine.execRpt l q n s
  | .rptR l q wa ra => Sys2Proof.Machine.execRptR l q wa ra s
  | .rptx l q wa ra => Sys2Proof.Machine.execRptx l q wa ra s
  | .vaddF vd va vb m t => Sys2Proof.Machine.execVaddF vd va vb m t s
  | .vsubF vd va vb m t => Sys2Proof.Machine.execVsubF vd va vb m t s
  | .vmulF vd va vb m t => Sys2Proof.Machine.execVmulF vd va vb m t s
  | .vminF vd va vb m t => Sys2Proof.Machine.execVminF vd va vb m t s
  | .vmaxF vd va vb m t => Sys2Proof.Machine.execVmaxF vd va vb m t s
  | .vcmpEqF vd va vb m t => Sys2Proof.Machine.execVcmpEqF vd va vb m t s
  | .vcmpLtF vd va vb m t => Sys2Proof.Machine.execVcmpLtF vd va vb m t s
  | .vcmpLe vd va vb m t => Sys2Proof.Machine.execVcmpLe vd va vb m t s
  | .vcmpUn vd va vb m t => Sys2Proof.Machine.execVcmpUn vd va vb m t s
  | .vfma vd va vb m t => Sys2Proof.Machine.execVfma vd va vb m t s
  | .vfms vd va vb m t => Sys2Proof.Machine.execVfms vd va vb m t s
  | .vfnma vd va vb m t => Sys2Proof.Machine.execVfnma vd va vb m t s
  | .vfnms vd va vb m t => Sys2Proof.Machine.execVfnms vd va vb m t s
  | .vaddI vd va vb m w => Sys2Proof.Machine.execVaddI vd va vb m w s
  | .vsubI vd va vb m w => Sys2Proof.Machine.execVsubI vd va vb m w s
  | .vmulI vd va vb m w => Sys2Proof.Machine.execVmulI vd va vb m w s
  | .vmulh vd va vb m w => Sys2Proof.Machine.execVmulh vd va vb m w s
  | .vmulhu vd va vb m w => Sys2Proof.Machine.execVmulhu vd va vb m w s
  | .vminI vd va vb m w => Sys2Proof.Machine.execVminI vd va vb m w s
  | .vmaxI vd va vb m w => Sys2Proof.Machine.execVmaxI vd va vb m w s
  | .vminu vd va vb m w => Sys2Proof.Machine.execVminu vd va vb m w s
  | .vmaxu vd va vb m w => Sys2Proof.Machine.execVmaxu vd va vb m w s
  | .vcmpEqI vd va vb m w => Sys2Proof.Machine.execVcmpEqI vd va vb m w s
  | .vcmpLtI vd va vb m w => Sys2Proof.Machine.execVcmpLtI vd va vb m w s
  | .vcmpLtu vd va vb m w => Sys2Proof.Machine.execVcmpLtu vd va vb m w s
  | .vand vd va vb m w => Sys2Proof.Machine.execVand vd va vb m w s
  | .vor vd va vb m w => Sys2Proof.Machine.execVor vd va vb m w s
  | .vxor vd va vb m w => Sys2Proof.Machine.execVxor vd va vb m w s
  | .vandn vd va vb m w => Sys2Proof.Machine.execVandn vd va vb m w s
  | .vsel vd va vb m w => Sys2Proof.Machine.execVsel vd va vb m w s
  | .vshl vd va vb m w => Sys2Proof.Machine.execVshl vd va vb m w s
  | .vshr vd va vb m w => Sys2Proof.Machine.execVshr vd va vb m w s
  | .vsar vd va vb m w => Sys2Proof.Machine.execVsar vd va vb m w s
  | .vrcp vd va m t => Sys2Proof.Machine.execVrcp vd va m t s
  | .vrsq vd va m t => Sys2Proof.Machine.execVrsq vd va m t s
  | .vsqrt vd va m t => Sys2Proof.Machine.execVsqrt vd va m t s
  | .vexp2 vd va m t => Sys2Proof.Machine.execVexp2 vd va m t s
  | .vlog2 vd va m t => Sys2Proof.Machine.execVlog2 vd va m t s
  | .vtanh vd va m t => Sys2Proof.Machine.execVtanh vd va m t s
  | .vcvt vd va n m e q => Sys2Proof.Machine.execVcvt vd va n m e q s
  | .vperm vd va vb m w => Sys2Proof.Machine.execVperm vd va vb m w s
  | .vbcast vd va m w => Sys2Proof.Machine.execVbcast vd va m w s
  | .vext vd va n w => Sys2Proof.Machine.execVext vd va n w s
  | .vins vd va n w => Sys2Proof.Machine.execVins vd va n w s
  | .vredAdd vd va m c => Sys2Proof.Machine.execVredAdd vd va m c s
  | .vredMax vd va m c => Sys2Proof.Machine.execVredMax vd va m c s
  | .vredMin vd va m c => Sys2Proof.Machine.execVredMin vd va m c s
  | .vclmul vd va vb m => Sys2Proof.Machine.execVclmul vd va vb m s
  | .vld vd va vb m w n => Sys2Proof.Machine.execVld vd va vb m w n s
  | .vst vd va vb m w => Sys2Proof.Machine.execVst vd va vb m w s
  | .vldt vd va vb n => Sys2Proof.Machine.execVldt vd va vb n s
  | .vgather vd va vb m w n => Sys2Proof.Machine.execVgather vd va vb m w n s
  | .vscatter vd va vb m w => Sys2Proof.Machine.execVscatter vd va vb m w s
  | .mcfg ga gb => Sys2Proof.Machine.execMcfg ga gb s
  | .munf ga gb => Sys2Proof.Machine.execMunf ga gb s
  | .mldb ga gb => Sys2Proof.Machine.execMldb ga gb s
  | .mzero acc gb => Sys2Proof.Machine.execMzero acc gb s
  | .mstr acc ga gb k => Sys2Proof.Machine.execMstr acc ga gb k s
  | .mrd acc ga gb => Sys2Proof.Machine.execMrd acc ga gb s
  | .mwr acc ga gb => Sys2Proof.Machine.execMwr acc ga gb s
  | .mpop ga => Sys2Proof.Machine.execMpop ga s
  | .msave ga gb => Sys2Proof.Machine.execMsave ga gb s
  | .mrest ga gb => Sys2Proof.Machine.execMrest ga gb s
  | .mmac acc ga gb x y => Sys2Proof.Machine.execMmac acc ga gb x y s
  | .mmacu acc gb x y => Sys2Proof.Machine.execMmacu acc gb x y s
  | .mmacs acc gb x y => Sys2Proof.Machine.execMmacs acc gb x y s
  | .pfx rnd scale absb absa negb nega clamp sat => Sys2Proof.Machine.execPfx rnd scale absb absa negb nega clamp sat s
  | .powerOn => Sys2Proof.Machine.execPowerOn s
  | .waferReset => Sys2Proof.Machine.execWaferReset s
  | .tileReset => Sys2Proof.Machine.execTileReset s
  | .tileHeartbeat => Sys2Proof.Machine.execTileHeartbeat s
  | .tileDeath => Sys2Proof.Machine.execTileDeath s
  | .siteFence => Sys2Proof.Machine.execSiteFence s
  | .serviceRetest => Sys2Proof.Machine.execServiceRetest s
  | .rehomeWrite => Sys2Proof.Machine.execRehomeWrite s
  | .registerWrite => Sys2Proof.Machine.execRegisterWrite s
  | .hackBroadcast => Sys2Proof.Machine.execHackBroadcast s
  | .resumeTick => Sys2Proof.Machine.execResumeTick s
  | .restore => Sys2Proof.Machine.execRestore s
  | .evacuation => Sys2Proof.Machine.execEvacuation s
  | .repeaterFill => Sys2Proof.Machine.execRepeaterFill s
  | .dispatch => Sys2Proof.Machine.execDispatch s
  | .matrixCommandStart => Sys2Proof.Machine.execMatrixCommandStart s
  | .matrixCommandComplete => Sys2Proof.Machine.execMatrixCommandComplete s
  | .remoteRequest => Sys2Proof.Machine.execRemoteRequest s
  | .remoteReply => Sys2Proof.Machine.execRemoteReply s
  | .acknowledgement => Sys2Proof.Machine.execAcknowledgement s
  | .moduleAccess => Sys2Proof.Machine.execModuleAccess s
  | .edgePortArrival => Sys2Proof.Machine.execEdgePortArrival s
  | .edgeSlotSend => Sys2Proof.Machine.execEdgeSlotSend s
  | .edgeRefusal => Sys2Proof.Machine.execEdgeRefusal s
  | .l2TlbLookup => Sys2Proof.Machine.execL2TlbLookup s
  | .walk => Sys2Proof.Machine.execWalk s
  | .walkerRead => Sys2Proof.Machine.execWalkerRead s
  | .retryReply => Sys2Proof.Machine.execRetryReply s
  | .failReply => Sys2Proof.Machine.execFailReply s
  | .translationExpiry => Sys2Proof.Machine.execTranslationExpiry s
  | .chronometerSet => Sys2Proof.Machine.execChronometerSet s
  | .chronometerDiscipline => Sys2Proof.Machine.execChronometerDiscipline s
  | .clockRestored => Sys2Proof.Machine.execClockRestored s
  | .portMessage => Sys2Proof.Machine.execPortMessage s
  | .putMessage => Sys2Proof.Machine.execPutMessage s
  | .amMessage => Sys2Proof.Machine.execAmMessage s
  | .hostMessage => Sys2Proof.Machine.execHostMessage s
  | .eventMessage => Sys2Proof.Machine.execEventMessage s
  | .triggeredSendInject => Sys2Proof.Machine.execTriggeredSendInject s
  | .messageRefusal => Sys2Proof.Machine.execMessageRefusal s
  | .refusedReinject => Sys2Proof.Machine.execRefusedReinject s
  | .linkReplay => Sys2Proof.Machine.execLinkReplay s
  | .laneFailure => Sys2Proof.Machine.execLaneFailure s
  | .portTraining => Sys2Proof.Machine.execPortTraining s
  | .roleUnused => Sys2Proof.Machine.execRoleUnused s
  | .roleMemory => Sys2Proof.Machine.execRoleMemory s
  | .roleLink => Sys2Proof.Machine.execRoleLink s
  | .moduleSeated => Sys2Proof.Machine.execModuleSeated s
  | .moduleRemoved => Sys2Proof.Machine.execModuleRemoved s
  | .moduleScrubDone => Sys2Proof.Machine.execModuleScrubDone s
  | .bayRelease => Sys2Proof.Machine.execBayRelease s
  | .transferStart => Sys2Proof.Machine.execTransferStart s
  | .transferReadRequest => Sys2Proof.Machine.execTransferReadRequest s
  | .transferSegment => Sys2Proof.Machine.execTransferSegment s
  | .transferComplete => Sys2Proof.Machine.execTransferComplete s
  | .streamDigest => Sys2Proof.Machine.execStreamDigest s
  | .streamGo => Sys2Proof.Machine.execStreamGo s
  | .streamAbort => Sys2Proof.Machine.execStreamAbort s
  | .streamLineReply => Sys2Proof.Machine.execStreamLineReply s
  | .streamMessageInject => Sys2Proof.Machine.execStreamMessageInject s
  | .streamMessage => Sys2Proof.Machine.execStreamMessage s
  | .barvMessage => Sys2Proof.Machine.execBarvMessage s
  | .collContribution => Sys2Proof.Machine.execCollContribution s
  | .collResult => Sys2Proof.Machine.execCollResult s
  | .vc7Element => Sys2Proof.Machine.execVc7Element s
  | .trainFormationRequest => Sys2Proof.Machine.execTrainFormationRequest s
  | .trainFormed => Sys2Proof.Machine.execTrainFormed s
  | .trainStreamWord => Sys2Proof.Machine.execTrainStreamWord s
  | .trainMarker => Sys2Proof.Machine.execTrainMarker s
  | .tsyncLine => Sys2Proof.Machine.execTsyncLine s
  | .launchRegisterWrite => Sys2Proof.Machine.execLaunchRegisterWrite s
  | .kqRequest => Sys2Proof.Machine.execKqRequest s
  | .placement => Sys2Proof.Machine.execPlacement s
  | .loadingDone => Sys2Proof.Machine.execLoadingDone s
  | .timedStart => Sys2Proof.Machine.execTimedStart s
  | .kernelKill => Sys2Proof.Machine.execKernelKill s
  | .gangPrepare => Sys2Proof.Machine.execGangPrepare s
  | .gangAck => Sys2Proof.Machine.execGangAck s
  | .gangAbort => Sys2Proof.Machine.execGangAbort s
  | .gangTimeout => Sys2Proof.Machine.execGangTimeout s
  | .createRegion => Sys2Proof.Machine.execCreateRegion s
  | .regionCreated => Sys2Proof.Machine.execRegionCreated s
  | .destroyRegion => Sys2Proof.Machine.execDestroyRegion s
  | .hackRegion => Sys2Proof.Machine.execHackRegion s
  | .resumeRegion => Sys2Proof.Machine.execResumeRegion s
  | .regionReset => Sys2Proof.Machine.execRegionReset s
  | .regionResetDone => Sys2Proof.Machine.execRegionResetDone s
  | .moveBorder => Sys2Proof.Machine.execMoveBorder s
  | .shareRegion => Sys2Proof.Machine.execShareRegion s
  | .regulatorPeriod => Sys2Proof.Machine.execRegulatorPeriod s
  | .borderMoveDone => Sys2Proof.Machine.execBorderMoveDone s
  | .tileRelease => Sys2Proof.Machine.execTileRelease s
  | .islandFailure => Sys2Proof.Machine.execIslandFailure s
  | .sevaddrWrite => Sys2Proof.Machine.execSevaddrWrite s
  | .inspectionRequest => Sys2Proof.Machine.execInspectionRequest s
  | .inspectionReady => Sys2Proof.Machine.execInspectionReady s
  | .keynew => Sys2Proof.Machine.execKeynew s
  | .keydel => Sys2Proof.Machine.execKeydel s
  | .retag => Sys2Proof.Machine.execRetag s
  | .latelaunch => Sys2Proof.Machine.execLatelaunch s
  | .attest => Sys2Proof.Machine.execAttest s
  | .rekey => Sys2Proof.Machine.execRekey s
  | .resync => Sys2Proof.Machine.execResync s
  | .usagering => Sys2Proof.Machine.execUsagering s
  | .secHeartbeat => Sys2Proof.Machine.execSecHeartbeat s
  | .secTakeover => Sys2Proof.Machine.execSecTakeover s
  | .entropyRetry => Sys2Proof.Machine.execEntropyRetry s
  | .meteringReport => Sys2Proof.Machine.execMeteringReport s
  | .usageRecord => Sys2Proof.Machine.execUsageRecord s
  | .thermalAlert => Sys2Proof.Machine.execThermalAlert s
  | .thermalNormal => Sys2Proof.Machine.execThermalNormal s
  | .thermalShutdown => Sys2Proof.Machine.execThermalShutdown s
  | .powerRemoval => Sys2Proof.Machine.execPowerRemoval s
  | .postedFaultMessage => Sys2Proof.Machine.execPostedFaultMessage s
  | .ringRidxWrite => Sys2Proof.Machine.execRingRidxWrite s
  | .gangDeadline => Sys2Proof.Machine.execGangDeadline s
  | .runtimeRestartDone => Sys2Proof.Machine.execRuntimeRestartDone s

end Sys2Proof.Machine
end

