-- ==== Sys2Proof/Machine/Schedule.lean ====
section
/-! DEFINITION. Which table step comes next (log entry 3): an issue opportunity of a tile, or a step of the agenda; and how a step
of the agenda is taken. -/
namespace Sys2Proof.Machine

/-- The stage of a request that a step of the agenda carries out, where order counts (R226, R289, R313): 0 arrival, 1 departure of a
port, 2 the module, 3 the answer's arrival. -/
def stageOf (i : Instr) : Option Nat :=
  match i with
  | .remoteRequest => some 0
  | .edgePortArrival => some 0
  | .portMessage => some 0
  | .putMessage => some 0
  | .amMessage => some 0
  | .hostMessage => some 0
  | .barvMessage => some 0
  | .collContribution => some 0
  | .collResult => some 0
  | .kqRequest => some 0
  | .streamDigest => some 0
  | .streamGo => some 0
  | .streamAbort => some 0
  | .edgeSlotSend => some 1
  | .moduleAccess => some 2
  | .remoteReply => some 3
  | .acknowledgement => some 3
  | .messageRefusal => some 3
  | _ => none

/-- What keeps its order: the stage, the source site, the channel and the destination; of edge memory, its port (R226, R313, R324). -/
structure Lane where
  stage : Nat
  src : Nat
  vc : Nat
  dst : Dst
deriving DecidableEq, Repr

/-- The region whose requests keep their order at a port in the present slot: its own, or in a shared slot all of them, as 0 (R324). -/
def State.slotOwner (s : State) (p r : Nat) : Nat := if fget 0 (s.port p).slots (s.now (s.portField p) / 8 % 64) = 0 then 0 else r

/-- The lane of a step of the agenda, if it has one. -/
def State.laneOf (s : State) (x : Instr × EvArgs) : Option Lane :=
  match stageOf x.1 with
  | none =>
    match x.1 with
    | .streamMessage => some { stage := 0, src := x.2.a, vc := 4, dst := .tile x.2.c }
    | _ => none
  | some n => match s.entry x.2.a x.2.b with
    | none => none
    | some e => match e.dst with
      | .edge pa =>
        let p := Dst.edge ((s.arrivalPort e pa).getD 576)
        -- a port sends in arrival order, in a slot of a region the requests of that region, and its module performs them in the order sent (R324)
        if n = 1 then some { stage := 1, src := s.slotOwner ((s.arrivalPort e pa).getD 576) (s.tile x.2.a).region, vc := 0, dst := p }
        else if n = 2 then some { stage := 2, src := 0, vc := 0, dst := p }
        else if n = 3 then some { stage := 3, src := x.2.a, vc := 1, dst := p }
        -- one that waits for an earlier request of its context to the line keeps no other back
        else if (s.tile x.2.a).q.inTurn e then some { stage := 0, src := x.2.a, vc := e.body.vc, dst := p }
        else none
      | d => some { stage := n, src := x.2.a, vc := if n = 3 then 1 else e.body.vc, dst := d }

/-- The first step of the agenda on the lane of step `k`: the one that is taken. -/
def State.headOf (s : State) (k : Nat) : Nat :=
  match s.agenda[k]? with
  | none => k
  | some x => match s.laneOf x with
    | none => k
    | some l => s.agenda.findIdx (fun y => s.laneOf y == some l)

/-- The tiles that have an issue opportunity worth taking: a live context on a tile neither held nor halted (R104, R120, R122). -/
def State.awake (s : State) : List Nat :=
  if s.module.powered then
    (s.tiles.filter (fun e => !e.2.held && !e.2.halted && e.2.ctxs.any (fun x => x.2.state == .live))).map (·.1)
  else []

/-- What may happen next. -/
inductive Choice where
  | idle
  | issue (t : Nat)
  | event (k : Nat)
deriving DecidableEq, Repr

/-- What happens next: the only thing that can, or one of them, which one being open (log entry 3). -/
def State.choice (s : State) : Choice :=
  let l := s.awake
  let n := s.agenda.length
  match l, n with
  | [], 0 => .idle
  | [t], 0 => .issue t
  | l, n =>
    let k := Config.pick s.draws % (n + l.length)
    if k < n then .event (s.headOf k) else .issue (l.getD (k - n) 0)

/-- Take a step of the agenda. One that cannot happen yet stays at its place. A word is no step of the agenda. -/
def State.runEvent (s : State) (k : Nat) : Out :=
  match s.agenda[k]? with
  | none => .next s
  | some x =>
    let r := { s with agenda := s.agenda.eraseIdx k, ev := x.2, slot := {} }
    if (encode x.1).isSome then .next { r with ev := {} }
    else match exec x.1 r with
      | .next q =>
        let l := if q.slot.stalled then q.agenda.take k ++ x :: q.agenda.drop k else q.agenda
        .next { q with agenda := l, slot := {}, ev := {} }
      | o => o

/-- The issue opportunity of a tile, with the slot cleared after it. -/
def State.runIssue (s : State) (t : Nat) : Out :=
  match s.issueSlot t with
  | .next q => .next { q with slot := {} }
  | o => o

/-- The cycles of a step count for each context that is live on a tile that is not held (R440). -/
def Tile.countCycles (n : Nat) (x : Tile) : Tile :=
  if x.held then x else { x with counts := fset 0 x.counts 1 (fget 0 x.counts 1 + n * (x.ctxs.filter (fun e => e.2.state == .live)).length) }

/-- Time passes, and the choice of this step is drawn (log entries 3 and 5). -/
def State.elapse (s : State) : State :=
  { s with tick := s.tick + Config.elapsed s.draws, draws := s.draws + 1, tiles := s.tiles.map (fun e => (e.1, e.2.countCycles (Config.cycled s.draws))) }

/-- A program's first instruction, placed as a load from outside places it (log entry 1): the word at offset 0 of site 0, with a word
of zeros behind it; its context 0 starts there as R127 starts a context; no other tile and no step of the agenda is in the way. -/
def State.placeWord (s : State) (w : BitVec 32) : State :=
  let l := s.tiles.map (fun e => (e.1, { e.2 with held := true }))
  let s := { s with agenda := [], module := { s.module with powered := true }, tiles := l }
  let x := s.tile 0
  let c := [(0, Ctx.fresh 2 (x.addrOf 0))]
  let s := s.setTile 0 { x with held := false, halted := false, exited := false, train := {}, tok := 0, ctxs := c }
  (s.spmWrite 0 0 8 w.toNat).storeEcc 0 0 8

end Sys2Proof.Machine
end

