-- ==== Sys2Proof/Machine/Step.lean ====
section
/-! DEFINITION. One step of the machine, and the placing of an instruction where the next step fetches. -/
namespace Sys2Proof.Machine

/-- One step: an issue opportunity of a tile or a step of the agenda (log entry 3). Without power and with nothing pending the
machine stands still (R454). -/
def step (s : State) : Host.Outcome State Fault Refusal :=
  match s.choice with
  | .idle => if s.module.powered then .next s.elapse else .fault .powerOff
  | .issue t => s.elapse.runIssue t
  | .event k => s.elapse.runEvent k

/-- The state with an instruction's bits where the next step fetches (log entry 1). -/
def State.withFetchWord (s : State) (_nbits w : Nat) : State := s.placeWord (BitVec.ofNat 32 w)

end Sys2Proof.Machine
end

