-- ==== Sys2Proof/Safety.lean ====
section
/-! DEFINITION. What a safe run is, in the terms the claims use. -/
namespace Sys2Proof.Machine

/-- The state a run of k steps reaches, if no step stops. -/
def State.runs (s : State) : Nat → Option State
  | 0 => some s
  | k + 1 => match step s with
    | .next q => q.runs k
    | _ => none

/-- A run is safe while no step stops: the machine goes on with a next state at each. -/
def State.Safe (s : State) : Prop := ∀ k, (s.runs k).isSome

end Sys2Proof.Machine
end

