-- ==== Sys2Proof/Certificates/Slice0/Obligations.lean ====
section
/-! DEFINITION. The statements for the provers: what the instructions and events do, the encodings, the frames and the
invariants. -/
namespace Sys2Proof.Claims

open Sys2Proof.Machine

/-! ### The shapes the statements are written in -/

/-- Whenever all that the word names is at hand, the instruction completes, and its next state is `f` of the values of its
sources and of the state in which these have been read (ports popped, R58; the high-water mark raised, R97). -/
def Completes (n : Need) (i : Instr) (f : List Word → State → State) : Prop :=
  ∀ s, n.ready s = true → exec i s = .next (f (n.vals s) (n.take s))

/-- As Completes, where the operation has a condition of its own on the values and the state. -/
def CompletesIf (n : Need) (i : Instr) (p : List Word → State → Prop) (f : List Word → State → State) : Prop :=
  ∀ s, n.ready s = true → p (n.vals s) (n.take s) → exec i s = .next (f (n.vals s) (n.take s))

/-- As CompletesIf, where the operation faults: the fault is taken at the instruction, which has no effect (R10, R118). -/
def TrapsIf (n : Need) (i : Instr) (p : List Word → State → Prop) (code : Nat) (tval : List Word → State → Word) : Prop :=
  ∀ s, n.ready s = true → p (n.vals s) (n.take s) → exec i s = .next (s.takeTrap code (tval (n.vals s) (n.take s)))

/-- The instruction writes a value to gd and goes on at the next word. -/
def Writes (n : Need) (i : Instr) (rd : BitVec 6) (f : List Word → State → Word) : Prop :=
  Completes n i (fun v s => (s.writeG rd (f v s)).retire)

/-- The instruction goes on at the next word after an effect. -/
def Does (n : Need) (i : Instr) (f : List Word → State → State) : Prop :=
  Completes n i (fun v s => (f v s).retire)

/-- What a word with sources ra and rb and destination rd names. -/
def needRR (i : Instr) (rd ra rb : BitVec 6) (wa wb : BitVec 1) : Need :=
  { wf := i.wf, srcs := [(ra, wt wa), (rb, wt wb)], dsts := [rd] }

/-- What a word with source ra and destination rd names. -/
def needR (i : Instr) (rd ra : BitVec 6) (wa : BitVec 1) : Need := { wf := i.wf, srcs := [(ra, wt wa)], dsts := [rd] }

/-- What a word with sources ra and rb names. -/
def needAB (i : Instr) (ra rb : BitVec 6) (wa wb : BitVec 1) : Need := { wf := i.wf, srcs := [(ra, wt wa), (rb, wt wb)] }

/-- What a word with source ra names. -/
def needA (i : Instr) (ra : BitVec 6) (wa : BitVec 1) : Need := { wf := i.wf, srcs := [(ra, wt wa)] }

/-- What a word with destination rd names. -/
def needD (i : Instr) (rd : BitVec 6) : Need := { wf := i.wf, dsts := [rd] }

/-- What a word without registers names. -/
def need0 (i : Instr) : Need := { wf := i.wf }

/-- A constructor of the R format with two sources. -/
abbrev RForm := BitVec 6 → BitVec 6 → BitVec 6 → BitVec 1 → BitVec 1 → Instr

/-- 1 for a condition that holds, else 0. -/
def one (b : Bool) : Word := if b then 1 else 0

/-! ### Operations of the scalar tables, as the spec's tables write them -/

/-- The rows of R138 but sel. -/
def aluRows : List (RForm × BitVec 6 × (Word → Word → Word)) :=
  [(.add, 0x00, fun a b => BitVec.ofInt 64 (a.toInt + b.toInt)),
   (.sub, 0x01, fun a b => BitVec.ofInt 64 (a.toInt - b.toInt)),
   (.andG, 0x02, fun a b => a &&& b),
   (.orG, 0x03, fun a b => a ||| b),
   (.xorG, 0x04, fun a b => a ^^^ b),
   (.andn, 0x05, fun a b => a &&& ~~~b),
   (.shl, 0x06, fun a b => BitVec.ofNat 64 (a.toNat * 2 ^ (b.toNat % 64))),
   (.shr, 0x07, fun a b => BitVec.ofNat 64 (a.toNat / 2 ^ (b.toNat % 64))),
   (.sar, 0x08, fun a b => BitVec.ofInt 64 (a.toInt.fdiv (2 ^ (b.toNat % 64)))),
   (.rot, 0x09, fun a b => (a <<< (b.toNat % 64)) ||| (a >>> (64 - b.toNat % 64))),
   (.slt, 0x0A, fun a b => one (decide (a.toInt < b.toInt))),
   (.sltu, 0x0B, fun a b => one (decide (a.toNat < b.toNat))),
   (.seq, 0x0C, fun a b => one (decide (a = b))),
   (.min, 0x0E, fun a b => if a.toInt ≤ b.toInt then a else b),
   (.max, 0x0F, fun a b => if a.toInt ≤ b.toInt then b else a),
   (.minu, 0x10, fun a b => if a.toNat ≤ b.toNat then a else b),
   (.maxu, 0x11, fun a b => if a.toNat ≤ b.toNat then b else a)]

/-- The rows of R145, a divisor of zero as R146 says. -/
def mulRows : List (RForm × BitVec 6 × (Word → Word → Word)) :=
  [(.mul, 0x00, fun a b => BitVec.ofInt 64 (a.toInt * b.toInt)),
   (.mulh, 0x01, fun a b => BitVec.ofInt 64 ((a.toInt * b.toInt).fdiv (2 ^ 64))),
   (.mulhu, 0x02, fun a b => BitVec.ofNat 64 (a.toNat * b.toNat / 2 ^ 64)),
   (.div, 0x03, fun a b => if b = 0 then 0xFFFFFFFFFFFFFFFF#64 else BitVec.ofInt 64 (a.toInt.tdiv b.toInt)),
   (.divu, 0x04, fun a b => if b = 0 then 0xFFFFFFFFFFFFFFFF#64 else BitVec.ofNat 64 (a.toNat / b.toNat)),
   (.rem, 0x05, fun a b => if b = 0 then a else BitVec.ofInt 64 (a.toInt.tmod b.toInt)),
   (.remu, 0x06, fun a b => if b = 0 then a else BitVec.ofNat 64 (a.toNat % b.toNat))]

/-- The operation of a row of R145. -/
def mulRow (f : RForm) : Word → Word → Word :=
  match mulRows.find? (fun p => decide (p.1 0 0 0 0 0 = f 0 0 0 0 0)) with
  | some p => p.2.2
  | none => fun _ _ => 0

/-- Width W′ of the field a descriptor names (R149). -/
def fieldLen (d : Word) : Nat := Nat.min (d.toNat / 2 ^ 8 % 64 + 1) (64 - d.toNat % 64)

/-- The bits of a field of a word as a number. -/
def fieldBits (a : Word) (p w : Nat) : Nat := a.toNat / 2 ^ p % 2 ^ w

/-- ext (R149). -/
def extRow (a d : Word) : Word :=
  let p := d.toNat % 64
  let w := fieldLen d
  let f := fieldBits a p w
  if bit d 15 ∧ 2 ^ (w - 1) ≤ f then BitVec.ofInt 64 ((f : Int) - 2 ^ w) else BitVec.ofNat 64 f

/-- ins (R149). -/
def insRow (old a d : Word) : Word :=
  let p := d.toNat % 64
  let m := BitVec.ofNat 64 ((2 ^ fieldLen d - 1) * 2 ^ p)
  (old &&& ~~~m) ||| ((a <<< p) &&& m)

/-- The carry-less product of R150, 128 bits wide. -/
def clProduct (a b : Word) : BitVec 128 :=
  (List.range 64).foldl (fun x i => if bit b i then x ^^^ (a.zeroExtend 128 <<< i) else x) 0

end Sys2Proof.Claims

open Sys2Proof Sys2Proof.Machine Sys2Proof.Claims

/-! ### Encoding and the step -/

/-- Decoding the encoded word of a well-formed instruction gives the instruction back, with every operand at every value the
encoding admits (R54, R68 to R76). -/
def Obligations.DecodeEncode : Prop :=
  ∀ i w, i.wf = true → encode i = some w → decode w = .ok i

/-- A word that decodes is the one the encoder writes: no two words decode to one instruction, and no bit is ignored (R56, R76). -/
def Obligations.EncodeDecode : Prop :=
  ∀ w i, decode w = .ok i → encode i = some w

/-- Words written out in the spec decode to the instructions they stand for: the worked examples of the scalar, the context and
the encoding chapters. -/
def Obligations.DecodeWords : Prop :=
  decode 0x08400003#32 = .ok (.addi 4 0 0 3) ∧ decode 0x18410028#32 = .ok (.shli 4 4 0 40) ∧
  decode 0x1851401E#32 = .ok (.shli 5 5 0 30) ∧ decode 0x28610500#32 = .ok (.mul 6 4 5 0 0) ∧
  decode 0xF8000801#32 = .ok (.pfx 0 0x20 0 0 0 0 0 1) ∧ decode 0x28910504#32 = .ok (.divu 9 4 5 0 0) ∧
  decode 0x2CA1CB03#32 = .ok (.ext 10 7 11 0 0) ∧ decode 0x04C24A00#32 = .ok (.add 12 9 10 0 0) ∧
  decode 0x38100002#32 = .ok (.pbr 1 2) ∧ decode 0x3C8C0001#32 = .ok (.bcNe 6 0 1) ∧ decode 0x44000504#32 = .ok (.sysc 5)

/-- A step that issues for a tile runs exec of the instruction that the word in the slot decodes to. `l` are the contexts that
are ready and `s2` the state their selection leaves (R105); `c` is the context chosen, the leader of a train ahead of all others
(R362); `s3` the state with the pointers advanced, `s4` with the correctable errors of the fetched word counted (R212); `q` the state
with the next word of the context in the slot (from its pc, or from its running frame). No fault, single-step trap or breakpoint is
due. Around exec, step only lets time pass, notes the words to issue next that the instruction has stored to, which the fetch port has
read in the same cycle (R213), and clears the slot. -/
def Obligations.StepRunsDecoded : Prop :=
  ∀ (s s2 q : State) (t c rr : Nat) (l : List Nat) (i : Instr),
    s.choice = .issue t →
    (s.elapse.tile t).held = false → (s.elapse.tile t).halted = false →
    s.elapse.poll t (List.range 12) = (l, s2) →
    let leads := (s.elapse.tile t).train.state = 2 ∧ !((s.elapse.tile t).ctx 0).mon ∧ l.contains 0
    let s3 := if leads then s2 else s2.updTile t (fun x => { x with tok := (x.tok + 1) % 12, rr := rr,
                                                                    ctxs := x.ctxs.map (fun e => (e.1, { e.2 with yielded := false })) })
    (if leads then c = 0 else (s2.tile t).choose l = (some c, rr)) →
    let s4 := s3.countFetch t c
    s4.pickWord t c = .word q →
    (s4.ctx t c).dueFault = none → (s4.ctx t c).stepDue = false → (s4.ctx t c).breaks q.slot.addr = false →
    decode q.slot.word = .ok i →
    step s = match exec i q with
      | .next r => .next { r.noteStale s3 t with slot := {} }
      | o => o

/-- The next word of a context without a running frame is the four bytes, lowest first (R3), that its own slice holds at the pc;
a modifier word brings the word behind it (R67). The slot then names the tile, the context, the pc and the words. A word that the
instruction before has stored to is the old or the new one, the fault 0x16 where the old one could not be corrected (R213). An uncorrectable error in the word is the fault 0x16 at the pc, and
a pc off a word boundary the misaligned-fetch fault 0x03 (R112). -/
def Sys2Proof.Claims.PickReadsPc : Prop :=
  ∀ (s : State) (t c : Nat), let pc := (s.ctx t c).pc; (s.ctx t c).frame.state ≠ .run →
    let stale := fun o : Nat => (s.tile t).stale.find? (fun e => e.1 == o)
    (fld pc 0 2 ≠ 0 → s.pickWord t c = .fault (s.atSlot t c pc 0) 0x03 pc) ∧
    ∀ off, fld pc 0 2 = 0 → s.checkForm t (s.ctx t c).mon pc 4 = .ok (.loc off) →
      let w := BitVec.ofNat 32 (s.spmRead t off 4)
      (stale off = none → s.uncorrectable t off 4 = true → s.pickWord t c = .fault (s.atSlot t c pc 0) 0x16 pc) ∧
      (stale off = none → s.uncorrectable t off 4 = false → isModifier w = false → s.pickWord t c = .word (s.atSlot t c pc w)) ∧
      (∀ p old, stale off = some (p, some old) → s.uncorrectable t off 4 = false → isModifier w = false → isModifier old = false →
        s.pickWord t c = .word (s.atSlot t c pc old) ∨ s.pickWord t c = .word (s.atSlot t c pc w)) ∧
      (∀ p, stale off = some (p, none) → s.uncorrectable t off 4 = false → isModifier w = false →
        s.pickWord t c = .fault (s.atSlot t c pc 0) 0x16 pc ∨ s.pickWord t c = .word (s.atSlot t c pc w)) ∧
      (stale off = none → s.uncorrectable t off 4 = false → isModifier w = true →
        s.checkForm t (s.ctx t c).mon (pc + 4) 4 = .ok (.loc (off + 4)) → stale (off + 4) = none → s.uncorrectable t (off + 4) 4 = false →
        s.pickWord t c = .word { s with slot := { site := t, ctx := c, addr := pc, word := w,
                                                  word2 := BitVec.ofNat 32 (s.spmRead t (off + 4) 4), pair := true } })

/-- The token of R105 names the contexts in turn: a ready context whose number TOK holds is the one chosen, whatever the others'
priorities, and an opportunity advances TOK by one modulo 12. -/
def Sys2Proof.Claims.GuaranteedTurn : Prop :=
  ∀ (x : Tile) (l : List Nat), x.tok ∈ l → (x.choose l).1 = some x.tok ∧ (x.choose l).2 = x.rr

/-- Otherwise the highest priority among the ready is chosen, and of those the first from RR on (R105). -/
def Sys2Proof.Claims.PriorityTurn : Prop :=
  ∀ (x : Tile) (l : List Nat), l ≠ [] → (∀ c ∈ l, c < 12) → x.tok ∉ l → x.rr < 12 →
    ∃ c k, x.choose l = (some c, (c + 1) % 12) ∧ c ∈ l ∧ (∀ d ∈ l, (x.ctx d).epri ≤ (x.ctx c).epri) ∧
      k < 12 ∧ c = (x.rr + k) % 12 ∧
      ∀ j, j < k → ¬((x.rr + j) % 12 ∈ l ∧ (x.ctx ((x.rr + j) % 12)).epri = (x.ctx c).epri)

/-! ### Scalar instructions -/

/-- The register ALU (R138): R format, opcode 0x01, with the fn of its row; every row writes the value of its operation to gd, and
the context goes on at the next word. sel reads gd as its condition. No row has an effect on FCSR. -/
def Obligations.RegisterAlu : Prop :=
  (∀ p ∈ aluRows, ∀ rd ra rb wa wb, let i := p.1 rd ra rb wa wb
    encode i = some (0x01#6 ++ rd ++ ra ++ rb ++ wa ++ wb ++ p.2.1) ∧
    Writes (needRR i rd ra rb wa wb) i rd (fun v _ => p.2.2 (v0 v) (v1 v))) ∧
  (∀ rd ra rb wa wb, let i := Instr.sel rd ra rb wa wb
    encode i = some (0x01#6 ++ rd ++ ra ++ rb ++ wa ++ wb ++ 0x0D#6) ∧
    Writes { wf := i.wf, srcs := [blk rd, (ra, wt wa), (rb, wt wb)], dsts := [rd] } i rd (fun v _ => if v0 v ≠ 0 then v1 v else v2 v)) ∧
  (∀ (s : State) rd v, (s.writeG rd v).retire.cur.fcsr = s.cur.fcsr)

/-- ins reads gd as a third source, which never traps: the field of its descriptor is replaced (R149). -/
def Sys2Proof.Claims.InsertField : Prop :=
  ∀ rd ra rb wa wb, let i := Instr.ins rd ra rb wa wb
    Writes { wf := i.wf, srcs := [blk rd, (ra, wt wa), (rb, wt wb)], dsts := [rd] } i rd (fun v _ => insRow (v0 v) (v1 v) (v2 v))

/-- The immediate forms (R140 to R142). -/
def Sys2Proof.Claims.ImmediateAlu : Prop :=
  ∀ rd ra wa,
    (∀ imm : BitVec 13,
      Writes (needR (.addi rd ra wa imm) rd ra wa) (.addi rd ra wa imm) rd (fun v _ => BitVec.ofInt 64 ((v0 v).toInt + imm.toInt)) ∧
      Writes (needR (.andi rd ra wa imm) rd ra wa) (.andi rd ra wa imm) rd (fun v _ => v0 v &&& BitVec.ofInt 64 imm.toInt) ∧
      Writes (needR (.ori rd ra wa imm) rd ra wa) (.ori rd ra wa imm) rd (fun v _ => v0 v ||| BitVec.ofInt 64 imm.toInt) ∧
      Writes (needR (.xori rd ra wa imm) rd ra wa) (.xori rd ra wa imm) rd (fun v _ => v0 v ^^^ BitVec.ofInt 64 imm.toInt)) ∧
    (∀ n : BitVec 6,
      Writes (needR (.shli rd ra wa n) rd ra wa) (.shli rd ra wa n) rd (fun v _ => BitVec.ofNat 64 ((v0 v).toNat * 2 ^ n.toNat)) ∧
      Writes (needR (.shri rd ra wa n) rd ra wa) (.shri rd ra wa n) rd (fun v _ => BitVec.ofNat 64 ((v0 v).toNat / 2 ^ n.toNat)) ∧
      Writes (needR (.sari rd ra wa n) rd ra wa) (.sari rd ra wa n) rd (fun v _ => BitVec.ofInt 64 ((v0 v).toInt.fdiv (2 ^ n.toNat))) ∧
      Writes (needR (.roti rd ra wa n) rd ra wa) (.roti rd ra wa n) rd
        (fun v _ => (v0 v <<< n.toNat) ||| (v0 v >>> (64 - n.toNat)))) ∧
    (∀ k : BitVec 12,
      Writes (needR (.slti rd ra wa k) rd ra wa) (.slti rd ra wa k) rd (fun v _ => one (decide ((v0 v).toInt < k.toInt))) ∧
      Writes (needR (.sltiu rd ra wa k) rd ra wa) (.sltiu rd ra wa k) rd
        (fun v _ => one (decide ((v0 v).toNat < (BitVec.ofInt 64 k.toInt).toNat))))

/-- lih and adr (R143, R144). -/
def Sys2Proof.Claims.UpperImmediates : Prop :=
  ∀ rd (imm : BitVec 20),
    Writes (needD (.lih rd imm) rd) (.lih rd imm) rd (fun _ _ => BitVec.ofInt 64 (imm.toInt * 4096)) ∧
    Writes (needD (.adr rd imm) rd) (.adr rd imm) rd (fun _ s => s.slot.addr + BitVec.ofInt 64 (4 * imm.toInt))

/-- Multiply and divide (R145, R146): R format, opcode 0x0A, with the fn of its row; every row writes the value of its operation to
gd. The dividend is quotient times divisor plus remainder modulo 2^64, signed and unsigned, for every operand pair; mulh and mul are
the two halves of the signed product, mulhu and mul those of the unsigned one. -/
def Obligations.MultiplyDivide : Prop :=
  (∀ p ∈ mulRows, ∀ rd ra rb wa wb, let i := p.1 rd ra rb wa wb
    encode i = some (0x0A#6 ++ rd ++ ra ++ rb ++ wa ++ wb ++ p.2.1) ∧
    Writes (needRR i rd ra rb wa wb) i rd (fun v _ => p.2.2 (v0 v) (v1 v))) ∧
  (∀ a b : Word, mulRow .div a b * b + mulRow .rem a b = a ∧ mulRow .divu a b * b + mulRow .remu a b = a) ∧
  (∀ a b : Word, a.toInt * b.toInt = (mulRow .mulh a b).toInt * 2 ^ 64 + (mulRow .mul a b).toNat ∧
    a.toNat * b.toNat = (mulRow .mulhu a b).toNat * 2 ^ 64 + (mulRow .mul a b).toNat)

/-- The borderline operands of division give the results of R146's table: none raises a fault, since each completes, and none
sets a flag, since FCSR is the same after it. -/
def Obligations.DivisionCorners : Prop :=
  ∀ rd ra rb wa wb (s : State) (f : RForm) (a b r : Word),
    (f, a, b, r) ∈ ([(Instr.div, a, 0, 0xFFFFFFFFFFFFFFFF), (Instr.divu, a, 0, 0xFFFFFFFFFFFFFFFF), (Instr.rem, a, 0, a), (Instr.remu, a, 0, a),
       (Instr.div, 0x8000000000000000, 0xFFFFFFFFFFFFFFFF, 0x8000000000000000),
       (Instr.rem, 0x8000000000000000, 0xFFFFFFFFFFFFFFFF, 0),
       (Instr.div, 0xFFFFFFFFFFFFFFF9, 2, 0xFFFFFFFFFFFFFFFD), (Instr.rem, 0xFFFFFFFFFFFFFFF9, 2, 0xFFFFFFFFFFFFFFFF),
       (Instr.rem, 7, 0xFFFFFFFFFFFFFFFE, 1)] : List (RForm × Word × Word × Word)) →
    let n := needRR (f rd ra rb wa wb) rd ra rb wa wb
    n.ready s = true → n.vals s = [a, b] →
    exec (f rd ra rb wa wb) s = .next ((n.take s).writeG rd r).retire ∧
    (((n.take s).writeG rd r).retire).cur.fcsr = s.cur.fcsr

/-- clz, ctz, popc and bswap (R148): the counts are the numbers of zero bits above the highest and below the lowest one bit and
of one bits; byte i of the swapped value is byte 7 − i. -/
def Sys2Proof.Claims.BitCounts : Prop :=
  ∀ rd ra wa,
    (∃ f : Word → Nat, Writes (needR (.clz rd ra wa) rd ra wa) (.clz rd ra wa) rd (fun v _ => BitVec.ofNat 64 (f (v0 v))) ∧
      ∀ a, (a = 0 → f a = 64) ∧ (a ≠ 0 → f a < 64 ∧ bit a (63 - f a) = true ∧ ∀ i, 63 - f a < i → bit a i = false)) ∧
    (∃ f : Word → Nat, Writes (needR (.ctz rd ra wa) rd ra wa) (.ctz rd ra wa) rd (fun v _ => BitVec.ofNat 64 (f (v0 v))) ∧
      ∀ a, (a = 0 → f a = 64) ∧ (a ≠ 0 → f a < 64 ∧ bit a (f a) = true ∧ ∀ i, i < f a → bit a i = false)) ∧
    Writes (needR (.popc rd ra wa) rd ra wa) (.popc rd ra wa) rd
      (fun v _ => BitVec.ofNat 64 (((List.range 64).map (fun i => if bit (v0 v) i then 1 else 0)).sum)) ∧
    (∃ f : Word → Word, Writes (needR (.bswap rd ra wa) rd ra wa) (.bswap rd ra wa) rd (fun v _ => f (v0 v)) ∧
      ∀ a i, i < 8 → fld (f a) (8 * i) 8 = fld a (8 * (7 - i)) 8)

/-- ext writes the field of its descriptor, sign-extended where S is set (R149). -/
def Sys2Proof.Claims.ExtractField : Prop :=
  ∀ rd ra rb wa wb, let i := Instr.ext rd ra rb wa wb
    Writes (needRR i rd ra rb wa wb) i rd (fun v _ => extRow (v0 v) (v1 v))

/-- clmul and clmulh (R150) write bits 63 to 0 and 127 to 64 of the carry-less product, whose bit k is the parity of the pairs of
one bits i of gb and k − i of ga, and whose bit 127 is always zero; both use rd, ra, rb, wa and wb, with fn 0x06 and 0x07. -/
def Obligations.CarrylessProduct : Prop :=
  (∀ rd ra rb wa wb,
    encode (.clmul rd ra rb wa wb) = some (0x0B#6 ++ rd ++ ra ++ rb ++ wa ++ wb ++ 0x06#6) ∧
    encode (.clmulh rd ra rb wa wb) = some (0x0B#6 ++ rd ++ ra ++ rb ++ wa ++ wb ++ 0x07#6) ∧
    Writes (needRR (.clmul rd ra rb wa wb) rd ra rb wa wb) (.clmul rd ra rb wa wb) rd (fun v _ => (clProduct (v0 v) (v1 v)).setWidth 64) ∧
    Writes (needRR (.clmulh rd ra rb wa wb) rd ra rb wa wb) (.clmulh rd ra rb wa wb) rd
      (fun v _ => (clProduct (v0 v) (v1 v) >>> 64).setWidth 64)) ∧
  ∀ a b : Word, (∀ k, k < 128 → bit (clProduct a b) k = decide (((List.range 64).filter (fun i => bit b i && decide (i ≤ k) && bit a (k - i))).length % 2 = 1)) ∧
    bit (clProduct a b) 127 = false

/-! ### Control transfer -/

/-- The conditions of R72 with the constructors that test them: by displacement, and to a target register. -/
def Sys2Proof.Claims.branchRows : List ((BitVec 6 → BitVec 6 → BitVec 11 → Instr) × (BitVec 6 → BitVec 6 → BitVec 2 → Instr) × (Word → Word → Bool)) :=
  [(.bEq, .bcEq, fun a b => decide (a = b)), (.bNe, .bcNe, fun a b => decide (a ≠ b)),
   (.bLt, .bcLt, fun a b => decide (a.toInt < b.toInt)), (.bGe, .bcGe, fun a b => decide (b.toInt ≤ a.toInt)),
   (.bLtu, .bcLtu, fun a b => decide (a.toNat < b.toNat)), (.bGeu, .bcGeu, fun a b => decide (b.toNat ≤ a.toNat))]

/-- Branches by displacement (R72, R109): where the condition holds the context goes on at the branch's address plus four times
the displacement, else at the next word. -/
def Sys2Proof.Claims.BranchDisplacement : Prop :=
  (∀ p ∈ branchRows, ∀ ra rb disp,
    Completes { wf := (p.1 ra rb disp).wf, srcs := [blk ra, blk rb] } (p.1 ra rb disp) (fun v s =>
      s.finish (if p.2.2 (v0 v) (v1 v) then s.slot.addr + BitVec.ofInt 64 (4 * disp.toInt) else s.nextAddr))) ∧
  ∀ disp, Completes (need0 (.bAl disp)) (.bAl disp) (fun _ s => s.finish (s.slot.addr + BitVec.ofInt 64 (4 * disp.toInt)))

/-- Branches to a target register (R72, R109, R111): where the condition holds and the target is a word address the context goes
on there; where the condition holds and the target is none, the misaligned-fetch fault 0x03 names it; else the next word. -/
def Sys2Proof.Claims.BranchTarget : Prop :=
  ∀ p ∈ branchRows, ∀ ra rb (t : BitVec 2),
    let n : Need := { wf := (p.2.1 ra rb t).wf, srcs := [blk ra, blk rb] }
    CompletesIf n (p.2.1 ra rb t) (fun v s => p.2.2 (v0 v) (v1 v) = false ∨ (fget 0 s.cur.t t.toNat).toNat % 4 = 0)
      (fun v s => s.finish (if p.2.2 (v0 v) (v1 v) then fget 0 s.cur.t t.toNat else s.nextAddr)) ∧
    TrapsIf n (p.2.1 ra rb t) (fun v s => p.2.2 (v0 v) (v1 v) = true ∧ (fget 0 s.cur.t t.toNat).toNat % 4 ≠ 0) 0x03
      (fun _ s => fget 0 s.cur.t t.toNat)

/-- j, jal, pbr, br and ret (R109, R111). -/
def Sys2Proof.Claims.Jumps : Prop :=
  (∀ disp, Completes (need0 (.j disp)) (.j disp) (fun _ s => s.finish (s.slot.addr + BitVec.ofInt 64 (4 * disp.toInt)))) ∧
  (∀ disp, Completes (needD (.jal disp) 1) (.jal disp)
    (fun _ s => (s.writeG 1 s.nextAddr).finish (s.slot.addr + BitVec.ofInt 64 (4 * disp.toInt)))) ∧
  (∀ t imm, Does (need0 (.pbr t imm)) (.pbr t imm)
    (fun _ s => s.updCur (fun x => { x with t := fset 0 x.t t.toNat (s.slot.addr + BitVec.ofInt 64 (4 * imm.toInt)) }))) ∧
  (∀ t, CompletesIf (need0 (.br t)) (.br t) (fun _ s => (fget 0 s.cur.t t.toNat).toNat % 4 = 0)
      (fun _ s => s.finish (fget 0 s.cur.t t.toNat)) ∧
    TrapsIf (need0 (.br t)) (.br t) (fun _ s => (fget 0 s.cur.t t.toNat).toNat % 4 ≠ 0) 0x03 (fun _ s => fget 0 s.cur.t t.toNat)) ∧
  (∀ ra, let n : Need := { wf := (Instr.ret ra).wf, srcs := [blk ra] }
    CompletesIf n (.ret ra) (fun v _ => (v0 v).toNat % 4 = 0) (fun v s => s.finish (v0 v)) ∧
    TrapsIf n (.ret ra) (fun v _ => (v0 v).toNat % 4 ≠ 0) 0x03 (fun v _ => v0 v))

/-! ### Contexts, traps and system registers -/

/-- start (R127): with no free helper gd receives all ones; else the lowest free helper n of 1 to 11 goes live in user mode at ga with
g2 = gb, every other register and its FCSR, MIRR and high-water mark zero, its registers full and its PRI the starter's, and gd
receives n. Where a dispatch is due and one helper alone is free, dispatch has it first (R132), and start finds none. A start address
off a word boundary is the misaligned-fetch fault, and nothing is started or written. That the monitor registers and the trap record
are cleared too is the model's choice (log entry 97). -/
def Sys2Proof.Claims.StartContext : Prop :=
  ∀ rd ra rb wa wb, let i := Instr.startCtx rd ra rb wa wb; let n := needRR i rd ra rb wa wb
    CompletesIf n i (fun v _ => (v0 v).toNat % 4 = 0) (fun v s =>
      let free := (List.range' 1 11).filter (fun c => (s.curTile.ctx c).state = .free)
      match (if s.curTile.canDispatch = true ∧ free.length = 1 then none else free.head?) with
      | none => (s.writeG rd 0xFFFFFFFFFFFFFFFF).retire
      | some k => ((s.updCurTile (fun x => x.setCtx k { state := .live, mon := false, pri := s.cur.pri, pc := v0 v, g := fset 0 [] 2 (v1 v) })).writeG
          rd (BitVec.ofNat 64 k)).retire) ∧
    TrapsIf n i (fun v _ => (v0 v).toNat % 4 ≠ 0) 0x03 (fun v _ => v0 v)

/-- end and yield (R128): a helper becomes free, or draining while a long-latency producer of it is outstanding; in context 0 end is
the context-operation fault 0x0C without effect; yield moves RR to the next context and gives up the next opportunity. -/
def Sys2Proof.Claims.EndAndYield : Prop :=
  CompletesIf (need0 .endCtx) .endCtx (fun _ s => s.slot.ctx ≠ 0)
    (fun _ s => s.retire.updCur (fun x => { x with state := if x.owed = 0 then .free else .draining, frame := {}, stepDue := false })) ∧
  TrapsIf (need0 .endCtx) .endCtx (fun _ s => s.slot.ctx = 0) 0x0C (fun _ _ => 0) ∧
  Completes (need0 .yield) .yield
    (fun _ s => (s.updCurTile (fun x => { x with rr := (s.slot.ctx + 1) % 12 })).retire.updCur (fun x => { x with yielded := true }))

/-- trap n, sysc n and brk n (R129): the operand comes from rb as a value from 0 to 63, and the word is fn 0x03, 0x04 or 0x08 of
opcode 0x11. In user mode the context enters monitor mode at MTVEC with TEPC = a + 4, TVAL = n, the fault code of user trap, system
call or breakpoint in TCAUSE, its word in TWORD and TSTAT.PM = 0, its registers, flags and all of memory as they were. In monitor
mode the tile halts, no byte of a slice or of edge memory changing. -/
def Obligations.TrapInstructions : Prop :=
  ∀ (f : BitVec 6 → Instr) (fn : BitVec 6) (code : Nat),
    (f, fn, code) ∈ ([(Instr.trapN, 0x03, 0x06), (Instr.sysc, 0x04, 0x07), (Instr.brk, 0x08, 0x08)] : List ((BitVec 6 → Instr) × BitVec 6 × Nat)) →
    ∀ (n : BitVec 6) (s : State), s.slot.pair = false →
      decode (0x11#6 ++ 0#12 ++ n ++ 0#2 ++ fn) = .ok (f n) ∧
      (s.cur.mon = false → ∃ t, exec (f n) s = .next t ∧
        t.cur.mon = true ∧ t.cur.pc = s.curTile.mtvec ∧ t.cur.tepc = s.slot.addr + 4 ∧ t.cur.tval = BitVec.ofNat 64 n.toNat ∧
        t.cur.tcause = BitVec.ofNat 64 code ∧ t.cur.tword = BitVec.ofNat 64 s.slot.word.toNat ∧ t.cur.tstat = 0 ∧
        t.cur.g = s.cur.g ∧ t.cur.gs = s.cur.gs ∧ t.cur.v = s.cur.v ∧ t.cur.fcsr = s.cur.fcsr ∧ t.mem = s.mem) ∧
      (s.cur.mon = true → ∃ t, exec (f n) s = .next t ∧ t.curTile.halted = true ∧ t.cur.tepc = s.slot.addr + 4 ∧
        t.cur.tval = BitVec.ofNat 64 n.toNat ∧ ∀ k, k < sysKey 0 → Memory.byte t.mem k = Memory.byte s.mem k)

/-- Taking a trap in user mode (R116 to R118): the record, the mode, the pc, every monitor register full; and the frame: no register, mask, target register, flag,
other context, byte of memory, site or region changes. The agenda too stays, but for the notice that goes beside the stream fault 0x26 and
beside mrest's restore fault 0x17 (R409, R446): an ended stream's event with the address of the element that does not come. -/
def Sys2Proof.Claims.TrapEntry : Prop :=
  (∀ (s : State) (n : Nat), n < 4 →
    let ends := fun k => 3 ≤ (s.curTile.stream k).state ∧ (s.curTile.stream k).role = 1 ∧ (s.curTile.stream k).status = (s.curTile.stream n).status
    ends n → (∀ k < n, ¬ends k) →
    let e := s.curTile.stream n
    s.takeTrap 0x26 e.status = (s.tileEvent s.slot.site 0x26 0 0 0 (e.elemAddr e.count) (BitVec.ofNat 64 (2 ^ 32 * e.tag + 2 ^ 40 * n))).takeTrapAt
      s.slot.addr 0x26 e.status) ∧
  ∀ (s : State) (code : Nat) (tval : Word), s.cur.mon = false →
    let t := s.takeTrap code tval
    t.cur.mon = true ∧ t.cur.pc = s.curTile.mtvec ∧ t.cur.tepc = s.slot.addr ∧
    t.cur.tcause = BitVec.ofNat 64 (code % 256 + (if s.slot.pair then 256 else 0)) ∧ t.cur.tval = tval ∧
    t.cur.tword = (if s.slot.pair then s.slot.word2 else 0#32) ++ s.slot.word ∧ t.cur.tstat = 0 ∧
    t.cur.g = s.cur.g ∧ t.cur.gs = s.cur.gs ∧ t.cur.v = s.cur.v ∧ t.cur.vs = s.cur.vs ∧ t.cur.masks = s.cur.masks ∧ t.cur.t = s.cur.t ∧
    t.cur.fcsr = s.cur.fcsr ∧ t.cur.mirr = s.cur.mirr ∧ t.cur.mg = s.cur.mg ∧ t.cur.mgs = [] ∧ t.cur.mscr = s.cur.mscr ∧
    (∀ u c, ¬(u = s.slot.site ∧ c = s.slot.ctx) → t.ctx u c = s.ctx u c) ∧ t.mem = s.mem ∧ t.ecc = s.ecc ∧ t.sites = s.sites ∧
    t.regions = s.regions ∧ (code ≠ 0x17 → code ≠ 0x26 → t.agenda = s.agenda ∧ t.events = s.events)

/-- A trap raised in monitor mode (R120): the tile halts, each of its live or fault-wait contexts is halted, a free or draining one
is not; every slice, edge memory and the other tiles' contexts stay, while an island records the region's event in its own memory. -/
def Sys2Proof.Claims.MonitorTrapHalts : Prop :=
  ∀ (s : State) (code : Nat) (tval : Word), s.cur.mon = true →
    let t := s.takeTrap code tval
    t.curTile.halted = true ∧ (∀ k, k < sysKey 0 → Memory.byte t.mem k = Memory.byte s.mem k) ∧
    (∀ c, c ≠ s.slot.ctx → (s.ctx s.slot.site c).state = .live ∨ (s.ctx s.slot.site c).state = .faultWait →
      (t.ctx s.slot.site c).state = .halted) ∧
    (∀ c, c ≠ s.slot.ctx → (s.ctx s.slot.site c).state = .free ∨ (s.ctx s.slot.site c).state = .draining →
      t.ctx s.slot.site c = s.ctx s.slot.site c) ∧
    (∀ u c, u ≠ s.slot.site → t.ctx u c = s.ctx u c)

/-- mret (R116, R119): in monitor mode, with no producer into a monitor register outstanding and TEPC a word address, the mode becomes
TSTAT.PM and the pc TEPC, no register changes its value, and in user mode every monitor register is full; TEPC off a word boundary is the misaligned-fetch fault 0x03; in user mode it is
the privileged-instruction trap 0x02. -/
def Sys2Proof.Claims.MonitorReturn : Prop :=
  (∀ s : State, s.cur.mon = true → (s.cur.mgs.all (fun e => !e.2.isPending)) = true → s.cur.tepc.toNat % 4 = 0 →
    ∃ t, exec .mret s = .next t ∧ t.cur.mon = bit s.cur.tstat 0 ∧ t.cur.pc = s.cur.tepc ∧ t.cur.g = s.cur.g ∧ t.cur.gs = s.cur.gs ∧
      t.cur.mg = s.cur.mg ∧ t.cur.mgs = (if bit s.cur.tstat 0 then s.cur.mgs else []) ∧ t.cur.v = s.cur.v ∧ t.cur.fcsr = s.cur.fcsr ∧ t.mem = s.mem) ∧
  (∀ s : State, s.cur.mon = true → (s.cur.mgs.all (fun e => !e.2.isPending)) = true → s.cur.tepc.toNat % 4 ≠ 0 →
    exec .mret s = .next (s.takeTrap 0x03 s.cur.tepc)) ∧
  (∀ s : State, s.cur.mon = false → exec .mret s = .next (s.takeTrap 0x02 0))

/-- The system registers that can be read, with their contents (R130). -/
def Sys2Proof.Claims.sysReads : List (Nat × (State → Word)) :=
  [(0x001, fun s => s.cur.fcsr), (0x002, fun s => s.cur.mirr), (0x003, fun s => BitVec.ofNat 64 s.cur.pri.toNat),
   (0x004, fun s => BitVec.ofNat 64 s.cur.hwm), (0x005, fun s => BitVec.ofNat 64 s.slot.ctx),
   (0x008, fun s => BitVec.ofNat 64 (s.curTile.col + 256 * s.curTile.row + 65536 * (s.curTile.row * (s.dims s.slot.site).1 + s.curTile.col))),
   (0x009, fun s => BitVec.ofNat 64 ((s.dims s.slot.site).1 + 256 * (s.dims s.slot.site).2)),
   (0x00A, fun s => BitVec.ofNat 64 (s.meshW + 256 * 108)),
   (0x010, fun s => s.cur.tepc), (0x011, fun s => s.cur.tcause), (0x012, fun s => s.cur.tval), (0x013, fun s => s.cur.tword),
   (0x014, fun s => s.cur.tstat), (0x015, fun s => s.curTile.mtvec),
   (0x018, fun s => fget 0 s.cur.mscr 0), (0x019, fun s => fget 0 s.cur.mscr 1), (0x01A, fun s => fget 0 s.cur.mscr 2),
   (0x01B, fun s => fget 0 s.cur.mscr 3),
   (0x020, fun s => s.cur.dbgctl), (0x021, fun s => s.cur.bpa0), (0x022, fun s => s.cur.bpa1), (0x023, fun s => s.cur.wpa0),
   (0x024, fun s => s.cur.wpa1), (0x025, fun s => s.cur.wpcfg),
   (0x030, fun s => BitVec.ofNat 64 s.curTile.rfbad.toNat), (0x031, fun s => one s.curTile.spmraw),
   (0x101, fun s => fget 0 s.cur.g 1), (0x102, fun s => fget 0 s.cur.g 2), (0x103, fun s => fget 0 s.cur.g 3), (0x104, fun s => fget 0 s.cur.g 4),
   (0x105, fun s => fget 0 s.cur.g 5), (0x106, fun s => fget 0 s.cur.g 6), (0x107, fun s => fget 0 s.cur.g 7)]

/-- The system registers that can be written, each with the context or tile that results; reserved bits are dropped (R7, R44, R45,
R117, R130, R447, R448, R480). -/
def Sys2Proof.Claims.sysWrites : List (Nat × (Word → State → State)) :=
  [(0x001, fun v s => s.updCur (fun c => { c with fcsr := (v &&& 0x803F#64) |||
      (if (v.toNat / 256) % 8 ≤ 4 then v &&& 0x700#64 else c.fcsr &&& 0x700#64) })),
   (0x003, fun v s => s.updCur (fun c => { c with pri := BitVec.ofNat 2 v.toNat })),
   (0x010, fun v s => s.updCur (fun c => { c with tepc := v })),
   (0x011, fun v s => s.updCur (fun c => { c with tcause := v &&& 0x1FF#64 })),
   (0x012, fun v s => s.updCur (fun c => { c with tval := v })),
   (0x014, fun v s => s.updCur (fun c => { c with tstat := v &&& 1#64 })),
   (0x015, fun v s => s.updCurTile (fun x => { x with mtvec := v &&& ~~~3#64 })),
   (0x018, fun v s => s.updCur (fun c => { c with mscr := fset 0 c.mscr 0 v })),
   (0x019, fun v s => s.updCur (fun c => { c with mscr := fset 0 c.mscr 1 v })),
   (0x01A, fun v s => s.updCur (fun c => { c with mscr := fset 0 c.mscr 2 v })),
   (0x01B, fun v s => s.updCur (fun c => { c with mscr := fset 0 c.mscr 3 v })),
   (0x020, fun v s => s.updCur (fun c => { c with dbgctl := v &&& 0x7F#64 })),
   (0x021, fun v s => s.updCur (fun c => { c with bpa0 := v &&& ~~~3#64 })),
   (0x022, fun v s => s.updCur (fun c => { c with bpa1 := v &&& ~~~3#64 })),
   (0x023, fun v s => s.updCur (fun c => { c with wpa0 := v })),
   (0x024, fun v s => s.updCur (fun c => { c with wpa1 := v })),
   (0x025, fun v s => s.updCur (fun c => { c with wpcfg := v &&& 0x1F1F#64 })),
   (0x031, fun v s => s.updCurTile (fun x => { x with spmraw := bit v 0 }))] ++
  (List.range 7).map (fun k => (0x101 + k, fun v s => s.updCur (fun c => { c with g := fset 0 c.g (k + 1) v })))

/-- The system registers reserved to monitor mode (R130). -/
def Sys2Proof.Claims.sysPriv : List Nat :=
  [0x010, 0x011, 0x012, 0x013, 0x014, 0x015, 0x018, 0x019, 0x01A, 0x01B, 0x020, 0x021, 0x022, 0x023, 0x024, 0x025, 0x030, 0x031,
   0x101, 0x102, 0x103, 0x104, 0x105, 0x106, 0x107]

/-- rdsys and wrsys (R130): every assigned register reads as its content, and a write changes that register alone; a register marked
monitor is reserved to monitor mode; FCSR waits for an atomic floating-point add of the context in flight (R131). -/
def Sys2Proof.Claims.SystemRegisters : Prop :=
  (∀ p ∈ sysReads, ∀ rd, let i := Instr.rdsys rd (BitVec.ofNat 12 p.1)
    CompletesIf { wf := i.wf, dsts := [rd], priv := sysPriv.contains p.1 } i
      (fun _ s => p.1 = 0x001 → s.curTile.q.flagsOwed s.slot.ctx = false) (fun _ s => (s.writeG rd (p.2 s)).retire)) ∧
  (∀ p ∈ sysWrites, ∀ rs, let i := Instr.wrsys rs (BitVec.ofNat 12 p.1)
    CompletesIf { wf := i.wf, srcs := [blk rs], priv := sysPriv.contains p.1 } i
      (fun _ s => p.1 = 0x001 → s.curTile.q.flagsOwed s.slot.ctx = false) (fun v s => (p.2 (v0 v) s).retire))

/-- The privileged instructions raise the privileged-instruction trap 0x02 in user mode (R70, R119, R130), whatever their registers
hold: they have no effect. -/
def Obligations.PrivilegedTraps : Prop :=
  ∀ (i : Instr) (s : State), s.cur.mon = false → i.wf = true →
    (i = .mret ∨ (∃ ra rb wa wb, i = .rtwr ra rb wa wb) ∨ (∃ rd ra wa, i = .rtrd rd ra wa) ∨
      (∃ r n, n ∈ sysPriv ∧ (i = .rdsys r (BitVec.ofNat 12 n) ∨ i = .wrsys r (BitVec.ofNat 12 n)))) →
    exec i s = .next (s.takeTrap 0x02 0)

/-- mkfull, mkempty, mirr and rdctx (R64, R133 to R135). mkfull keeps the value (a register with an error mark becomes zero, R217);
g0 stays full; mirr drops reserved bits, and an entry that names g40 to g55 on a reduced tile is the register-absent fault; rdctx of
a number above 11 gives 0, and of a free context 0. -/
def Sys2Proof.Claims.RegisterStates : Prop :=
  (∀ rd, let i := Instr.mkempty rd 0
    Does (needD i rd) i (fun _ s => s.updCur (fun x => x.putState x.mon rd.toNat .empty))) ∧
  (∀ rd, let i := Instr.mkfull rd 0
    Does (needD i rd) i (fun _ s => s.updCur (fun x =>
      match x.stateG rd.toNat with
      | .marked _ _ => x.putG x.mon rd.toNat 0
      | _ => x.putState x.mon rd.toNat .full))) ∧
  (∀ rd, let i := Instr.mkempty rd 1
    Does { wf := i.wf, vdsts := [rd.setWidth 5], vec := true } i (fun _ s => s.updCur (fun x => x.putVState (rd.toNat % 32) .empty))) ∧
  (∀ rd, let i := Instr.mkfull rd 1
    Does { wf := i.wf, vdsts := [rd.setWidth 5], vec := true } i (fun _ s => s.updCur (fun x =>
      match x.stateV (rd.toNat % 32) with
      | .marked _ _ => x.putV (rd.toNat % 32) 0
      | _ => x.putVState (rd.toNat % 32) .full))) ∧
  (∀ ra wa, let i := Instr.mirr ra wa
    CompletesIf (needA i ra wa) i (fun v s => s.isReduced s.slot.site = false ∨ ∀ k < 4, bit (v0 v) (8 * k + 7) = true → fld (v0 v) (8 * k) 6 < 40 ∨ 55 < fld (v0 v) (8 * k) 6)
      (fun v s =>
        let m := v0 v &&& 0xBFBFBFBF#64
        (s.updCur (fun c => { c with mirr := m, hwm := ((mirrRegs m).filter (fun r => decide (r ≤ 55))).foldl Nat.max c.hwm })).retire) ∧
    TrapsIf (needA i ra wa) i (fun v s => s.isReduced s.slot.site = true ∧ ∃ k < 4, bit (v0 v) (8 * k + 7) = true ∧ 40 ≤ fld (v0 v) (8 * k) 6 ∧ fld (v0 v) (8 * k) 6 ≤ 55)
      0x05 (fun _ _ => 0)) ∧
  (∀ rd ra wa, let i := Instr.rdctx rd ra wa
    Writes (needR i rd ra wa) i rd (fun v s => if 11 < (v0 v).toNat then 0 else (s.curTile.ctx (v0 v).toNat).status)) ∧
  (∀ x : Ctx, x.state = .free → x.status = 0) ∧
  (∀ x : Ctx, x.state ≠ .free → x.mgs = [] → x.hwm < 64 →
    fld x.status 0 4 = x.state.code ∧ bit x.status 4 = x.mon ∧ fld x.status 5 2 = x.pri.toNat ∧ fld x.status 8 6 = x.hwm)

/-- Time and the tile's own registers (R98 to R100, R278, R281): the chronometer, RSTAMP, the wait for a tick (all ones never
comes), neighbour and hop registers, the map word, REPTAB. -/
def Sys2Proof.Claims.TimeAndTile : Prop :=
  (∀ rd, Writes (needD (.rdtime rd) rd) (.rdtime rd) rd (fun _ s => BitVec.ofNat 64 (s.nowAt s.slot.site))) ∧
  (∀ rd, Writes (needD (.rdtsr rd) rd) (.rdtsr rd) rd (fun _ s => s.cur.rstamp)) ∧
  (∀ ra wa, CompletesIf (needA (.twait ra wa) ra wa) (.twait ra wa)
    (fun v s => v0 v ≠ 0xFFFFFFFFFFFFFFFF ∧ (v0 v).toNat ≤ s.nowAt s.slot.site) (fun _ s => s.retire)) ∧
  (∀ rd e, Writes (needD (.rdnbr rd e) rd) (.rdnbr rd e) rd (fun _ s => fget 0 s.curTile.nbr e.toNat)) ∧
  (∀ rd e, Writes (needD (.rdhop rd e) rd) (.rdhop rd e) rd (fun _ s => fget 0 s.curTile.hop e.toNat)) ∧
  (∀ rd ra wa, Writes (needR (.rdmap rd ra wa) rd ra wa) (.rdmap rd ra wa) rd (fun v s => s.mapWord s.slot.site (v0 v))) ∧
  (∀ rd ra wa, let i := Instr.rtrd rd ra wa; let n : Need := { needR i rd ra wa with priv := true }
    CompletesIf n i (fun v _ => (v0 v).toNat ≤ 97)
      (fun v s => (s.writeG rd (BitVec.ofNat 64 (fget 0 s.curTile.reptab (v0 v).toNat).toNat)).retire) ∧
    TrapsIf n i (fun v _ => 97 < (v0 v).toNat) 0x19 (fun _ _ => 0)) ∧
  (∀ ra rb wa wb, let i := Instr.rtwr ra rb wa wb; let n : Need := { needAB i ra rb wa wb with priv := true }
    CompletesIf n i (fun v s => (v0 v).toNat ≤ 97 ∧ fld (v1 v) 10 21 = 0 ∧ fld (v1 v) 0 10 ≤ (if (v0 v).toNat < 2 then 56 else 1023) ∧
        (∀ c < 12, c ≠ s.slot.ctx → (s.curTile.ctx c).state ≠ .live) ∧ s.curTile.mx.fifo = [] ∧ s.curTile.xfer = [])
      (fun v s => (s.setReptab s.slot.site (v0 v).toNat ((v1 v).setWidth 32)).retire) ∧
    TrapsIf n i (fun v _ => 97 < (v0 v).toNat ∨ fld (v1 v) 10 21 ≠ 0 ∨ (if (v0 v).toNat < 2 then 56 else 1023) < fld (v1 v) 0 10)
      0x19 (fun _ _ => 0))

/-! ### Frames of register instructions -/

/-- The scalar instructions that write one register from registers and fields alone (R138 to R150, and the reads of R98, R99, R130, R135,
R281): the destination and what the word names. -/
def Sys2Proof.Claims.scalarNeed (i : Instr) : Option (BitVec 6 × Need) :=
  match i with
  | .add rd ra rb wa wb | .sub rd ra rb wa wb | .andG rd ra rb wa wb | .orG rd ra rb wa wb | .xorG rd ra rb wa wb
  | .andn rd ra rb wa wb | .shl rd ra rb wa wb | .shr rd ra rb wa wb | .sar rd ra rb wa wb | .rot rd ra rb wa wb
  | .slt rd ra rb wa wb | .sltu rd ra rb wa wb | .seq rd ra rb wa wb | .min rd ra rb wa wb | .max rd ra rb wa wb
  | .minu rd ra rb wa wb | .maxu rd ra rb wa wb | .mul rd ra rb wa wb | .mulh rd ra rb wa wb | .mulhu rd ra rb wa wb
  | .div rd ra rb wa wb | .divu rd ra rb wa wb | .rem rd ra rb wa wb | .remu rd ra rb wa wb | .ext rd ra rb wa wb
  | .clmul rd ra rb wa wb | .clmulh rd ra rb wa wb => some (rd, needRR i rd ra rb wa wb)
  | .sel rd ra rb wa wb | .ins rd ra rb wa wb => some (rd, { wf := i.wf, srcs := [blk rd, (ra, wt wa), (rb, wt wb)], dsts := [rd] })
  | .addi rd ra wa _ | .andi rd ra wa _ | .ori rd ra wa _ | .xori rd ra wa _ | .shli rd ra wa _ | .shri rd ra wa _
  | .sari rd ra wa _ | .roti rd ra wa _ | .slti rd ra wa _ | .sltiu rd ra wa _ | .clz rd ra wa | .ctz rd ra wa | .popc rd ra wa
  | .bswap rd ra wa | .rdmap rd ra wa | .rdctx rd ra wa => some (rd, needR i rd ra wa)
  | .lih rd _ | .adr rd _ | .rdtime rd | .rdtsr rd | .rdnbr rd _ | .rdhop rd _ => some (rd, needD i rd)
  | _ => none

/-- What stays of a context when an instruction writes g register rd and nothing else: every other register of the mode and of the
other mode, the vector registers, masks, target registers, flags, and every special register but those an instruction's end itself
touches (SKIP of DBGCTL, R447) and RSTAMP, which a popped element gives (R278). -/
def Sys2Proof.Claims.SameBut (x y : Ctx) (rd : BitVec 6) : Prop :=
  (∀ r : Nat, r ≠ rd.toNat → y.readG r = x.readG r ∧ y.stateG r = x.stateG r) ∧
  (x.mon = true → ∀ r, 1 ≤ r → r ≤ 7 → fget 0 y.g r = fget 0 x.g r) ∧ (x.mon = false → y.mg = x.mg ∧ y.mgs = x.mgs) ∧
  y.v = x.v ∧ y.vs = x.vs ∧ y.masks = x.masks ∧ y.t = x.t ∧ y.fcsr = x.fcsr ∧ y.mirr = x.mirr ∧ y.mon = x.mon ∧ y.pri = x.pri ∧
  y.state = x.state ∧ y.tepc = x.tepc ∧ y.tcause = x.tcause ∧ y.tval = x.tval ∧ y.tword = x.tword ∧ y.tstat = x.tstat ∧
  y.mscr = x.mscr ∧ (∀ k, k ≠ 6 → bit y.dbgctl k = bit x.dbgctl k) ∧ y.bpa0 = x.bpa0 ∧ y.bpa1 = x.bpa1 ∧ y.wpa0 = x.wpa0 ∧
  y.wpa1 = x.wpa1 ∧ y.wpcfg = x.wpcfg ∧ y.owed = x.owed

/-- No seal counter is within `n` numbers of its last one, which makes its site a degraded one and sends the island an event (R430). -/
def Sys2Proof.Claims.CountersLow (s : State) (n : Nat) : Prop := ∀ u, (s.site u).sealCtr.toNat + n < 2 ^ 64 - 1

/-- Slices and edge memory read as before: all of memory but the islands' own. -/
def Sys2Proof.Claims.SameBytes (s t : State) : Prop := ∀ k, k < sysKey 0 → Memory.byte t.mem k = Memory.byte s.mem k

/-- What stays of the rest of the machine: every other context's own state, every byte of the slices and of edge memory with its codes,
and every piece of state that is no tile's, the agenda and the names of entries apart (a pushed port element may leave as a message, and a
popped one be acknowledged, R293). Where one of these takes a site's last seal number, the event of R430 goes to the island's own memory
and rings; otherwise these stay too. -/
def Sys2Proof.Claims.SameElsewhere (s t : State) : Prop :=
  (∀ u c, ¬(u = s.slot.site ∧ c = s.slot.ctx) → t.ctx u c = s.ctx u c) ∧ SameBytes s t ∧ t.ecc = s.ecc ∧ t.tick = s.tick ∧
  t.clusters = s.clusters ∧ t.fields = s.fields ∧ t.tags = s.tags ∧ t.regions = s.regions ∧
  (CountersLow s 8 → t.mem = s.mem ∧ t.islands = s.islands ∧ t.ports = s.ports ∧ t.groups = s.groups ∧ t.bays = s.bays ∧
    t.rings = s.rings ∧ t.sec = s.sec ∧ t.module = s.module ∧ t.events = s.events ∧ t.posted = s.posted)

/-- FRAME of the scalar instructions: where one is ready it completes; every register but gd, every special register, every flag, every
other context, all of memory and all the rest of the machine stay. A port named as gd leaves every register as it is; RSTAMP stays
where no port is popped; the high-water mark never falls. -/
def Obligations.ScalarFrame : Prop :=
  ∀ (i : Instr) (rd : BitVec 6) (n : Need) (s : State), scalarNeed i = some (rd, n) → n.ready s = true →
    ∃ t, exec i s = .next t ∧ SameBut s.cur t.cur rd ∧ SameElsewhere s t ∧
      (n.srcs.all (fun p => !inPort p.1) = true → t.cur.rstamp = s.cur.rstamp) ∧ s.cur.hwm ≤ t.cur.hwm ∧
      (60 ≤ rd.toNat → ∀ r, t.cur.readG r = s.cur.readG r)

/-- A write to g0 is discarded and g0 reads as zero, in both modes; a write to any other register that is no port reads back, full
(R57, R61, R116). -/
def Sys2Proof.Claims.RegisterWrite : Prop :=
  (∀ (s : State) v, (s.writeG 0 v).cur = s.cur ∧ s.cur.readG 0 = 0 ∧ s.cur.stateG 0 = .full) ∧
  (∀ (s : State) (rd : BitVec 6) v, rd ≠ 0 → rd.toNat < 60 →
    (s.writeG rd v).cur.readG rd.toNat = v ∧ (s.writeG rd v).cur.stateG rd.toNat = .full ∧
    ∀ r : Nat, r ≠ rd.toNat → (s.writeG rd v).cur.readG r = s.cur.readG r)

/-- Going on after an instruction (R52, R67, R176): outside a frame the pc of the context becomes the address given, which for most
instructions is that of the next word, four bytes on, or eight after a modifier pair. -/
def Sys2Proof.Claims.ProgramCounter : Prop :=
  ∀ (s : State) (a : Word), s.slot.framed = false → (s.finish a).cur.pc = a ∧
    s.retire.cur.pc = s.slot.addr + (if s.slot.pair then 8 else 4)

/-- What it means that an instruction is ready (R58, R62, R70, R76, R77, R97): its word is legal here and permitted in the mode; each
source that is a register is full; each source port holds as many elements as are popped and is not held for another context's
frame; no source register lies in a row of the register file that has failed (R90); no v source is empty; no destination awaits a producer; each output port is bound and has room; a reduced tile has the
registers. -/
def Sys2Proof.Claims.ReadyMeans : Prop :=
  ∀ (n : Need) (s : State), n.ready s = true ↔
    (n.wf = true ∧ (n.vec = true → s.slot.ctx < 4) ∧ (n.priv = true → s.cur.mon = true) ∧
     (∀ p ∈ n.srcs, inPort p.1 = false → s.cur.stateG p.1.toNat = .full) ∧
     (∀ p ∈ n.srcs, inPort p.1 = true → s.curTile.endedStream (p.1.toNat - 56) = none ∧
        (s.curTile.q.inq? (p.1.toNat - 56)) ≠ [] ∧
        n.popsOf p.1 ≤ (s.curTile.q.inq? (p.1.toNat - 56)).length ∧ s.curTile.portReserved (p.1.toNat - 56) s.slot.ctx = false) ∧
     (∀ p ∈ n.srcs, 1 ≤ p.1.toNat → p.1.toNat ≤ 55 → monName s.cur.mon p.1.toNat = false → s.regFails s.slot.site p.1.toNat = false) ∧
     (∀ v ∈ n.vsrcs, s.cur.stateV v.toNat = .full) ∧
     (∀ r ∈ n.dsts, outPort r = false → s.cur.stateG r.toNat ≠ .pending) ∧ (∀ v ∈ n.vdsts, s.cur.stateV v.toNat ≠ .pending) ∧
     (∀ r ∈ n.dsts, outPort r = true → cfgV (s.curTile.q.cfg (r.toNat - 56)) = true ∧ s.pushReady s.slot.site (r.toNat - 56) = true) ∧
     (s.isReduced s.slot.site = true → ∀ r ∈ n.named, ¬(40 ≤ r ∧ r ≤ 55)))

/-- The values of sources (R57, R58): a register gives its value; a port named once gives its first element; one named as both gives
its first element to the first and its second to the second. -/
def Sys2Proof.Claims.SourceValues : Prop :=
  ∀ (s : State) (n : Need) (a b : BitVec 6 × Bool), n.srcs = [a, b] →
    (inPort a.1 = false → (n.vals s)[0]? = some (s.cur.readG a.1.toNat)) ∧
    (inPort b.1 = false → (n.vals s)[1]? = some (s.cur.readG b.1.toNat)) ∧
    (∀ e l, inPort a.1 = true → s.curTile.q.inq? (a.1.toNat - 56) = e :: l → (n.vals s)[0]? = some e.val) ∧
    (∀ e l, inPort b.1 = true → a.1 ≠ b.1 → s.curTile.q.inq? (b.1.toNat - 56) = e :: l → (n.vals s)[1]? = some e.val) ∧
    (∀ e f l, inPort a.1 = true → a.1 = b.1 → s.curTile.q.inq? (a.1.toNat - 56) = e :: f :: l → (n.vals s)[1]? = some f.val)

/-- The traps of selection (R62, R70, R76, R77, R90, R217, R293, R341): an illegal word in any mode; a source with wait bit 1 that is an
empty register; a register that a reduced tile lacks; an unbound output port; an ended stream behind a source port; a source register in a
row that has failed; an error mark of a source. That the row's fault stands between the ended stream and the mark, and has code 0x16 and
value 0, is the model's choice, as is which of two marks is taken (log entry 16). -/
def Sys2Proof.Claims.SelectionTraps : Prop :=
  ∀ (n : Need) (s : State) (body : List Word → State → Act),
    (n.wf = false → issue n s body = .next (s.takeTrap 0x01 0)) ∧
    (n.wf = true → n.vec = true → 4 ≤ s.slot.ctx → issue n s body = .next (s.takeTrap 0x01 0)) ∧
    (n.illegal s = false → (n.priv = true → s.cur.mon = true) →
      (∃ p ∈ n.srcs, p.2 = true ∧ inPort p.1 = false ∧ s.cur.stateG p.1.toNat = .empty) →
      issue n s body = .next (s.takeTrap 0x04 0)) ∧
    (n.illegal s = false → (n.priv = true → s.cur.mon = true) → n.blocked s = false →
      (∀ p ∈ n.srcs, p.2 = true → s.emptySrc p.1 = false) → s.isReduced s.slot.site = true → (∃ r ∈ n.named, 40 ≤ r ∧ r ≤ 55) →
      issue n s body = .next (s.takeTrap 0x05 0)) ∧
    (n.illegal s = false → (n.priv = true → s.cur.mon = true) → n.blocked s = false →
      (∀ p ∈ n.srcs, p.2 = true → s.emptySrc p.1 = false) → (s.isReduced s.slot.site = true → ∀ r ∈ n.named, ¬(40 ≤ r ∧ r ≤ 55)) →
      n.unbound s = false → n.ended s = none →
      (∃ p ∈ n.srcs, 1 ≤ p.1.toNat ∧ p.1.toNat ≤ 55 ∧ monName s.cur.mon p.1.toNat = false ∧ s.regFails s.slot.site p.1.toNat = true) →
      issue n s body = .next (s.takeTrap 0x16 0)) ∧
    (n.illegal s = false → (n.priv = true → s.cur.mon = true) → n.blocked s = false →
      (∀ p ∈ n.srcs, p.2 = true → s.emptySrc p.1 = false) → (s.isReduced s.slot.site = true → ∀ r ∈ n.named, ¬(40 ≤ r ∧ r ≤ 55)) →
      (∃ r ∈ n.dsts, 60 ≤ r.toNat ∧ cfgV (s.curTile.q.cfg (r.toNat - 56)) = false) →
      issue n s body = .next (s.takeTrap 0x22 0)) ∧
    (∀ e : StreamEnd, n.illegal s = false → (n.priv = true → s.cur.mon = true) → n.blocked s = false →
      (∀ p ∈ n.srcs, p.2 = true → s.emptySrc p.1 = false) → (s.isReduced s.slot.site = true → ∀ r ∈ n.named, ¬(40 ≤ r ∧ r ≤ 55)) →
      n.unbound s = false → n.ended s = some e →
      issue n s body = .next (s.takeTrap 0x26 e.status)) ∧
    (∀ m : BitVec 8 × Word, n.illegal s = false → (n.priv = true → s.cur.mon = true) → n.blocked s = false →
      (∀ p ∈ n.srcs, p.2 = true → s.emptySrc p.1 = false) → (s.isReduced s.slot.site = true → ∀ r ∈ n.named, ¬(40 ≤ r ∧ r ≤ 55)) →
      n.unbound s = false → n.ended s = none → n.rowFails s = false → n.marked s = some m →
      issue n s body = .next (s.takeTrap m.1.toNat m.2))

/-! ### Loads, stores and atomics -/

/-- The conditions on an address in their order (R208, R209), for an access of `size` bytes, which are its alignment: misaligned,
form, outside the region, past the slice, the monitor's range from user mode or from another tile, a hole; an address of the own tile
that passes them is its offset. -/
def Obligations.AddressConditions : Prop :=
  ∀ (s : State) (t : Nat) (mon : Bool) (a : Word) (size : Nat), 0 < size →
    let here := (s.tile t).region = 0 ∨ ((addrCol a = (s.tile t).col) ∧ addrRow a = (s.tile t).row)
    let inside := addrCol a < (s.dims t).1 ∧ addrRow a < (s.dims t).2
    (a.toNat % size ≠ 0 → s.checkAddr t mon a size size = .error 0x10) ∧
    (a.toNat % size = 0 → bit a 63 = true → fld a 56 7 ≠ 0 → s.checkAddr t mon a size size = .error 0x11) ∧
    (a.toNat % size = 0 → bit a 63 = true → fld a 56 7 = 0 → s.checkAddr t mon a size size = .ok (.edge (fld a 0 56))) ∧
    (a.toNat % size = 0 → bit a 63 = false → fld a 37 26 ≠ 0 → s.checkAddr t mon a size size = .error 0x11) ∧
    (a.toNat % size = 0 → bit a 63 = false → fld a 37 26 = 0 → ¬inside → s.checkAddr t mon a size size = .error 0x11) ∧
    (a.toNat % size = 0 → bit a 63 = false → fld a 37 26 = 0 → inside → 0x180000 < addrOff a + size →
      s.checkAddr t mon a size size = .error 0x12) ∧
    (a.toNat % size = 0 → bit a 63 = false → fld a 37 26 = 0 → inside → addrOff a + size ≤ 0x180000 → 0x170000 < addrOff a + size →
      (mon = false ∨ ¬here) → s.checkAddr t mon a size size = .error 0x13) ∧
    (a.toNat % size = 0 → bit a 63 = false → fld a 37 26 = 0 → inside → addrOff a + size ≤ 0x180000 →
      (addrOff a + size ≤ 0x170000 ∨ mon = true) → here → s.checkAddr t mon a size size = .ok (.loc (addrOff a))) ∧
    (a.toNat % size = 0 → bit a 63 = false → fld a 37 26 = 0 → inside → addrOff a + size ≤ 0x170000 → ¬here →
      s.placeFrom t (addrCol a) (addrRow a) = .hole → s.checkAddr t mon a size size = .error 0x14)

/-- The scalar loads (R214): size in bytes, and whether the value is sign-extended. -/
def Sys2Proof.Claims.loadRows : List ((BitVec 6 → BitVec 6 → BitVec 1 → BitVec 1 → BitVec 9 → Instr) × Nat × Bool) :=
  [(.lb, 1, true), (.lbu, 1, false), (.lh, 2, true), (.lhu, 2, false), (.lw, 4, true), (.lwu, 4, false), (.ld, 8, false)]

/-- The scalar stores (R214): size in bytes. -/
def Sys2Proof.Claims.storeRows : List ((BitVec 6 → BitVec 6 → BitVec 1 → BitVec 11 → Instr) × Nat) :=
  [(.sb, 1), (.sh, 2), (.sw, 4), (.sd, 8)]

/-- The atomics (R219, R220) by fn[4:0]. -/
def Sys2Proof.Claims.atomicRows : List ((BitVec 6 → BitVec 6 → BitVec 6 → BitVec 1 → BitVec 1 → BitVec 1 → Instr) × Nat) :=
  [(.amoadd, 0), (.amoand, 1), (.amoor, 2), (.amoxor, 3), (.amomin, 4), (.amomax, 5), (.amominu, 6), (.amomaxu, 7), (.amoswap, 8),
   (.amocas, 9), (.amoaddf, 10)]

/-- A number of `size` bytes as a register value (R214). -/
def Sys2Proof.Claims.extended (size : Nat) (signed : Bool) (x : Nat) : Word :=
  if signed ∧ 2 ^ (8 * size - 1) ≤ x then BitVec.ofInt 64 ((x : Int) - 2 ^ (8 * size)) else BitVec.ofNat 64 x

/-- The effective address (R214): base plus the offset field times the size. -/
def Sys2Proof.Claims.effective {k : Nat} (base : Word) (off : BitVec k) (size : Nat) : Word := base + BitVec.ofInt 64 (off.toInt * size)

/-- A load from the own slice (R212, R214): gd receives the bytes, extended, and correctable errors met are counted; with RAW set the
stored bits (R480); an uncorrectable error is the fault 0x16 at the address; a condition of R209 or a watchpoint that holds is its
fault. Here, as below, where the access does not wait for a command that the context has claimed and that is not complete (R235). -/
def Obligations.LocalLoads : Prop :=
  ∀ p ∈ loadRows, ∀ rd ra wa nb off, let i := p.1 rd ra wa nb off; let n := needR i rd ra wa; let size := p.2.1
    let a := fun v : List Word => effective (v0 v) off size
    (∀ o, CompletesIf n i (fun v s => s.accessHeld = false ∧ s.precheck (a v) size size true false = .ok (.loc o) ∧ s.curTile.spmraw = false ∧
        s.uncorrectable s.slot.site o size = false)
      (fun _ s => ((s.countCec s.slot.site (s.correctables s.slot.site o size)).writeG rd
        (extended size p.2.2 (s.spmRead s.slot.site o size))).retire)) ∧
    (∀ o, CompletesIf n i (fun v s => s.accessHeld = false ∧ s.precheck (a v) size size true false = .ok (.loc o) ∧ s.curTile.spmraw = true)
      (fun _ s => (s.writeG rd (extended size p.2.2 (s.spmRaw s.slot.site o size % 2 ^ (8 * size)))).retire)) ∧
    (∀ o, TrapsIf n i (fun v s => s.accessHeld = false ∧ s.precheck (a v) size size true false = .ok (.loc o) ∧ s.curTile.spmraw = false ∧
        s.uncorrectable s.slot.site o size = true) 0x16 (fun v _ => a v)) ∧
    (∀ c x, TrapsIf n i (fun v s => s.accessHeld = false ∧ s.precheck (a v) size size true false = .error (c, x)) c (fun _ _ => x))

/-- A store to the own slice (R212, R214): the low bytes of the register go to the offset, little-endian, unless a narrow store meets
an uncorrectable error, which is the fault 0x16 at the address. -/
def Sys2Proof.Claims.LocalStores : Prop :=
  ∀ p ∈ storeRows, ∀ rs ra wa off, let i := p.1 rs ra wa off; let size := p.2
    let n : Need := { wf := i.wf, srcs := [(ra, wt wa), blk rs] }
    let a := fun v : List Word => effective (v0 v) off size
    (∀ o, CompletesIf n i (fun v s => s.accessHeld = false ∧ s.precheck (a v) size size false true = .ok (.loc o) ∧ s.storeBlocked s.slot.site o size = false)
      (fun v s => (s.spmStore s.slot.site o size ((v1 v).toNat % 2 ^ (8 * size))).retire)) ∧
    (∀ o, TrapsIf n i (fun v s => s.accessHeld = false ∧ s.precheck (a v) size size false true = .ok (.loc o) ∧ s.storeBlocked s.slot.site o size = true)
      0x16 (fun v _ => a v)) ∧
    (∀ c x, TrapsIf n i (fun v s => s.accessHeld = false ∧ s.precheck (a v) size size false true = .error (c, x)) c (fun _ _ => x))

/-- FRAME of a store to the own slice: its bytes, from the offset its address names, read back as the register's low bytes; every other
byte of memory, every register, flag and special register, and every other context stay. Where a narrow store counts a correctable error
(R212) or a popped source takes a site's last seal number, the island's own memory, to which the degrade event goes (R88, R430), may
change. -/
def Sys2Proof.Claims.LocalStoreFrame : Prop :=
  ∀ p ∈ storeRows, ∀ rs ra wa off (s : State) (o : Nat), let i := p.1 rs ra wa off; let size := p.2
    let n : Need := { wf := i.wf, srcs := [(ra, wt wa), blk rs] }
    let s0 := n.take s
    n.ready s = true → s0.accessHeld = false →
    s0.precheck (effective (v0 (n.vals s)) off size) size size false true = .ok (.loc o) →
    s0.storeBlocked s.slot.site o size = false →
    ∃ t, exec i s = .next t ∧ t.spmRead s.slot.site o size = (v1 (n.vals s)).toNat % 2 ^ (8 * size) ∧
      (∀ k, k < sysKey 0 ∨ (s0.correctables s.slot.site o size = 0 ∧ CountersLow s 8) → (∀ j < size, k ≠ s0.spmKey s.slot.site (o + j)) →
        Memory.byte t.mem k = Memory.byte s.mem k) ∧
      (∀ r : Nat, t.cur.readG r = s.cur.readG r ∧ t.cur.stateG r = s.cur.stateG r) ∧ t.cur.fcsr = s.cur.fcsr ∧ t.cur.v = s.cur.v ∧
      t.cur.masks = s.cur.masks ∧ t.cur.mscr = s.cur.mscr ∧ t.cur.mon = s.cur.mon ∧
      (∀ u c, ¬(u = s.slot.site ∧ c = s.slot.ctx) → t.ctx u c = s.ctx u c)

/-- An atomic on the own slice (R219, R220): gd receives the old value, sign-extended, and the bytes become the new value; amocas writes
only where the old value equals gd; amoaddf merges its flags. An uncorrectable error is the fault 0x16. -/
def Sys2Proof.Claims.LocalAtomics : Prop :=
  ∀ p ∈ atomicRows, ∀ rd ra rb wa wb z, let i := p.1 rd ra rb wa wb z; let size := if z = 1 then 8 else 4
    let n : Need := { wf := i.wf, srcs := [(ra, wt wa), (rb, wt wb)] ++ (if p.2 = 9 then [blk rd] else []), dsts := [rd] }
    (∀ o, CompletesIf n i (fun v s => s.accessHeld = false ∧ s.precheck (v0 v) size size true true = .ok (.loc o) ∧ s.uncorrectable s.slot.site o size = false)
      (fun v s =>
        let old := s.spmRead s.slot.site o size
        let r := amoNew p.2 size old (v1 v).toNat (v2 v).toNat
        let s1 := s.countCec s.slot.site (s.correctables s.slot.site o size)
        let s2 := match r.1 with
          | some x => s1.spmPut s.slot.site o size x
          | none => s1
        ((s2.updCur (fun y => y.orFlags r.2)).writeG rd (extended size true old)).retire)) ∧
    (∀ o, TrapsIf n i (fun v s => s.accessHeld = false ∧ s.precheck (v0 v) size size true true = .ok (.loc o) ∧ s.uncorrectable s.slot.site o size = true)
      0x16 (fun v _ => v0 v)) ∧
    (∀ c x, TrapsIf n i (fun v s => s.accessHeld = false ∧ s.precheck (v0 v) size size true true = .error (c, x)) c (fun _ _ => x))

/-- The new values of the integer atomics (R219), of `w` bits. -/
def Sys2Proof.Claims.AtomicValues : Prop :=
  ∀ (size old b cmp : Nat), size = 4 ∨ size = 8 → old < 2 ^ (8 * size) →
    let w := 8 * size
    let sg := fun x : Nat => (BitVec.ofNat w x).toInt
    let r := fun op => (amoNew op size old b cmp).1
    let y := b % 2 ^ w
    r 0 = some ((old + b) % 2 ^ w) ∧ r 1 = some (old &&& y) ∧ r 2 = some (old ||| y) ∧ r 3 = some (old ^^^ y) ∧
    r 4 = some (if sg old ≤ sg y then old else y) ∧ r 5 = some (if sg old ≤ sg y then y else old) ∧
    r 6 = some (if old ≤ y then old else y) ∧ r 7 = some (if old ≤ y then y else old) ∧ r 8 = some y ∧
    r 9 = (if old = cmp % 2 ^ w then some y else none) ∧ ∀ op < 10, (amoNew op size old b cmp).2 = 0

/-- A load, store or atomic of another tile's slice or of translated edge memory is a request in the retention buffer (R216, R219,
R287): the load's register is emptied, the store's data go with it, and the context goes on. Without a free entry a store or an
atomic waits; without a translation the access waits and a lookup is asked for (R255). -/
def Obligations.RemoteRequests : Prop :=
  (∀ p ∈ loadRows, ∀ rd ra wa off l d x, let i := p.1 rd ra wa 0 off; let size := p.2.1
    let a := fun v : List Word => effective (v0 v) off size
    (∀ o, l ≠ Loc.loc o) →
    CompletesIf (needR i rd ra wa) i (fun v s => s.accessHeld = false ∧ s.precheck (a v) size size true false = .ok l ∧ s.reach l 0 = .far d x)
      (fun v s => let q := (s.touch x).request s.slot.site s.slot.ctx (.load (a v) size) (.greg s.slot.ctx rd.toNat s.cur.mon size p.2.2) d x
        (q.2.emptyG rd q.1).retire)) ∧
  (∀ p ∈ storeRows, ∀ rs ra wa off l d x, let i := p.1 rs ra wa off; let size := p.2
    let n : Need := { wf := i.wf, srcs := [(ra, wt wa), blk rs] }
    let a := fun v : List Word => effective (v0 v) off size
    CompletesIf n i (fun v s => s.accessHeld = false ∧ s.precheck (a v) size size false true = .ok l ∧ s.reach l 1 = .far d x ∧ s.curTile.retFree ≠ 0)
      (fun v s => ((s.touch x).request s.slot.site s.slot.ctx (.store (a v) size ((v1 v).toNat % 2 ^ (8 * size))) .none d x).2.retire)) ∧
  (∀ p ∈ atomicRows, ∀ rd ra rb wa wb z l d x, let i := p.1 rd ra rb wa wb z; let size := if z = 1 then 8 else 4
    let n : Need := { wf := i.wf, srcs := [(ra, wt wa), (rb, wt wb)] ++ (if p.2 = 9 then [blk rd] else []), dsts := [rd] }
    CompletesIf n i (fun v s => s.accessHeld = false ∧ s.precheck (v0 v) size size true true = .ok l ∧ s.reach l 2 = .far d x ∧ s.curTile.retFree ≠ 0)
      (fun v s => let q := (s.touch x).request s.slot.site s.slot.ctx (.atomic (v0 v) size p.2 (v1 v) (v2 v)) (.greg s.slot.ctx rd.toNat s.cur.mon size true) d x
        (q.2.emptyG rd q.1).retire))

/-- Fences (R221): a release waits for the context's writes, an acquire for its outstanding producers, a full fence for
both, a fence of scope 0 for nothing; the wait comes before the next instruction, and that instruction ends it. A release is over when
no entry of the retention buffer holds a write of the context, its messages among them (R232, log entry 94), and each command that it
has claimed is complete (R235). -/
def Sys2Proof.Claims.Fences : Prop :=
  (∀ (s : State) a, (s.finish a).cur.fence = 0) ∧
  (∀ (x : Tile) c, (x.ctx c).fence = 0 → x.fenceDone c = true) ∧
  (∀ (x : Tile) c, (x.ctx c).fence = 1 → (x.fenceDone c = true ↔
    (∀ e ∈ x.q.ret, e.isWriteOf c = false) ∧ (∀ e ∈ x.mx.fifo, e.claimed = true → e.claimCtx ≠ c) ∧ ∀ e ∈ x.xfer, e.claimed = true → e.claimCtx ≠ c)) ∧
  (∀ (x : Tile) c, (x.ctx c).fence = 2 → (x.fenceDone c = true ↔ (x.ctx c).owed = 0)) ∧
  ∀ p ∈ ([(Instr.fenceRel, 1), (Instr.fenceAcq, 2), (Instr.fenceFull, 3)] : List ((BitVec 3 → Instr) × BitVec 2)), ∀ q,
    Completes (need0 (p.1 q)) (p.1 q) (fun _ s => s.retire.updCur (fun x => { x with fence := if q = 0 then 0 else p.2 }))

/-- tprobe, lrenew and tdrop (R270, R271): a translation the tile holds answers a tprobe at once; the result word of a walk made for
the instruction answers both; tdrop drops the entries and lines whose addresses meet the range. An address that is not of edge form
is the address-form fault 0x11. -/
def Sys2Proof.Claims.PageInstructions : Prop :=
  (∀ rd ra rb wa wb, let i := Instr.tprobe rd ra rb wa wb; let n := needRR i rd ra rb wa wb
    (∀ e, CompletesIf n i (fun v s => edgeForm (v0 v) = true ∧
        tlbFind s.curTile.dtlb s.curTile.region (s.nowAt s.slot.site) (fld (v0 v) 0 56) (pageKind (v1 v)) = some e)
      (fun _ s => ((s.touchData s.slot.site e).writeG rd (probeWord (s.nowAt s.slot.site) (some e) 0 0)).retire)) ∧
    TrapsIf n i (fun v _ => edgeForm (v0 v) = false) 0x11 (fun v _ => v0 v)) ∧
  (∀ rd ra rb wa wb w, let i := Instr.lrenew rd ra rb wa wb; let n := needRR i rd ra rb wa wb
    (∀ s, n.ready s = true → edgeForm (v0 (n.vals s)) = true → (n.take s).cur.probed = some w →
      ∃ t, (n.take s).lateResult rd w = .ok t ∧ exec i s = .next t) ∧
    TrapsIf n i (fun v _ => edgeForm (v0 v) = false) 0x11 (fun v _ => v0 v)) ∧
  (∀ ra rb wa wb, let i := Instr.tdrop ra rb wa wb; let n := needAB i ra rb wa wb
    CompletesIf n i (fun v _ => edgeForm (v0 v) = true) (fun v s =>
      let lo := fld (v0 v) 0 56
      let hi := Nat.min (lo + (v1 v).toNat) (2 ^ 56)
      let meets := fun a n : Nat => lo < hi ∧ a < hi ∧ lo < a + n
      (s.updCurTile (fun x => { x with
        itlb := x.itlb.filter (fun e => decide ¬ meets e.va (2 ^ e.lg))
        dtlb := x.dtlb.filter (fun e => decide ¬ meets e.va (2 ^ e.lg))
        inv := x.inv.filter (fun l => decide ¬(bit l.addr 63 = true ∧ meets (fld l.addr 0 56) 64)) })).retire) ∧
    TrapsIf n i (fun v _ => edgeForm (v0 v) = false) 0x11 (fun v _ => v0 v))

/-! ### Messages, ports, handlers and counters -/

/-- Where send and sendh (R303) send: the tile named in ga. -/
def Sys2Proof.Claims.namedDest (s : State) (h : Word) : Except (Nat × Word) (Dst × Nat × Nat) :=
  match s.sendDest s.slot.site (fld h 0 8) (fld h 8 8) with
  | .error e => .error e
  | .ok u => .ok (.tile u, fld h 0 8, fld h 8 8)

/-- Where send.n, send.e, send.s and send.w send: the neighbour, if it lies in the region. -/
def Sys2Proof.Claims.nearDest (s : State) (dir : Nat) : Option (Except (Nat × Word) (Dst × Nat × Nat)) :=
  match neighbour s.curTile.col s.curTile.row dir with
  | none => none
  | some (c, r) =>
    if (s.dims s.slot.site).1 ≤ c ∨ (s.dims s.slot.site).2 ≤ r then none
    else some (match s.sendDest s.slot.site c r with
      | .error e => .error e
      | .ok u => .ok (.tile u, c, r))

/-- A send that passes its checks (R303): the messages of its count, in order, each with its payload read from the own slice, enter the
retention buffer and are on their way; operands that fail the checks are the queue-operand fault 0x21, a destination outside the
region or a hole its fault, an uncorrectable error in the payload the fault 0x16. -/
def Sys2Proof.Claims.SendsAs (i : Instr) (n : Need) (ok : List Word → State → Prop)
    (dest : List Word → State → Except (Nat × Word) (Dst × Nat × Nat)) : Prop :=
  (∀ d col row, CompletesIf n i (fun v s => ok v s ∧ dest v s = .ok (d, col, row) ∧ putRangeOk (v0 v) (v1 v) = true ∧
      pwCount (v1 v) ≤ s.curTile.retFree ∧ s.accessHeld = false ∧
      s.uncorrectable s.slot.site (pwOff (v1 v)) (pwCount (v1 v) * mdwLen (v0 v)) = false)
    (fun v s => (s.sendAll s.slot.site s.slot.ctx (v0 v) (v1 v) d col row).retire)) ∧
  TrapsIf n i (fun v s => ¬ok v s) 0x21 (fun _ _ => 0) ∧
  (∀ c a, TrapsIf n i (fun v s => ok v s ∧ dest v s = .error (c, a)) c (fun _ _ => a)) ∧
  (∀ d, TrapsIf n i (fun v s => ok v s ∧ dest v s = .ok d ∧ putRangeOk (v0 v) (v1 v) = false) 0x21 (fun _ _ => 0)) ∧
  (∀ d, TrapsIf n i (fun v s => ok v s ∧ dest v s = .ok d ∧ putRangeOk (v0 v) (v1 v) = true ∧
      pwCount (v1 v) ≤ s.curTile.retFree ∧ s.accessHeld = false ∧
      s.uncorrectable s.slot.site (pwOff (v1 v)) (pwCount (v1 v) * mdwLen (v0 v)) = true)
    0x16 (fun v s => s.curTile.addrOf (pwOff (v1 v))))

/-- send, sendh, hmsg and the sends to a neighbour (R302, R303). -/
def Sys2Proof.Claims.Sends : Prop :=
  ∀ ra rb wa wb,
    (let i := Instr.send ra rb wa wb
     SendsAs i (needAB i ra rb wa wb) (fun v s => s.sendOperandsOk (v0 v) (v1 v) [0, 1] 240 false = true) (fun v s => namedDest s (v0 v))) ∧
    (let i := Instr.sendh ra rb wa wb
     SendsAs i (needAB i ra rb wa wb) (fun v s => s.sendOperandsOk (v0 v) (v1 v) [2] 32 false = true) (fun v s => namedDest s (v0 v))) ∧
    (let i := Instr.hmsg ra rb wa wb
     SendsAs i (needAB i ra rb wa wb) (fun v s => s.sendOperandsOk (v0 v) (v1 v) [3] 240 true = true)
       (fun _ s => .ok (.island (s.homeOf s.slot.site), 0, 0))) ∧
    ∀ p ∈ ([(Instr.sendN, 0), (Instr.sendE, 1), (Instr.sendS, 2), (Instr.sendW, 3)] : List ((BitVec 6 → BitVec 6 → BitVec 1 → BitVec 1 → Instr) × Nat)),
      let i := p.1 ra rb wa wb
      SendsAs i (needAB i ra rb wa wb)
        (fun v s => s.sendOperandsOk (v0 v) (v1 v) [0, 1] 240 true = true ∧ (nearDest s p.2).isSome = true)
        (fun _ s => (nearDest s p.2).getD (.error (0x21, 0)))

/-- tsend (R303, R300): the send waits on its counter behind those armed before it, or fires at once where the counter has fired;
a seventeenth waiting send is the fault 0x23. One whose payload a claimed command writes waits for it (R235). -/
def Sys2Proof.Claims.TriggeredSends : Prop :=
  ∀ n ra rb wa wb, let i := Instr.tsend n ra rb wa wb; let nd := needAB i ra rb wa wb
    let ok := fun (v : List Word) (s : State) =>
      s.sendOperandsOk (v0 v) (v1 v) [0, 1, 2, 3] (if mdwKind (v0 v) = 2 then 32 else 240) (mdwKind (v0 v) == 3) = true ∧
      (mdwKind (v0 v) = 3 ∨ ∃ u, s.sendDest s.slot.site (fld (v0 v) 0 8) (fld (v0 v) 8 8) = .ok u) ∧ putRangeOk (v0 v) (v1 v) = true
    let e := fun (v : List Word) (s : State) => ({ counter := n.toNat, order := s.curTile.q.armed, mdw := v0 v, pw := v1 v,
                                                   ctx := s.slot.ctx, mark := s.nextId } : Trigger)
    let quiet := fun (_ : List Word) (s : State) => s.accessHeld = false
    CompletesIf nd i (fun v s => ok v s ∧ quiet v s ∧ s.curTile.q.triggers.length < 16 ∧ (s.curTile.q.counter n.toNat).state ≠ 2)
      (fun v s => (s.updCurTile (fun x => x.updQ (fun q => { q with triggers := q.triggers ++ [e v s], armed := q.armed + 1 }))).retire) ∧
    CompletesIf nd i (fun v s => ok v s ∧ quiet v s ∧ s.curTile.q.triggers.length < 16 ∧ (s.curTile.q.counter n.toNat).state = 2)
      (fun v s => (s.fire s.slot.site (e v s)).retire) ∧
    TrapsIf nd i (fun v s => ok v s ∧ 16 ≤ s.curTile.q.triggers.length) 0x23 (fun _ _ => 0)

/-- qcfg (R291, R304): the port takes the binding, after gathered elements have left as one message, and parked messages of its TAG
come back to it; a value that breaks R291 or binds a TAG twice is the fault 0x21. -/
def Sys2Proof.Claims.PortBinding : Prop :=
  ∀ ra n wa, let i := Instr.qcfg ra n wa; let nd := needA i ra wa; let p := n.toNat
    let ok := fun (v : List Word) (s : State) => portcfgOk p (v0 v) = true ∧ s.curTile.q.boundTwice p (v0 v) = false
    let dest := fun (v : List Word) (s : State) => 4 ≤ p ∧ cfgV (v0 v) = true ∧ cfgVc (v0 v) = 2 →
      ∃ u, s.sendDest s.slot.site (fld (v0 v) 0 8) (fld (v0 v) 8 8) = .ok u
    let bind := fun (w : Word) (s : State) => s.updCurTile (fun x => x.updQ (fun q => { q with portcfg := fset 0 q.portcfg p w }.takeBack p w))
    CompletesIf nd i (fun v s => ok v s ∧ dest v s ∧ fget [] s.curTile.q.gathered p = []) (fun v s => (bind (v0 v) s).retire) ∧
    CompletesIf nd i (fun v s => ok v s ∧ dest v s ∧ fget [] s.curTile.q.gathered p ≠ [] ∧ s.curTile.retFree ≠ 0 ∧
        (fget [] s.curTile.q.gathered p).all (fun e => e.1 == 0) = true)
      (fun v s => (bind (v0 v) (s.flushPort s.slot.site s.slot.ctx p (fget [] s.curTile.q.gathered p).length)).retire) ∧
    TrapsIf nd i (fun v s => ¬ok v s) 0x21 (fun _ _ => 0)

/-- hset, hclr, hseal and hopen (R294, R305): an entry is written, with the parked items it serves back in the dispatch queue; an entry
that breaks its format is the fault 0x21; an entry is cleared; the table is sealed; opening it parks PORT messages that no port took
and makes dispatch due again. -/
def Sys2Proof.Claims.HandlerTable : Prop :=
  (∀ ra n wa, let i := Instr.hset ra n wa
    let mine := fun j : QItem => j.kind != 2 && j.hidx == n.toNat
    CompletesIf (needA i ra wa) i (fun v _ => handlerOk (v0 v) = true) (fun v s =>
      let back := if bit (v0 v) 63 then s.curTile.q.unclaimed.filter mine else []
      (back.foldl (fun q _ => q.later .dispatch { a := s.slot.site }) (s.updCurTile (fun x => x.updQ (fun q => { q with
        handlers := fset 0 q.handlers n.toNat (v0 v)
        dispatchQ := q.dispatchQ ++ back
        unclaimed := if bit (v0 v) 63 then q.unclaimed.filter (fun j => !mine j) else q.unclaimed })))).retire) ∧
    TrapsIf (needA i ra wa) i (fun v _ => handlerOk (v0 v) = false) 0x21 (fun _ _ => 0)) ∧
  (∀ n, Does (need0 (.hclr n)) (.hclr n) (fun _ s => s.updCurTile (fun x => x.updQ (fun q => { q with handlers := fset 0 q.handlers n.toNat 0 })))) ∧
  Does (need0 .hseal) .hseal (fun _ s => s.updCurTile (fun x => x.updQ (fun q => { q with isSealed := true }))) ∧
  ∀ s, (need0 .hopen).ready s = true → ∃ t, exec .hopen s = .next t ∧ t.curTile.q.isSealed = false ∧ t.mem = s.mem

/-- rcarm, rcrd and tcancel (R298, R299, R306): the counter takes threshold, unit and handler, keeps or clears its value, and is idle
without a threshold, fired where its value reaches it, else armed; non-zero reserved bits are the fault 0x21; the status word gives
value, state and waiting sends; a cancel frees them and gives their number. -/
def Sys2Proof.Claims.ReceiveCounters : Prop :=
  (∀ ra n wa, let i := Instr.rcarm ra n wa
    let c := fun (v : List Word) (s : State) =>
      let value := if bit (v0 v) 63 then 0 else (s.curTile.q.counter n.toNat).value
      ({ value := value, thr := fld (v0 v) 0 40, messages := bit (v0 v) 55, hv := bit (v0 v) 62, hidx := fld (v0 v) 56 6,
         state := if fld (v0 v) 0 40 = 0 then 0 else if fld (v0 v) 0 40 ≤ value then 2 else 1 } : Counter)
    CompletesIf (needA i ra wa) i (fun v _ => fld (v0 v) 40 15 = 0) (fun v s =>
      let s1 := s.updCurTile (fun x => x.updQ (fun q => q.setCounter n.toNat (c v s)))
      (if (c v s).state = 2 then s1.fireCounter s.slot.site n.toNat else s1).retire) ∧
    TrapsIf (needA i ra wa) i (fun v _ => fld (v0 v) 40 15 ≠ 0) 0x21 (fun _ _ => 0)) ∧
  (∀ rd n, Writes (needD (.rcrd rd n) rd) (.rcrd rd n) rd (fun _ s =>
    let c := s.curTile.q.counter n.toNat
    BitVec.ofNat 64 (c.value + 2 ^ 40 * c.state + 2 ^ 42 * (s.curTile.q.triggers.filter (fun y => y.counter == n.toNat)).length))) ∧
  (∀ rd n, Completes (needD (.tcancel rd n) rd) (.tcancel rd n) (fun _ s =>
    ((s.updCurTile (fun x => x.updQ (fun q => { q with triggers := q.triggers.filter (fun y => y.counter != n.toNat) }))).writeG rd
      (BitVec.ofNat 64 (s.curTile.q.triggers.filter (fun y => y.counter == n.toNat)).length)).retire))

/-! ### Barriers, collectives, streams and transfers -/

/-- The context has received something (R236, R237): every entry of the retention buffer made so far comes before what it does next. -/
def Sys2Proof.Claims.acquires (s : State) : State := s.updCur (fun x => { x with acquired := s.nextId })

/-- When the next access of a context waits (R235, R236): for a command it has claimed by a pop and that is not complete, and for a read before its
last receipt that is not performed. -/
def Sys2Proof.Claims.AccessOrder : Prop :=
  ∀ s : State, s.accessHeld = true ↔
    (∃ e ∈ s.curTile.mx.fifo, e.claimed = true ∧ e.claimCtx = s.slot.ctx) ∨ (∃ e ∈ s.curTile.xfer, e.claimed = true ∧ e.claimCtx = s.slot.ctx) ∨
    ∃ e ∈ s.curTile.q.ret, e.readBefore s.slot.ctx s.cur.acquired = true

/-- binit, binit.f, bexp, binv, btest, bwait (R347 to R352): a barrier is set up with its pending count and arrivals, complete where both
are zero, under a new generation, which gd receives; reserved bits are the fault 0x27, a busy barrier the fault 0x28 (binit.f only
where a collective owns it), a barrier that is not active 0x29 for bexp, an unused one 0x29 for bwait. A generation that is seen complete
is an acquire: what the context does from now on comes after its reads before (R237). A bwait that waits notes the tick of its first selection, and
where a gang's timeout watches the barrier its step is due (R399). -/
def Sys2Proof.Claims.Barriers : Prop :=
  (∀ p ∈ ([(Instr.binit, false), (Instr.binitF, true)] : List ((BitVec 6 → BitVec 6 → BitVec 6 → BitVec 1 → Instr) × Bool)), ∀ rd ra n wa,
    let i := p.1 rd ra n wa; let nd := needR i rd ra wa
    let busy := fun s : State => (s.curTile.bar n.toNat).state = 3 ∨ (p.2 = false ∧ (s.curTile.bar n.toNat).busy = true)
    CompletesIf nd i (fun v s => fld (v0 v) 44 20 = 0 ∧ ¬busy s) (fun v s =>
      let b := (s.curTile.bar n.toNat).init (fld (v0 v) 0 36) (fld (v0 v) 36 8) (if fld (v0 v) 0 44 = 0 then 2 else 1)
      ((s.updCurTile (fun x => x.setBar n.toNat b)).writeG rd (BitVec.ofNat 64 b.gen)).retire) ∧
    TrapsIf nd i (fun v _ => fld (v0 v) 44 20 ≠ 0) 0x27 (fun _ _ => 0) ∧
    TrapsIf nd i (fun v s => fld (v0 v) 44 20 = 0 ∧ busy s) 0x28 (fun _ _ => 0)) ∧
  (∀ ra n wa, let i := Instr.bexp ra n wa; let nd := needA i ra wa
    let pend := fun (v : List Word) (s : State) => (s.curTile.bar n.toNat).pend + fld (v0 v) 0 36
    let arr := fun (v : List Word) (s : State) => (s.curTile.bar n.toNat).arr + fld (v0 v) 36 8
    CompletesIf nd i (fun v s => fld (v0 v) 44 20 = 0 ∧ (s.curTile.bar n.toNat).state = 1 ∧ pend v s < 2 ^ 36 ∧ arr v s < 256)
      (fun v s => (s.updCurTile (fun x => x.setBar n.toNat { s.curTile.bar n.toNat with pend := pend v s, arr := arr v s })).retire) ∧
    TrapsIf nd i (fun v s => fld (v0 v) 44 20 ≠ 0 ∨ ((s.curTile.bar n.toNat).state = 1 ∧ (2 ^ 36 ≤ pend v s ∨ 256 ≤ arr v s))) 0x27 (fun _ _ => 0) ∧
    TrapsIf nd i (fun v s => fld (v0 v) 44 20 = 0 ∧ (s.curTile.bar n.toNat).state ≠ 1) 0x29 (fun _ _ => 0)) ∧
  (∀ n, let i := Instr.binv n
    CompletesIf (need0 i) i (fun _ s => (s.curTile.bar n.toNat).state ≠ 3)
      (fun _ s => (s.updCurTile (fun x => x.setBar n.toNat ((s.curTile.bar n.toNat).init 0 0 0))).retire) ∧
    TrapsIf (need0 i) i (fun _ s => (s.curTile.bar n.toNat).state = 3) 0x28 (fun _ _ => 0)) ∧
  (∀ rd n, Completes (needD (.btest rd n) rd) (.btest rd n) (fun _ s =>
    ((if (s.curTile.bar n.toNat).state = 2 then acquires s else s).writeG rd (s.curTile.bar n.toNat).status).retire)) ∧
  (∀ rd n, let i := Instr.bwait rd n
    CompletesIf (needD i rd) i (fun _ s => (s.curTile.bar n.toNat).state = 2) (fun _ s => ((acquires s).writeG rd (s.curTile.bar n.toNat).status).retire) ∧
    TrapsIf (needD i rd) i (fun _ s => (s.curTile.bar n.toNat).state = 0) 0x29 (fun _ _ => 0) ∧
    ∀ s, (needD i rd).ready s = true → let s0 := (needD i rd).take s
      (s0.curTile.bar n.toNat).state = 1 ∨ (s0.curTile.bar n.toNat).state = 3 → s0.cur.waitAt = none →
      ∃ t, exec i s = .next t ∧ t.cur.waitAt = some (s0.nowAt s.slot.site) ∧ t.cur.pc = s0.cur.pc ∧ t.mem = s0.mem ∧
        (s0.curTile.kernel ≠ 0 → ((s0.region s0.curTile.region).kernel s0.curTile.kernel).gang = true →
          (((s0.region s0.curTile.region).kernel s0.curTile.kernel).gbar.testBit n.toNat) = true →
          t.agenda = s0.agenda ++ [(.gangTimeout, { a := s.slot.site, b := s.slot.ctx })]))

/-- barv (R348, R353): an arrival at a barrier of the own tile takes effect at once where the context's stores and atomics are
acknowledged; otherwise, and to another tile, it is sent behind them. Operands that break the format are the fault 0x27. -/
def Sys2Proof.Claims.BarrierArrival : Prop :=
  ∀ ra rb wa wb, let i := Instr.barv ra rb wa wb; let nd := needAB i ra rb wa wb
    let dest := fun (v : List Word) (s : State) (u : Nat) => barvOk (v0 v) (v1 v) = true ∧ s.sendDest s.slot.site (fld (v0 v) 16 8) (fld (v0 v) 24 8) = .ok u
    CompletesIf nd i (fun v s => dest v s s.slot.site ∧ s.curTile.released s.slot.ctx s.nextId = true)
      (fun v s => (s.arrive s.slot.site (fld (v0 v) 0 6) (fld (v1 v) 0 36) 1 (barvTag (v0 v)) false).retire) ∧
    (∀ u, CompletesIf nd i (fun v s => dest v s u ∧ ((u = s.slot.site ∧ s.curTile.released s.slot.ctx s.nextId = false) ∨ (u ≠ s.slot.site ∧ s.curTile.retFree ≠ 0)))
      (fun v s => (s.sendMarked s.slot.site s.slot.ctx s.nextId (.barv (v0 v) (fld (v1 v) 0 36)) u).retire)) ∧
    TrapsIf nd i (fun v _ => barvOk (v0 v) (v1 v) = false) 0x27 (fun _ _ => 0)

/-- coll (R354, R355): a member of a collective whose rectangle lies in the region, without holes, and whose barrier is not busy takes part:
its barrier becomes the collective's, its part is recorded with the place of its result, gd is emptied, and the contribution climbs.
A descriptor that breaks the format or does not hold the tile is the fault 0x27. -/
def Sys2Proof.Claims.Collectives : Prop :=
  ∀ rd ra rb wa wb, let i := Instr.coll rd ra rb wa wb; let n := needRR i rd ra rb wa wb
    let here := fun s : State => if s.curTile.region = 0 then (0, 0) else (s.curTile.col, s.curTile.row)
    let holds := fun (d : Word) (s : State) => collOk d = true ∧ (collOrg d).1 ≤ (here s).1 ∧ (here s).1 < (collOrg d).1 + (collDims d).1 ∧
      (collOrg d).2 ≤ (here s).2 ∧ (here s).2 < (collOrg d).2 + (collDims d).2
    CompletesIf n i (fun v s => holds (v1 v) s ∧ (collOrg (v1 v)).1 + (collDims (v1 v)).1 ≤ (s.dims s.slot.site).1 ∧
        (collOrg (v1 v)).2 + (collDims (v1 v)).2 ≤ (s.dims s.slot.site).2 ∧
        (∀ p < collCount (v1 v), (s.collSite s.slot.site (v1 v) p).isSome = true) ∧
        s.curTile.coll.active = false ∧ s.curTile.retFree ≠ 0 ∧ (s.curTile.bar (collBar (v1 v))).busy = false)
      (fun v s =>
        let d := v1 v
        let k : Coll := { active := true, desc := d, partialV := (if [0, 10, 14].contains (collFmt d) then BitVec.ofNat 64 (fld (v0 v) 0 32) else v0 v),
                          pos := ((here s).2 - (collOrg d).2) * (collDims d).1 + ((here s).1 - (collOrg d).1), ctx := s.slot.ctx,
                          rd := rd.toNat, mon := s.cur.mon, id := s.nextId, mark := s.nextId }
        let s1 := s.fresh.2.updCurTile (fun x => { x.setBar (collBar d) ((s.curTile.bar (collBar d)).init 0 0 3) with coll := k })
        (s1.emptyG rd s.nextId).retire.collClimb s.slot.site 17) ∧
    TrapsIf n i (fun v s => ¬holds (v1 v) s) 0x27 (fun _ _ => 0)

/-- xcopy and xpop (R327 to R331): a checked command joins the transfer FIFO, where it has room and a retention entry; xpop of an empty
FIFO gives zero, and otherwise empties gd and claims the oldest command that has not completed. -/
def Sys2Proof.Claims.Transfers : Prop :=
  (∀ rd ra rb wa wb, let i := Instr.xcopy rd ra rb wa wb
    let n : Need := { wf := i.wf, srcs := [(ra, wt wa), (rb, wt wb), blk rd] }
    CompletesIf n i (fun v s => s.xcopyCheck (v2 v) (v0 v) (v1 v) = none ∧ s.curTile.xfer.length < 8 ∧ s.curTile.retFree ≠ 0 ∧
        s.accessHeld = false)
      (fun v s =>
        let e : XCmd := { id := s.nextId, gc := v2 v, gd := v0 v, gs := v1 v, ctx := s.slot.ctx,
                          gen := (s.curTile.bar (fld (v2 v) 56 6)).gen, mark := s.nextId }
        ((s.fresh.2.updCurTile (fun x => { x with xfer := x.xfer ++ [e] })).later .transferStart { a := s.slot.site }).retire) ∧
    (∀ c a, TrapsIf n i (fun v s => s.xcopyCheck (v2 v) (v0 v) (v1 v) = some (c, a)) c (fun _ _ => a))) ∧
  (∀ rd, let i := Instr.xpop rd
    (∀ s, (needD i rd).ready s = true → ((needD i rd).take s).curTile.xfer.find? XCmd.claimable = none →
      ∃ t, ((needD i rd).take s).lateResult rd 0 = .ok t ∧ exec i s = .next t) ∧
    (∀ e, CompletesIf (needD i rd) i (fun _ s => s.curTile.xfer.find? XCmd.claimable = some e ∧ e.state ≠ 2)
      (fun _ s => ((s.fresh.2.setXfer s.slot.site
        { e with claimed := true, claimCtx := s.slot.ctx, claimReg := rd.toNat, claimMon := s.cur.mon, claimAt := s.nextId }).emptyG rd s.nextId).retire)))

/-- sopen and sclose (R337, R344, R345): a source end with a legal stream parameter block in the own slice, on a free slot and with a
retention entry free, opens; closing a slot that holds no stream gives 0; closing an ended stream frees the slot and gives its status. -/
def Sys2Proof.Claims.Streams : Prop :=
  (∀ ra n wa, let i := Instr.sopen ra n wa
    let e := fun (s : State) (o : Nat) => ({ state := 1, spb := BitVec.ofNat 512 (s.spmRead s.slot.site o 64),
                                                digest := spbDigest (BitVec.ofNat 512 (s.spmRead s.slot.site o 64)), ctx := s.slot.ctx, mark := s.nextId } : StreamEnd)
    (∀ o, CompletesIf (needA i ra wa) i (fun v s => s.checkAddr s.slot.site s.cur.mon (v0 v) 64 64 = .ok (.loc o) ∧
        s.uncorrectable s.slot.site o 64 = false ∧ (e s o).limitsOk (s.dims s.slot.site).1 (s.dims s.slot.site).2 = true ∧
        (s.curTile.stream n.toNat).state = 0 ∧ (∀ k < 4, (s.curTile.stream k).state ≠ 0 → (s.curTile.stream k).same (e s o) = false) ∧
        (e s o).role = 0 ∧ s.curTile.col = (e s o).scol ∧ s.curTile.row = (e s o).srow ∧
        (∀ j < (e s o).c1 + 1 - (e s o).c0, ∃ u, s.placeFrom s.slot.site ((e s o).c0 + j) (e s o).row = .site u) ∧
        s.accessHeld = false ∧
        s.curTile.retFree ≠ 0)
      (fun _ s => ((s.countCec s.slot.site (s.correctables s.slot.site o 64)).updCurTile (fun x => x.setStream n.toNat (e s o))).retire)) ∧
    TrapsIf (needA i ra wa) i (fun v _ => (v0 v).toNat % 64 ≠ 0) 0x10 (fun v _ => v0 v)) ∧
  (∀ rd n, let i := Instr.sclose rd n
    CompletesIf (needD i rd) i (fun _ s => (s.curTile.stream n.toNat).state = 0) (fun _ s => (s.writeG rd 0).retire) ∧
    CompletesIf (needD i rd) i (fun _ s => 3 ≤ (s.curTile.stream n.toNat).state ∧ (s.curTile.stream n.toNat).role = 0)
      (fun _ s => ((s.updCurTile (fun x => x.setStream n.toNat {})).writeG rd (s.curTile.stream n.toNat).status).retire))

/-! ### Trains, kernels and the repeater -/

/-- The train instructions (R360, R368, R371 to R377), in context 0 and in a train state that permits each: forming records the leader's
group and asks each other member; joining answers a request that matches; leaving, while the word comes from the lane and ga is not
zero, goes on at the target and detaches; a mark only goes on; rejoining waits for its marker; tsync gives the number of detached
members and waits for the line, tgang only waits; tend ends the train; rdskew gives the skew word. In another context, or in a
state that forbids it, each is the train fault 0x0E. -/
def Sys2Proof.Claims.Trains : Prop :=
  (∀ rd ra wa, let i := Instr.tform rd ra wa
    CompletesIf (needR i rd ra wa) i (fun v s => s.slot.ctx = 0 ∧ s.curTile.train.state = 0 ∧ fld (v0 v) 16 48 = 0 ∧ 2 ≤ fld (v0 v) 0 8 ∧
        s.curTile.col + fld (v0 v) 0 8 ≤ (s.dims s.slot.site).1 ∧
        ∀ d < fld (v0 v) 0 8, ∃ u, s.placeFrom s.slot.site (s.curTile.col + d) s.curTile.row = .site u)
      (fun v s => (List.range (fld (v0 v) 0 8)).foldl (fun q d => if d = 0 then q else q.later .trainFormationRequest { a := s.slot.site, b := d })
        (s.retire.updCurTile (fun x => let y := x.setCtx 0 { x.ctx 0 with formed := true }
          { y with train := { x.train with state := 1, id := fld (v0 v) 8 8, c0 := s.curTile.col, n := fld (v0 v) 0 8, d := 0, rd := rd.toNat, joined := false, syncWait := 0, lane := [], frames := [], step := 0 } })))) ∧
  (∀ rd ra wa, let i := Instr.tjoin rd ra wa
    ∀ s : State, (needR i rd ra wa).ready s = true → s.slot.ctx = 0 → s.curTile.train.state = 0 →
      let w := v0 ((needR i rd ra wa).vals s)
      ∀ rid c0 k, ((needR i rd ra wa).take s).curTile.train.request = some (rid, c0, k) → fld w 16 48 = 0 → fld w 0 8 = c0 → fld w 8 8 = rid →
        c0 < s.curTile.col → ∃ t, exec i s = .next t ∧ t.curTile.train.state = 1 ∧ t.curTile.train.id = rid ∧ t.curTile.train.joined = true ∧
          t.curTile.train.d = s.curTile.col - c0 ∧ SameBytes s t ∧ (CountersLow s 8 → t.mem = s.mem)) ∧
  (∀ ra k wa, let i := Instr.tleave ra k wa
    CompletesIf (needA i ra wa) i (fun v s => s.slot.ctx = 0 ∧ s.curTile.train.state ≠ 0 ∧ s.curTile.train.state ≠ 4 ∧ (s.slot.train = false ∨ v0 v = 0))
      (fun _ s => s.retire) ∧
    CompletesIf (needA i ra wa) i (fun v s => s.slot.ctx = 0 ∧ s.curTile.train.state ≠ 0 ∧ s.curTile.train.state ≠ 4 ∧ s.slot.train = true ∧ v0 v ≠ 0 ∧
        fld (s.curTile.own (fget 0 s.cur.t k.toNat)) 0 2 = 0)
      (fun _ s => (s.finish (s.curTile.own (fget 0 s.cur.t k.toNat))).updCurTile Tile.detach)) ∧
  (∀ n, CompletesIf (need0 (.tmark n)) (.tmark n) (fun _ s => s.slot.ctx = 0 ∧ s.curTile.train.state ≠ 0) (fun _ s => s.retire)) ∧
  (∀ rd n, CompletesIf (needD (.trejoin rd n) rd) (.trejoin rd n) (fun _ s => s.slot.ctx = 0 ∧ s.curTile.train.state = 4)
    (fun _ s => s.retire.updCurTile (fun x => { x with train := { x.train with state := 5, marker := n.toNat, rd := rd.toNat } }))) ∧
  (∀ rd, CompletesIf (needD (.tsync rd) rd) (.tsync rd) (fun _ s => s.slot.ctx = 0 ∧ s.curTile.train.state ≠ 0 ∧ s.curTile.train.state ≠ 4)
    (fun _ s => (((s.startLines 1).dueLine 1).writeG rd (BitVec.ofNat 64 (s.detachedCount s.slot.site))).retire)) ∧
  CompletesIf (need0 .tgang) .tgang (fun _ s => s.slot.ctx = 0 ∧ s.curTile.train.state ≠ 0 ∧ s.curTile.train.state ≠ 4)
    (fun _ s => ((s.startLines 2).dueLine 2).retire) ∧
  CompletesIf (need0 .tend) .tend (fun _ s => s.slot.ctx = 0 ∧ s.curTile.train.state ≠ 0)
    (fun _ s => s.retire.updCurTile (fun x => { x with train := { x.train with state := 0 } })) ∧
  (∀ rd, CompletesIf (needD (.rdskew rd) rd) (.rdskew rd) (fun _ s => s.slot.ctx = 0) (fun _ s => (s.writeG rd (s.skewWord s.slot.site)).retire)) ∧
  (∀ i ∈ [Instr.tgang, Instr.tend], TrapsIf (need0 i) i (fun _ s => s.slot.ctx ≠ 0 ∨ s.curTile.train.state = 0) 0x0E (fun _ _ => 0)) ∧
  (∀ n, TrapsIf (need0 (.tmark n)) (.tmark n) (fun _ s => s.slot.ctx ≠ 0 ∨ s.curTile.train.state = 0) 0x0E (fun _ _ => 0))

/-- kq (R378, R380): a descriptor of 64 bytes in the own slice, aligned, goes to the home island as a request, and gd is emptied for the
reply. -/
def Sys2Proof.Claims.KernelEnqueue : Prop :=
  ∀ rd ra wa, let i := Instr.kq rd ra wa
    (∀ o, CompletesIf (needR i rd ra wa) i (fun v s => s.checkAddr s.slot.site s.cur.mon (v0 v) 64 64 = .ok (.loc o) ∧
        s.accessHeld = false ∧ s.uncorrectable s.slot.site o 64 = false ∧ s.curTile.retFree ≠ 0)
      (fun _ s =>
        let q := (s.countCec s.slot.site (s.correctables s.slot.site o 64)).request s.slot.site s.slot.ctx (.kq (BitVec.ofNat 512 (s.spmRead s.slot.site o 64)))
          (.greg s.slot.ctx rd.toNat s.cur.mon 8 false) (.island (s.homeOf s.slot.site)) none
        (q.2.emptyG rd q.1).retire)) ∧
    (∀ c, TrapsIf (needR i rd ra wa) i (fun v s => s.checkAddr s.slot.site s.cur.mon (v0 v) 64 64 = .error c) c (fun v _ => v0 v))

/-- kexit (R393): where the tile's own work has completed, every context of the tile leaves the live state; a tile that holds no kernel
records that it has exited, and its exit value. -/
def Sys2Proof.Claims.KernelExit : Prop :=
  ∀ ra wa (s : State), let i := Instr.kexit ra wa; let n := needA i ra wa
    n.ready s = true → (n.take s).curTile.exitReady = true →
    ∃ t, exec i s = .next t ∧ (s.curTile.kernel = 0 → (t.tile s.slot.site).exited = true ∧ (t.tile s.slot.site).exitValue = v0 (n.vals s)) ∧
      ∀ c, (t.ctx s.slot.site c).state ≠ .live

/-- The repeater instructions (R176, R177): a frame of the body that follows, with its length, count, stride and mask, fills in user mode;
in monitor mode, and for operands with reserved bits set, they are the repeater fault 0x0D. Here without a port operand. -/
def Obligations.RepeaterFrames : Prop :=
  (∀ l st n, let i := Instr.rpt l st n
    CompletesIf (need0 i) i (fun _ s => s.cur.mon = false) (fun _ s => s.beginFrame
      { state := .fill, base := s.slot.addr + 4, len := l.toNat + 1, count := n.toNat, stride := st.toNat, mask := 0xFFFF, word := s.slot.word }) ∧
    TrapsIf (need0 i) i (fun _ s => s.cur.mon = true) 0x0D (fun _ _ => 0)) ∧
  (∀ l st wa ra, let i := Instr.rptR l st wa ra; inPort ra = false →
    CompletesIf (needA i ra wa) i (fun v s => s.cur.mon = false ∧ (v0 v).toNat < 2 ^ 32) (fun v s => s.beginFrame
      { state := .fill, base := s.slot.addr + 4, len := l.toNat + 1, count := (v0 v).toNat, stride := st.toNat, mask := 0xFFFF, word := s.slot.word }) ∧
    TrapsIf (needA i ra wa) i (fun v s => s.cur.mon = true ∨ 2 ^ 32 ≤ (v0 v).toNat) 0x0D (fun _ _ => 0)) ∧
  (∀ l st wa ra, let i := Instr.rptx l st wa ra; inPort ra = false →
    CompletesIf (needA i ra wa) i (fun v s => s.cur.mon = false ∧ (v0 v).toNat < 2 ^ 48) (fun v s => s.beginFrame
      { state := .fill, base := s.slot.addr + 4, len := l.toNat + 1, count := (v0 v).toNat % 2 ^ 32, stride := st.toNat,
        mask := BitVec.ofNat 16 ((v0 v).toNat / 2 ^ 32), word := s.slot.word }) ∧
    TrapsIf (needA i ra wa) i (fun v s => s.cur.mon = true ∨ 2 ^ 48 ≤ (v0 v).toNat) 0x0D (fun _ _ => 0))

/-! ### Vector instructions -/

/-- What a vector word names: v sources, with the old destination where it is read (R158), and the destination registers. -/
def Sys2Proof.Claims.needV (i : Instr) (srcs vd : List (BitVec 5)) (readsD : Bool) (m : BitVec 3) : Need :=
  { wf := i.wf, vsrcs := srcs ++ (if readsD || m != 0 then vd else []), vdsts := vd, vec := true }

/-- A vector result lane by lane (R46, R157, R158): every active element is computed, every other keeps its old value; the flags of the
active elements are merged. -/
def Sys2Proof.Claims.lanewise (s : State) (pair : Bool) (w : Nat) (vd : BitVec 5) (m : BitVec 3) (f : Ctx → Nat → Nat × BitVec 6) : State :=
  s.updCur (fun x =>
    let r := mapLanes (x.mask m.toNat) pair w (x.vread pair vd.toNat) (f x)
    (x.vwrite pair vd.toNat r.1).orFlags r.2)

/-- What `lanewise` writes: where the element values fit their width, element j of the result is the computed one if active, else the old
one; the flags are those of the active elements and no others. -/
def Obligations.LanesOfAResult : Prop :=
  ∀ (mask : BitVec 16) (pair : Bool) (w old : Nat) (f : Nat → Nat × BitVec 6), w ∈ [8, 16, 32, 64] → (∀ j, (f j).1 < 2 ^ w) →
    let r := mapLanes mask pair w old f
    (∀ j < laneCount pair w, lane r.1 w j = if laneOn mask pair w j then (f j).1 else lane old w j) ∧
    r.1 < 2 ^ (w * laneCount pair w) ∧
    ∀ k < 6, bit r.2 k = (List.range (laneCount pair w)).any (fun j => laneOn mask pair w j && bit (f j).2 k)

/-- The floating-point operations of two and three operands (R159): lane by lane under the rounding mode and flush of FCSR, on pairs
of registers for FP64. -/
def Sys2Proof.Claims.VectorFloat : Prop :=
  (∀ p ∈ ([(Instr.vaddF, FpOp.add), (Instr.vsubF, .sub), (Instr.vmulF, .mul), (Instr.vminF, .min), (Instr.vmaxF, .max)] :
      List ((BitVec 5 → BitVec 5 → BitVec 5 → BitVec 3 → BitVec 2 → Instr) × FpOp)), ∀ vd va vb m t,
    let i := p.1 vd va vb m t; let q := isPair t; let f := fmtOf t.toNat
    Does (needV i (vgroup q va ++ vgroup q vb) (vgroup q vd) false m) i (fun _ s => lanewise s q f.width vd m (fun x j =>
      fpBin p.2 {} (fld x.fcsr 8 3) (bit x.fcsr 15) f (lane (x.vread q va.toNat) f.width j) (lane (x.vread q vb.toNat) f.width j)))) ∧
  (∀ p ∈ ([(Instr.vfma, FmaOp.fma), (Instr.vfms, .fms), (Instr.vfnma, .fnma), (Instr.vfnms, .fnms)] :
      List ((BitVec 5 → BitVec 5 → BitVec 5 → BitVec 3 → BitVec 2 → Instr) × FmaOp)), ∀ vd va vb m t,
    let i := p.1 vd va vb m t; let q := isPair t; let f := fmtOf t.toNat
    Does (needV i (vgroup q va ++ vgroup q vb) (vgroup q vd) true m) i (fun _ s => lanewise s q f.width vd m (fun x j =>
      fpFma p.2 {} (fld x.fcsr 8 3) (bit x.fcsr 15) f (lane (x.vread q va.toNat) f.width j) (lane (x.vread q vb.toNat) f.width j)
        (lane (x.vread q vd.toNat) f.width j)))) ∧
  (∀ p ∈ ([(Instr.vrcp, SpecOp.rcp), (Instr.vrsq, .rsq), (Instr.vsqrt, .sqrt), (Instr.vexp2, .exp2), (Instr.vlog2, .log2), (Instr.vtanh, .tanh)] :
      List ((BitVec 5 → BitVec 5 → BitVec 3 → BitVec 2 → Instr) × SpecOp)), ∀ vd va m t,
    let i := p.1 vd va m t; let q := isPair t; let f := fmtOf t.toNat
    Does (needV i (vgroup q va) (vgroup q vd) false m) i (fun _ s => lanewise s q f.width vd m (fun x j =>
      fpSpec p.2 {} (fld x.fcsr 8 3) (bit x.fcsr 15) f (lane (x.vread q va.toNat) f.width j))))

/-- The conversion of 16 elements (R164). -/
def Sys2Proof.Claims.VectorConvert : Prop :=
  ∀ vd va nb m d c, let i := Instr.vcvt vd va nb m d c; let wd := codeWidth d.toNat; let wc := codeWidth c.toNat
    let pd := wd == 64; let pc := wc == 64
    Does (needV i (vgroup pc va) (vgroup pd vd) false m) i (fun _ s => s.updCur (fun x =>
      let r := (List.range 16).foldl (fun (acc : Nat × BitVec 6) j =>
        let e := if bit (x.mask m.toNat) j then
            cvtElem {} (fld x.fcsr 8 3) (bit x.fcsr 15) d.toNat c.toNat (nb == 1) (lane (x.vread pc va.toNat) wc j)
          else (lane (x.vread pd vd.toNat) wd j, 0)
        (acc.1 + e.1 * 2 ^ (wd * j), acc.2 ||| e.2)) (0, 0)
      (x.vwrite pd vd.toNat r.1).orFlags r.2))

/-- The compares (R160, R162): mask bit i becomes the truth of its elements' comparison where bit i of m is set, and keeps its value where
not; the destination is a mask, and no vector register changes. A bit holds both of its 16-bit elements. -/
def Obligations.VectorCompares : Prop :=
  (∀ p ∈ ([(Instr.vcmpEqF, FCond.eq), (Instr.vcmpLtF, .lt), (Instr.vcmpLe, .le), (Instr.vcmpUn, .un)] :
      List ((BitVec 5 → BitVec 5 → BitVec 5 → BitVec 3 → BitVec 2 → Instr) × FCond)), ∀ md va vb m t,
    let i := p.1 md va vb m t; let q := isPair t; let f := fmtOf t.toNat
    let n : Need := { wf := i.wf, vsrcs := vgroup q va ++ vgroup q vb, vec := true }
    ∀ s, n.ready s = true → ∃ r, exec i s = .next r ∧ r.cur.v = s.cur.v ∧ r.mem = s.mem ∧ r.cur.g = s.cur.g ∧
      let test := fun j => p.2.test (f.operand (bit s.cur.fcsr 15) (lane (s.cur.vread q va.toNat) f.width j))
        (f.operand (bit s.cur.fcsr 15) (lane (s.cur.vread q vb.toNat) f.width j))
      ∀ k < 16, bit (r.cur.mask md.toNat) k =
        if bit (s.cur.mask m.toNat) k then (if f.width = 16 then (test (2 * k)).1 && (test (2 * k + 1)).1 else (test k).1)
        else bit (s.cur.mask md.toNat) k) ∧
  (∀ p ∈ ([(Instr.vcmpEqI, fun w a b => decide (BitVec.ofNat w a = BitVec.ofNat w b)),
      (Instr.vcmpLtI, fun w a b => decide ((BitVec.ofNat w a).toInt < (BitVec.ofNat w b).toInt)),
      (Instr.vcmpLtu, fun w a b => decide ((BitVec.ofNat w a).toNat < (BitVec.ofNat w b).toNat))] :
      List ((BitVec 5 → BitVec 5 → BitVec 5 → BitVec 3 → BitVec 2 → Instr) × (Nat → Nat → Nat → Bool))), ∀ md va vb m w,
    let i := p.1 md va vb m w; let n : Need := { wf := i.wf, vsrcs := [va, vb], vec := true }; let k := elemWidth w
    ∀ s, n.ready s = true → ∃ r, exec i s = .next r ∧ r.cur.v = s.cur.v ∧ r.cur.fcsr = s.cur.fcsr ∧ r.mem = s.mem ∧ r.cur.g = s.cur.g ∧
      ∀ b < 16, bit (r.cur.mask md.toNat) b =
        if bit (s.cur.mask m.toNat) (if k = 64 then b / 2 * 2 else b)
        then (cmpElems k b).all (fun j => p.2 k (lane (s.cur.vread false va.toNat) k j) (lane (s.cur.vread false vb.toNat) k j))
        else bit (s.cur.mask md.toNat) b)

/-- The integer and logic operations on lanes (R162, R163): every active element of vd holds its row's value of the elements of va and
vb, every other its old one; no flag changes; no other vector register changes. -/
def Obligations.VectorInteger : Prop :=
  ∀ p ∈ ([(Instr.vaddI, fun w a b => (a + b) % 2 ^ w), (Instr.vsubI, fun w a b => (a + 2 ^ w - b) % 2 ^ w), (Instr.vmulI, fun w a b => a * b % 2 ^ w),
      (Instr.vmulh, fun w a b => (BitVec.ofInt w (((BitVec.ofNat w a).toInt * (BitVec.ofNat w b).toInt).fdiv (2 ^ w))).toNat),
      (Instr.vmulhu, fun w a b => a * b / 2 ^ w),
      (Instr.vminI, fun w a b => if (BitVec.ofNat w a).toInt ≤ (BitVec.ofNat w b).toInt then a else b),
      (Instr.vmaxI, fun w a b => if (BitVec.ofNat w a).toInt ≤ (BitVec.ofNat w b).toInt then b else a),
      (Instr.vminu, fun _ a b => if a ≤ b then a else b), (Instr.vmaxu, fun _ a b => if a ≤ b then b else a),
      (Instr.vand, fun _ a b => a &&& b), (Instr.vor, fun _ a b => a ||| b), (Instr.vxor, fun _ a b => a ^^^ b),
      (Instr.vandn, fun w a b => a &&& (2 ^ w - 1 - b)), (Instr.vshl, fun w a b => a * 2 ^ (b % w) % 2 ^ w),
      (Instr.vshr, fun w a b => a / 2 ^ (b % w)),
      (Instr.vsar, fun w a b => (BitVec.ofInt w ((BitVec.ofNat w a).toInt.fdiv (2 ^ (b % w)))).toNat)] :
      List ((BitVec 5 → BitVec 5 → BitVec 5 → BitVec 3 → BitVec 2 → Instr) × (Nat → Nat → Nat → Nat))), ∀ vd va vb m w,
    let i := p.1 vd va vb m w; let k := elemWidth w
    ∀ s, (needV i [va, vb] [vd] false m).ready s = true → ∃ r, exec i s = .next r ∧ r.cur.fcsr = s.cur.fcsr ∧ r.mem = s.mem ∧
      (∀ u : Nat, u ≠ vd.toNat → r.cur.readV u = s.cur.readV u) ∧ r.cur.stateV vd.toNat = .full ∧ r.cur.masks = s.cur.masks ∧
      ∀ j < 512 / k, lane (r.cur.readV vd.toNat).toNat k j =
        if laneOn (s.cur.mask m.toNat) false k j then p.2 k (lane (s.cur.readV va.toNat).toNat k j) (lane (s.cur.readV vb.toNat).toNat k j)
        else lane (s.cur.readV vd.toNat).toNat k j

/-- vsel, vperm, vbcast, vext and vins (R163, R165): elements chosen by the mask; by indices in va and the old vd; one g register in every
active element; one element, sign-extended, in a g register; one g register in one element. -/
def Obligations.VectorMoves : Prop :=
  (∀ vd va vb m w, let i := Instr.vsel vd va vb m w; let k := elemWidth w
    let n : Need := { wf := i.wf, vsrcs := [va, vb], vdsts := [vd], vec := true }
    ∀ s, n.ready s = true → ∃ r, exec i s = .next r ∧ r.mem = s.mem ∧ (∀ u : Nat, u ≠ vd.toNat → r.cur.readV u = s.cur.readV u) ∧
      ∀ j < 512 / k, lane (r.cur.readV vd.toNat).toNat k j =
        lane (if laneOn (s.cur.mask m.toNat) false k j then s.cur.readV va.toNat else s.cur.readV vb.toNat).toNat k j) ∧
  (∀ vd va vb m w, let i := Instr.vperm vd va vb m w; let k := elemWidth w
    ∀ s, (needV i [va, vb] [vd] true m).ready s = true → ∃ r, exec i s = .next r ∧ r.mem = s.mem ∧
      (∀ u : Nat, u ≠ vd.toNat → r.cur.readV u = s.cur.readV u) ∧
      ∀ j < 512 / k, lane (r.cur.readV vd.toNat).toNat k j =
        (let q := lane (s.cur.readV vb.toNat).toNat k j % (2 * (512 / k))
         if laneOn (s.cur.mask m.toNat) false k j then
           (if q < 512 / k then lane (s.cur.readV va.toNat).toNat k q else lane (s.cur.readV vd.toNat).toNat k (q - 512 / k))
         else lane (s.cur.readV vd.toNat).toNat k j)) ∧
  (∀ vd va m w, let i := Instr.vbcast vd va m w; let k := elemWidth w
    let n : Need := { wf := i.wf, srcs := [blk (g5 va)], vsrcs := if m = 0 then [] else [vd], vdsts := [vd], vec := true }
    ∀ s, n.ready s = true → ∃ r, exec i s = .next r ∧ r.mem = s.mem ∧ (∀ u : Nat, u ≠ vd.toNat → r.cur.readV u = s.cur.readV u) ∧
      ∀ j < 512 / k, lane (r.cur.readV vd.toNat).toNat k j =
        if laneOn (s.cur.mask m.toNat) false k j then (s.cur.readG va.toNat).toNat % 2 ^ k else lane (s.cur.readV vd.toNat).toNat k j) ∧
  (∀ vd va nb w, let i := Instr.vext vd va nb w; let k := elemWidth w
    Writes { wf := i.wf, vsrcs := [va], dsts := [g5 vd], vec := true } i (g5 vd) (fun _ s =>
      BitVec.ofInt 64 (BitVec.ofNat k (lane (s.cur.readV va.toNat).toNat k nb.toNat)).toInt)) ∧
  (∀ vd va nb w, let i := Instr.vins vd va nb w; let k := elemWidth w
    let n : Need := { wf := i.wf, srcs := [blk (g5 va)], vsrcs := [vd], vdsts := [vd], vec := true }
    ∀ s, n.ready s = true → ∃ r, exec i s = .next r ∧ r.mem = s.mem ∧ (∀ u : Nat, u ≠ vd.toNat → r.cur.readV u = s.cur.readV u) ∧
      ∀ j < 512 / k, lane (r.cur.readV vd.toNat).toNat k j =
        if j = nb.toNat then (s.cur.readG va.toNat).toNat % 2 ^ k else lane (s.cur.readV vd.toNat).toNat k j)

/-- The reductions (R50, R166): the active elements are combined through the fixed tree of six levels, and element 0 of vd receives the
result, the operation's identity where no element is active; every other bit of vd becomes zero. -/
def Sys2Proof.Claims.VectorReductions : Prop :=
  ∀ p ∈ ([(Instr.vredAdd, RedOp.add), (Instr.vredMax, .max), (Instr.vredMin, .min)] : List ((BitVec 5 → BitVec 5 → BitVec 3 → BitVec 4 → Instr) × RedOp)),
    ∀ vd va m c, let i := p.1 vd va m c; let w := codeWidth c.toNat
    Does { wf := i.wf, vsrcs := [va], vdsts := [vd], vec := true } i (fun _ s => s.updCur (fun x =>
      let l := (List.range (512 / w)).map (fun j => if laneOn (x.mask m.toNat) false w j then some (lane (x.readV va.toNat).toNat w j) else none)
      let r := redTree (p.2.combine {} (fld x.fcsr 8 3) (bit x.fcsr 15) c.toNat) 6 l
      let y := match r.1.head? with
        | some (some z) => z
        | _ => p.2.identity c.toNat
      (x.putV vd.toNat (BitVec.ofNat 512 y)).orFlags r.2))

/-- vclmul (R167): segment g of vd receives the sum over GF(2) of the carry-less products of its two doublewords where mask bit 4g is
set. -/
def Sys2Proof.Claims.VectorCarryless : Prop :=
  ∀ vd va vb m, let i := Instr.vclmul vd va vb m
    ∀ s, (needV i [va, vb] [vd] false m).ready s = true → ∃ r, exec i s = .next r ∧ r.mem = s.mem ∧
      (∀ u : Nat, u ≠ vd.toNat → r.cur.readV u = s.cur.readV u) ∧
      ∀ g < 4, lane (r.cur.readV vd.toNat).toNat 128 g =
        let part := fun k => clProduct (BitVec.ofNat 64 (lane (s.cur.readV va.toNat).toNat 64 k)) (BitVec.ofNat 64 (lane (s.cur.readV vb.toNat).toNat 64 k))
        if bit (s.cur.mask m.toNat) (4 * g) then (part (2 * g) ^^^ part (2 * g + 1)).toNat else lane (s.cur.readV vd.toNat).toNat 128 g

/-- Vector loads from the own slice (R168 to R170): vld fills the active elements of vd from a row of 64 bytes; vldt fills 16 registers with
16 rows, transposed; vgather fills the active elements by the indices of vd + 1. The registers are full, every other register and all
of memory stay. Here for slices without error codes and without RAW, and no access waiting for a claimed command (R235). -/
def Sys2Proof.Claims.VectorLoads : Prop :=
  (∀ vd va vb m w nb (s : State) (o : Nat), let i := Instr.vld vd va vb m w nb; let k := elemWidth w
    let n : Need := { wf := i.wf, srcs := [blk (g5 va), blk (g5 vb)], vsrcs := if m = 0 then [] else [vd], vdsts := [vd], vec := true }
    n.ready s = true → s.ecc = [] → s.curTile.spmraw = false →
    (n.take s).accessHeld = false →
    (n.take s).precheck (s.cur.readG va.toNat + s.cur.readG vb.toNat) 64 64 true false = .ok (.loc o) →
    ∃ t, exec i s = .next t ∧ t.mem = s.mem ∧ (∀ u : Nat, u ≠ vd.toNat → t.cur.readV u = s.cur.readV u) ∧
      ∀ j < 512 / k, lane (t.cur.readV vd.toNat).toNat k j =
        if laneOn (s.cur.mask m.toNat) false k j then lane (s.spmRead s.slot.site o 64) k j else lane (s.cur.readV vd.toNat).toNat k j) ∧
  (∀ vd va vb nb (s : State) (o : Nat → Nat), let i := Instr.vldt vd va vb nb
    let n : Need := { wf := i.wf, srcs := [blk (g5 va), blk (g5 vb)], vec := true, vdsts := (List.range 16).map (fun j => vd + BitVec.ofNat 5 j) }
    n.ready s = true → s.ecc = [] → s.curTile.spmraw = false →
    (n.take s).accessHeld = false → (∀ j < 16,
      (n.take s).precheck (s.cur.readG va.toNat + BitVec.ofNat 64 j * s.cur.readG vb.toNat) 64 64 true false = .ok (.loc (o j))) →
    ∃ t, exec i s = .next t ∧ t.mem = s.mem ∧ (∀ u : Nat, u < vd.toNat ∨ vd.toNat + 16 ≤ u → t.cur.readV u = s.cur.readV u) ∧
      ∀ e < 16, ∀ j < 16, lane (t.cur.readV (vd.toNat + e)).toNat 32 j = lane (s.spmRead s.slot.site (o j) 64) 32 e) ∧
  (∀ vd va vb m w nb (s : State) (o : Nat → Nat), let i := Instr.vgather vd va vb m w nb; let k := gatherWidth w
    let n : Need := { wf := i.wf, srcs := [blk (g5 va), blk (g5 vb)], vsrcs := (vd + 1) :: (if m = 0 then [] else [vd]), vdsts := [vd], vec := true }
    n.ready s = true → s.ecc = [] → s.curTile.spmraw = false →
    (∀ j < 512 / k, laneOn (s.cur.mask m.toNat) false k j = true →
      let a := s.cur.readG va.toNat + BitVec.ofInt 64 (BitVec.ofNat k (lane (s.cur.readV (vd.toNat + 1)).toNat k j)).toInt * s.cur.readG vb.toNat
      (n.take s).accessHeld = false ∧ (n.take s).precheck a (k / 8) (k / 8) true false = .ok (.loc (o j))) →
    ∃ t, exec i s = .next t ∧ t.mem = s.mem ∧ (∀ u : Nat, u ≠ vd.toNat → t.cur.readV u = s.cur.readV u) ∧
      ∀ j < 512 / k, lane (t.cur.readV vd.toNat).toNat k j =
        if laneOn (s.cur.mask m.toNat) false k j then s.spmRead s.slot.site (o j) (k / 8) else lane (s.cur.readV vd.toNat).toNat k j)

/-- Vector stores (R168, R169, R171): vst writes the bytes of the active elements to a row of the own slice; vscatter, where every element
passes its checks, performs of each address the one of the highest j. A failed check is its fault, and nothing is stored. -/
def Sys2Proof.Claims.VectorStores : Prop :=
  (∀ vd va vb m w, let i := Instr.vst vd va vb m w
    let n : Need := { wf := i.wf, srcs := [blk (g5 va), blk (g5 vb)], vsrcs := [vd], vec := true }
    let bytes := fun s : State => byteMask (activeLanes (s.cur.mask m.toNat) (elemWidth w)) (elemWidth w / 8)
    (∀ o, CompletesIf n i (fun v s => s.accessHeld = false ∧ s.precheck (v0 v + v1 v) 64 64 false true = .ok (.loc o) ∧ s.rowBlocked s.slot.site o (bytes s) = false)
      (fun _ s => (s.rowStore s.slot.site o (bytes s) (s.cur.readV vd.toNat)).retire)) ∧
    (∀ c a, TrapsIf n i (fun v s => s.accessHeld = false ∧ s.precheck (v0 v + v1 v) 64 64 false true = .error (c, a)) c (fun _ _ => a))) ∧
  (∀ vd va vb m w, let i := Instr.vscatter vd va vb m w
    let n : Need := { wf := i.wf, srcs := [blk (g5 va), blk (g5 vb)], vsrcs := [vd, vd + 1], vec := true }
    let parts := fun (v : List Word) (s : State) => gatherParts s.cur vd m (gatherWidth w) (v0 v) (v1 v)
    (∀ ls, CompletesIf n i (fun v s => s.partsMeet (parts v s) = false ∧ s.checkParts false true (parts v s) = .ok ls ∧ s.firstMiss 1 (fun _ => false) ls = none ∧
        (∀ p ∈ ls, ∀ o, p.2 = .loc o → s.storeBlocked s.slot.site o p.1.size = false) ∧ farParts (lastOfEach ls) ≤ s.curTile.retFree)
      (fun _ s => (s.runScatter (s.cur.readV vd.toNat).toNat (lastOfEach ls)).retire)) ∧
    (∀ c a, TrapsIf n i (fun v s => s.partsMeet (parts v s) = false ∧ s.checkParts false true (parts v s) = .error (c, a)) c (fun _ _ => a)))

/-! ### Modifier pairs and the matrix unit -/

/-- The rows of R152: whether the operation is in the signed set, and its exact result. -/
def Sys2Proof.Claims.pairRows : List (RForm × Bool × (Int → Int → Int)) :=
  [(.add, true, fun a b => a + b), (.sub, true, fun a b => a - b), (.mul, true, fun a b => a * b), (.mulh, true, fun a b => (a * b).fdiv (2 ^ 64)),
   (.mulhu, false, fun a b => (a * b).fdiv (2 ^ 64)), (.min, true, fun a b => min a b), (.max, true, fun a b => max a b),
   (.minu, false, fun a b => min a b), (.maxu, false, fun a b => max a b)]

/-- An operand of a prefixed integer instruction (R152): absolute value, then negation; in the unsigned set negation modulo 2^64 alone. -/
def Sys2Proof.Claims.pairOperand (signed abs neg : Bool) (a : Word) : Int :=
  if signed then
    let x := if abs then |a.toInt| else a.toInt
    if neg then -x else x
  else if neg then (2 ^ 64 - (a.toNat : Int)) % 2 ^ 64 else a.toNat

/-- The result of a prefixed integer instruction and whether SA is set (R152). -/
def Sys2Proof.Claims.pairResult (m : Modifier) (signed : Bool) (op : Int → Int → Int) (a b : Word) : Word × Bool :=
  let x := op (pairOperand signed m.absa m.nega a) (pairOperand signed m.absb m.negb b)
  let x := if 0 ≤ m.scale then x * 2 ^ m.scale.toNat else x.fdiv (2 ^ (-m.scale).toNat)
  let lo : Int := if signed then -2 ^ 63 else 0
  let hi : Int := if signed then 2 ^ 63 - 1 else 2 ^ 64 - 1
  let y := min (max x lo) hi
  if m.sat then (BitVec.ofInt 64 y, decide (y ≠ x)) else (BitVec.ofInt 64 x, false)

/-- A modifier pair on scalar arithmetic (R65 to R67, R151, R152): with the fields that the class accepts, gd receives the result of the
prefixed operation and SA is merged. -/
def Sys2Proof.Claims.ScalarPairs : Prop :=
  ∀ (rnd : BitVec 3) (scale : BitVec 6) (absb absa negb nega clamp sat : BitVec 1), let i := Instr.pfx rnd scale absb absa negb nega clamp sat
    let m := modifierOf rnd scale absb absa negb nega clamp sat
    i.wf = true → rnd = 0 → clamp = 0 →
    (∀ p ∈ pairRows, ∀ rd ra rb wa wb (s : State), let n := needRR (p.1 rd ra rb wa wb) rd ra rb wa wb
      decode s.slot.word2 = .ok (p.1 rd ra rb wa wb) → n.ready s = true →
      let r := pairResult m p.2.1 p.2.2 (v0 (n.vals s)) (v1 (n.vals s))
      exec i s = .next ((((n.take s).updCur (fun x => x.orFlags (if r.2 then 0x20#6 else 0))).writeG rd r.1).retire)) ∧
    (∀ rd ra wa imm (s : State), let n := needR (.addi rd ra wa imm) rd ra wa
      absb = 0 → negb = 0 → decode s.slot.word2 = .ok (.addi rd ra wa imm) → n.ready s = true →
      let r := pairResult m true (fun a b => a + b) (v0 (n.vals s)) (BitVec.ofInt 64 imm.toInt)
      exec i s = .next ((((n.take s).updCur (fun x => x.orFlags (if r.2 then 0x20#6 else 0))).writeG rd r.1).retire))

/-- A modifier in front of a word that R66 does not accept, or with a field its class does not accept, is the illegal-instruction trap at
the modifier's address, without effect. -/
def Sys2Proof.Claims.IllegalPairs : Prop :=
  ∀ (rnd : BitVec 3) (scale : BitVec 6) (absb absa negb nega clamp sat : BitVec 1) (s : State),
    let m := modifierOf rnd scale absb absa negb nega clamp sat
    (∀ i, decode s.slot.word2 = .ok i → acceptsOf i = none ∨ ∃ c, acceptsOf i = some c ∧ m.fits c = false) →
    exec (.pfx rnd scale absb absa negb nega clamp sat) s = .next (s.takeTrap 0x01 0)

/-- The commands of the matrix unit (R185, R189, R197 to R202): with room in the FIFO and operands that pass the command's checks, the command
joins the FIFO with its operands and the unit is due to start it; operands that fail the first check are the matrix-operand fault
0x20, one that is no aligned address the misaligned-access fault 0x10 at it. Memory and registers stay. A command behind one
that the context has claimed waits for it (R235). -/
def Sys2Proof.Claims.MatrixCommands : Prop :=
  let room := fun s : State => s.curTile.mx.fifo.length < 8
  let pushes := fun (i : Instr) (srcs : List (BitVec 6)) (ok : State → List Word → Prop) (ga gb : List Word → Word) =>
    CompletesIf { wf := i.wf, srcs := srcs.map blk } i (fun v s => room s ∧ ok s v ∧ s.accessHeld = false) (fun v s => (s.pushCmd ((encode i).getD 0) (ga v) (gb v)).retire)
  (∀ ga gb, pushes (.mcfg ga gb) [ga, gb] (fun _ v => fld (v1 v) 0 48 = 0 ∧ fld (v0 v) 24 40 = 0 ∧ bit (v0 v) 21 = false ∧ fld (v0 v) 0 5 = 0) v0 v1) ∧
  (∀ ga gb, pushes (.munf ga gb) [ga, gb] (fun s v => fld (v1 v) 0 48 = 0 ∧ (s.spmOperand (v0 v) 32).isSome = true ∧ fld (v0 v) 0 5 = 0) v0 v1) ∧
  (∀ ga gb, pushes (.mldb ga gb) [ga, gb] (fun s v => fld (v1 v) 22 25 = 0 ∧ 1 ≤ fld (v1 v) 10 11 ∧ fld (v1 v) 10 11 ≤ 1024 ∧
      fld (v1 v) 0 10 + fld (v1 v) 10 11 ≤ (if bit (v1 v) 21 then 64 else 1024) ∧
      (bit (v1 v) 47 = false → (s.spmOperand (v0 v) (64 * fld (v1 v) 10 11)).isSome = true ∧ fld (v0 v) 0 6 = 0)) v0 v1) ∧
  (∀ acc gb, pushes (.mzero acc gb) [gb] (fun _ v => fld (v0 v) 0 48 = 0) (fun _ => 0) v0) ∧
  (∀ acc ga gb k, pushes (.mstr acc ga gb k) [ga, gb] (fun s v =>
      let z := codeWidth (k.toNat % 16) / 8
      let r := fld (v1 v) 0 16
      fld (v1 v) 22 26 = 0 ∧ r % 64 = 0 ∧ 32 * z ≤ r ∧ (s.spmOperand (v0 v) (31 * r + 32 * z)).isSome = true ∧ fld (v0 v) 0 6 = 0) v0 v1) ∧
  (∀ acc ga gb x y, pushes (.mmac acc ga gb x y) [ga, gb] (fun s v => macCheck x.toNat false (v1 v) = true ∧
      (s.spmOperand (v0 v) (64 * sliceRows x.toNat (mK (v1 v)))).isSome = true ∧ fld (v0 v) 0 6 = 0) v0 v1) ∧
  (∀ acc gb x y, pushes (.mmacu acc gb x y) [gb] (fun _ v => x ≠ 6 ∧ macCheck x.toNat true (v0 v) = true) (fun _ => 0) v0) ∧
  (∀ acc gb x y, pushes (.mmacs acc gb x y) [gb] (fun _ v => macCheck x.toNat false (v0 v) = true) (fun _ => 0) v0) ∧
  (∀ acc gb, TrapsIf { wf := (Instr.mzero acc gb).wf, srcs := [blk gb] } (.mzero acc gb) (fun v s => room s ∧ fld (v0 v) 0 48 ≠ 0) 0x20 (fun _ _ => 0)) ∧
  (∀ ga gb, TrapsIf { wf := (Instr.mmacs ga gb 0 0).wf, srcs := [blk gb] } (.mmacs ga gb 0 0) (fun v s => room s ∧ macCheck 0 false (v0 v) = false) 0x20 (fun _ _ => 0))

/-- What a pushed command leaves (R189): it is last in the FIFO, with the operands; memory, accumulators and every register stay, and the
pc is the next word's. -/
def Sys2Proof.Claims.MatrixPushFrame : Prop :=
  ∀ (s : State) (w : BitVec 32) (a b : Word), s.slot.framed = false → let t := (s.pushCmd w a b).retire
    t.curTile.mx.fifo.length = s.curTile.mx.fifo.length + 1 ∧ (∃ e, t.curTile.mx.fifo.getLast? = some e ∧ e.word = w ∧ e.ga = a ∧ e.gb = b ∧ e.state = 0) ∧
    t.curTile.mx.acc = s.curTile.mx.acc ∧ t.curTile.mx.astat = s.curTile.mx.astat ∧ t.mem = s.mem ∧ t.cur.g = s.cur.g ∧ t.cur.v = s.cur.v ∧
    t.cur.fcsr = s.cur.fcsr ∧ t.cur.pc = s.slot.addr + (if s.slot.pair then 8 else 4)

/-- The accumulators (R201): mrd reads doubleword q of an accumulator that no queued or running command names, 512 being ASTAT; mwr writes it,
and a read of the same accumulator gives it back; numbers above 512 are the fault 0x20. mpop of an empty FIFO gives zero. -/
def Sys2Proof.Claims.MatrixAccumulators : Prop :=
  (∀ acc ga gb, let i := Instr.mrd acc ga gb; let n : Need := { wf := i.wf, srcs := [blk gb], dsts := [ga] }
    CompletesIf n i (fun v s => s.curTile.mx.busy acc.toNat = false ∧ (v0 v).toNat ≤ 512) (fun v s =>
      (s.writeG ga (if (v0 v).toNat = 512 then BitVec.ofNat 64 (fget 0 s.curTile.mx.astat acc.toNat).toNat
        else s.curTile.mx.word acc.toNat (2 * (v0 v).toNat + 1) ++ s.curTile.mx.word acc.toNat (2 * (v0 v).toNat))).retire) ∧
    TrapsIf n i (fun v s => s.curTile.mx.busy acc.toNat = false ∧ 512 < (v0 v).toNat) 0x20 (fun _ _ => 0)) ∧
  (∀ acc ga gb, let i := Instr.mwr acc ga gb; let n : Need := { wf := i.wf, srcs := [blk ga, blk gb] }
    ∀ s, n.ready s = true → (n.take s).curTile.mx.busy acc.toNat = false → let q := (v1 (n.vals s)).toNat; let a := v0 (n.vals s)
      (q < 512 → ∃ t, exec i s = .next t ∧ SameBytes s t ∧ (CountersLow s 8 → t.mem = s.mem) ∧ t.cur.g = s.cur.g ∧
        t.curTile.mx.word acc.toNat (2 * q + 1) ++ t.curTile.mx.word acc.toNat (2 * q) = a ∧
        (∀ c : Nat, c < 4 → ∀ e : Nat, e < 1024 → ¬(c = acc.toNat ∧ e / 2 = q) → t.curTile.mx.word c e = s.curTile.mx.word c e)) ∧
      (q = 512 → a.toNat < 64 → ∃ t, exec i s = .next t ∧ SameBytes s t ∧ (CountersLow s 8 → t.mem = s.mem) ∧ fget 0 t.curTile.mx.astat acc.toNat = BitVec.ofNat 6 a.toNat ∧
        t.curTile.mx.acc = s.curTile.mx.acc)) ∧
  (∀ ga, ∀ s, (needD (.mpop ga) ga).ready s = true → ((needD (.mpop ga) ga).take s).curTile.mx.fifo.find? MCmd.claimable = none →
    ∃ t, ((needD (.mpop ga) ga).take s).lateResult ga 0 = .ok t ∧ exec (.mpop ga) s = .next t)

/-- msave and mrest (R203 to R205): in monitor mode, with a part number and an area that pass their checks, msave writes the part to the own
slice and mrest loads it, the unit going on with the commands of part 0; in user mode each is the privileged-instruction trap. -/
def Sys2Proof.Claims.MatrixSaveRestore : Prop :=
  (∀ ga gb, let i := Instr.msave ga gb; let n : Need := { wf := i.wf, srcs := [blk ga, blk gb], priv := true }
    CompletesIf n i (fun v s => partCheck s v = none ∧ s.accessHeld = false ∧ s.curTile.mx.quiescent = true)
      (fun v s => (s.putFields s.slot.site (addrOff (v0 v)) (s.curTile.mx.part (v1 v).toNat)).retire)) ∧
  (∀ ga gb, let i := Instr.mrest ga gb; let n : Need := { wf := i.wf, srcs := [blk ga, blk gb], priv := true }
    CompletesIf n i (fun v s => partCheck s v = none ∧ s.accessHeld = false ∧ s.curTile.mx.quiescent = true ∧
        s.uncorrectable s.slot.site (addrOff (v0 v)) (partSize (v1 v).toNat) = false ∧
        ((v1 v).toNat = 0 → part0Ok (s.spmRead s.slot.site (addrOff (v0 v)) (partSize 0)) = true))
      (fun v s =>
        let r := s.updCurTile (fun x => x.updMx (fun m => m.load (v1 v).toNat (s.spmRead s.slot.site (addrOff (v0 v)) (partSize (v1 v).toNat))
          s.curTile.mx.fifo (fun n => (s.curTile.bar n).gen) (fun c r => (s.curTile.ctx c).claimIsMon r)))
        (if (v1 v).toNat = 0 then r.wakeUnit s.slot.site else r).retire)) ∧
  ∀ (s : State) ga gb, s.cur.mon = false → (exec (.msave ga gb) s = .next (s.takeTrap (if (Instr.msave ga gb).wf then 0x02 else 0x01) 0)) ∧
    (exec (.mrest ga gb) s = .next (s.takeTrap (if (Instr.mrest ga gb).wf then 0x02 else 0x01) 0))

/-! ### Events -/

/-- A command of ring k stands next, is accepted and is well formed (R434 to R437): its bytes are on the ring, no answer to an earlier one is due, the
tag covers it and its number is the next. It is the ring's turn among those with something to serve, and no takeover has cut the command off. -/
def Sys2Proof.Claims.Served (s : State) (k code : Nat) (e : Cmd) : Prop :=
  s.pending k = some e ∧ (s.cmdRing k).waiting = false ∧ s.ringsTurn k = true ∧ (s.cmdRing k).cut = false ∧ e.code = code ∧
  (s.cmdRing k).decide_ e = .ok ∧ e.formOk k = true

/-- The state in which an accepted command runs: its ring has had its turn, and its number is taken. -/
def Sys2Proof.Claims.accepted (s : State) (k : Nat) (e : Cmd) : State := (s.takeTurn k).setCmdRing k { s.cmdRing k with acc := e.seq }

/-- An accepted command that meets p has the effect f and is answered with the status. -/
def Sys2Proof.Claims.Answers (i : Instr) (code : Nat) (p : Nat → Cmd → State → Prop) (st : Status) (f : Nat → Cmd → State → State) : Prop :=
  ∀ s e, Served s s.ev.a code e → p s.ev.a e (accepted s s.ev.a e) →
    exec i s = .next ((f s.ev.a e (accepted s s.ev.a e)).respond s.ev.a e st 0)

/-- Power and reset (R417, R453 to R455): POWER_REMOVAL, at its tick, leaves the machine unpowered, with edge memory, its tags, the groups and
the bays kept, every tile's state gone and every other byte of memory zero; WAFER_RESET acts at once; POWER_ON powers the module whatever it held before, with every bay's LED, RELEASE and LATCH zero. A thermal report brings the values measured, and THERM changes only
as the table of R454 says: to alert while the inlet is above 45 °C, the flow below 81 L/min or a feed lost; back once none of these has held for 60 s, and not before; to shutdown when the outlet has been above
55 °C or the flow below 60 L/min for 5 s, or both feeds are lost, which adds the host cause to every region, the ones being created among them, and removes the power 2 × 10^9 ticks later. Ticks are 1 ns. -/
def Obligations.PowerEvents : Prop :=
  (∀ s : State, s.ev.a ≤ s.tick → exec .powerRemoval s = .next s.unpowered) ∧
  (∀ s : State, s.unpowered.module.powered = false ∧ s.unpowered.tiles = [] ∧ s.unpowered.clusters = [] ∧ s.unpowered.regions = [] ∧
    s.unpowered.groups = s.groups ∧ s.unpowered.bays = s.bays ∧ s.unpowered.tags = s.tags ∧
    (∀ k, Memory.byte s.unpowered.mem k = if edgeKey 0 ≤ k ∧ k < sysKey 0 then Memory.byte s.mem k else 0)) ∧
  (∀ s : State, exec .waferReset s = .next s.waferReset) ∧
  (∀ s : State, ∃ t, exec .powerOn s = .next t ∧ t.module.powered = true) ∧
  (∀ s t : State, exec .powerOn s = .next t → ∀ b, (t.bay b).led = false ∧ (t.bay b).release = false ∧ (t.bay b).latch = false) ∧
  (∀ (s : State) v, (s.setTherm v).module.therm = v) ∧
  (∀ s : State, s.ev.flag = true → s.report = s) ∧
  (∀ s : State, s.ev.flag = false → let x := s.report.module
    x.inlet = fld s.ev.w 24 8 ∧ x.outlet = fld s.ev.w 16 8 ∧ x.flow = fld s.ev.w 8 8 ∧ x.feedA = bit s.ev.w 4 ∧ x.feedB = bit s.ev.w 5 ∧
    x.therm = s.module.therm ∧ s.report.mem = s.mem ∧ s.report.regions = s.regions ∧
    (x.clearSince = none ↔ 45 < x.inlet ∨ x.flow < 81 ∨ x.feedA = false ∨ x.feedB = false) ∧
    (x.hotSince = none ↔ ¬(55 < x.outlet ∨ x.flow < 60)) ∧
    (∀ c, x.clearSince = some c → c = s.module.clearSince.getD s.tick) ∧ (∀ c, x.hotSince = some c → c = s.module.hotSince.getD s.tick)) ∧
  (∀ s : State, let r := s.report
    (r.module.therm = 0 → (45 < r.module.inlet ∨ r.module.flow < 81 ∨ r.module.feedA = false ∨ r.module.feedB = false) →
      exec .thermalAlert s = .next (r.setTherm 1)) ∧
    (r.module.therm ≠ 0 ∨ (r.module.inlet ≤ 45 ∧ 81 ≤ r.module.flow ∧ r.module.feedA = true ∧ r.module.feedB = true) → exec .thermalAlert s = .next r)) ∧
  (∀ s : State, let r := s.report
    (∀ c, r.module.therm = 1 → r.module.clearSince = some c → c + 60000000000 ≤ r.tick → exec .thermalNormal s = .next (r.setTherm 0)) ∧
    (r.module.therm ≠ 1 ∨ r.module.clearSince = none → exec .thermalNormal s = .next r) ∧
    (∀ c, r.module.therm = 1 → r.module.clearSince = some c → r.tick < c + 60000000000 → s.ev.flag = false →
      exec .thermalNormal s = .next (r.later .thermalNormal { s.ev with flag := true })) ∧
    (∀ c, r.module.therm = 1 → r.module.clearSince = some c → r.tick < c + 60000000000 → s.ev.flag = true → exec .thermalNormal s = notYet r)) ∧
  (∀ s : State, let r := s.report
    (r.module.therm < 2 → ((r.module.feedA = false ∧ r.module.feedB = false) ∨ ∃ c, r.module.hotSince = some c ∧ c + 5000000000 ≤ r.tick) →
      exec .thermalShutdown s = .next (((r.setTherm 2).regions.foldl (fun q e =>
        if e.2.state = 1 then q.updRegion e.1 (fun x => { x with causes := x.causes ||| 1 }) else q.addCause1 e.1 0 0) (r.setTherm 2)).later
        .powerRemoval { a := r.tick + 2000000000 })) ∧
    (2 ≤ r.module.therm ∨ ((r.module.feedA = true ∨ r.module.feedB = true) ∧ r.module.hotSince = none) → exec .thermalShutdown s = .next r))

/-- Sites (R7, R16, R88 to R96, R410, R417, R418, R456): a tile reset clears the tile and loads the monitor; a death, a fence and a retest change the site's state, a site whose
name another backs becoming spare; a dead or excluded site meets neither reset nor death; the second heartbeat missed in a row is a death; a valid rehome word of a stopped region puts a spare site behind a name; a word
without V is stored, and where it clears a valid word the region must be stopped and its tiles read their neighbours again (that it is refused otherwise is the model's choice, log entry 105);
the registers of REGISTER_WRITE take their fields, BAY both of its own; a failed island passes its regions to another; a tile that has drained leaves its region, for none or for the region that takes it. -/
def Obligations.SiteEvents : Prop :=
  (∀ s : State, s.siteState s.ev.a = .dead ∨ s.siteState s.ev.a = .excluded → exec .tileReset s = .next s ∧ exec .tileDeath s = .next s) ∧
  (∀ s : State, s.siteState s.ev.a ≠ .dead → s.siteState s.ev.a ≠ .excluded → exec .tileReset s = .next ((s.tileLost s.ev.a false).loadMonitor s.ev.a)) ∧
  (∀ s : State, s.siteState s.ev.a ≠ .dead → s.siteState s.ev.a ≠ .excluded → exec .tileDeath s =
    .next ((s.setSite s.ev.a { s.site s.ev.a with state := some .dead }).tileLost s.ev.a true)) ∧
  (∀ s : State, s.ev.flag = true → exec .tileHeartbeat s = .next (s.setSite s.ev.a { s.site s.ev.a with missed := 0 })) ∧
  (∀ s : State, s.ev.flag = false → exec .tileHeartbeat s =
    let t := s.setSite s.ev.a { s.site s.ev.a with missed := (s.site s.ev.a).missed + 1 }
    .next (if (s.site s.ev.a).missed = 0 then t else t.die s.ev.a)) ∧
  (∀ s : State, s.siteState s.ev.a = .free ∨ s.siteState s.ev.a = .spare →
    exec .siteFence s = .next (s.setSite s.ev.a { s.site s.ev.a with state := some .fenced })) ∧
  (∀ s : State, let x := s.tile s.ev.a
    s.siteState s.ev.a = .fenced → (s.site s.ev.a).withMap.noGrade = false →
    marchBankx ((s.site s.ev.a).marchStatus (x.rfbad != 0 || fget 0 x.reptab 0 != 0 || fget 0 x.reptab 1 != 0)) = 0 → exec .serviceRetest s =
    .next ((s.setSite s.ev.a { s.site s.ev.a with
      state := some (if (s.logicalOf s.ev.a).isSome ∧ s.rehomedAway s.ev.a = false then .free else .spare), cec := 0, degrade := false, missed := 0 }).gradeSite s.ev.a)) ∧
  (∀ s : State, s.ev.b < 8 → let x := s.region s.ev.a; let t := s.setRegion s.ev.a { x with rhm := fset 0 x.rhm s.ev.b (s.ev.w &&& rehomeMask) }
    x.state ≠ 0 → bit s.ev.w 63 = false →
    (bit (fget 0 x.rhm s.ev.b) 63 = false → exec .rehomeWrite s = .next t) ∧
    (bit (fget 0 x.rhm s.ev.b) 63 = true → x.state = 3 → x.stopped = true → exec .rehomeWrite s = .next (t.reloadRegion s.ev.a)) ∧
    (bit (fget 0 x.rhm s.ev.b) 63 = true → x.state ≠ 3 ∨ x.stopped = false → exec .rehomeWrite s = .next s)) ∧
  (∀ s : State, s.ev.b = 0 → exec .registerWrite s = .next (s.setIsland s.ev.a { s.island s.ev.a with cethr := fld s.ev.w 0 8 })) ∧
  (∀ s : State, s.ev.b = 1 → exec .registerWrite s = .next { s with module := { s.module with waferNo := fld s.ev.w 0 4 } }) ∧
  (∀ s : State, 64 ≤ s.ev.b → s.ev.b < 128 → let x := s.bay (s.ev.b - 64)
    (x.group = 255 ∨ (s.group x.group).role = 0 →
      exec .registerWrite s = .next (s.setBay (s.ev.b - 64) { x with led := bit s.ev.w 1, release := bit s.ev.w 2, latch := bit s.ev.w 2 && !x.scrub })) ∧
    (x.group ≠ 255 → (s.group x.group).role ≠ 0 →
      exec .registerWrite s = .next (s.setBay (s.ev.b - 64) { x with led := bit s.ev.w 1, release := false, latch := false }))) ∧
  (∀ s : State, let x := s.region s.ev.a; let v := s.ev.w &&& rehomeMask
    let col := fld v 24 8; let row := fld v 32 8; let u := 640 * fld v 18 6 + 32 * fld v 0 5 + fld v 10 5
    s.ev.b < 8 → x.state = 3 → x.stopped = true → bit v 63 = true → fld v 18 6 < 36 → fld v 0 5 < 20 → s.siteState u = .spare → col < x.w → row < x.h →
    ({ x with rhm := fset 0 x.rhm s.ev.b 0 } : Region).rehomed col row = none →
    (s.setRegion s.ev.a { x with rhm := fset 0 x.rhm s.ev.b v, holes := x.holes.filter (· != row * x.w + col) }).tooFar s.ev.a col row = false →
    ∃ t, exec .rehomeWrite s = .next t ∧ (t.site u).state = some .assigned ∧ (t.tile u).region = s.ev.a ∧ (t.tile u).col = col ∧ (t.tile u).row = row ∧
      (t.tile u).held = true) ∧
  (∀ s : State, (s.island s.ev.a).failed = false → exec .islandFailure s =
    .next ((s.regions.filter (fun e => e.2.home == s.ev.a && e.2.state != 0)).foldl (fun t e =>
      let h := t.homeIsland e.2
      ((t.updRegion e.1 (fun x => { x with home := h })).addCause1 e.1 6 0).event e.1 0x49 0 0 0 0 0 (BitVec.ofNat 64 s.ev.a) (BitVec.ofNat 64 h))
      (s.setIsland s.ev.a { s.island s.ev.a with failed := true, pcieUp := false }))) ∧
  (∀ s : State, (s.tile s.ev.a).leaving = some 0 → Nat.max (s.tile s.ev.a).scrubEnd ((s.tile s.ev.a).dmax + 2 * epsilon) ≤ s.nowAt s.ev.a →
    ∃ t, exec .tileRelease s = .next t ∧ (t.tile s.ev.a).region = 0 ∧ (t.tile s.ev.a).leaving = none ∧ (t.tile s.ev.a).ctxs = []) ∧
  (∀ (s : State) (g : Nat), let x := s.tile s.ev.a
    x.leaving = some g → g ≠ 0 → g ≠ x.region → (s.region x.region).state ≠ 4 → (s.region x.region).state ≠ 5 → Nat.max x.scrubEnd (x.dmax + 2 * epsilon) ≤ s.nowAt s.ev.a →
    ∃ t, exec .tileRelease s = .next t ∧ (t.tile s.ev.a).region = g ∧ (t.tile s.ev.a).leaving = none ∧ (t.tile s.ev.a).ctxs = [] ∧
      (t.tile s.ev.a).col = (s.region x.region).col0 + x.col - (s.region g).col0 ∧ (t.tile s.ev.a).row = (s.region x.region).row0 + x.row - (s.region g).row0 ∧
      (t.tile s.ev.a).held = decide ((s.region g).state = 1))

/-- The chronometers (R257, R274 to R277): setting gives the value and the locked state; the discipline corrects by the error measured and
brings the field to holdover where the error passes ε, with what its buffers hold dropped at each such error, which for a copy that is held it goes on doing until all but ε of the hold has
passed; after 10^6 good ticks the field is locked again; a translation whose lease has
ended leaves the buffers, no other state changing. -/
def Obligations.ClockEvents : Prop :=
  (∀ s : State, (s.field s.ev.a).state = 0 → exec .chronometerSet s =
    .next (s.setField s.ev.a { state := 1, base := s.ev.b % 2 ^ 64, since := s.tick, holdFor := 0, goodSince := s.tick }).regulated) ∧
  (∀ s : State, (s.regulated = s ∧ ∃ a ∈ s.agenda, a.1 = .regulatorPeriod) ∨ s.regulated = s.later .regulatorPeriod {}) ∧
  (∀ s : State, (s.field s.ev.a).state = 2 → epsilon < s.ev.i.natAbs → exec .chronometerDiscipline s =
    let t := (s.steer s.ev.a s.ev.i).setField s.ev.a { (s.steer s.ev.a s.ev.i).field s.ev.a with
      state := 2, goodSince := (s.steer s.ev.a s.ev.i).tick + (s.ev.i.toNat - epsilon) }
    .next (t.dropField s.ev.a)) ∧
  (∀ s : State, (s.field s.ev.a).state ≠ 0 → s.ev.i.natAbs ≤ epsilon → exec .chronometerDiscipline s =
    let t := s.steer s.ev.a s.ev.i
    .next (t.setField s.ev.a { t.field s.ev.a with goodSince := min (t.field s.ev.a).goodSince t.tick })) ∧
  (∀ s : State, (s.field s.ev.a).state = 1 → epsilon < s.ev.i.natAbs → exec .chronometerDiscipline s =
    let t := (s.steer s.ev.a s.ev.i).setField s.ev.a { (s.steer s.ev.a s.ev.i).field s.ev.a with
      state := 2, goodSince := (s.steer s.ev.a s.ev.i).tick + (s.ev.i.toNat - epsilon) }
    .next (((t.dropField s.ev.a).siteEvent s.ev.a 0x4B (BitVec.ofInt 64 s.ev.i) (BitVec.ofNat 64 s.ev.a)).later .clockRestored { a := s.ev.a })) ∧
  (∀ s : State, (s.field s.ev.a).state = 2 → (s.field s.ev.a).goodSince + 1000000 ≤ s.tick →
    exec .clockRestored s = .next ((s.setField s.ev.a { s.field s.ev.a with state := 1 }).siteEvent s.ev.a 0x4C 0 (BitVec.ofNat 64 s.ev.a))) ∧
  (∀ s : State, ∃ t, exec .translationExpiry s = .next t ∧ t.mem = s.mem ∧ t.regions = s.regions ∧ t.fields = s.fields ∧ t.agenda = s.agenda ∧
    (let now := s.now (fieldOfCluster s.ev.a)
     (t.cluster s.ev.a).l2 = (s.cluster s.ev.a).l2.filter (fun e => decide (now < e.deadline)) ∧
     (t.cluster s.ev.a).wc = (s.cluster s.ev.a).wc.filter (fun e => decide (now < e.deadline)) ∧
     ∀ u, (t.tile u).dtlb = if s.clusterOf u = s.ev.a then (s.tile u).dtlb.filter (fun e => decide (now < e.deadline)) else (s.tile u).dtlb))

/-- Translation (R255, R259 to R262, R266): the cluster's second level answers a request it holds and passes any other to a walker; the first
waiting request takes the lowest free walker; a walker reads one entry a step, stage 1's tables through stage 2, and stops at an entry that
is not valid, with the cause, the stage, the level and the entry's address; a table read after the lease of the stage-2 entry that led to it has ended is
made through stage 2 again; the walker cache takes what points to a table, and stage 2's result for one; RETRY lets the waiting context run again, and FAIL gives it
its fault, each sealed on its way as a message is. -/
def Obligations.TranslationEvents : Prop :=
  (∀ s va kind e, s.wanted s.ev.a s.ev.b = some (va, kind) → (s.tile s.ev.a).held = false → let k := s.busOf s.ev.a; let x := s.cluster k
    tlbFind x.l2 (s.tile s.ev.a).region (s.nowAt s.ev.a) va kind = some e → exec .l2TlbLookup s =
      .next ((s.setCluster k { x with l2 := e :: x.l2.filter (fun y => y != e) }).giveXlate s.ev.a s.ev.b e true)) ∧
  (∀ s va kind, s.wanted s.ev.a s.ev.b = some (va, kind) → (s.tile s.ev.a).held = false → let k := s.busOf s.ev.a; let x := s.cluster k
    tlbFind x.l2 (s.tile s.ev.a).region (s.nowAt s.ev.a) va kind = none → exec .l2TlbLookup s =
      .next ((s.setCluster k { x with waiting := x.waiting ++ [(s.ev.a, s.ev.b)] }).later .walk { a := s.ev.a, b := s.ev.b })) ∧
  (∀ s va kind n, s.wanted s.ev.a s.ev.b = some (va, kind) → let k := s.busOf s.ev.a; let x := s.cluster k
    x.waiting.head? = some (s.ev.a, s.ev.b) → (List.range 8).find? (fun n => !(fget {} x.walkers n).busy) = some n →
    ∃ t, exec .walk s = .next t ∧ (t.cluster k).waiting = x.waiting.drop 1 ∧ t.mem = s.mem ∧
      t.agenda = s.agenda ++ [(Instr.walkerRead, ({ a := k, b := n } : EvArgs))] ∧
      (let w := fget {} (t.cluster k).walkers n
       w.busy = true ∧ w.site = s.ev.a ∧ w.who = s.ev.b ∧ w.va = va ∧ w.kind = kind ∧ w.region = (s.tile s.ev.a).region ∧ w.phase = 0 ∧
       w.t1 = (s.region w.region).s1root ∧ w.t2 = (s.region w.region).s2root ∧ w.l1 = 4 ∧ w.l2 = 4)) ∧
  (∀ s, let k := s.ev.a; let n := s.ev.b; let w := fget {} (s.cluster k).walkers n
    w.busy = true → w.phase = 1 → let ipa := w.t1 + 8 * tableIndex w.va w.l1; let read := s.readEntry k w 1 ipa w.tpa w.tmir (keepEntry 1 w.l1 true)
    (∀ r w1, read = .again w1 r → exec .walkerRead s = notYet (r.setCluster k { r.cluster k with walkers := fset {} (r.cluster k).walkers n w1 })) ∧
    (read = .stale → exec .walkerRead s = s.walkOn k n { w with phase := 0, l2 := 4, t2 := (s.region w.region).s2root, tdl := 2 ^ 64 }) ∧
    (read = .wait → exec .walkerRead s = notYet s) ∧
    (read = .error → exec .walkerRead s = s.walkEnd k n w 5 1 w.l1 ipa none) ∧
    (∀ e d w1 r, read = .got e d w1 r → entryOf 1 w1.l1 e = .invalid →
      exec .walkerRead s = r.walkEnd k n (w1.use 1 w1.l1 ipa d (teLs e = 0)) 1 1 w1.l1 ipa none) ∧
    (∀ e d w1 r a, read = .got e d w1 r → entryOf 1 w1.l1 e = .table a →
      exec .walkerRead s = r.walkOn k n { w1.use 1 w1.l1 ipa d (teLs e = 0) with
        phase := 0, l1 := w1.l1 - 1, t1 := a, l2 := 4, t2 := (r.region w1.region).s2root, tdl := 2 ^ 64 }) ∧
    (∀ e d w1 r, read = .got e d w1 r → entryOf 1 w1.l1 e = .leaf →
      exec .walkerRead s = r.walkOn k n { w1.use 1 w1.l1 ipa d (teLs e = 0) with
        phase := 2, leaf1 := e, leafLvl := w1.l1, ipa := leafAddr e w1.va, l2 := 4, t2 := (r.region w1.region).s2root })) ∧
  (∀ (s : State) k w stage addr pa mir keep e d w1 r, s.readEntry k w stage addr pa mir keep = .got e d w1 r →
    w1.va = w.va ∧ w1.l1 = w.l1 ∧ w1.l2 = w.l2 ∧ w1.region = w.region ∧ (∀ k, k < sysKey 0 → Memory.byte r.mem k = Memory.byte s.mem k) ∧
    r.regions = s.regions) ∧
  (∀ stage lvl tbl e, keepEntry stage lvl tbl e = true ↔ (∃ a, entryOf stage lvl e = .table a) ∨ (entryOf stage lvl e = .leaf ∧ stage = 2 ∧ tbl = true)) ∧
  (∀ s g, s.sealHitBack s.ev.a (.island (s.homeOf s.ev.a)) = some g →
    exec .retryReply s = notYet (s.countCec g 1) ∧ exec .failReply s = notYet (s.countCec g 1)) ∧
  (∀ s c, (s.tile s.ev.a).held = false → (s.tile s.ev.a).faultWaiter s.ev.b = some c → s.sealHitBack s.ev.a (.island (s.homeOf s.ev.a)) = none →
    let q := s.numberBack s.ev.a (.island (s.homeOf s.ev.a))
    exec .retryReply s = .next (q.updCtx s.ev.a c (fun y => { y with state := .live, xlate := .none, faulted := false })) ∧
    exec .failReply s = .next (q.updCtx s.ev.a c (fun y => { y with
      state := .live, xlate := .none, faulted := false, dueFault := some (if fld s.ev.w 0 8 < 0xC0 then 0xC0 else BitVec.ofNat 8 (fld s.ev.w 0 8), y.faultAddr) })))

/-- Requests and their replies (R212, R216, R219, R226, R254, R258, R288, R317, R324, R487): a request in flight whose seal every gate on
its way opens acts at the tile or the memory it names in one step, in its turn, and is answered with its data or its error, a store that
cannot be performed being discarded and told to the home island; the reply gives the entry free and is delivered; an acknowledgement gives
the entry free; an edge request waits at its port until the region's slot, is turned away where its lease has too little time left or the
field's clock is not trusted, and by a frame under another key, with an event beside the mark or the record; words read behind a port are served from a copy
without an uncorrectable error, and their correctable errors count. -/
def Obligations.RequestEvents : Prop :=
  (∀ s e u, s.flying s.ev.a s.ev.b = some e → e.dst = .tile u → s.sealHit s.ev.a e.dst = none → (s.tile s.ev.a).q.inTurn e = true →
    (∀ k j x, e.sink ≠ .vec k j false x) →
    (∀ a n, e.body = .load a n → s.uncorrectable u (addrOff a) n = false → exec .remoteRequest s =
      .next ((s.countCec u (s.correctables u (addrOff a) n)).answered s.ev.a e { data := s.spmRead u (addrOff a) n })) ∧
    (∀ a n, e.body = .load a n → s.uncorrectable u (addrOff a) n = true → exec .remoteRequest s = .next (s.answered s.ev.a e { code := 0x16 })) ∧
    (∀ a n d, e.body = .store a n d → exec .remoteRequest s = .next (if s.storeBlocked u (addrOff a) n
      then (s.storeError u s.ev.a e 0x16).answered s.ev.a e {} else (s.spmStore u (addrOff a) n d).answered s.ev.a e {})) ∧
    (∀ a m d, e.body = .row a m d → exec .remoteRequest s = .next (if s.rowBlocked u (addrOff a) m
      then (s.storeError u s.ev.a e 0x16).answered s.ev.a e {} else (s.rowStore u (addrOff a) m d).answered s.ev.a e {})) ∧
    (∀ a n op b c, e.body = .atomic a n op b c → s.uncorrectable u (addrOff a) n = false → exec .remoteRequest s =
      let old := s.spmRead u (addrOff a) n
      let r := amoNew op n old b.toNat c.toNat
      let s' := s.countCec u (s.correctables u (addrOff a) n)
      .next ((match r.1 with | some v => s'.spmPut u (addrOff a) n v | none => s').answered s.ev.a e { data := old, flags := r.2 }))) ∧
  (∀ s e u k j x a n, s.flying s.ev.a s.ev.b = some e → e.dst = .tile u → s.sealHit s.ev.a e.dst = none → (s.tile s.ev.a).q.inTurn e = true →
    e.sink = .vec k j false x → e.body = .load a n → let l := s.needsOf s.ev.a e (addrOff a) n
    exec .remoteRequest s = if s.needBad u l then .next (s.answered s.ev.a e { code := 0x16 })
      else .next ((s.needCount u l).answered s.ev.a e { data := s.spmRead u (addrOff a) n })) ∧
  (∀ s e u, s.answeredEntry s.ev.a s.ev.b = some e → e.dst = .tile u → (s.tile s.ev.a).held = false → s.sealHitBack s.ev.a e.dst = none ∨ e.code = 0x32 →
    exec .remoteReply s = .next ((s.freeEntry s.ev.a e.id).deliver s.ev.a { e with backFails := 0 })) ∧
  (∀ s e pa, s.answeredEntry s.ev.a s.ev.b = some e → e.dst = .edge pa → s.sealHitBack s.ev.a e.dst = none ∨ e.code = 0x32 →
    exec .remoteReply s = .next ((s.freeEntry s.ev.a e.id).deliver s.ev.a { e with backFails := 0 })) ∧
  (∀ s e g pa, s.answeredEntry s.ev.a s.ev.b = some e → e.dst = .edge pa → e.code ≠ 0x32 → s.sealHitBack s.ev.a e.dst = some g → e.backFails < 2 →
    exec .remoteReply s = notYet ((s.countCec g 1).setEntry s.ev.a { e with backFails := e.backFails + 1 })) ∧
  (∀ s e, s.entry s.ev.a s.ev.b = some e → (∀ tag d acc ack, e.body ≠ .elems tag d acc ack) → e.state = .done → (s.tile s.ev.a).held = false → e.code = 0 →
    s.sealHitBack s.ev.a e.dst = none → (∀ c o n, e.sink ≠ .xfer c o n) →
    exec .acknowledgement s = .next ((s.freeEntry s.ev.a e.id).releaseHeld s.ev.a e.body.vc e.dst)) ∧
  (∀ s e a n d, s.entry s.ev.a s.ev.b = some e → e.body = .store a n d → e.state = .done → (s.tile s.ev.a).held = false → e.code ≠ 0 →
    s.sealHitBack s.ev.a e.dst = none ∨ e.code = 0x32 → (∀ c o n, e.sink ≠ .xfer c o n) →
    exec .acknowledgement s = .next (((s.freeEntry s.ev.a e.id).storeError s.ev.a s.ev.a { e with backFails := 0 } e.code.toNat).releaseHeld s.ev.a e.body.vc e.dst)) ∧
  (∀ s e pa p, s.flying s.ev.a s.ev.b = some e → e.dst = .edge pa → s.sealHit s.ev.a e.dst = none → s.arrivalPort e pa = some p →
    ((s.field (s.portField p)).state = 2 ∨ e.deadline ≤ s.now (s.portField p) + 420 → exec .edgePortArrival s =
      .next ((s.setEntry s.ev.a { e with state := .refused }).sendBack s.ev.a e.dst .edgeRefusal { a := s.ev.a, b := e.id })) ∧
    ((s.field (s.portField p)).state ≠ 2 → s.now (s.portField p) + 420 < e.deadline → (s.tile s.ev.a).q.inTurn e = true → exec .edgePortArrival s =
      .next ((s.setEntry s.ev.a { e with state := .atPort }).later .edgeSlotSend { a := s.ev.a, b := e.id }))) ∧
  (∀ s e pa p, s.entry s.ev.a s.ev.b = some e → e.state = .atPort → e.dst = .edge pa → s.arrivalPort e pa = some p → paWafer pa = s.module.waferNo →
    ((∀ k < 64, (s.port p).mayUse (s.tile s.ev.a).region k = false) → exec .edgeSlotSend s = .next (s.answered s.ev.a e { code := 0x31 })) ∧
    (s.portRefuses p e = false → s.portUp p = true → s.copiesAnswer e pa = true →
      (s.port p).mayUse (s.tile s.ev.a).region (s.now (s.portField p) / 8 % 64) = true →
      exec .edgeSlotSend s = .next (s.later .moduleAccess { a := s.ev.a, b := e.id }))) ∧
  (∀ s e, s.entry s.ev.a s.ev.b = some e → e.wantsXlate = true → (s.tile s.ev.a).held = false → e.code = 0 → s.sealHitBack s.ev.a e.dst = none →
    exec .edgeRefusal s = .next ((s.updTile s.ev.a (fun x => { x with
      dtlb := x.dtlb.filter (fun y => !y.covers e.body.va)
      itlb := if e.kind = 3 then x.itlb.filter (fun y => !y.covers e.body.va) else x.itlb })).later
      .l2TlbLookup { a := s.ev.a, b := whoRetained e.id })) ∧
  (∀ s e pa p, s.entry s.ev.a s.ev.b = some e → e.state = .atPort → e.dst = .edge pa → paWafer pa = s.module.waferNo → e.mirrored = false →
    s.servingPort pa = some p → s.now (s.portField p) < e.deadline →
    ((s.tag (pa / 4096)).kid = e.kid → (s.tag (pa / 4096)).locked = false →
      (∀ a n, e.body = .load a n → (∀ k j x, e.sink ≠ .vec k j false x) → (s.group (paGroup pa)).answering = true → 0 < n →
        (s.memBad (edgeKey pa) n = false → exec .moduleAccess s =
          .next ((s.countWords [pa] (memWords (edgeKey pa) n)).answered s.ev.a e { data := s.memRead (edgeKey pa) n })) ∧
        (s.memBad (edgeKey pa) n = true → exec .moduleAccess s = .next (s.answered s.ev.a e { code := 0x16 }))) ∧
      (∀ a n d, e.body = .store a n d →
        (s.memBad (edgeKey pa) n = false → exec .moduleAccess s =
          .next (((s.countWords [pa] (partWords (edgeKey pa) n)).memStore (edgeKey pa) n d).answered s.ev.a e {})) ∧
        ((partWords (edgeKey pa) n).any (fun k => s.eccAt k == 66) = true → exec .moduleAccess s =
          .next ((s.storeError s.ev.a s.ev.a e 0x16).answered s.ev.a e {})))) ∧
    ((s.tag (pa / 4096)).kid ≠ e.kid ∨ (s.tag (pa / 4096)).locked = true → ∀ a n d,
      (e.body = .store a n d → e.sink.isEngine = false → exec .moduleAccess s = .next (s.answered s.ev.a e { code := 0x15 })) ∧
      (e.body = .load a n ∨ (e.body = .store a n d ∧ e.sink.isEngine = true) → exec .moduleAccess s =
        .next ((s.tileEvent s.ev.a 0x15 0 0 0 e.body.target (BitVec.ofNat 64 (e.kid + 2 ^ 16 * (s.tag (pa / 4096)).kid))).answered s.ev.a e { code := 0x15 })))) ∧
  (∀ (s : State) pa ks, (∀ k ∈ ks, s.eccAt k = 0) → (∀ k ∈ ks, k % 8 = 0) → s.countWords [pa] ks = s) ∧
  (∀ (s : State) copies k pa, s.goodCopy copies k = some pa → pa ∈ copies ∧ s.memBad (inCopy copies k pa) 1 = false) ∧
  (∀ s e pa p, s.entry s.ev.a s.ev.b = some e → e.state = .atPort → e.dst = .edge pa → s.arrivalPort e pa = some p →
    e.deadline ≤ s.now (s.portField p) → exec .moduleAccess s =
      .next ((s.setEntry s.ev.a { e with state := .refused }).sendBack s.ev.a e.dst .edgeRefusal { a := s.ev.a, b := e.id }))

/-- Messages (R288, R289, R292, R295, R300, R301, R407): an arriving message joins its port, stores its payload, or waits for its handler's
context, and is acknowledged; a tile that is halted or full, or that has refused an earlier one of its source, sends it back, and it is
injected again in its turn; a fired send goes when it may, each of its messages once; a handler's context starts with the message in its registers; events are written
to their rings, a tile's own after a way on which it is sealed and counted like a message (R317, R430). -/
def Obligations.MessageEvents : Prop :=
  (∀ (s : State) t u n e, (s.tile u).halted = true ∨ (s.tile t).q.firstOf e = false ∨ 1024 < (s.tile u).q.used + n → s.turnsAway t u n e = true) ∧
  (∀ (s : State) t u n e, (s.tile u).halted = false → (s.tile t).q.firstOf e = true → (s.tile u).q.used + n ≤ 1024 → (s.tile u).held = false →
    s.turnsAway t u n e = false) ∧
  (∀ s e u h p, s.flying s.ev.a s.ev.b = some e → e.body = .msg h p → e.dst = .tile u → s.sealHit s.ev.a e.dst = none →
    (s.turnsAway s.ev.a u 0 e = false → exec .putMessage s =
      .next (((p.zipIdx.foldl (fun s x => s.spmStore u (8 * fld h 104 18 + 8 * x.2) 8 x.1.toNat) s).countIf u h e.stamp).accept s.ev.a e)) ∧
    (s.turnsAway s.ev.a u e.flits e = false → exec .amMessage s =
      .next (((s.updTile u (fun x => x.updQ (fun q => { q with
        used := q.used + e.flits
        dispatchQ := q.dispatchQ ++ [{ kind := 0, hidx := fld h 104 6, hdr := h, payload := p, slots := e.flits, stamp := e.stamp }] }))).later
        .dispatch { a := u }).accept s.ev.a e)) ∧
    (∀ k, s.turnsAway s.ev.a u e.flits e = false → (s.tile u).q.portFor 2 (fld h 104 8) = some k → exec .portMessage s =
      .next ((((s.updTile u (fun x => x.updQ (fun q => { q with used := q.used + e.flits }))).updTile u (fun x => x.updQ (fun q => q.joinPort k
        { kind := 2, hdr := h, payload := p, slots := e.flits, stamp := e.stamp }))).countIf u h e.stamp).accept s.ev.a e)) ∧
    (s.turnsAway s.ev.a u e.flits e = true → exec .amMessage s = .next (s.refuse s.ev.a e) ∧ exec .portMessage s = .next (s.refuse s.ev.a e))) ∧
  (∀ s e h p i, s.flying s.ev.a s.ev.b = some e → e.body = .msg h p → e.dst = .island i → s.sealHit s.ev.a e.dst = none →
    s.islandDown (s.homeOf s.ev.a) = false → (s.tile s.ev.a).q.firstOf e = true → s.vc6Turn s.ev.a e.id = true →
    ((s.tile s.ev.a).region = 0 → exec .hostMessage s = .next ((s.bootMessage (s.homeOf s.ev.a) s.ev.a h p).accept s.ev.a e)) ∧
    ((s.tile s.ev.a).region ≠ 0 → (s.ring (hostRing (s.tile s.ev.a).region)).full = true → exec .hostMessage s = .next (s.refuse s.ev.a e)) ∧
    ((s.tile s.ev.a).region ≠ 0 → (s.ring (hostRing (s.tile s.ev.a).region)).full = false → exec .hostMessage s =
      .next (((s.ringWrite (hostRing (s.tile s.ev.a).region) (h.toNat + p.zipIdx.foldl (fun acc x => acc + x.1.toNat * 2 ^ (128 + 64 * x.2)) 0)).interruptRegion
        (s.tile s.ev.a).region 1).accept s.ev.a e))) ∧
  (∀ s e, s.flying s.ev.a s.ev.b = some e → s.sealHitBack s.ev.a e.dst = none → e.code = 0 → exec .messageRefusal s =
    if (s.tile s.ev.a).q.firstOf e
    then .next ((s.setEntry s.ev.a { e with backFails := 0, state := .refused, again := true }).later .refusedReinject { a := s.ev.a, b := e.id })
    else .next (s.setEntry s.ev.a { e with backFails := 0, state := .held })) ∧
  (∀ s e, s.entry s.ev.a s.ev.b = some e → e.state = .refused → e.body.isQueued = true → (s.tile s.ev.a).stopping = false → exec .refusedReinject s =
    if (s.tile s.ev.a).q.firstOf e then .next (s.launch s.ev.a e) else .next (s.setEntry s.ev.a { e with state := .held })) ∧
  (∀ s f, (s.tile s.ev.a).q.fired.find? (s.tile s.ev.a).mayFire = some f → exec .triggeredSendInject s =
    let t := s.updTile s.ev.a (fun x => x.updQ (fun q => { q with fired := q.fired.erase f }))
    .next (((s.tile s.ev.a).firedOf f).foldl (fun q e => match q.entry s.ev.a e.id with
      | some y => if y.state = .held ∨ y.state = .formed then q.release s.ev.a y else q
      | none => q) t)) ∧
  (∀ s e rest, s.events = e :: rest → s.eventRoom e = true → (∀ t, e.src = some t → s.vc6Turn t e.seq = true) →
    let write := fun q : State =>
      let t := { q with events := q.events.eraseIdx 0 }
      let r := t.ringWrite e.ring e.entry.toNat
      if e.region = 0 then r.interruptHyp e.island else r.interruptRegion e.region 0
    (e.src = none → exec .eventMessage s = .next (write s)) ∧
    (∀ t q, e.src = some t → s.vc6Enter t (s.eventIsland e) = .ok q → exec .eventMessage s = .next (write q)) ∧
    (∀ t q, e.src = some t → s.vc6Enter t (s.eventIsland e) = .error q → exec .eventMessage s = notYet q)) ∧
  (∀ (s : State) t i, (∀ g, s.sealSpent t (.island i) = false → s.sealHit t (.island i) = some g → s.vc6Enter t i = .error (s.countCec g 1)) ∧
    (s.sealSpent t (.island i) = true → s.vc6Enter t i = .error s) ∧
    (s.sealSpent t (.island i) = false → s.sealHit t (.island i) = none → s.vc6Enter t i =
      .ok ((s.updTile t (fun x => { x with counts := fset 0 x.counts 9 (fget 0 x.counts 9 + 1) })).numberOut t (.island i)))) ∧
  (∀ s i rest n, (s.tile s.ev.a).q.dispatchQ = i :: rest → (s.tile s.ev.a).q.isSealed = false → (s.tile s.ev.a).stopping = false → (s.tile s.ev.a).halted = false →
    (s.tile s.ev.a).exited = false → (s.tile s.ev.a).highFree = some n → let w := fget 0 (s.tile s.ev.a).q.handlers i.hidx
    (i.kind = 2 ∨ bit w 63 = false → exec .dispatch s = .next ((s.updTile s.ev.a (fun x => x.updQ (fun q => { q with dispatchQ := rest }))).park s.ev.a i)) ∧
    (i.kind = 1 → bit w 63 = true → exec .dispatch s =
      .next ((s.updTile s.ev.a (fun x => x.updQ (fun q => { q with dispatchQ := rest }))).updTile s.ev.a (fun x =>
        (x.updQ (fun q => { q with used := q.used - i.slots })).setCtx n (x.helper i w (s.tile s.ev.a).q.tsr)))) ∧
    (i.kind = 0 → bit w 63 = true → exec .dispatch s =
      let r := (s.updTile s.ev.a (fun x => x.updQ (fun q => { q with dispatchQ := rest }))).receive s.ev.a i.stamp
      .next (r.2.updTile s.ev.a (fun x => (x.updQ (fun q => { q with used := q.used - i.slots })).setCtx n (x.helper i w r.1)))))

/-- Ports, groups and bays (R320 to R322, R456 to R458): a replay is counted, three failed in a row and a lost lane bring the port to half width, a second
loss to failed; training brings a port up; a change of role is answered in the group's status; bays notice their modules; a module that attaches holds the SEC's
memory keys, one that is gone none (R432); one write of BAY sets its LED and its RELEASE, and a released bay of a group without a role opens. -/
def Obligations.LinkEvents : Prop :=
  (∀ s : State, exec .laneFailure s = .next (s.setPort s.ev.a ((s.port s.ev.a).laneFail s.ev.b))) ∧
  (∀ x : Port, ∀ n, (x.state = 3 → x.sp = false → (x.laneFail n).state = 4 ∧ (x.laneFail n).sp = true ∧ (x.laneFail n).lane = n % 8) ∧
    (x.state = 4 ∨ x.state = 3 ∧ x.sp = true → (x.laneFail n).state = 5)) ∧
  (∀ s : State, (s.port s.ev.a).state = 3 ∨ (s.port s.ev.a).state = 4 → exec .linkReplay s =
    let x := s.port s.ev.a
    let y := { x with replays := Nat.min 255 (x.replays + 1), replayFails := if s.ev.flag then x.replayFails + 1 else 0 }
    .next (s.setPort s.ev.a (if 3 ≤ y.replayFails then { y with replayFails := 0 }.laneFail s.ev.b else y))) ∧
  (∀ s : State, s.portState s.ev.a = 2 → let x := s.port s.ev.a
    (s.ev.flag = true → exec .portTraining s = .next ((s.setPort s.ev.a { state := 3, extra := s.ev.b % 256, slots := x.slots }).attach (s.ev.a / 8))) ∧
    (s.ev.flag = false → x.trainFails < 2 →
      exec .portTraining s = .next ((s.setPort s.ev.a { x with trainFails := x.trainFails + 1 }).attach (s.ev.a / 8))) ∧
    (s.ev.flag = false → 2 ≤ x.trainFails →
      exec .portTraining s = .next ((s.setPort s.ev.a { x with state := 5, trainFails := 0 }).attach (s.ev.a / 8)))) ∧
  (∀ s : State, exec .roleUnused s = .next (s.writeRole s.ev.a 0 false) ∧ exec .roleMemory s = .next (s.writeRole s.ev.a 1 true) ∧
    exec .roleLink s = .next (s.writeRole s.ev.a 2 s.ev.flag)) ∧
  (∀ (s : State) g role partner, g < 72 → (s.group g).role ≠ role →
    ((s.roleStatus g role ≠ 0 → s.writeRole g role partner = s.setGroup g { s.group g with status := s.roleStatus g role }) ∧
     (s.roleStatus g role = 0 → ((s.writeRole g role partner).group g).role = role ∧ ((s.writeRole g role partner).group g).status = 0))) ∧
  (∀ s : State, exec .moduleSeated s = .next (s.setBay s.ev.a { s.bay s.ev.a with present := true, group := if s.ev.b < 72 then s.ev.b else 255 })) ∧
  (∀ s : State, (s.bay s.ev.a).present = true → (s.group (s.bay s.ev.a).group).role ≠ 1 →
    exec .moduleRemoved s = .next (s.setBay s.ev.a { s.bay s.ev.a with present := false })) ∧
  (∀ s : State, (s.bay s.ev.a).present = true → (s.group (s.bay s.ev.a).group).role = 1 →
    ∃ t, exec .moduleRemoved s = .next t ∧ (t.bay s.ev.a).present = false ∧ (t.group (s.bay s.ev.a).group).answering = false ∧
      (t.group (s.bay s.ev.a).group).keys = []) ∧
  (∀ s : State, (s.bay s.ev.a).scrub = true →
    exec .moduleScrubDone s = .next (s.setBay s.ev.a { s.bay s.ev.a with scrub := false, latch := (s.bay s.ev.a).release })) ∧
  (∀ s : State, (s.bay s.ev.a).group = 255 ∨ (s.group (s.bay s.ev.a).group).role = 0 → exec .bayRelease s =
    .next (s.setBay s.ev.a { s.bay s.ev.a with led := bit s.ev.w 1, release := s.ev.flag, latch := s.ev.flag && !(s.bay s.ev.a).scrub })) ∧
  (∀ s : State, (s.bay s.ev.a).group ≠ 255 → (s.group (s.bay s.ev.a).group).role ≠ 0 →
    exec .bayRelease s = .next (s.setBay s.ev.a { s.bay s.ev.a with led := bit s.ev.w 1, release := false, latch := false })) ∧
  (∀ (s : State) g, g < 72 → (s.group g).role = 1 → (s.group g).answering = false → s.moduleIn g = true →
    (portsOf g).any (fun p => s.portState p == 2) = false → (portsOf g).any s.portUp = true →
    ((s.attach g).group g).answering = true ∧ ((s.attach g).group g).keys = s.sec.keys.map (fun e => (e.1, e.2.2)))

/-- Transfers (R326 to R333): a queued command that may start runs; a running one sends its units in order; a unit is read at the site it names
and written at its destination, the messages of one tile for another in their order, and none at a halted tile (R120, R313); a command whose last unit
has settled leaves its record. -/
def Obligations.TransferEvents : Prop :=
  (∀ s e, let x := s.tile s.ev.a
    x.xfer.find? (fun e => decide (s.xkind s.ev.a e ≠ .localCopy) && e.state == 1 && e.code == 0 && decide (e.progress < e.len)) = none →
    x.xfer.find? (fun e => e.state == 0) = some e → x.stopping = false → s.mayStart s.ev.a e = true →
    exec .transferStart s = let t := s.setXfer s.ev.a { e with state := 1 }
      .next ((if t.xkind s.ev.a e = .localCopy then t.later .transferSegment { a := s.ev.a } else t).later .transferStart { a := s.ev.a })) ∧
  (∀ s e r, let x := s.tile s.ev.a
    x.xfer.find? (fun e => decide (s.xkind s.ev.a e ≠ .localCopy) && e.state == 1 && e.code == 0 && decide (e.progress < e.len)) = some e →
    x.stopping = false → s.sendUnit s.ev.a e = .go r → exec .transferStart s = .next (r.later .transferStart { a := s.ev.a })) ∧
  (∀ (s : State) t e, s.readReady t e = true ↔ e.state = .flying ∧ s.goesNowhere e.dst = false ∧ (∃ o n, e.body = .xread o n) ∧ (s.tile t).q.vc3Turn e = true) ∧
  (∀ (s : State) t e, s.segReady t e = true ↔ e.unitReady = true ∧ (e.state = .flying → s.goesNowhere e.dst = false ∧ (∀ u, e.dst = .tile u → (s.tile u).halted = false) ∧
    (s.tile t).q.vc3Turn e = true)) ∧
  (∀ (q : Queues) e, q.vc3Turn e = true ↔ ∀ y ∈ q.before e.id, y.body.vc = 3 → y.state = .flying → y.dst ≠ e.dst) ∧
  (∀ s e o n u, (s.tile s.ev.a).q.ret.find? (s.readReady s.ev.a) = some e →
    e.body = .xread o n → e.dst = .tile u → s.sealHit s.ev.a e.dst = none → exec .transferReadRequest s =
      if s.uncorrectable u o n then .next (s.answered s.ev.a e { code := 0x16 })
      else .next ((s.countCec u (s.correctables u o n)).answered s.ev.a e { data := s.spmRead u o n })) ∧
  (∀ s e o n d u c off m, (s.tile s.ev.a).q.ret.find? (s.segReady s.ev.a) = some e →
    e.body = .seg o n d → e.sink = .xfer c off m → e.dst = .tile u → s.sealHit s.ev.a e.dst = none →
    (∀ y, (s.tile s.ev.a).xfer.find? (fun y => y.id == c) = some y → exec .transferSegment s =
      .next ((if y.bar then (s.writeUnit u o n d).arrive u y.bnum n 0 none false else s.writeUnit u o n d).answered s.ev.a e {}))) ∧
  (∀ s e, (s.tile s.ev.a).q.ret.find? (s.segReady s.ev.a) = none →
    (s.tile s.ev.a).xfer.find? (fun e => decide (s.xkind s.ev.a e = .localCopy) && e.state == 1 && e.code == 0 && decide (e.progress < e.len)) = some e →
    exec .transferSegment s = s.copySegment s.ev.a e) ∧
  (∀ s e, (s.tile s.ev.a).xfer.find? (fun e => e.state == 1 && (e.code != 0 || decide (e.len ≤ e.progress)) && !(s.tile s.ev.a).unitsOut e.id) = some e →
    e.code = 0 → e.claimed = false → e.drop = false → e.quiet = false → exec .transferComplete s =
      let y := { e with state := 2, record := e.recordWord, xl := none, walk := 0 }
      .next (((s.setXfer s.ev.a y).updTile s.ev.a (fun x => { x with xhold := x.xhold || false })).later .transferStart { a := s.ev.a }))

/-- Streams (R120, R337 to R344, R445): the source opens when every receiver's digest has matched and sends each of them GO; a digest that differs aborts and is
not counted among those matched; a go or an abort kept back by the hack goes after it, and stays with its source before a halted tile;
the source gathers lines into messages and injects each at its receivers, which take the elements in order until the count is reached; a line or an element that fails
ends the stream, with the address in the stream's event. -/
def Obligations.StreamEvents : Prop :=
  (∀ s m u col row tag d n, s.flying s.ev.a s.ev.b = some m → m.body = .digest col row tag d → m.dst = .tile u → s.sealHit s.ev.a m.dst = none →
    (s.tile u).endOf col row tag 0 = some n → let e := (s.tile u).stream n
    e.state = 1 → s.turnsAway s.ev.a u 0 m = false →
    (d ≠ e.digest → exec .streamDigest s = .next (((s.accept s.ev.a m).streamEvent u n e (BitVec.ofNat 64 e.base) d).failSource u n 0x26)) ∧
    (d = e.digest → let got := if e.matched.contains s.ev.a then e.matched else e.matched ++ [s.ev.a]
      let t := s.accept s.ev.a m
      ((t.streamTiles u e e.scol).all (fun r => got.contains r) = false →
        exec .streamDigest s = .next (t.updTile u (fun x => x.setStream n { e with matched := got }))) ∧
      ((t.streamTiles u e e.scol).all (fun r => got.contains r) = true → exec .streamDigest s =
        .next (((t.streamTiles u e e.scol).foldl (fun s' r => s'.tell u r e.ctx (.streamGo col row tag e.digest))
          (t.updTile u (fun x => x.setStream n { e with matched := got, state := 2 }))).later .streamMessageInject { a := u, b := n })))) ∧
  (∀ s m u col row tag d n, s.flying s.ev.a s.ev.b = some m → m.body = .digest col row tag d → m.dst = .tile u → s.sealHit s.ev.a m.dst = none →
    (s.tile u).endOf col row tag 0 = some n → ((s.tile u).stream n).state = 4 → s.turnsAway s.ev.a u 0 m = false →
    exec .streamDigest s = .next ((s.accept s.ev.a m).sendAbort u ((s.tile u).stream n) ((s.tile u).stream n).code false s.ev.a)) ∧
  (∀ s e, s.entry s.ev.a s.ev.b = some e →
    (e.state = .formed → (s.tile s.ev.a).stopping = false → exec .streamGo s = .next (s.launch s.ev.a e) ∧ exec .streamAbort s = .next (s.launch s.ev.a e)) ∧
    (∀ u, e.state ≠ .formed → e.dst = .tile u → (s.tile u).halted = true → exec .streamGo s = notYet s ∧ exec .streamAbort s = notYet s)) ∧
  (∀ s m u col row tag d n, s.flying s.ev.a s.ev.b = some m → m.body = .streamGo col row tag d → m.dst = .tile u → (s.tile u).halted = false →
    s.sealHit s.ev.a m.dst = none → let q := s.freeEntry s.ev.a m.id
    (q.tile u).endOf col row tag 1 = some n → let e := (q.tile u).stream n
    e.state = 1 →
    (e.digest = d → exec .streamGo s = .next (q.updTile u (fun x => x.setStream n { e with state := 2 }))) ∧
    (e.digest ≠ d → exec .streamGo s =
      .next ((q.updTile u (fun x => x.setStream n { e with state := 4, code := 0x26 })).streamEvent u n e (BitVec.ofNat 64 e.base) d))) ∧
  (∀ s m u col row tag code closed n, s.flying s.ev.a s.ev.b = some m → m.body = .streamAbort col row tag code closed → m.dst = .tile u → (s.tile u).halted = false →
    s.sealHit s.ev.a m.dst = none → let q := s.freeEntry s.ev.a m.id
    (q.tile u).endOf col row tag 0 = some n ∨ ((q.tile u).endOf col row tag 0 = none ∧ (q.tile u).endOf col row tag 1 = some n) →
    let e := (q.tile u).stream n
    e.state = 1 ∨ e.state = 2 → exec .streamAbort s =
      .next (q.updTile u (fun x => x.setStream n { e with state := if closed then 5 else 4, code := code, asked := none, walk := 0 }))) ∧
  (∀ (s : State) t n code a, code ≠ 0x15 → s.failLine t n code a = (s.streamEvent t n ((s.tile t).stream n) a 0).failSource t n code) ∧
  (∀ s, let e := (s.tile s.ev.a).stream s.ev.b
    e.state = 2 → e.role = 0 → e.code ≠ 0 → exec .streamMessageInject s = .next (s.failLine s.ev.a s.ev.b e.code (e.elemAddr e.next))) ∧
  (∀ s, let e := (s.tile s.ev.a).stream s.ev.b
    e.state = 2 → e.role = 0 → e.code = 0 → (s.tile s.ev.a).stopping = false →
    (e.elements ≤ e.injected → exec .streamMessageInject s = .next (s.streamSettled s.ev.a e.tag)) ∧
    (e.injected < e.elements → e.gathered.length = e.batch → (s.tile s.ev.a).messagesOut e.tag < 4 → (s.tile s.ev.a).retFree ≠ 0 →
      (∀ u ∈ s.streamTiles s.ev.a e e.scol, s.sealSpent s.ev.a (.tile u) = false) → exec .streamMessageInject s =
      .next ((s.injectElems s.ev.a s.ev.b e).later .streamMessageInject { a := s.ev.a, b := s.ev.b })) ∧
    (∀ y, e.injected < e.elements → e.gathered.length ≠ e.batch → e.asked = none → (s.tile s.ev.a).retFree ≠ 0 → (s.tile s.ev.a).released e.ctx e.mark = true →
      let a := e.elemAddr e.next
      xlGood e.xl e.walk (s.nowAt s.ev.a) (fld a 0 56 / 64 * 64) 0 = some y → exec .streamMessageInject s =
        let r := s.request s.ev.a e.ctx (.load (a &&& ~~~(63#64)) 64) (.strm s.ev.b a) (.edge (y.phys (fld a 0 56 / 64 * 64))) (some y)
        .next ((r.2.updTile s.ev.a (fun x => x.setStream s.ev.b { e with asked := some r.1, walk := 0 })).later .streamMessageInject { a := s.ev.a, b := s.ev.b }))) ∧
  (∀ s r a n, (s.tile s.ev.a).q.ret.find? (fun e => decide (e.state = .done) && (match e.sink with | .strm k _ => k == s.ev.b | _ => false)) = some r →
    s.sealHitBack s.ev.a r.dst = none ∨ r.code = 0x32 → r.body = .load a n → let t := s.freeEntry s.ev.a r.id; let e := (t.tile s.ev.a).stream s.ev.b
    e.state = 2 → e.asked = some r.id →
    (r.code = 0 → exec .streamLineReply s = .next (t.updTile s.ev.a (fun x => x.setStream s.ev.b { (e.gather a r.reply 24) with asked := none }))) ∧
    (r.code ≠ 0 → exec .streamLineReply s = .next (t.failLine s.ev.a s.ev.b r.code a))) ∧
  (∀ s m tag d acc ack n p, s.entry s.ev.a s.ev.b = some m → m.body = .elems tag d acc ack → acc.contains s.ev.c = true → (s.tile s.ev.c).lost = false →
    (s.tile s.ev.c).halted = false → (s.region (s.tile s.ev.c).region).stopped = false → s.sealHit s.ev.a (.tile s.ev.c) = none →
    (s.tile s.ev.c).endOf (s.tile s.ev.a).col (s.tile s.ev.a).row tag 1 = some n → ((s.tile s.ev.c).stream n).state = 2 → (s.tile s.ev.c).q.streamPort tag = some p →
    exec .streamMessage s =
      let e := (s.tile s.ev.c).stream n
      let el := d.zipIdx.map (fun v => ({ val := v.1, stamp := m.stamp, stream := some (s.ev.a, tag),
                                          ack := if v.2 + 1 = d.length then some (s.ev.a, m.id) else none } : PElem))
      let e := { e with count := e.count + d.length, state := if e.elements ≤ e.count + d.length then 3 else 2 }
      .next ((s.updTile s.ev.c (fun y => (y.setStream n e).updQ (fun q => { q with inq := fset [] q.inq p (q.inq? p ++ el) }))).setEntry s.ev.a
        { m with body := .elems tag d (acc.filter (· != s.ev.c)) ack }))

/-- Trains and the repeater (R176, R361 to R376, R447, R449): a member's request reaches the leader, the train forms when every member stands ready, its
words run at the followers in order, each behind the step, the fault or the breakpoint that is due there, a mark as any other; one that is not ready at its cycle underruns; a marker
takes back the member that waits for it, and VC7 elements join the bound port or are dropped and counted; a
repeater body is filled word by word and then runs. -/
def Obligations.TrainEvents : Prop :=
  (∀ s u, let x := s.tile s.ev.a
    x.train.state = 1 → s.memberSite s.ev.a s.ev.b = some u → (s.tile u).train.request = none → exec .trainFormationRequest s =
      .next (s.updTile u (fun y => { y with train := { y.train with request := some (x.train.id, x.train.c0, x.train.n) } }))) ∧
  (∀ s, let x := s.tile s.ev.a
    let fs := s.followers s.ev.a
    x.train.state = 1 → x.train.joined = false → (x.ctx 0).formed = true → fs.length + 1 = x.train.n →
    (∀ u ∈ fs, (s.tile u).train.state = 1 ∧ (s.tile u).train.joined = true ∧ (s.tile u).train.c0 = x.train.c0 ∧ (s.tile u).train.id = x.train.id) →
    exec .trainFormed s =
      let t := s.updTile s.ev.a (fun x => { x.setCtx 0 { x.ctx 0 with formed := false } with train := { x.train with state := 2, nextAddr := (x.ctx 0).pc } })
      let t := fs.foldl (fun s u => s.updTile u (fun y => { y with train := { y.train with state := 3, joined := false, nextAddr := (x.ctx 0).pc } })) t
      .next ((s.ev.a :: fs).foldl (fun s u => s.lateG u (s.tile u).train.rd (s.skewWord u)) t)) ∧
  (∀ s a w w2 r, (s.tile s.ev.a).train.lane = (a, w, w2) :: r →
    let x := s.tile s.ev.a
    let count := fun t : State => t.updTile s.ev.a (fun y => { y with train := ({ y.train with step := y.train.step + 1 }.dropFrame w x.train.frames.length) })
    let run := fun i : Instr =>
      (isTmark w = false ∧ i = .trainStreamWord) ∨ (isTmark w = true ∧ i = .trainMarker)
    (isTmark w = false → x.train.state ≠ 3 → exec .trainStreamWord s =
      .next ((s.updTile s.ev.a (fun y => { y with train := { y.train with lane := r, step := y.train.step + 1 } })).passBy s.ev.a w)) ∧
    (∀ i t, run i → x.train.state = 3 → s.westAhead s.ev.a = true → s.eastNear s.ev.a x.train.d x.train.lane.length = true →
      (∀ e ∈ x.train.wire, ∀ k, e.2 = some k → x.train.step ≤ k) → x.fenceDone 0 = true →
      let y := (x.ctx 0).inStep (x.own a)
      let l : Slot := { site := s.ev.a, ctx := 0, addr := x.own a, word := w, word2 := w2, pair := isModifier w, train := true, framed := decide (y.frame.state = .run) }
      let s1 : State := { s.updTile s.ev.a (fun z => { z.setCtx 0 y with train := { z.train with lane := r, nextAddr := a + BitVec.ofNat 64 l.size } }) with slot := l }
      s1.followWord = .next t →
      (t.slot.stalled = false → exec i s = .next ((count t).noteStale s1 s.ev.a)) ∧
      (t.slot.stalled = true → (t.ctx s.ev.a 0).xlate = .none → exec i s = .next ((count s1).takeTrap 0x0F 0))) ∧
    (isTmark w = true → x.train.state = 5 → x.train.marker = fld w 8 6 → exec .trainMarker s =
      let t := s.updTile s.ev.a (fun x => { x with train := { x.train with lane := r, nextAddr := a + 4, step := x.train.step + 1 } })
      .next ((t.updTile s.ev.a (fun x => { x with train := { x.train with state := 3, lineDue := 0 } })).lateG s.ev.a x.train.rd 1))) ∧
  (∀ s : State, s.slot.train = true →
    (s.cur.stepDue = true → s.followWord = .next ((s.updCur (fun y => { y with dueFault := none })).takeTrap 0x09 0)) ∧
    (∀ d, s.cur.stepDue = false → s.cur.dueFault = some d → s.followWord = .next ((s.updCur (fun y => { y with dueFault := none })).takeTrap d.1.toNat d.2)) ∧
    (s.cur.stepDue = false → s.cur.dueFault = none → s.cur.breaks s.slot.addr = true → s.followWord = .next (s.takeTrap 0x0A 0))) ∧
  (∀ s, (s.tile s.ev.a).train.raised = false → (s.tile s.ev.a).train.lineDue ≠ 0 →
    ((s.tile s.ev.a).train.lineDue = 1 → ((s.tile s.ev.a).ctx 0).owed = 0 ∧ (s.tile s.ev.a).quiet 0 = true) →
    ((s.tile s.ev.a).train.lineDue = 2 → (s.tile s.ev.a).mx.isEmpty = true) →
    exec .tsyncLine s = .next (s.updTile s.ev.a (fun x => { x with train := { x.train with raised := true } }))) ∧
  (∀ s v k r, (s.tile s.ev.a).train.wire = (v, k) :: r → (∀ j, k = some j → (s.tile s.ev.a).train.state = 3 → j < (s.tile s.ev.a).train.step) → let t := s.updTile s.ev.a (fun x => { x with train := { x.train with wire := r } })
    (∀ p, (List.range 4).find? (fun p => let w := (s.tile s.ev.a).q.cfg p; cfgV w && cfgVc w == 7) = some p → exec .vc7Element s =
      .next (t.updTile s.ev.a (fun x => x.updQ (fun q => { q with inq := fset [] q.inq p (q.inq? p ++ [{ val := v, stamped := false }]) })))) ∧
    ((List.range 4).find? (fun p => let w := (s.tile s.ev.a).q.cfg p; cfgV w && cfgVc w == 7) = none → exec .vc7Element s =
      .next (t.updTile s.ev.a (fun x => { x with train := { x.train with vdrop := x.train.vdrop + 1 } })))) ∧
  (∀ s ws r, let x := s.ctx s.ev.a s.ev.b
    x.frame.state = .fill → x.frame.word ≠ 0 → x.state = .live → x.dueFault = none →
    s.fillBody s.ev.a s.ev.b x.frame x.frame.words (x.frame.len - x.frame.words.length) = .pass ws r →
    exec .repeaterFill s = .next (r.fillPassed s.ev.a s.ev.b x.frame ws)) ∧
  (∀ s a c v, let x := s.ctx s.ev.a s.ev.b
    x.frame.state = .fill → x.frame.word ≠ 0 → x.state = .live → x.dueFault = none →
    s.fillBody s.ev.a s.ev.b x.frame x.frame.words (x.frame.len - x.frame.words.length) = .fault a c v →
    exec .repeaterFill s = .next (((s.atSlot s.ev.a s.ev.b a 0).updCtx s.ev.a s.ev.b (fun y => { y with frame := {} })).takeTrap c v))

/-- Barriers and collectives (R348, R353 to R356): a barrier vote arrives at its tile's barrier, one for the own tile once its release has
happened; a contribution joins its level and a full level goes up the tree, where a level that is taken turns it away; a result is
delivered at each member on its way down. -/
def Sys2Proof.Claims.BarrierEvents : Prop :=
  (∀ s e u a n, s.flying s.ev.a s.ev.b = some e → e.body = .barv a n → e.dst = .tile u → s.sealHit s.ev.a e.dst = none → exec .barvMessage s =
    if s.turnsAway s.ev.a u 0 e then .next (s.refuse s.ev.a e)
    else .next ((s.arrive u (fld a 0 6) n 1 (barvTag a) false).accept s.ev.a e)) ∧
  (∀ s e a n, s.entry s.ev.a s.ev.b = some e → e.state = .formed → e.body = .barv a n → e.dst = .tile s.ev.a → (s.tile s.ev.a).stopping = false →
    (s.tile s.ev.a).released e.ctx e.mark = true →
    exec .barvMessage s = .next ((s.freeEntry s.ev.a e.id).arrive s.ev.a (fld a 0 6) n 1 (barvTag a) false)) ∧
  (∀ s e u d v fl err l, s.flying s.ev.a s.ev.b = some e → e.body = .coll true d v fl err l → e.dst = .tile u → s.sealHit s.ev.a e.dst = none →
    exec .collContribution s = if s.turnsAway s.ev.a u 0 e ∨ (fget {} (s.tile u).levels l).full then .next (s.refuse s.ev.a e)
      else .next (((s.updTile u (fun x => { x with levels := fset {} x.levels l { full := true, desc := d, value := v, flags := fl, err := err } })).accept
        s.ev.a e).collClimb u 17)) ∧
  (∀ s e u d v fl err l, s.flying s.ev.a s.ev.b = some e → e.body = .coll false d v fl err l → e.dst = .tile u → s.sealHit s.ev.a e.dst = none →
    s.turnsAway s.ev.a u 0 e = false → (s.tile u).coll.active = true → (s.tile u).coll.level = 16 →
    exec .collResult s = .next ((s.accept s.ev.a e).collFinish u v fl (err || decide ((s.tile u).coll.desc ≠ d))))

/-- The matrix unit's own steps (R195, R196): the first queued command starts when nothing before it stands in its way; a running one works
until its last row, or until an error, and then ends with its record, behind the multiplications before it, and the next may start. -/
def Sys2Proof.Claims.MatrixEvents : Prop :=
  (∀ s e, (s.tile s.ev.a).mx.fifo.find? (fun e => e.state == 0) = some e → (s.tile s.ev.a).mayStart e = true → exec .matrixCommandStart s =
    .next (((s.beginCmd s.ev.a e).2.updTile s.ev.a (fun x => x.updMx (fun m => m.setCmd (s.beginCmd s.ev.a e).1))).later
      .matrixCommandComplete { a := s.ev.a, b := e.serial })) ∧
  (∀ s e, (s.tile s.ev.a).mx.fifo.find? (fun e => e.serial == s.ev.b && e.state == 1) = some e → (s.tile s.ev.a).mx.state ≠ 3 →
    (e.code ≠ 0 ∨ e.total ≤ e.progress →
      ((s.tile s.ev.a).mx.macBefore e = false → exec .matrixCommandComplete s = .next (s.endCmd s.ev.a e)) ∧
      ((s.tile s.ev.a).mx.macBefore e = true → exec .matrixCommandComplete s = notYet s)) ∧
    (∀ e' s', e.code = 0 → e.progress < e.total → s.work s.ev.a e = .done e' s' → exec .matrixCommandComplete s =
      .next ((s'.updTile s.ev.a (fun x => x.updMx (fun m => m.setCmd e'))).later .matrixCommandComplete { a := s.ev.a, b := e'.serial })) ∧
    (∀ c s', e.code = 0 → e.progress < e.total → s.work s.ev.a e = .fail c s' → exec .matrixCommandComplete s =
      .next ((s'.updTile s.ev.a (fun x => x.updMx (fun m => m.setCmd { e with code := BitVec.ofNat 8 c }))).later
        .matrixCommandComplete { a := s.ev.a, b := e.serial })) ∧
    (e.code = 0 → e.progress < e.total → s.work s.ev.a e = .wait → exec .matrixCommandComplete s = notYet s))

/-- Kernels (R384 to R399): a descriptor is submitted to its region's queue, a tile's under its place in the region; the head's group is placed when every member fits, loaded, made
ready for its start tick unless its deadline has passed, and started with one context a tile, which keeps what its queues have accepted; a kill, a gang's abort, its deadline and its timeout retire it or raise its
fault. -/
def Obligations.KernelEvents : Prop :=
  (∀ s : State, (s.region s.ev.a).state = 2 ∨ (s.region s.ev.a).state = 3 → exec .launchRegisterWrite s =
    .next (s.submit s.ev.a (BitVec.ofNat 512 (s.memRead (sysKey s.ev.b) 64)) 0 0).2) ∧
  (∀ s e d, s.flying s.ev.a s.ev.b = some e → e.body = .kq d → s.sealHit s.ev.a e.dst = none → s.islandDown (s.homeOf s.ev.a) = false →
    s.vc6Turn s.ev.a e.id = true → (s.region (s.tile s.ev.a).region).stopped = false →
    exec .kqRequest s = if (s.tile s.ev.a).region = 0 then .next (s.answered s.ev.a e { data := 2 ^ 33 })
      else let q := s.submit (s.tile s.ev.a).region d (1 + (s.tile s.ev.a).col + 256 * (s.tile s.ev.a).row) 0
        .next (q.2.answered s.ev.a e { data := q.1.1 * 2 ^ 32 + q.1.2 })) ∧
  (∀ s n l t, let x := s.region s.ev.a
    x.queue = n :: l → x.state = 2 ∨ x.state = 3 → bit x.causes 5 = false → (x.kernel n).closed = true → s.parent_ s.ev.a = false → s.skewed s.ev.a n = false →
    s.placeAll s.ev.a (x.queue.filter (fun y => (x.kernel y).group == (x.kernel n).group)) = some t →
    exec .placement s = .next ((t.later .loadingDone { a := s.ev.a, b := n }).later .placement { a := s.ev.a })) ∧
  (∀ s n, let g := ((s.region s.ev.a).kernel s.ev.b).group
    ((s.region s.ev.a).members g).filter (fun n => ((s.region s.ev.a).kernel n).state == 2) = [n] → (s.loadKernel s.ev.a n).2 = true →
    let t := (s.loadKernel s.ev.a n).1
    ((t.region s.ev.a).members g).filter (fun n => ((t.region s.ev.a).kernel n).state == 2) = [n] → let k := (t.region s.ev.a).kernel n
    let now := t.now (t.region s.ev.a).home
    (k.deadline = 0 ∨ now < k.deadline → k.timed = false → exec .loadingDone s = .next (t.makeReady s.ev.a (now + 4096) [n])) ∧
    (k.deadline ≠ 0 → k.deadline ≤ now → let q := t.retireKernel s.ev.a n 3 0
      ((q.region s.ev.a).members g).filter (fun n => ((q.region s.ev.a).kernel n).state == 2) = [] → exec .loadingDone s = .next q)) ∧
  (∀ s n, let g := ((s.region s.ev.a).kernel s.ev.b).group
    ((s.region s.ev.a).members g).filter (fun n => ((s.region s.ev.a).kernel n).state == 2) = [n] → (s.loadKernel s.ev.a n).2 = false →
    (s.unskewed.loadKernel s.ev.a n).2 = false →
    let t := s.retireKernel s.ev.a n 6 5
    ((t.region s.ev.a).members g).filter (fun n => ((t.region s.ev.a).kernel n).state == 2) = [] → exec .loadingDone s = .next t) ∧
  (∀ s, let x := s.region s.ev.a; let k := x.kernel s.ev.b
    let all := s.kernelSites s.ev.a k
    let go := all.filter (fun p => s.reached p.2 k.tgo)
    let due := (all.filter (fun p => !s.reached p.2 k.tgo)).map (·.1)
    k.state = 3 → x.state = 2 → go ≠ [] → exec .timedStart s =
      let t := s.updRegion s.ev.a (fun z => z.setKernel s.ev.b { k with state := 4, due := due, restarted := k.restarted.filter (fun i => !go.any (fun p => p.1 == i)) })
      let t := go.foldl (fun t p => t.startTile p.2 s.ev.b k.arg (fget (0, []) k.progs p.1) (k.restarted.contains p.1)) t
      .next (if ((t.region s.ev.a).kernel s.ev.b).due.isEmpty then t else t.later .timedStart { a := s.ev.a, b := s.ev.b })) ∧
  (∀ s, let x := s.region s.ev.a; let k := x.kernel s.ev.b
    3 ≤ k.state → k.state ≤ 6 → (k.state = 3 ∨ k.due ≠ []) → x.state ≠ 2 ∨ k.state = 6 → exec .timedStart s = notYet s) ∧
  (∀ (s : State) t n arg p again, (s.tile t).halted = false → let x := s.startTile t n arg p again
    ((x.tile t).ctx 0).state = .live ∧ ((x.tile t).ctx 0).pc = (s.tile t).addrOf p.1 ∧ ((x.tile t).ctx 0).readG 2 = (s.tile t).addrOf 0x170000 ∧
    ((x.tile t).ctx 0).readG 3 = arg ∧ ((x.tile t).ctx 0).readG 4 = BitVec.ofNat 64 (n + (if again then 2 ^ 32 else 0)) ∧
    (x.tile t).q.handlers = p.2 ∧ (x.tile t).q.dispatchQ = (s.tile t).q.dispatchQ ∧ (x.tile t).q.inq = (s.tile t).q.inq ∧ (x.tile t).mx.mcfg = 0) ∧
  (∀ s, let k := (s.region s.ev.a).kernel s.ev.b
    let status := if s.ev.flag then 4 else if k.gangFault then 5 else 1
    (s.ev.c = 2 → exec .kernelKill s = .next (s.writeRecord s.ev.a s.ev.b k.rrec s.ev.w.toNat (s.ev.i.toNat % 256) (s.ev.i.toNat / 256))) ∧
    (s.ev.c ≠ 1 → s.ev.c ≠ 2 → k.ending = none →
    (k.state = 5 ∨ k.state = 6 → exec .kernelKill s = .next (s.retireKernel s.ev.a s.ev.b status 0)) ∧
    (k.state = 4 → let t := (s.kernelSites s.ev.a k).foldl (fun z p => z.stopTile s.ev.a s.ev.b p.2) s
      t.kernelSettled s.ev.a s.ev.b = true → exec .kernelKill s = .next (t.retireKernel s.ev.a s.ev.b status 0)))) ∧
  (∀ s : State, (s.region s.ev.a).state = 2 ∨ (s.region s.ev.a).state = 3 → exec .gangPrepare s =
    let q := s.submit s.ev.a (BitVec.ofNat 512 (s.memRead (sysKey s.ev.b) 64) ||| BitVec.ofNat 512 (0xA * 2 ^ (8 * 0x21))) 0 s.ev.c
    .next (if q.1.1 = 0 then q.2.later .gangDeadline { a := s.ev.a, b := q.1.2 } else q.2)) ∧
  (∀ s, let k := (s.region s.ev.a).kernel s.ev.b
    k.state = 3 → k.gang = true → k.acked = false → exec .gangAck s =
      .next { s.updRegion s.ev.a (fun x => x.setKernel s.ev.b { k with acked := true }) with gangOut := s.gangOut ++ [(k.gangId, 0)] }) ∧
  (∀ s, let k := (s.region s.ev.a).kernel s.ev.b
    k.gang = true →
    (1 ≤ k.state → k.state < 3 ∨ k.state = 3 ∧ s.now (s.region s.ev.a).home < k.tgo → exec .gangAbort s = .next (s.retireKernel s.ev.a s.ev.b 3 0)) ∧
    (k.state ≤ 6 → 3 < k.state ∨ k.state = 3 ∧ k.tgo ≤ s.now (s.region s.ev.a).home → exec .gangAbort s = .next (s.gangFault s.ev.a s.ev.b 63))) ∧
  (∀ s, let k := (s.region s.ev.a).kernel s.ev.b
    1 ≤ k.state → k.state < 3 → k.deadline ≤ s.now (s.region s.ev.a).home → exec .gangDeadline s = .next (s.retireKernel s.ev.a s.ev.b 3 0)) ∧
  (∀ s w r since b, let x := s.tile s.ev.a; let y := x.ctx s.ev.b; let k := (s.region x.region).kernel x.kernel
    x.region ≠ 0 → x.kernel ≠ 0 → k.gang = true → y.state = .live → s.fetch s.ev.a s.ev.b y.pc = .word w r → y.waitAt = some since → bwaitOf w = some b →
    k.gbar.testBit b = true → (x.bar b).state ≠ 2 → since + k.gto ≤ s.nowAt s.ev.a → exec .gangTimeout s = .next (s.gangFault x.region x.kernel b))

/-- Hack, evacuation and resume (R90, R122, R126, R379, R398, R450, R485): at the stop tick every tile of the region holds, its contexts are dumped and the region is
stopped; at the resume tick its tiles go on and the region is active; evacuation and restore move a tile's state through its image, every tile of a kernel being saved
before one is emptied, and an emptied degraded site is fenced; an inspection holds the region and its tiles' state, for the one who may ask, a second request leaving what
the first has saved; an image that a restore would refuse raises the restore fault. -/
def Sys2Proof.Claims.HackEvents : Prop :=
  (∀ s th, let x := s.region s.ev.a
    let ts := s.ownTiles s.ev.a
    let t := ts.foldl State.hackTile s
    x.stopTick = some th → x.state = 3 → x.stopped = false → (∀ u ∈ ts, th ≤ s.nowAt u) → (∀ u ∈ ts, (t.tile u).held = true) → t.linksEmpty ts = true →
    let u := (t.region s.ev.a).lostDue.foldl (fun z t => z.loseTile s.ev.a t) t
    let v := (ts.foldl State.dumpContexts (ts.foldl State.settleTile u)).saveGang s.ev.a ts
    exec .hackBroadcast s = .next ((v.adoptRoots s.ev.a).updRegion s.ev.a (fun z => { (z.moveKernels 4 5) with stopped := true, stopTick := none }))) ∧
  (∀ (s : State) t c, (s.tile t).held = false → (s.tile t).following = false → let x := (s.hackTile t).tile t
    x.held = true ∧ x.mx.state = 3 ∧ (c < 12 → ((s.tile t).ctx c).state ≠ .halted → (x.ctx c).state = .held)) ∧
  (∀ s tr, let x := s.region s.ev.a
    let ts := s.ownTiles s.ev.a
    x.resumeTick = some tr → x.state = 3 → x.causes = 0 → x.stopped = true → (∀ u ∈ ts, tr ≤ s.nowAt u) → x.kernels = [] → x.saved = [] →
    exec .resumeTick s = .next (((ts.foldl State.resumeTile s).updRegion s.ev.a
      (fun z => { (z.moveKernels 5 4) with state := 2, stopped := false, resumeTick := none, saved := [] })).event s.ev.a 0x48 0 0 0 0 0 (BitVec.ofNat 64 1) 0)) ∧
  (∀ s, let x := s.region s.ev.a
    x.state = 3 → x.stopped = true → (s.tile s.ev.b).region = s.ev.a → s.ev.flag = false →
    exec .evacuation s = .next (s.evacuate s.ev.b s.ev.w.toNat)) ∧
  (∀ s, let x := s.region s.ev.a; let n := (s.tile s.ev.b).kernel; let k := x.kernel n
    x.state = 3 → x.stopped = true → (s.tile s.ev.b).region = s.ev.a → s.ev.flag = true → k.state = 5 →
    let l := s.kernelSites s.ev.a k
    exec .evacuation s = .next ((l.foldl (fun t p => t.emptyTile p.2) (l.foldl (fun t p => t.saveTile p.2 (s.ev.w.toNat + imageSize * p.1) true) s)).updRegion s.ev.a
      (fun z => { z.setKernel n { k with state := 6 } with queue := queueAfter (fun y => decide (k.prio < (x.kernel (x.kernel y).group).prio)) n x.queue }))) ∧
  (∀ (s : State) t, s.fieldOut (fieldOf t) = false → (s.site t).degrade = true → (s.site t).state = some .assigned →
    ((s.emptyTile t).site t).state = some .fenced ∧ ((s.emptyTile t).tile t).q.ret = [] ∧ ((s.emptyTile t).tile t).mx.fifo = []) ∧
  (∀ (s : State) t, (s.site t).degrade = false → ((s.emptyTile t).site t).state = (s.site t).state) ∧
  (∀ s : State, s.restoreCheck s.ev.a s.ev.b = 0 → exec .restore s = .next (((s.loadImage s.ev.a s.ev.b).noteRestored s.ev.a).dropSaved s.ev.a)) ∧
  (∀ s : State, s.restoreCheck s.ev.a s.ev.b ≠ 0 → ∃ t, exec .restore s = .next t ∧ t.mem = s.mem ∧ t.tiles = s.tiles) ∧
  (∀ s : State, let x := s.region s.ev.a
    x.state = 2 ∨ x.state = 3 → (x.conf = true → s.ev.flag = false ∧ s.ev.b = s.levelOne s.ev.a) →
    (bit x.causes 7 = false → exec .inspectionRequest s =
      .next (((s.setRegion s.ev.a { x with inspStatus := 0, saved := [] }).addCause1 s.ev.a 7 0).later .inspectionReady { a := s.ev.a })) ∧
    (bit x.causes 7 = true → exec .inspectionRequest s = .next (s.setRegion s.ev.a { x with inspStatus := 0 }))) ∧
  (∀ s : State, let x := s.region s.ev.a
    (x.conf = true ∧ (s.ev.flag = true ∨ s.ev.b ≠ s.levelOne s.ev.a)) ∨ (x.state ≠ 2 ∧ x.state ≠ 3) →
    exec .inspectionRequest s = .next (s.setRegion s.ev.a { x with inspStatus := 4 })) ∧
  (∀ (s : State) t, s.restoreCheck t (inspectAt t) ≠ 0 → s.loadInspected t = s.tileEvent t 0x17 0 0 0
    (BitVec.ofNat 64 (s.restoreCheck t (inspectAt t) + 256 * s.memRead (sysKey (inspectAt t + 6)) 1)) (BitVec.ofNat 64 (inspectAt t))) ∧
  (∀ s : State, (s.region s.ev.a).state = 3 → bit (s.region s.ev.a).causes 7 = true → (s.region s.ev.a).saved = [] → (s.region s.ev.a).stopped = true →
    exec .inspectionReady s = .next ((((s.ownTiles s.ev.a).foldl (fun z t => z.saveTile t (inspectAt t) true) s).updRegion s.ev.a
      (fun x => { x with saved := s.ownTiles s.ev.a })).event s.ev.a 0x4D 0 0 0 0 0 (BitVec.ofNat 64 (s.ownTiles s.ev.a).length) 0))

/-- Commands for regions (R403, R404, R411, R415 to R419, R421, R434): an accepted command with an operand that its checks refuse is answered with the check's status and no
other effect; one that passes has its effect; one that a takeover has cut off has it too, and is answered so with the flag; one whose ring's turn it is not waits. That the
control block of an existing region must have its level and parent is the model's reading (log entry 119). -/
def Obligations.RegionCommands : Prop :=
  (∀ s e, s.pending s.ev.a = some e → (s.cmdRing s.ev.a).waiting = false → s.ringsTurn s.ev.a = true → (s.cmdRing s.ev.a).cut = true → e.code = 3 →
    (s.cmdRing s.ev.a).decide_ e = .ok → e.formOk s.ev.a = true → let t := accepted s s.ev.a e; let x := t.region (e.p 0 2)
    e.p 2 6 = 0 → t.mayName s.ev.a x.level x.parent = true → x.state = 2 ∨ x.state = 3 →
    exec .hackRegion s = .next ((t.addCause1 (e.p 0 2) 0 0).respond s.ev.a e .interrupted 1)) ∧
  (∀ s e, s.pending s.ev.a = some e → (s.cmdRing s.ev.a).waiting = false → e.code = 3 → s.ringsTurn s.ev.a = false → exec .hackRegion s = notYet s) ∧
  Answers .hackRegion 3 (fun k e s => e.p 2 6 = 0 ∧ s.mayName k (s.region (e.p 0 2)).level (s.region (e.p 0 2)).parent = true ∧
    ((s.region (e.p 0 2)).state = 2 ∨ (s.region (e.p 0 2)).state = 3)) .ok (fun _ e s => s.addCause1 (e.p 0 2) 0 0) ∧
  Answers .hackRegion 3 (fun k e s => e.p 2 6 = 0 ∧ s.mayName k (s.region (e.p 0 2)).level (s.region (e.p 0 2)).parent = true ∧
    (s.region (e.p 0 2)).state < 2) .state (fun _ _ s => s) ∧
  Answers .resumeRegion 4 (fun k e s => e.p 2 6 = 0 ∧ s.mayName k (s.region (e.p 0 2)).level (s.region (e.p 0 2)).parent = true ∧
    ((s.region (e.p 0 2)).state = 2 ∨ (s.region (e.p 0 2)).state = 3)) .ok
    (fun _ e s => [0, 1, 2, 3, 4, 6, 7].foldl (fun s c => s.removeCause (e.p 0 2) c) s) ∧
  (∀ r x, Answers .destroyRegion 2 (fun k e s => s.namedBy k (e.p 0 8) = some (r, x) ∧ s.children r = [] ∧ ((s.region r).state = 2 ∨ (s.region r).state = 3)) .ok
    (fun _ _ s => ((((s.noteRcb r x).killAll r).endMove r).abandon r .ok).dropRegion r)) ∧
  (∀ r x, Answers .destroyRegion 2 (fun k e s => s.namedBy k (e.p 0 8) = some (r, x) ∧ s.children r ≠ []) .state (fun _ _ s => s)) ∧
  (∀ r x, Answers .regionReset 5 (fun k e s => s.namedBy k (e.p 0 8) = some (r, x) ∧ ((s.region r).state = 2 ∨ (s.region r).state = 3)) .ok
    (fun _ _ s =>
      let s := ((s.noteRcb r x).killAll r).endMove r
      let s := (s.region r).lostDue.foldl (fun s t => s.loseTile r t) s
      let ts := s.ownTiles r
      let s := s.updRegion r (fun y => { y with state := 4, causes := 0, stopTick := none, resumeTick := none, stopped := false, lostDue := [] })
      let s := ts.foldl (fun s t => s.beginRelease t r) ((s.stateEvent r 3 .ok).adoptRoots r)
      if ts.isEmpty then s.later .regionResetDone { a := r } else s)) ∧
  (∀ r x, Answers .shareRegion 7 (fun k e s => s.namedBy k (e.p 0 8) = some (r, x) ∧ (s.region r).exists_ = true ∧
    s.budgetOk r { x with col0 := (s.region r).col0, row0 := (s.region r).row0, w := (s.region r).w, h := (s.region r).h } = true ∧
    s.childrenFit r x = true) .ok
    (fun _ _ s => (s.noteRcb r x).updRegion r (fun y => { y with shareDue := true }))) ∧
  (∀ r x, Answers .shareRegion 7 (fun k e s => s.namedBy k (e.p 0 8) = some (r, x) ∧ (s.region r).exists_ = true ∧ s.childrenFit r x = false) .budget (fun _ _ s => s)) ∧
  (∀ (s : State) k addr r x, s.namedBy k addr = some (r, x) ↔ x = s.regionFrom addr ∧ r = x.number ∧ s.rcbOk x = true ∧ s.mayName k x.level x.parent = true ∧
    ((s.region r).exists_ = true → (s.region r).level = x.level ∧ (s.region r).parent = x.parent)) ∧
  (∀ r x l, Answers .moveBorder 6 (fun k e s => s.namedBy k (e.p 0 8) = some (r, x) ∧ e.p 0xA 1 ≤ 3 ∧ e.p 0xB 5 = 0 ∧ (s.region r).exists_ = true ∧
    (s.noteRcb r x).moveOk r (e.p 8 2) (e.p 0xA 1) = .ok l) .ok
    (fun _ e s => (s.noteRcb r x).beginMove r (e.p 8 2) (e.p 0xA 1) l)) ∧
  (∀ s e, Served s s.ev.a 1 e → let t := accepted s s.ev.a e; let x := t.regionFrom (e.p 0 8)
    x.level ≠ 1 → e.p 8 48 = 0 → t.rcbOk x = true → t.mayName s.ev.a x.level x.parent = true → (t.region x.number).state = 0 →
    (x.level < 2 ∨ (t.region x.parent).state = 2 ∨ (t.region x.parent).state = 3) → t.budgetOk x.number x = true → t.keysFit x.number x = true →
    (t.regions.filter (fun e => e.2.exists_)).length < 4096 →
    (t.rectSites x).length = x.w * x.h → (∀ q ∈ t.rectSites x, t.claimable x q.2.2 = true) → (t.region x.parent).noKernels = true →
    ∃ r, exec .createRegion s = .next r ∧ (r.region x.number).state = 1 ∧ (r.cmdRing s.ev.a).waiting = true ∧ (r.cmdRing s.ev.a).creating = x.number)

/-- What follows a command (R408, R413 to R419): a created region becomes active with its tiles free to run once each is scrubbed and has joined, the monitor loaded and measured
(into MEAS3: the model's choice, log entry 120); a reset region is active again once its tiles are released; a border moved into
free tiles takes effect once the region is stopped and the strip is scrubbed; the regulator's period passes without a byte of any slice or of edge memory changed (a
border move that it begins writes events to rings); a ring of island events is named. -/
def Sys2Proof.Claims.RegionEvents : Prop :=
  (∀ s : State, (s.region s.ev.a).state = 1 → (∀ e ∈ s.tiles, e.2.leaving ≠ some s.ev.a) →
    (∀ t ∈ s.ownTiles s.ev.a, (s.tile t).scrubEnd ≤ s.nowAt t) → exec .regionCreated s =
    let r := s.ev.a
    let x := s.region r
    let s := s.loadGateKeys r
    let s := (s.ownTiles r).foldl State.loadMonitor s
    let s := s.extend 3 (8 * Config.firmwareLen 2) monitorValue
    let s := s.copyTables (x.field 0x78 8) (x.field 0x80 8) (x.field 0x88 8)
    let s := s.reloadRegion r
    let s := (s.ownTiles r).foldl (fun s t => s.updTile t (fun y => { y with held := false })) s
    let d : BitVec 512 := Config.shake256 512 32616 (s.attestation r 0)
    let s := s.updRegion r (fun y => { y with state := 2, recDigest := d })
    let s := ((s.stateEvent r 1 .ok).answerCreate r .ok).later .usageRecord { a := r }
    .next (if bit x.causes 0 then s.addCause1 r 0 0 else s)) ∧
  (∀ s : State, (s.region s.ev.a).state = 1 → ((∃ e ∈ s.tiles, e.2.leaving = some s.ev.a) ∨ ∃ t ∈ s.ownTiles s.ev.a, s.nowAt t < (s.tile t).scrubEnd) →
    exec .regionCreated s = notYet s) ∧
  (∀ s : State, (s.region s.ev.a).state = 4 → (∀ e ∈ s.tiles, ¬(e.2.region = s.ev.a ∧ e.2.leaving.isSome = true)) → exec .regionResetDone s =
    let r := s.ev.a
    let s := (s.ownTiles r).foldl (fun s t => (s.updTile t (fun y => { y with held := false })).loadMonitor t) s
    let s := (s.updRegion r (fun x => { x with state := 2, causes := 0 })).reloadRegion r
    .next (s.stateEvent r 1 .ok)) ∧
  (∀ s : State, (s.region s.ev.a).strip ≠ [] → (s.region s.ev.a).stripFrom = 0 → (s.region s.ev.a).stopped = true → s.ev.flag = false →
    exec .borderMoveDone s = .next (((s.region s.ev.a).strip.foldl State.scrub s).later .borderMoveDone { a := s.ev.a, flag := true })) ∧
  (∀ s : State, (s.region s.ev.a).strip ≠ [] → (s.region s.ev.a).stripFrom = 0 → (s.region s.ev.a).stopped = true → s.ev.flag = true →
    (∃ t ∈ (s.region s.ev.a).strip, s.nowAt t < (s.tile t).scrubEnd) → exec .borderMoveDone s = notYet s) ∧
  (∀ s : State, (s.region s.ev.a).strip ≠ [] → (s.region s.ev.a).stripFrom = 0 → (s.region s.ev.a).stopped = true → s.ev.flag = true →
    (∀ t ∈ (s.region s.ev.a).strip, (s.tile t).scrubEnd ≤ s.nowAt t) →
    ∃ t, exec .borderMoveDone s = .next t ∧ (t.region s.ev.a).strip = [] ∧
      (let x := s.region s.ev.a; let g := x.grown x.stripSide x.stripLen
       (t.region s.ev.a).col0 = g.col0 ∧ (t.region s.ev.a).row0 = g.row0 ∧ (t.region s.ev.a).w = g.w ∧ (t.region s.ev.a).h = g.h)) ∧
  (∀ s : State, s.period < s.tick / 10000000 → ∃ t, exec .regulatorPeriod s = .next t ∧ t.period = s.tick / 10000000 ∧
    ∀ k, k < sysKey 0 → Memory.byte t.mem k = Memory.byte s.mem k) ∧
  (∀ s : State, ringLenOk s.ev.b = true → exec .sevaddrWrite s =
    let i := s.ev.a
    .next ((s.setIsland i { s.island i with sevaddr := s.ev.w &&& ~~~(63#64), sevlen := s.ev.b }).nameRing (siteRing i) (fld s.ev.w 6 58 * 64) s.ev.b 32))

/-- Security commands (R421, R426 to R439): an accepted key, tag, launch, attestation or ring command has its effect and is answered; a retag goes on
frame by frame, and answers, when its core fails, with the frames done; a key is in every attached module's table; the cores' heartbeats and the entropy source's retries are counted. -/
def Obligations.SecurityEvents : Prop :=
  (∀ s e key, Served s s.ev.a 0x10 e → kidOk (e.p 0 2) = true → e.p 2 2 = 0 → e.p 6 2 = 0 → e.p 4 2 ≠ 0 → (accepted s s.ev.a e).makeKey s.ev.a e = .done .ok 0 key →
    exec .keynew s = .next (key.respond s.ev.a e .ok 0)) ∧
  Answers .keydel 0x11 (fun _ e s => kidOk (e.p 0 2) = true ∧ e.p 2 6 = 0 ∧ ∀ f ∈ s.tags, f.2.kid ≠ e.p 0 2) .ok
    (fun _ e s => { s with sec := { s.sec with keys := ferase s.sec.keys (e.p 0 2) } }.loadKey (e.p 0 2) none) ∧
  (∀ (s : State) kid r key g, fget (0, 0) (s.bindKey kid r key).sec.keys kid = (r, key) ∧
    ((s.group g).role = 1 → (s.group g).answering = true → fget 0 ((s.bindKey kid r key).group g).keys kid = key) ∧
    ((s.group g).role ≠ 1 ∨ (s.group g).answering = false → (s.bindKey kid r key).group g = s.group g)) ∧
  Answers .keydel 0x11 (fun _ e s => kidOk (e.p 0 2) = true ∧ e.p 2 6 = 0 ∧ ∃ f ∈ s.tags, f.2.kid = e.p 0 2) .keybusy (fun _ _ s => s) ∧
  (∀ s e, s.ev.flag = false → Served s s.ev.a 0x12 e → (accepted s s.ev.a e).retagOk e = true → exec .retag s =
    let t := ((accepted s s.ev.a e).lockFrame e.frame).later .retag { a := s.ev.a, b := 0, flag := true }
    .next (t.setCmdRing s.ev.a { t.cmdRing s.ev.a with waiting := true })) ∧
  (∀ s e, s.ev.flag = true → s.pending s.ev.a = some e → (s.cmdRing s.ev.a).waiting = true → e.code = 0x12 → s.ev.b < e.count →
    (s.tag (e.frame + s.ev.b)).locked = true → exec .retag s =
      let t := s.retagFrame (e.frame + s.ev.b) (e.p 12 2) (e.p 14 2)
      if s.ev.b + 1 < e.count then .next ((t.lockFrame (e.frame + s.ev.b + 1)).later .retag { a := s.ev.a, b := s.ev.b + 1, flag := true })
      else .next (t.respond s.ev.a e .ok e.count)) ∧
  Answers .latelaunch 0x20 (fun _ e s => Config.imageOk (e.p 8 8) (s.memRead (edgeKey (e.p 0 8)) (e.p 8 8)) = false) .format (fun _ _ s => s) ∧
  Answers .latelaunch 0x20 (fun _ e s => Config.imageOk (e.p 8 8) (s.memRead (edgeKey (e.p 0 8)) (e.p 8 8)) = true) .ok (fun _ e s =>
    let t := s.setMeas 4 (measure 0 (8 * e.p 8 8) (s.memRead (edgeKey (e.p 0 8)) (e.p 8 8)))
    let t := { t with sec := { t.sec with launches := t.sec.launches + 1 } }
    (t.mapIslands (fun x => { x with restarting := true })).later .runtimeRestartDone {}) ∧
  (∀ s : State, exec .runtimeRestartDone s = .next (s.mapIslands (fun x => { x with restarting := false }))) ∧
  Answers .attest 0x21 (fun _ e s => e.p 2 6 = 0 ∧ e.p 8 8 % 64 = 0 ∧ (e.p 0 2 = 0 ∨ (s.region (e.p 0 2)).exists_ = true)) .ok
    (fun _ e s => s.memWrite (sysKey (e.p 8 8)) 4096 (s.attestation (e.p 0 2) (e.p 0x10 64))) ∧
  (∀ key, Answers .rekey 0x30 (fun k e s => e.p 0xC 4 = 0 ∧
      Config.gcmOpen (Config.kmac256 256 (s.cmdRing k).key 72 wrapText 1) (BitVec.ofNat 96 (e.p 0 12)) (BitVec.ofNat 128 (natBytes e.v 0 16)) (BitVec.ofNat 256 (e.p 0x10 32))
        (BitVec.ofNat 128 (e.p 0x30 16)) = some key) .ok
    (fun k _ s => s.setCmdRing k { s.cmdRing k with key := key, acc := 0 })) ∧
  Answers .resync 0x31 (fun k _ s => (s.cmdRing k).halted = true) .ok
    (fun k _ s => (s.memWrite (sysKey ((s.cmdRing k).ctl + 0x10)) 1 0).setCmdRing k { s.cmdRing k with halted := false }) ∧
  Answers .usagering 0x32 (fun _ e _ => e.p 0 8 % 64 = 0 ∧ powerOf2 16 65536 (e.p 8 4) = true ∧ e.p 12 4 = 0) .ok
    (fun _ e s => (s.nameRing usageRing (e.p 0 8) (e.p 8 4) 3584).flushUsage) ∧
  (∀ s : State, s.sec.stateB = 1 → exec .secHeartbeat s =
    if s.ev.flag then .next { s with sec := { s.sec with missed := 0 } }
    else if s.sec.missed < 2 then .next { s with sec := { s.sec with missed := s.sec.missed + 1 } } else .next s.takeover) ∧
  (∀ s : State, exec .secTakeover s = .next s.takeover) ∧
  (∀ s e key t, s.pending s.ev.a = some e → (s.cmdRing s.ev.a).waiting = true → (s.cmdRing s.ev.a).creating = 0 → e.code = 0x10 → s.ev.b ≤ s.tick →
    (s.setCmdRing s.ev.a { s.cmdRing s.ev.a with retries := (s.cmdRing s.ev.a).retries + 1 }).drawKey = (some key, t) →
    exec .entropyRetry s = .next ((t.bindKey (e.p 0 2) (e.p 4 2) key).respond s.ev.a e .ok 0)) ∧
  (∀ s e t, s.pending s.ev.a = some e → (s.cmdRing s.ev.a).waiting = true → (s.cmdRing s.ev.a).creating = 0 → e.code = 0x10 → s.ev.b ≤ s.tick →
    (s.setCmdRing s.ev.a { s.cmdRing s.ev.a with retries := (s.cmdRing s.ev.a).retries + 1 }).drawKey = (none, t) →
    exec .entropyRetry s = .next (if (s.cmdRing s.ev.a).retries < 2 then t.later .entropyRetry { a := s.ev.a, b := s.tick + 200000 }
      else t.respond s.ev.a e .entropy 0)) ∧
  (∀ (s : State) k e, s.pending k = some e → (s.cmdRing k).waiting = true → (s.cmdRing k).creating = 0 → e.code ≠ 0x12 →
    let t : State := { s with agenda := s.agenda.filter (fun a => !((a.1 == Instr.entropyRetry && a.2.a == k) || (a.1 == Instr.retag && a.2.a == k && a.2.flag))) }
    s.cutOff k = t.respond k e .interrupted 0) ∧
  (∀ (s : State) k e n f, s.pending k = some e → (s.cmdRing k).waiting = true → (s.cmdRing k).creating = 0 → e.code = 0x12 → n < e.count →
    s.tags.find? (fun f => f.2.locked && decide (e.frame ≤ f.1 ∧ f.1 < e.frame + e.count)) = some (e.frame + n, f) →
    let t : State := { s with agenda := s.agenda.filter (fun a => !((a.1 == Instr.entropyRetry && a.2.a == k) || (a.1 == Instr.retag && a.2.a == k && a.2.flag))) }
    s.cutOff k = (t.retagFrame (e.frame + n) (e.p 12 2) (e.p 14 2)).respond k e .interrupted (n + 1))

/-- Records and rings (R264, R407, R430, R442, R443): a usage report moves a tile's counts to its region, and to each boundary later than its stamp; a region's record is built each
10^9 ticks, its last with its last release tick; records that are held are written oldest first as the ring has room; a posted fault, sealed on its way, joins its ring or the hypervisor's mailbox; a reader's index frees a ring's entries, and an index out of range
marks the ring bad. -/
def Obligations.RecordEvents : Prop :=
  (∀ s : State, exec .meteringReport s = .next (s.reportTile s.ev.a) ∧ ((s.reportTile s.ev.a).tile s.ev.a).counts = [] ∧ (s.reportTile s.ev.a).mem = s.mem) ∧
  (∀ (x : Region) (stamp : Nat) (add : FMap Nat → FMap Nat), (x.count stamp add).meter = add x.meter ∧
    (x.snaps = [] → stamp < x.lastBoundary + 10 ^ 9 → (x.count stamp add).snaps = []) ∧
    (∀ b m, x.snaps = [(b, m)] → stamp < b + 10 ^ 9 → (x.count stamp add).snaps = [(b, if stamp < b then add m else m)])) ∧
  (∀ s : State, let x := s.region s.ev.a
    x.finalDue = false → x.state ≠ 0 → x.state ≠ 5 → x.lastBoundary + 10 ^ 9 + 100000 ≤ s.now x.home → x.heldRecs.length < 4 → exec .usageRecord s =
      let b := x.lastBoundary + 10 ^ 9
      let y := x.snapTo (s.now x.home)
      let m := match y.snaps.find? (fun e => e.1 == b) with | some e => e.2 | none => y.meter
      let y := { y with lastBoundary := b, snaps := y.snaps.filter (fun e => decide (b < e.1)) }
      .next (((s.setRegion s.ev.a (y.build s.ev.a 0 b m)).holdRecord s.ev.a).flushUsage.later .usageRecord { a := s.ev.a })) ∧
  (∀ s : State, let x := s.region s.ev.a
    x.finalDue = true → exec .usageRecord s = .next ((s.setRegion s.ev.a { heldRecs := (x.build s.ev.a 1 x.finalAt x.meter).heldRecs }).holdRecord s.ev.a).flushUsage) ∧
  (∀ (s : State) r rest e l, s.heldOrder = r :: rest → (s.ring usageRing).full = false → (s.region r).heldRecs = e :: l →
    s.flushUsage = ({ s.updRegion r (fun x => { x with heldRecs := l }) with lastRecord := r }.ringWrite usageRing e.toNat).writeHeld rest) ∧
  (∀ (s : State) r rest, s.heldOrder = r :: rest → (s.ring usageRing).full = true → s.flushUsage = s) ∧
  (∀ s p, s.posted.find? (fun p => s.postedRoom p && s.vc6Turn p.site p.seq) = some p →
    (∀ q, s.vc6Enter p.site (s.region p.region).home = .error q → exec .postedFaultMessage s = notYet q) ∧
    (∀ q, s.vc6Enter p.site (s.region p.region).home = .ok q →
      (p.stage = 1 → exec .postedFaultMessage s =
        .next (({ q with posted := q.posted.erase p }.ringWrite (faultRing p.region) p.entry.toNat).interruptRegion p.region 2)) ∧
      (p.stage ≠ 1 → exec .postedFaultMessage s = let h := (s.region p.region).home; let r := { q with posted := q.posted.erase p }
        .next ((r.setIsland h { r.island h with hypMailbox := (r.island h).hypMailbox ++ [p.entry] }).interruptHyp h)))) ∧
  (∀ s : State, let x := s.ring s.ev.a
    x.n ≠ 0 → let t := s.memWrite (sysKey (x.base + x.n * x.size + 8)) 8 s.ev.b
    (x.ridx ≤ s.ev.b → s.ev.b ≤ x.widx → s.ev.a ≠ usageRing → exec .ringRidxWrite s = .next (t.setRing s.ev.a { x with ridx := s.ev.b, bad := false })) ∧
    (x.widx < s.ev.b ∨ s.ev.b < x.ridx → exec .ringRidxWrite s = .next (t.setRing s.ev.a { x with bad := true })))

/-- How a slot issues (R55, R105, R106): the word at the pc, the guaranteed turn, and the order by priority. -/
def Obligations.IssueOrder : Prop := Claims.PickReadsPc ∧ Claims.GuaranteedTurn ∧ Claims.PriorityTurn

/-- The bit instructions of R147 to R149: counts, field extraction and insertion. -/
def Obligations.BitFields : Prop := Claims.InsertField ∧ Claims.ExtractField ∧ Claims.BitCounts

/-- The immediate instructions (R139 to R144). -/
def Obligations.Immediates : Prop := Claims.ImmediateAlu ∧ Claims.UpperImmediates

/-- Branches and jumps (R127, R128). -/
def Obligations.Branches : Prop := Claims.BranchDisplacement ∧ Claims.BranchTarget ∧ Claims.Jumps

/-- The instructions that start and end contexts. -/
def Obligations.Contexts : Prop := Claims.StartContext ∧ Claims.EndAndYield

/-- Taking a trap and returning from it (R116 to R120). -/
def Obligations.TrapEntries : Prop := Claims.TrapEntry ∧ Claims.MonitorTrapHalts ∧ Claims.MonitorReturn

/-- The special registers and the states of registers. -/
def Obligations.SpecialRegisters : Prop := Claims.SystemRegisters ∧ Claims.RegisterStates ∧ Claims.TimeAndTile

/-- What naming a register does: when an instruction is ready, which value a source gives, what a write leaves, and the traps of selection. -/
def Obligations.RegisterUse : Prop := Claims.RegisterWrite ∧ Claims.ProgramCounter ∧ Claims.ReadyMeans ∧ Claims.SourceValues ∧ Claims.SelectionTraps

/-- Stores to the own slice, and the bytes they leave. -/
def Obligations.Stores : Prop := Claims.LocalStores ∧ Claims.LocalStoreFrame

/-- Atomics on the own slice, and their values. -/
def Obligations.Atomics : Prop := Claims.LocalAtomics ∧ Claims.AtomicValues

/-- The fences, the order of a context's accesses behind its pops and receipts, and the instructions of translation. -/
def Obligations.FencesAndPages : Prop := Claims.Fences ∧ Claims.AccessOrder ∧ Claims.PageInstructions

/-- The instructions of messages: sends, triggered sends, ports, handlers and receive counters. -/
def Obligations.MessageInstructions : Prop := Claims.Sends ∧ Claims.TriggeredSends ∧ Claims.PortBinding ∧ Claims.HandlerTable ∧ Claims.ReceiveCounters

/-- The instructions of barriers and collectives. -/
def Obligations.BarrierInstructions : Prop := Claims.Barriers ∧ Claims.BarrierArrival ∧ Claims.Collectives

/-- The instructions of transfers, streams and trains. -/
def Obligations.TransferInstructions : Prop := Claims.Transfers ∧ Claims.Streams ∧ Claims.Trains

/-- The instructions of kernels. -/
def Obligations.KernelInstructions : Prop := Claims.KernelEnqueue ∧ Claims.KernelExit

/-- Vector floating point and conversion. -/
def Obligations.VectorArithmetic : Prop := Claims.VectorFloat ∧ Claims.VectorConvert

/-- Reductions and the carry-less vector product. -/
def Obligations.VectorFolds : Prop := Claims.VectorReductions ∧ Claims.VectorCarryless

/-- Vector loads and stores. -/
def Obligations.VectorMemory : Prop := Claims.VectorLoads ∧ Claims.VectorStores

/-- Modifier pairs, accepted and refused. -/
def Obligations.ModifierPairs : Prop := Claims.ScalarPairs ∧ Claims.IllegalPairs

/-- The matrix unit's commands, and what pushing one leaves. -/
def Obligations.MatrixPushes : Prop := Claims.MatrixCommands ∧ Claims.MatrixPushFrame

/-- The matrix unit's registers, saved and restored. -/
def Obligations.MatrixState : Prop := Claims.MatrixAccumulators ∧ Claims.MatrixSaveRestore

/-- The steps of barriers, collectives and the matrix unit. -/
def Obligations.UnitEvents : Prop := Claims.BarrierEvents ∧ Claims.MatrixEvents

/-- The steps of regions, hacks, evacuation and inspection. -/
def Obligations.RegionAndHackEvents : Prop := Claims.RegionEvents ∧ Claims.HackEvents

/-! ### Memory, reset and frames over every instruction -/

/-- The invariant of memory: the cells stand in strictly rising order and none is listed with the value an unlisted address reads as, so
that equal memories are equal data (log entry 10, the model's own form). Every step keeps it: every instruction, event, fetch and trap. -/
def Obligations.MemoryFormKept : Prop :=
  ∀ s t, s.memWf = true → step s = .next t → t.memWf = true

/-- After a wafer reset (R103, R61, R91, R276, R346): memory lists nothing and is in its canonical form, every context is free with every
register full, every barrier idle, no tile of any region, no chronometer set and no event due. The zero in registers without a reset value
in the spec is the model's choice (log entry 11). -/
def Obligations.ResetState : Prop :=
  core.reset.mem = [] ∧ core.reset.memWf = true ∧ core.reset.agenda = [] ∧
  (∀ t c, ((core.reset.tile t).ctx c).state = .free ∧ (∀ r, ((core.reset.tile t).ctx c).readG r = 0) ∧ ((core.reset.tile t).ctx c).fcsr = 0 ∧
    ((core.reset.tile t).ctx c).gs = []) ∧
  (∀ t, (core.reset.tile t).region = 0 ∧ (∀ n, ((core.reset.tile t).bar n).state = 0) ∧ (core.reset.tile t).mx.fifo = []) ∧
  (∀ f, (core.reset.field f).state = 0) ∧ (∀ k, Memory.byte core.reset.mem k = 0)

/-- What a store leaves in a slice whose error codes are all good (R3, R86, R87): the bytes stored read back, through the repair table, in
little-endian order, and every other byte of every slice stays. -/
def Obligations.SliceReadBack : Prop :=
  ∀ (s : State) (t o n v : Nat), s.ecc = [] → o + n ≤ 0x180000 → let r := s.spmStore t o n v
    r.spmRead t o n = v % 256 ^ n ∧
    (∀ u p, p < 0x180000 → (u ≠ t ∨ p < o ∨ o + n ≤ p) → Memory.byte r.mem (r.spmKey u p) = Memory.byte s.mem (s.spmKey u p))

/-- Events that neither store nor deliver (the clocks, the ports, the bays, the translation's own steps, the notes of streams and trains):
no byte of memory and no error code changes, nor any tile's registers where the event is none of a tile. Those that may put an entry into a
ring (of an error that is counted, or of a site's last seal number), or an image at its place, change the islands' memory alone. -/
def Obligations.QuietEvents : Prop :=
  (∀ i ∈ [Instr.chronometerSet, .translationExpiry, .walk, .laneFailure, .linkReplay,
      .moduleSeated, .moduleScrubDone, .bayRelease, .trainFormationRequest, .tsyncLine, .vc7Element, .gangAck, .registerWrite, .thermalAlert, .thermalNormal,
      .runtimeRestartDone],
    ∀ s t, exec i s = .next t → t.mem = s.mem ∧ t.ecc = s.ecc ∧ t.tick = s.tick) ∧
  (∀ i ∈ [Instr.clockRestored, .l2TlbLookup, .retryReply, .refusedReinject, .edgeRefusal, .messageRefusal, .streamGo, .streamAbort, .inspectionRequest, .inspectionReady],
    ∀ s t, exec i s = .next t → (∀ k, k < sysKey 0 → Memory.byte t.mem k = Memory.byte s.mem k) ∧ t.ecc = s.ecc ∧ t.tick = s.tick) ∧
  (∀ i ∈ [Instr.chronometerSet, .clockRestored, .laneFailure, .linkReplay, .moduleSeated, .moduleScrubDone, .bayRelease, .gangAck, .registerWrite,
      .thermalAlert, .thermalNormal, .runtimeRestartDone],
    ∀ s t, exec i s = .next t → t.tiles = s.tiles ∧ t.clusters = s.clusters)
end

