-- ==== Sys2Proof/Laws/Decode.lean ====
section
/-! SUPPORT. Fields of a concatenated word, which is how the encoder writes one. Rewrite with these before any arithmetic on
widths is evaluated (simp without Nat.reduceAdd), their side conditions by decide. -/
namespace Sys2Proof

theorem cut_eq (w : BitVec 32) (lo n : Nat) : cut w lo n = w.extractLsb' lo n := rfl

/-- A field above the last part lies in the parts before it. -/
theorem extract_append_hi {n m : Nat} (a : BitVec n) (b : BitVec m) (lo k : Nat) (h : m ≤ lo) :
    (a ++ b).extractLsb' lo k = a.extractLsb' (lo - m) k := by
  ext i hi
  simp [BitVec.getLsbD_append, show ¬ lo + i < m by omega, show lo + i - m = lo - m + i by omega]

/-- A field inside the last part. -/
theorem extract_append_lo {n m : Nat} (a : BitVec n) (b : BitVec m) (lo k : Nat) (h : lo + k ≤ m) :
    (a ++ b).extractLsb' lo k = b.extractLsb' lo k := by
  ext i hi
  simp [BitVec.getLsbD_append, show lo + i < m by omega]

/-- A field that is the whole part. -/
theorem extract_all {n : Nat} (a : BitVec n) (lo : Nat) (h : lo = 0) : a.extractLsb' lo n = a := by
  subst h
  ext i _
  simp

theorem toNat_append_eq {n m : Nat} (a : BitVec n) (b : BitVec m) : (a ++ b).toNat = a.toNat * 2 ^ m + b.toNat := by
  rw [BitVec.toNat_append, ← Nat.shiftLeft_add_eq_or_of_lt b.isLt, Nat.shiftLeft_eq]

theorem toNat_cut (w : BitVec 32) (lo n : Nat) : (cut w lo n).toNat = w.toNat / 2 ^ lo % 2 ^ n := by
  simp [cut, Nat.shiftRight_eq_div_pow]

/-- Bytes and word (R3). -/
theorem bytesWord_wordBytes (w : BitVec 32) : bytesWord (wordBytes w) = some w := by
  simp only [bytesWord, wordBytes, Option.some.injEq]
  apply BitVec.eq_of_toNat_eq
  simp only [toNat_append_eq, toNat_cut]
  have := w.isLt
  omega

/-- An instruction that decodes is well-formed. -/
theorem decode_wf {w : BitVec 32} {i : Instr} (h : decode w = .ok i) : i.wf = true := by
  unfold decode at h
  split at h
  · split at h
    · cases h
    · split at h
      · rename_i hw; cases h; exact hw
      · cases h
  · cases h

end Sys2Proof
end

