-- ==== Sys2Proof/Laws/Store.lean ====
section
/-! SUPPORT. Laws of sparse maps and of little-endian memory: read after write, and the canonical form every write keeps. -/
namespace Sys2Proof.Machine

variable {α : Type}

/-! ### Reading -/

@[simp] theorem fget_nil (d : α) (k : Nat) : fget d [] k = d := rfl

theorem fget_cons (d : α) (k' : Nat) (v : α) (r : FMap α) (k : Nat) :
    fget d ((k', v) :: r) k = if k' = k then v else fget d r k := rfl

@[simp] theorem fget_ferase_same (d : α) (m : FMap α) (k : Nat) : fget d (ferase m k) k = d := by
  induction m with
  | nil => rfl
  | cons e r ih =>
    by_cases h : e.1 = k
    · simpa [ferase, List.filter_cons, h] using ih
    · have h' : ferase (e :: r) k = e :: ferase r k := by simp [ferase, h]
      rw [h']
      simp [fget, h, ih]

theorem fget_ferase_ne (d : α) (m : FMap α) {k j : Nat} (hne : j ≠ k) : fget d (ferase m k) j = fget d m j := by
  induction m with
  | nil => rfl
  | cons e r ih =>
    by_cases h : e.1 = k
    · have h' : ferase (e :: r) k = ferase r k := by simp [ferase, h]
      have : e.1 ≠ j := by omega
      rw [h', ih]
      simp [fget, this]
    · have h' : ferase (e :: r) k = e :: ferase r k := by simp [ferase, h]
      rw [h']
      by_cases hj : e.1 = j <;> simp [fget, hj, ih]

theorem fget_finsert_ne (d : α) (m : FMap α) {k j : Nat} (v : α) (hne : j ≠ k) : fget d (finsert m k v) j = fget d m j := by
  induction m with
  | nil => simp [finsert, fget, Ne.symm hne]
  | cons e r ih =>
    by_cases h : k < e.1
    · simp [finsert, h, fget, Ne.symm hne]
    · have h' : finsert (e :: r) k v = e :: finsert r k v := by simp [finsert, h]
      rw [h']
      by_cases hj : e.1 = j <;> simp [fget, hj, ih]

theorem fget_finsert_same (d : α) (m : FMap α) (k : Nat) (v : α) (hk : ∀ e ∈ m, e.1 ≠ k) : fget d (finsert m k v) k = v := by
  induction m with
  | nil => simp [finsert, fget]
  | cons e r ih =>
    by_cases h : k < e.1
    · simp [finsert, h, fget]
    · have he : e.1 ≠ k := hk e (by simp)
      simp [finsert, h, fget, he, ih (fun e' he' => hk e' (by simp [he']))]

theorem ne_of_mem_ferase (m : FMap α) (k : Nat) : ∀ e ∈ ferase m k, e.1 ≠ k := by
  intro e he
  simpa [ferase] using (List.mem_filter.mp he).2

variable [DecidableEq α]

/-- Read after write at the same number. -/
@[simp] theorem fget_fset_same (d : α) (m : FMap α) (k : Nat) (v : α) : fget d (fset d m k v) k = v := by
  unfold fset
  split
  · rename_i h; rw [fget_ferase_same, h]
  · exact fget_finsert_same d _ k v (ne_of_mem_ferase m k)

/-- A write leaves every other number alone. -/
theorem fget_fset_ne (d : α) (m : FMap α) {k j : Nat} (v : α) (hne : j ≠ k) : fget d (fset d m k v) j = fget d m j := by
  unfold fset
  split
  · exact fget_ferase_ne d m hne
  · rw [fget_finsert_ne d _ v hne, fget_ferase_ne d m hne]

/-- Both together. -/
theorem fget_fset (d : α) (m : FMap α) (k j : Nat) (v : α) : fget d (fset d m k v) j = if j = k then v else fget d m j := by
  by_cases h : j = k
  · simp [h]
  · simp [h, fget_fset_ne]

/-! ### The canonical form -/

theorem fwfFrom_mono {d : α} {m : FMap α} {lo lo' : Nat} (h : fwfFrom d lo m = true) (hl : lo' ≤ lo) : fwfFrom d lo' m = true := by
  cases m with
  | nil => rfl
  | cons e r =>
    simp only [fwfFrom, Bool.and_eq_true, decide_eq_true_eq] at h ⊢
    exact ⟨⟨by omega, h.1.2⟩, h.2⟩

theorem fwfFrom_le {d : α} {m : FMap α} {lo : Nat} (h : fwfFrom d lo m = true) : ∀ e ∈ m, lo ≤ e.1 := by
  induction m generalizing lo with
  | nil => simp
  | cons e r ih =>
    simp only [fwfFrom, Bool.and_eq_true, decide_eq_true_eq] at h
    intro x hx
    rcases List.mem_cons.mp hx with rfl | hx
    · exact h.1.1
    · have := ih h.2 x hx; omega

/-- Leaving entries out keeps the canonical form. -/
theorem fwfFrom_filter {d : α} {m : FMap α} {lo : Nat} (p : Nat × α → Bool) (h : fwfFrom d lo m = true) :
    fwfFrom d lo (m.filter p) = true := by
  induction m generalizing lo with
  | nil => rfl
  | cons e r ih =>
    simp only [fwfFrom, Bool.and_eq_true, decide_eq_true_eq] at h
    rw [List.filter_cons]
    split
    · simp only [fwfFrom, Bool.and_eq_true, decide_eq_true_eq]
      exact ⟨h.1, ih h.2⟩
    · exact fwfFrom_mono (ih h.2) (by omega)

theorem fwfFrom_finsert {d : α} {m : FMap α} {lo k : Nat} {v : α} (h : fwfFrom d lo m = true) (hk : ∀ e ∈ m, e.1 ≠ k)
    (hv : v ≠ d) (hl : lo ≤ k) : fwfFrom d lo (finsert m k v) = true := by
  induction m generalizing lo with
  | nil => simp [finsert, fwfFrom, hv, hl]
  | cons e r ih =>
    simp only [fwfFrom, Bool.and_eq_true, decide_eq_true_eq] at h
    by_cases hlt : k < e.1
    · simp only [finsert, hlt, if_true, fwfFrom, Bool.and_eq_true, decide_eq_true_eq]
      exact ⟨⟨hl, hv⟩, ⟨by omega, h.1.2⟩, h.2⟩
    · have hne : e.1 ≠ k := hk e (by simp)
      simp only [finsert, hlt, if_false, fwfFrom, Bool.and_eq_true, decide_eq_true_eq]
      exact ⟨h.1, ih h.2 (fun e' he' => hk e' (by simp [he'])) (by omega)⟩

/-- Every write keeps the canonical form. -/
theorem fwf_fset {d : α} {m : FMap α} (k : Nat) (v : α) (h : fwf d m = true) : fwf d (fset d m k v) = true := by
  unfold fset
  split
  · exact fwfFrom_filter _ h
  · rename_i hv
    exact fwfFrom_finsert (fwfFrom_filter _ h) (ne_of_mem_ferase m k) hv (Nat.zero_le k)

theorem fwfFrom_append {d : α} {a b : FMap α} {lo hi : Nat} (ha : fwfFrom d lo a = true) (hab : ∀ e ∈ a, e.1 < hi)
    (hl : lo ≤ hi) (hb : fwfFrom d hi b = true) : fwfFrom d lo (a ++ b) = true := by
  induction a generalizing lo with
  | nil => exact fwfFrom_mono hb hl
  | cons e r ih =>
    simp only [fwfFrom, Bool.and_eq_true, decide_eq_true_eq] at ha
    simp only [List.cons_append, fwfFrom, Bool.and_eq_true, decide_eq_true_eq]
    have he : e.1 < hi := hab e (by simp)
    exact ⟨ha.1, ih ha.2 (fun e' he' => hab e' (by simp [he'])) (by omega)⟩

theorem fwfFrom_raise {d : α} {m : FMap α} {lo hi : Nat} (h : fwfFrom d lo m = true) (hm : ∀ e ∈ m, hi ≤ e.1) :
    fwfFrom d hi m = true := by
  cases m with
  | nil => rfl
  | cons e r =>
    simp only [fwfFrom, Bool.and_eq_true, decide_eq_true_eq] at h ⊢
    exact ⟨⟨hm e (by simp), h.1.2⟩, h.2⟩

/-! ### Memory -/

@[simp] theorem Memory.byte_put_same (m : Memory) (a : Nat) (v : Byte) : (m.put a v).byte a = v := fget_fset_same _ _ _ _

theorem Memory.byte_put_ne (m : Memory) {a b : Nat} (v : Byte) (h : b ≠ a) : (m.put a v).byte b = m.byte b :=
  fget_fset_ne _ _ _ h

theorem Memory.put_wf {m : Memory} (a : Nat) (v : Byte) (h : m.wf = true) : (m.put a v).wf = true := fwf_fset a v h

theorem Memory.writeLE_wf {m : Memory} (a n v : Nat) (h : m.wf = true) : (m.writeLE a n v).wf = true := by
  induction n generalizing m a v with
  | zero => exact h
  | succ n ih => exact ih _ _ (Memory.put_wf _ _ h)

theorem Memory.clear_wf {m : Memory} (lo n : Nat) (h : m.wf = true) : (m.clear lo n).wf = true := fwfFrom_filter _ h

theorem Memory.filter_wf {m : Memory} (p : Host.Cell → Bool) (h : m.wf = true) : Memory.wf (m.filter p) = true :=
  fwfFrom_filter _ h

/-- A write outside an address leaves the byte there alone. -/
theorem Memory.byte_writeLE_ne (m : Memory) (a n v b : Nat) (h : b < a ∨ a + n ≤ b) : (m.writeLE a n v).byte b = m.byte b := by
  induction n generalizing m a v with
  | zero => rfl
  | succ n ih =>
    rw [Memory.writeLE, ih _ _ _ (by omega), Memory.byte_put_ne _ _ (by omega)]

/-- The bytes a write leaves. -/
theorem Memory.byte_writeLE (m : Memory) (a n v i : Nat) (h : i < n) :
    (m.writeLE a n v).byte (a + i) = BitVec.ofNat 8 (v / 256 ^ i) := by
  induction n generalizing m a v i with
  | zero => omega
  | succ n ih =>
    rw [Memory.writeLE]
    cases i with
    | zero => rw [Memory.byte_writeLE_ne _ _ _ _ _ (by omega)]; simp
    | succ i =>
      have := ih (m.put a (BitVec.ofNat 8 v)) (a + 1) (v / 256) i (by omega)
      rw [show a + 1 + i = a + (i + 1) by omega] at this
      rw [this, Nat.div_div_eq_div_mul, Nat.pow_succ']

/-- Read after write: the low bytes of the number written. -/
theorem Memory.readLE_writeLE (m : Memory) (a n v : Nat) : (m.writeLE a n v).readLE a n = v % 256 ^ n := by
  induction n generalizing m a v with
  | zero => simp [Memory.readLE, Nat.mod_one]
  | succ n ih =>
    rw [Memory.readLE, Memory.writeLE, Memory.byte_writeLE_ne _ _ _ _ _ (by omega), Memory.byte_put_same, ih]
    have h1 : (BitVec.ofNat 8 v).toNat = v % 256 := by simp
    rw [h1, Nat.pow_succ', Nat.mod_mul]

/-- A read away from the bytes written. -/
theorem Memory.readLE_writeLE_ne (m : Memory) (a n v b k : Nat) (h : b + k ≤ a ∨ a + n ≤ b) :
    (m.writeLE a n v).readLE b k = m.readLE b k := by
  induction k generalizing b with
  | zero => rfl
  | succ k ih =>
    rw [Memory.readLE, Memory.readLE, ih (b + 1) (by omega), Memory.byte_writeLE_ne _ _ _ _ _ (by omega)]

theorem Memory.readLE_lt (m : Memory) (a n : Nat) : m.readLE a n < 256 ^ n := by
  induction n generalizing a with
  | zero => simp [Memory.readLE]
  | succ n ih =>
    have h1 := ih (a + 1)
    have h2 : (m.byte a).toNat < 256 := (m.byte a).isLt
    rw [Memory.readLE, Nat.pow_succ']
    omega

theorem fwfFrom_fillBytes (lo n k : Nat) (f : Nat → Byte) :
    fwfFrom 0#8 (lo + k) ((List.range' k n).filterMap (fun i => if f i = 0#8 then none else some (lo + i, f i))) = true := by
  induction n generalizing k with
  | zero => rfl
  | succ n ih =>
    rw [List.range'_succ, List.filterMap_cons]
    by_cases h : f k = 0#8
    · simp only [h, if_true]
      exact fwfFrom_mono (ih (k + 1)) (by omega)
    · simp only [h, if_false, fwfFrom, Bool.and_eq_true, decide_eq_true_eq]
      exact ⟨⟨Nat.le_refl _, h⟩, ih (k + 1)⟩

theorem Memory.fill_wf {m : Memory} (lo n : Nat) (f : Nat → Byte) (h : m.wf = true) : (m.fill lo n f).wf = true := by
  unfold Memory.wf fwf Memory.fill
  refine fwfFrom_append (hi := lo) (fwfFrom_filter _ h) ?_ (Nat.zero_le _) ?_
  · intro e he; simpa using (List.mem_filter.mp he).2
  · refine fwfFrom_append (hi := lo + n) ?_ ?_ (by omega) ?_
    · have := fwfFrom_fillBytes lo n 0 f
      rwa [Nat.add_zero, ← List.range_eq_range'] at this
    · intro e he
      obtain ⟨i, hi, hi'⟩ := List.mem_filterMap.mp he
      have hi2 := List.mem_range.mp hi
      split at hi'
      · cases hi'
      · cases hi'; show lo + i < lo + n; omega
    · refine fwfFrom_raise (fwfFrom_filter _ h) ?_
      intro e he; simpa using (List.mem_filter.mp he).2

theorem Memory.wf_foldl {β : Type} (f : Memory → β → Memory) (hf : ∀ m b, m.wf = true → (f m b).wf = true) (l : List β) :
    ∀ m : Memory, m.wf = true → (l.foldl f m).wf = true := by
  induction l with
  | nil => exact fun _ h => h
  | cons b r ih => exact fun m h => ih _ (hf m b h)

end Sys2Proof.Machine
end

