-- ==== Sys2Proof/Laws/Events.lean ====
section
/-! SUPPORT. The shared operations of commands and of memory: what serving a ring entry can do (R434 to R437), that writes keep memory canonical, and what
a counted error or a report to an island's ring leaves alone. -/
namespace Sys2Proof.Machine

/-- No entry is pending: nothing happens. -/
theorem State.serve_none {s : State} {k c : Nat} {run : Cmd → State → Ran} (h : s.pending k = none) : s.serve k c run = .next s := by
  unfold State.serve; rw [h]

/-- A command is under way on the ring: the entry behind it waits. -/
theorem State.serve_waiting {s : State} {k c : Nat} {run : Cmd → State → Ran} (h : (s.cmdRing k).waiting = true) : s.serve k c run = .next s := by
  unfold State.serve
  split
  · rfl
  · dsimp only; rw [if_pos (Or.inl h)]

/-- It is not the ring's turn: the entry waits for those before it (R434). -/
theorem State.serve_behind {s : State} {k c : Nat} {e : Cmd} {run : Cmd → State → Ran} (h0 : s.pending k = some e) (h1 : (s.cmdRing k).waiting = false)
    (h3 : e.code = c) (h : s.ringsTurn k = false) : s.serve k c run = notYet s := by
  unfold State.serve
  rw [h0]
  dsimp only
  rw [if_neg (by simp [h1, h3]), if_pos (by simp [h])]

/-- With one ring alone it is always its turn. -/
theorem State.ringsTurn_one {s : State} {k : Nat} {x : CmdRing} (h : s.sec.rings = [(k, x)]) : s.ringsTurn k = true := by
  unfold State.ringsTurn State.ready
  simp only [h, List.all_eq_true, List.mem_map, List.mem_filter, List.mem_singleton]
  rintro j ⟨e, ⟨rfl, -⟩, rfl⟩
  simp

/-- The entry holds another command of the table. -/
theorem State.serve_other {s : State} {k c : Nat} {e : Cmd} {run : Cmd → State → Ran} (h0 : s.pending k = some e) (h : e.code ≠ c)
    (hl : (cmdLen e.code).isSome = true) : s.serve k c run = .next s := by
  unfold State.serve
  rw [h0]
  dsimp only
  rw [if_pos (Or.inr ⟨h, hl⟩)]

/-- An accepted command whose run answers at once (R435, R437). -/
theorem State.serve_done {s : State} {k c : Nat} {e : Cmd} {run : Cmd → State → Ran} {st : Status} {w : Nat} {s' : State} (h0 : s.pending k = some e)
    (h1 : (s.cmdRing k).waiting = false) (ht : s.ringsTurn k = true) (hc : (s.cmdRing k).cut = false) (h3 : e.code = c) (h4 : (s.cmdRing k).decide_ e = .ok) (h5 : e.formOk k = true)
    (h2 : run e ((s.takeTurn k).setCmdRing k { s.cmdRing k with acc := e.seq }) = .done st w s') : s.serve k c run = .next (s'.respond k e st w) := by
  unfold State.serve
  rw [h0]
  dsimp only
  rw [if_neg (by simp [h1, h3]), if_neg (by simp [ht]), h4]
  dsimp only
  rw [if_neg (by simp [h5]), h2]
  simp [hc]

/-- An accepted command that goes on. -/
theorem State.serve_later {s : State} {k c : Nat} {e : Cmd} {run : Cmd → State → Ran} {s' : State} (h0 : s.pending k = some e)
    (h1 : (s.cmdRing k).waiting = false) (ht : s.ringsTurn k = true) (h3 : e.code = c) (h4 : (s.cmdRing k).decide_ e = .ok) (h5 : e.formOk k = true)
    (h2 : run e ((s.takeTurn k).setCmdRing k { s.cmdRing k with acc := e.seq }) = .later s') :
    s.serve k c run = .next (s'.setCmdRing k { s'.cmdRing k with waiting := true }) := by
  unfold State.serve
  rw [h0]
  dsimp only
  rw [if_neg (by simp [h1, h3]), if_neg (by simp [ht]), h4]
  dsimp only
  rw [if_neg (by simp [h5]), h2]

/-- An accepted command of another layout is answered FORMAT and has no effect but taking its number (R434). -/
theorem State.serve_format {s : State} {k c : Nat} {e : Cmd} {run : Cmd → State → Ran} (h0 : s.pending k = some e)
    (h1 : (s.cmdRing k).waiting = false) (ht : s.ringsTurn k = true) (h3 : e.code = c) (h4 : (s.cmdRing k).decide_ e = .ok) (h5 : e.formOk k = false) :
    s.serve k c run = .next (((s.takeTurn k).setCmdRing k { s.cmdRing k with acc := e.seq }).respond k e .format 0) := by
  unfold State.serve
  rw [h0]
  dsimp only
  rw [if_neg (by simp [h1, h3]), if_neg (by simp [ht]), h4]
  dsimp only
  rw [if_pos (by simp [h5])]

/-- Serving an entry always leaves a next state: no entry of a ring stops the machine. -/
theorem State.serve_next (s : State) (k c : Nat) (run : Cmd → State → Ran) : ∃ t, s.serve k c run = .next t := by
  unfold State.serve
  dsimp only
  repeat' split
  all_goals exact ⟨_, rfl⟩

theorem State.memWrite_wf {s : State} (key n v : Nat) (h : Memory.wf s.mem = true) : Memory.wf (s.memWrite key n v).mem = true :=
  Memory.writeLE_wf _ _ _ h

theorem State.spmWrite_wf (n : Nat) {s : State} (t off v : Nat) (h : Memory.wf s.mem = true) : Memory.wf (s.spmWrite t off n v).mem = true := by
  induction n generalizing s off v with
  | zero => exact h
  | succ n ih => exact ih _ _ (Memory.put_wf _ _ h)

theorem State.zeroKeys_wf {s : State} (lo hi : Nat) (h : Memory.wf s.mem = true) : Memory.wf (s.zeroKeys lo hi).mem = true := Memory.clear_wf _ _ h

/-! ### What counting and reporting leave alone -/

/-- Every part of a state that a report to an island's ring, or a counted error of a site, leaves as it is: the slices and edge memory, their error codes, the
tiles, regions, clusters, fields and frame tags, time, and the word that is issuing. -/
structure Quiet (s t : State) : Prop where
  low : ∀ k, k < sysKey 0 → Memory.byte t.mem k = Memory.byte s.mem k
  ecc : t.ecc = s.ecc
  tiles : t.tiles = s.tiles
  regions : t.regions = s.regions
  clusters : t.clusters = s.clusters
  fields : t.fields = s.fields
  tags : t.tags = s.tags
  tick : t.tick = s.tick
  slot : t.slot = s.slot
  ev : t.ev = s.ev
  wf : Memory.wf s.mem = true → Memory.wf t.mem = true

theorem Quiet.refl (s : State) : Quiet s s := ⟨fun _ _ => rfl, rfl, rfl, rfl, rfl, rfl, rfl, rfl, rfl, rfl, id⟩

theorem Quiet.trans {s t u : State} (h : Quiet s t) (g : Quiet t u) : Quiet s u :=
  ⟨fun k hk => (g.low k hk).trans (h.low k hk), g.ecc.trans h.ecc, g.tiles.trans h.tiles, g.regions.trans h.regions, g.clusters.trans h.clusters,
    g.fields.trans h.fields, g.tags.trans h.tags, g.tick.trans h.tick, g.slot.trans h.slot, g.ev.trans h.ev, fun w => g.wf (h.wf w)⟩

theorem quiet_memWrite (s : State) (a n v : Nat) : Quiet s (s.memWrite (sysKey a) n v) :=
  ⟨fun k hk => Memory.byte_writeLE_ne _ _ _ _ _ (.inl (by unfold sysKey at *; omega)), rfl, rfl, rfl, rfl, rfl, rfl, rfl, rfl, rfl, State.memWrite_wf _ _ _⟩

theorem quiet_setRing (s : State) (k : Nat) (x : Ring) : Quiet s (s.setRing k x) := ⟨fun _ _ => rfl, rfl, rfl, rfl, rfl, rfl, rfl, rfl, rfl, rfl, id⟩

theorem quiet_setSite (s : State) (t : Nat) (x : Site) : Quiet s (s.setSite t x) := ⟨fun _ _ => rfl, rfl, rfl, rfl, rfl, rfl, rfl, rfl, rfl, rfl, id⟩

theorem quiet_ringWrite (s : State) (k v : Nat) : Quiet s (s.ringWrite k v) :=
  ((quiet_memWrite _ _ _ _).trans (quiet_memWrite _ _ _ _)).trans (quiet_setRing _ _ _)

theorem quiet_interrupt (s : State) (i a b : Nat) : Quiet s (s.interrupt i a b) :=
  ⟨fun _ _ => rfl, rfl, rfl, rfl, rfl, rfl, rfl, rfl, rfl, rfl, id⟩

theorem quiet_raise (s : State) (e : EventMsg) : Quiet s (s.raise e) := by
  unfold State.raise
  split
  · unfold State.eventWrite
    dsimp only
    split
    · exact (quiet_ringWrite _ _ _).trans (quiet_interrupt _ _ _ _)
    · exact (quiet_ringWrite _ _ _).trans (quiet_interrupt _ _ _ _)
  · exact ⟨fun _ _ => rfl, rfl, rfl, rfl, rfl, rfl, rfl, rfl, rfl, rfl, id⟩

/-- All that counting correctable errors at a site can do beside the site's own counter and its state (R88, R212, R446). -/
theorem quiet_countCec (s : State) (t n : Nat) : Quiet s (s.countCec t n) := by
  unfold State.countCec
  split
  · exact Quiet.refl s
  · dsimp only
    split
    · exact (quiet_setSite _ _ _).trans ((quiet_setSite _ _ _).trans (quiet_raise _ _))
    · exact quiet_setSite _ _ _

theorem quiet_degrade (s : State) (t : Nat) : Quiet s (s.degrade t) := (quiet_setSite _ _ _).trans (quiet_raise _ _)

theorem quiet_event (s : State) (r code src mode kern col row : Nat) (a0 a1 : Word) : Quiet s (s.event r code src mode kern col row a0 a1) := quiet_raise _ _

/-- The number of one more seal changes the site's counter, and reports the site when that was the last (R430). -/
theorem quiet_takeSeq (s : State) (u : Nat) : Quiet s (s.takeSeq u) := by
  unfold State.takeSeq
  dsimp only
  split
  · exact Quiet.refl s
  · split
    · exact (quiet_setSite _ _ _).trans (quiet_degrade _ _)
    · exact quiet_setSite _ _ _

/-- The counter of seals never runs over: one that is spent stays so (R430). -/
theorem State.takeSeq_spent {s : State} {u : Nat} (h : (s.site u).sealCtr = BitVec.allOnes 64) : s.takeSeq u = s := by
  unfold State.takeSeq
  dsimp only
  rw [if_pos h]

theorem quiet_tileEvent (s : State) (t code src mode kern : Nat) (a0 a1 : Word) : Quiet s (s.tileEvent t code src mode kern a0 a1) := by
  unfold State.tileEvent
  dsimp only
  split
  all_goals exact ⟨fun _ _ => rfl, rfl, rfl, rfl, rfl, rfl, rfl, rfl, rfl, rfl, id⟩

/-- The mirror-lost event leaves the copy that is written as it is (R323, R458). -/
theorem quiet_mirrorLost (s : State) (r pa : Nat) : Quiet s (s.mirrorLost r pa) := quiet_event _ _ _ _ _ _ _ _ _ _

theorem quiet_streamEvent (s : State) (t n : Nat) (e : StreamEnd) (a0 : Word) (d : BitVec 32) : Quiet s (s.streamEvent t n e a0 d) :=
  quiet_tileEvent _ _ _ _ _ _ _ _

theorem quiet_streamEnded (s : State) (t n : Nat) : Quiet s (s.streamEnded t n) := quiet_streamEvent _ _ _ _ _ _

/-- What goes beside a trap to the home island changes nothing of the tile that traps (R446). -/
theorem quiet_notice (s : State) (code : Nat) (tval : Word) : Quiet s (s.notice code tval) := by
  unfold State.notice
  dsimp only
  split
  · split
    · exact quiet_streamEnded _ _ _
    · exact Quiet.refl s
  · split
    · generalize decode s.slot.word = w
      split
      · exact quiet_tileEvent _ _ _ _ _ _ _ _
      · exact Quiet.refl s
    · exact Quiet.refl s

/-- Counting the errors of words behind ports leaves the words as they are (R254, R446). -/
theorem quiet_countWords (s : State) (copies ks : List Nat) : Quiet s (s.countWords copies ks) := by
  unfold State.countWords
  induction ks generalizing s with
  | nil => exact Quiet.refl s
  | cons k ks ih =>
    rw [List.foldl_cons]
    refine Quiet.trans ?_ (ih _)
    split
    · exact Quiet.refl s
    · exact quiet_countCec _ _ _

/-! ### Turns, receipts and answers -/

/-- To be served changes whose turn it is, and nothing else (R434). -/
theorem quiet_takeTurn (s : State) (k : Nat) : Quiet s (s.takeTurn k) := ⟨fun _ _ => rfl, rfl, rfl, rfl, rfl, rfl, rfl, rfl, rfl, rfl, id⟩

@[simp] theorem State.takeTurn_turn (s : State) (k : Nat) : (s.takeTurn k).sec.turn = k := rfl
@[simp] theorem State.takeTurn_cmdRing (s : State) (k j : Nat) : (s.takeTurn k).cmdRing j = s.cmdRing j := rfl
@[simp] theorem State.takeTurn_pending (s : State) (k j : Nat) : (s.takeTurn k).pending j = s.pending j := rfl

/-- Nothing holds the accesses of a context back that has claimed no command and has no read out (R235, R236). -/
theorem Tile.accessHeld_none {x : Tile} {c : Nat} (h0 : x.mx.fifo = []) (h1 : x.xfer = []) (h2 : x.q.ret = []) : x.accessHeld c = false := by
  simp [Tile.accessHeld, h0, h1, h2]

/-- A claim holds every access of its context back, and of no other context by itself (R235). -/
theorem Tile.accessHeld_claim {x : Tile} {c : Nat} {e : MCmd} (h : e ∈ x.mx.fifo) (h0 : e.claimed = true) (h1 : e.claimCtx = c) : x.accessHeld c = true := by
  have : x.mx.fifo.any (fun e => e.claimed && e.claimCtx == c) = true := List.any_eq_true.mpr ⟨e, h, by simp [h0, h1]⟩
  simp [Tile.accessHeld, this]

/-- An answer on a way that seals, from a site whose counter is spent, does not leave (R430). -/
theorem State.sendBack_spent {s : State} {t : Nat} {d : Dst} {i : Instr} {a : EvArgs} (h : (s.site (s.backSite t d)).sealCtr = BitVec.allOnes 64)
    (h1 : s.sealedWay t d = true) : s.sendBack t d i a = s := by
  unfold State.sendBack
  rw [if_pos ⟨h, h1⟩]

/-- An answer on a way that no gate seals goes, and takes no number (R317, R430). -/
theorem State.sendBack_clear {s : State} {t : Nat} {d : Dst} {i : Instr} {a : EvArgs} (h1 : s.sealedWay t d = false) : s.sendBack t d i a = s.later i a := by
  unfold State.sendBack State.numberBack
  simp [h1]

end Sys2Proof.Machine
end

