-- ==== Sys2Proof/Laws/State.lean ====
section
/-! SUPPORT. One lemma per field of the state per update of it, true by rfl, so that no proof unfolds a record update; and
reading a part after writing it. -/
namespace Sys2Proof.Machine

/-! ### State.setTile -/

@[simp] theorem State.setTile_tick (s : State) (t : Nat) (x : Tile) : (s.setTile t x).tick = s.tick := rfl
@[simp] theorem State.setTile_draws (s : State) (t : Nat) (x : Tile) : (s.setTile t x).draws = s.draws := rfl
@[simp] theorem State.setTile_agenda (s : State) (t : Nat) (x : Tile) : (s.setTile t x).agenda = s.agenda := rfl
@[simp] theorem State.setTile_ev (s : State) (t : Nat) (x : Tile) : (s.setTile t x).ev = s.ev := rfl
@[simp] theorem State.setTile_slot (s : State) (t : Nat) (x : Tile) : (s.setTile t x).slot = s.slot := rfl
@[simp] theorem State.setTile_mem (s : State) (t : Nat) (x : Tile) : (s.setTile t x).mem = s.mem := rfl
@[simp] theorem State.setTile_ecc (s : State) (t : Nat) (x : Tile) : (s.setTile t x).ecc = s.ecc := rfl
@[simp] theorem State.setTile_sites (s : State) (t : Nat) (x : Tile) : (s.setTile t x).sites = s.sites := rfl
@[simp] theorem State.setTile_clusters (s : State) (t : Nat) (x : Tile) : (s.setTile t x).clusters = s.clusters := rfl
@[simp] theorem State.setTile_fields (s : State) (t : Nat) (x : Tile) : (s.setTile t x).fields = s.fields := rfl
@[simp] theorem State.setTile_islands (s : State) (t : Nat) (x : Tile) : (s.setTile t x).islands = s.islands := rfl
@[simp] theorem State.setTile_ports (s : State) (t : Nat) (x : Tile) : (s.setTile t x).ports = s.ports := rfl
@[simp] theorem State.setTile_groups (s : State) (t : Nat) (x : Tile) : (s.setTile t x).groups = s.groups := rfl
@[simp] theorem State.setTile_bays (s : State) (t : Nat) (x : Tile) : (s.setTile t x).bays = s.bays := rfl
@[simp] theorem State.setTile_tags (s : State) (t : Nat) (x : Tile) : (s.setTile t x).tags = s.tags := rfl
@[simp] theorem State.setTile_regions (s : State) (t : Nat) (x : Tile) : (s.setTile t x).regions = s.regions := rfl
@[simp] theorem State.setTile_rings (s : State) (t : Nat) (x : Tile) : (s.setTile t x).rings = s.rings := rfl
@[simp] theorem State.setTile_sec (s : State) (t : Nat) (x : Tile) : (s.setTile t x).sec = s.sec := rfl
@[simp] theorem State.setTile_module (s : State) (t : Nat) (x : Tile) : (s.setTile t x).module = s.module := rfl
@[simp] theorem State.setTile_events (s : State) (t : Nat) (x : Tile) : (s.setTile t x).events = s.events := rfl
@[simp] theorem State.setTile_posted (s : State) (t : Nat) (x : Tile) : (s.setTile t x).posted = s.posted := rfl
@[simp] theorem State.setTile_nextId (s : State) (t : Nat) (x : Tile) : (s.setTile t x).nextId = s.nextId := rfl
@[simp] theorem State.setTile_gangOut (s : State) (t : Nat) (x : Tile) : (s.setTile t x).gangOut = s.gangOut := rfl
@[simp] theorem State.setTile_heldOrder (s : State) (t : Nat) (x : Tile) : (s.setTile t x).heldOrder = s.heldOrder := rfl
@[simp] theorem State.setTile_lastRecord (s : State) (t : Nat) (x : Tile) : (s.setTile t x).lastRecord = s.lastRecord := rfl
@[simp] theorem State.setTile_period (s : State) (t : Nat) (x : Tile) : (s.setTile t x).period = s.period := rfl
@[simp] theorem State.setTile_images (s : State) (t : Nat) (x : Tile) : (s.setTile t x).images = s.images := rfl

/-! ### State.updTile -/

@[simp] theorem State.updTile_tick (s : State) (t : Nat) (f : Tile → Tile) : (s.updTile t f).tick = s.tick := rfl
@[simp] theorem State.updTile_draws (s : State) (t : Nat) (f : Tile → Tile) : (s.updTile t f).draws = s.draws := rfl
@[simp] theorem State.updTile_agenda (s : State) (t : Nat) (f : Tile → Tile) : (s.updTile t f).agenda = s.agenda := rfl
@[simp] theorem State.updTile_ev (s : State) (t : Nat) (f : Tile → Tile) : (s.updTile t f).ev = s.ev := rfl
@[simp] theorem State.updTile_slot (s : State) (t : Nat) (f : Tile → Tile) : (s.updTile t f).slot = s.slot := rfl
@[simp] theorem State.updTile_mem (s : State) (t : Nat) (f : Tile → Tile) : (s.updTile t f).mem = s.mem := rfl
@[simp] theorem State.updTile_ecc (s : State) (t : Nat) (f : Tile → Tile) : (s.updTile t f).ecc = s.ecc := rfl
@[simp] theorem State.updTile_sites (s : State) (t : Nat) (f : Tile → Tile) : (s.updTile t f).sites = s.sites := rfl
@[simp] theorem State.updTile_clusters (s : State) (t : Nat) (f : Tile → Tile) : (s.updTile t f).clusters = s.clusters := rfl
@[simp] theorem State.updTile_fields (s : State) (t : Nat) (f : Tile → Tile) : (s.updTile t f).fields = s.fields := rfl
@[simp] theorem State.updTile_islands (s : State) (t : Nat) (f : Tile → Tile) : (s.updTile t f).islands = s.islands := rfl
@[simp] theorem State.updTile_ports (s : State) (t : Nat) (f : Tile → Tile) : (s.updTile t f).ports = s.ports := rfl
@[simp] theorem State.updTile_groups (s : State) (t : Nat) (f : Tile → Tile) : (s.updTile t f).groups = s.groups := rfl
@[simp] theorem State.updTile_bays (s : State) (t : Nat) (f : Tile → Tile) : (s.updTile t f).bays = s.bays := rfl
@[simp] theorem State.updTile_tags (s : State) (t : Nat) (f : Tile → Tile) : (s.updTile t f).tags = s.tags := rfl
@[simp] theorem State.updTile_regions (s : State) (t : Nat) (f : Tile → Tile) : (s.updTile t f).regions = s.regions := rfl
@[simp] theorem State.updTile_rings (s : State) (t : Nat) (f : Tile → Tile) : (s.updTile t f).rings = s.rings := rfl
@[simp] theorem State.updTile_sec (s : State) (t : Nat) (f : Tile → Tile) : (s.updTile t f).sec = s.sec := rfl
@[simp] theorem State.updTile_module (s : State) (t : Nat) (f : Tile → Tile) : (s.updTile t f).module = s.module := rfl
@[simp] theorem State.updTile_events (s : State) (t : Nat) (f : Tile → Tile) : (s.updTile t f).events = s.events := rfl
@[simp] theorem State.updTile_posted (s : State) (t : Nat) (f : Tile → Tile) : (s.updTile t f).posted = s.posted := rfl
@[simp] theorem State.updTile_nextId (s : State) (t : Nat) (f : Tile → Tile) : (s.updTile t f).nextId = s.nextId := rfl
@[simp] theorem State.updTile_gangOut (s : State) (t : Nat) (f : Tile → Tile) : (s.updTile t f).gangOut = s.gangOut := rfl
@[simp] theorem State.updTile_heldOrder (s : State) (t : Nat) (f : Tile → Tile) : (s.updTile t f).heldOrder = s.heldOrder := rfl
@[simp] theorem State.updTile_lastRecord (s : State) (t : Nat) (f : Tile → Tile) : (s.updTile t f).lastRecord = s.lastRecord := rfl
@[simp] theorem State.updTile_period (s : State) (t : Nat) (f : Tile → Tile) : (s.updTile t f).period = s.period := rfl
@[simp] theorem State.updTile_images (s : State) (t : Nat) (f : Tile → Tile) : (s.updTile t f).images = s.images := rfl

/-! ### State.setCtx -/

@[simp] theorem State.setCtx_tick (s : State) (t c : Nat) (y : Ctx) : (s.setCtx t c y).tick = s.tick := rfl
@[simp] theorem State.setCtx_draws (s : State) (t c : Nat) (y : Ctx) : (s.setCtx t c y).draws = s.draws := rfl
@[simp] theorem State.setCtx_agenda (s : State) (t c : Nat) (y : Ctx) : (s.setCtx t c y).agenda = s.agenda := rfl
@[simp] theorem State.setCtx_ev (s : State) (t c : Nat) (y : Ctx) : (s.setCtx t c y).ev = s.ev := rfl
@[simp] theorem State.setCtx_slot (s : State) (t c : Nat) (y : Ctx) : (s.setCtx t c y).slot = s.slot := rfl
@[simp] theorem State.setCtx_mem (s : State) (t c : Nat) (y : Ctx) : (s.setCtx t c y).mem = s.mem := rfl
@[simp] theorem State.setCtx_ecc (s : State) (t c : Nat) (y : Ctx) : (s.setCtx t c y).ecc = s.ecc := rfl
@[simp] theorem State.setCtx_sites (s : State) (t c : Nat) (y : Ctx) : (s.setCtx t c y).sites = s.sites := rfl
@[simp] theorem State.setCtx_clusters (s : State) (t c : Nat) (y : Ctx) : (s.setCtx t c y).clusters = s.clusters := rfl
@[simp] theorem State.setCtx_fields (s : State) (t c : Nat) (y : Ctx) : (s.setCtx t c y).fields = s.fields := rfl
@[simp] theorem State.setCtx_islands (s : State) (t c : Nat) (y : Ctx) : (s.setCtx t c y).islands = s.islands := rfl
@[simp] theorem State.setCtx_ports (s : State) (t c : Nat) (y : Ctx) : (s.setCtx t c y).ports = s.ports := rfl
@[simp] theorem State.setCtx_groups (s : State) (t c : Nat) (y : Ctx) : (s.setCtx t c y).groups = s.groups := rfl
@[simp] theorem State.setCtx_bays (s : State) (t c : Nat) (y : Ctx) : (s.setCtx t c y).bays = s.bays := rfl
@[simp] theorem State.setCtx_tags (s : State) (t c : Nat) (y : Ctx) : (s.setCtx t c y).tags = s.tags := rfl
@[simp] theorem State.setCtx_regions (s : State) (t c : Nat) (y : Ctx) : (s.setCtx t c y).regions = s.regions := rfl
@[simp] theorem State.setCtx_rings (s : State) (t c : Nat) (y : Ctx) : (s.setCtx t c y).rings = s.rings := rfl
@[simp] theorem State.setCtx_sec (s : State) (t c : Nat) (y : Ctx) : (s.setCtx t c y).sec = s.sec := rfl
@[simp] theorem State.setCtx_module (s : State) (t c : Nat) (y : Ctx) : (s.setCtx t c y).module = s.module := rfl
@[simp] theorem State.setCtx_events (s : State) (t c : Nat) (y : Ctx) : (s.setCtx t c y).events = s.events := rfl
@[simp] theorem State.setCtx_posted (s : State) (t c : Nat) (y : Ctx) : (s.setCtx t c y).posted = s.posted := rfl
@[simp] theorem State.setCtx_nextId (s : State) (t c : Nat) (y : Ctx) : (s.setCtx t c y).nextId = s.nextId := rfl
@[simp] theorem State.setCtx_gangOut (s : State) (t c : Nat) (y : Ctx) : (s.setCtx t c y).gangOut = s.gangOut := rfl
@[simp] theorem State.setCtx_heldOrder (s : State) (t c : Nat) (y : Ctx) : (s.setCtx t c y).heldOrder = s.heldOrder := rfl
@[simp] theorem State.setCtx_lastRecord (s : State) (t c : Nat) (y : Ctx) : (s.setCtx t c y).lastRecord = s.lastRecord := rfl
@[simp] theorem State.setCtx_period (s : State) (t c : Nat) (y : Ctx) : (s.setCtx t c y).period = s.period := rfl
@[simp] theorem State.setCtx_images (s : State) (t c : Nat) (y : Ctx) : (s.setCtx t c y).images = s.images := rfl

/-! ### State.updCtx -/

@[simp] theorem State.updCtx_tick (s : State) (t c : Nat) (f : Ctx → Ctx) : (s.updCtx t c f).tick = s.tick := rfl
@[simp] theorem State.updCtx_draws (s : State) (t c : Nat) (f : Ctx → Ctx) : (s.updCtx t c f).draws = s.draws := rfl
@[simp] theorem State.updCtx_agenda (s : State) (t c : Nat) (f : Ctx → Ctx) : (s.updCtx t c f).agenda = s.agenda := rfl
@[simp] theorem State.updCtx_ev (s : State) (t c : Nat) (f : Ctx → Ctx) : (s.updCtx t c f).ev = s.ev := rfl
@[simp] theorem State.updCtx_slot (s : State) (t c : Nat) (f : Ctx → Ctx) : (s.updCtx t c f).slot = s.slot := rfl
@[simp] theorem State.updCtx_mem (s : State) (t c : Nat) (f : Ctx → Ctx) : (s.updCtx t c f).mem = s.mem := rfl
@[simp] theorem State.updCtx_ecc (s : State) (t c : Nat) (f : Ctx → Ctx) : (s.updCtx t c f).ecc = s.ecc := rfl
@[simp] theorem State.updCtx_sites (s : State) (t c : Nat) (f : Ctx → Ctx) : (s.updCtx t c f).sites = s.sites := rfl
@[simp] theorem State.updCtx_clusters (s : State) (t c : Nat) (f : Ctx → Ctx) : (s.updCtx t c f).clusters = s.clusters := rfl
@[simp] theorem State.updCtx_fields (s : State) (t c : Nat) (f : Ctx → Ctx) : (s.updCtx t c f).fields = s.fields := rfl
@[simp] theorem State.updCtx_islands (s : State) (t c : Nat) (f : Ctx → Ctx) : (s.updCtx t c f).islands = s.islands := rfl
@[simp] theorem State.updCtx_ports (s : State) (t c : Nat) (f : Ctx → Ctx) : (s.updCtx t c f).ports = s.ports := rfl
@[simp] theorem State.updCtx_groups (s : State) (t c : Nat) (f : Ctx → Ctx) : (s.updCtx t c f).groups = s.groups := rfl
@[simp] theorem State.updCtx_bays (s : State) (t c : Nat) (f : Ctx → Ctx) : (s.updCtx t c f).bays = s.bays := rfl
@[simp] theorem State.updCtx_tags (s : State) (t c : Nat) (f : Ctx → Ctx) : (s.updCtx t c f).tags = s.tags := rfl
@[simp] theorem State.updCtx_regions (s : State) (t c : Nat) (f : Ctx → Ctx) : (s.updCtx t c f).regions = s.regions := rfl
@[simp] theorem State.updCtx_rings (s : State) (t c : Nat) (f : Ctx → Ctx) : (s.updCtx t c f).rings = s.rings := rfl
@[simp] theorem State.updCtx_sec (s : State) (t c : Nat) (f : Ctx → Ctx) : (s.updCtx t c f).sec = s.sec := rfl
@[simp] theorem State.updCtx_module (s : State) (t c : Nat) (f : Ctx → Ctx) : (s.updCtx t c f).module = s.module := rfl
@[simp] theorem State.updCtx_events (s : State) (t c : Nat) (f : Ctx → Ctx) : (s.updCtx t c f).events = s.events := rfl
@[simp] theorem State.updCtx_posted (s : State) (t c : Nat) (f : Ctx → Ctx) : (s.updCtx t c f).posted = s.posted := rfl
@[simp] theorem State.updCtx_nextId (s : State) (t c : Nat) (f : Ctx → Ctx) : (s.updCtx t c f).nextId = s.nextId := rfl
@[simp] theorem State.updCtx_gangOut (s : State) (t c : Nat) (f : Ctx → Ctx) : (s.updCtx t c f).gangOut = s.gangOut := rfl
@[simp] theorem State.updCtx_heldOrder (s : State) (t c : Nat) (f : Ctx → Ctx) : (s.updCtx t c f).heldOrder = s.heldOrder := rfl
@[simp] theorem State.updCtx_lastRecord (s : State) (t c : Nat) (f : Ctx → Ctx) : (s.updCtx t c f).lastRecord = s.lastRecord := rfl
@[simp] theorem State.updCtx_period (s : State) (t c : Nat) (f : Ctx → Ctx) : (s.updCtx t c f).period = s.period := rfl
@[simp] theorem State.updCtx_images (s : State) (t c : Nat) (f : Ctx → Ctx) : (s.updCtx t c f).images = s.images := rfl

/-! ### State.updCur -/

@[simp] theorem State.updCur_tick (s : State) (f : Ctx → Ctx) : (s.updCur f).tick = s.tick := rfl
@[simp] theorem State.updCur_draws (s : State) (f : Ctx → Ctx) : (s.updCur f).draws = s.draws := rfl
@[simp] theorem State.updCur_agenda (s : State) (f : Ctx → Ctx) : (s.updCur f).agenda = s.agenda := rfl
@[simp] theorem State.updCur_ev (s : State) (f : Ctx → Ctx) : (s.updCur f).ev = s.ev := rfl
@[simp] theorem State.updCur_slot (s : State) (f : Ctx → Ctx) : (s.updCur f).slot = s.slot := rfl
@[simp] theorem State.updCur_mem (s : State) (f : Ctx → Ctx) : (s.updCur f).mem = s.mem := rfl
@[simp] theorem State.updCur_ecc (s : State) (f : Ctx → Ctx) : (s.updCur f).ecc = s.ecc := rfl
@[simp] theorem State.updCur_sites (s : State) (f : Ctx → Ctx) : (s.updCur f).sites = s.sites := rfl
@[simp] theorem State.updCur_clusters (s : State) (f : Ctx → Ctx) : (s.updCur f).clusters = s.clusters := rfl
@[simp] theorem State.updCur_fields (s : State) (f : Ctx → Ctx) : (s.updCur f).fields = s.fields := rfl
@[simp] theorem State.updCur_islands (s : State) (f : Ctx → Ctx) : (s.updCur f).islands = s.islands := rfl
@[simp] theorem State.updCur_ports (s : State) (f : Ctx → Ctx) : (s.updCur f).ports = s.ports := rfl
@[simp] theorem State.updCur_groups (s : State) (f : Ctx → Ctx) : (s.updCur f).groups = s.groups := rfl
@[simp] theorem State.updCur_bays (s : State) (f : Ctx → Ctx) : (s.updCur f).bays = s.bays := rfl
@[simp] theorem State.updCur_tags (s : State) (f : Ctx → Ctx) : (s.updCur f).tags = s.tags := rfl
@[simp] theorem State.updCur_regions (s : State) (f : Ctx → Ctx) : (s.updCur f).regions = s.regions := rfl
@[simp] theorem State.updCur_rings (s : State) (f : Ctx → Ctx) : (s.updCur f).rings = s.rings := rfl
@[simp] theorem State.updCur_sec (s : State) (f : Ctx → Ctx) : (s.updCur f).sec = s.sec := rfl
@[simp] theorem State.updCur_module (s : State) (f : Ctx → Ctx) : (s.updCur f).module = s.module := rfl
@[simp] theorem State.updCur_events (s : State) (f : Ctx → Ctx) : (s.updCur f).events = s.events := rfl
@[simp] theorem State.updCur_posted (s : State) (f : Ctx → Ctx) : (s.updCur f).posted = s.posted := rfl
@[simp] theorem State.updCur_nextId (s : State) (f : Ctx → Ctx) : (s.updCur f).nextId = s.nextId := rfl
@[simp] theorem State.updCur_gangOut (s : State) (f : Ctx → Ctx) : (s.updCur f).gangOut = s.gangOut := rfl
@[simp] theorem State.updCur_heldOrder (s : State) (f : Ctx → Ctx) : (s.updCur f).heldOrder = s.heldOrder := rfl
@[simp] theorem State.updCur_lastRecord (s : State) (f : Ctx → Ctx) : (s.updCur f).lastRecord = s.lastRecord := rfl
@[simp] theorem State.updCur_period (s : State) (f : Ctx → Ctx) : (s.updCur f).period = s.period := rfl
@[simp] theorem State.updCur_images (s : State) (f : Ctx → Ctx) : (s.updCur f).images = s.images := rfl

/-! ### State.updCurTile -/

@[simp] theorem State.updCurTile_tick (s : State) (f : Tile → Tile) : (s.updCurTile f).tick = s.tick := rfl
@[simp] theorem State.updCurTile_draws (s : State) (f : Tile → Tile) : (s.updCurTile f).draws = s.draws := rfl
@[simp] theorem State.updCurTile_agenda (s : State) (f : Tile → Tile) : (s.updCurTile f).agenda = s.agenda := rfl
@[simp] theorem State.updCurTile_ev (s : State) (f : Tile → Tile) : (s.updCurTile f).ev = s.ev := rfl
@[simp] theorem State.updCurTile_slot (s : State) (f : Tile → Tile) : (s.updCurTile f).slot = s.slot := rfl
@[simp] theorem State.updCurTile_mem (s : State) (f : Tile → Tile) : (s.updCurTile f).mem = s.mem := rfl
@[simp] theorem State.updCurTile_ecc (s : State) (f : Tile → Tile) : (s.updCurTile f).ecc = s.ecc := rfl
@[simp] theorem State.updCurTile_sites (s : State) (f : Tile → Tile) : (s.updCurTile f).sites = s.sites := rfl
@[simp] theorem State.updCurTile_clusters (s : State) (f : Tile → Tile) : (s.updCurTile f).clusters = s.clusters := rfl
@[simp] theorem State.updCurTile_fields (s : State) (f : Tile → Tile) : (s.updCurTile f).fields = s.fields := rfl
@[simp] theorem State.updCurTile_islands (s : State) (f : Tile → Tile) : (s.updCurTile f).islands = s.islands := rfl
@[simp] theorem State.updCurTile_ports (s : State) (f : Tile → Tile) : (s.updCurTile f).ports = s.ports := rfl
@[simp] theorem State.updCurTile_groups (s : State) (f : Tile → Tile) : (s.updCurTile f).groups = s.groups := rfl
@[simp] theorem State.updCurTile_bays (s : State) (f : Tile → Tile) : (s.updCurTile f).bays = s.bays := rfl
@[simp] theorem State.updCurTile_tags (s : State) (f : Tile → Tile) : (s.updCurTile f).tags = s.tags := rfl
@[simp] theorem State.updCurTile_regions (s : State) (f : Tile → Tile) : (s.updCurTile f).regions = s.regions := rfl
@[simp] theorem State.updCurTile_rings (s : State) (f : Tile → Tile) : (s.updCurTile f).rings = s.rings := rfl
@[simp] theorem State.updCurTile_sec (s : State) (f : Tile → Tile) : (s.updCurTile f).sec = s.sec := rfl
@[simp] theorem State.updCurTile_module (s : State) (f : Tile → Tile) : (s.updCurTile f).module = s.module := rfl
@[simp] theorem State.updCurTile_events (s : State) (f : Tile → Tile) : (s.updCurTile f).events = s.events := rfl
@[simp] theorem State.updCurTile_posted (s : State) (f : Tile → Tile) : (s.updCurTile f).posted = s.posted := rfl
@[simp] theorem State.updCurTile_nextId (s : State) (f : Tile → Tile) : (s.updCurTile f).nextId = s.nextId := rfl
@[simp] theorem State.updCurTile_gangOut (s : State) (f : Tile → Tile) : (s.updCurTile f).gangOut = s.gangOut := rfl
@[simp] theorem State.updCurTile_heldOrder (s : State) (f : Tile → Tile) : (s.updCurTile f).heldOrder = s.heldOrder := rfl
@[simp] theorem State.updCurTile_lastRecord (s : State) (f : Tile → Tile) : (s.updCurTile f).lastRecord = s.lastRecord := rfl
@[simp] theorem State.updCurTile_period (s : State) (f : Tile → Tile) : (s.updCurTile f).period = s.period := rfl
@[simp] theorem State.updCurTile_images (s : State) (f : Tile → Tile) : (s.updCurTile f).images = s.images := rfl

/-! ### State.setSite -/

@[simp] theorem State.setSite_tick (s : State) (t : Nat) (x : Site) : (s.setSite t x).tick = s.tick := rfl
@[simp] theorem State.setSite_draws (s : State) (t : Nat) (x : Site) : (s.setSite t x).draws = s.draws := rfl
@[simp] theorem State.setSite_agenda (s : State) (t : Nat) (x : Site) : (s.setSite t x).agenda = s.agenda := rfl
@[simp] theorem State.setSite_ev (s : State) (t : Nat) (x : Site) : (s.setSite t x).ev = s.ev := rfl
@[simp] theorem State.setSite_slot (s : State) (t : Nat) (x : Site) : (s.setSite t x).slot = s.slot := rfl
@[simp] theorem State.setSite_mem (s : State) (t : Nat) (x : Site) : (s.setSite t x).mem = s.mem := rfl
@[simp] theorem State.setSite_ecc (s : State) (t : Nat) (x : Site) : (s.setSite t x).ecc = s.ecc := rfl
@[simp] theorem State.setSite_tiles (s : State) (t : Nat) (x : Site) : (s.setSite t x).tiles = s.tiles := rfl
@[simp] theorem State.setSite_clusters (s : State) (t : Nat) (x : Site) : (s.setSite t x).clusters = s.clusters := rfl
@[simp] theorem State.setSite_fields (s : State) (t : Nat) (x : Site) : (s.setSite t x).fields = s.fields := rfl
@[simp] theorem State.setSite_islands (s : State) (t : Nat) (x : Site) : (s.setSite t x).islands = s.islands := rfl
@[simp] theorem State.setSite_ports (s : State) (t : Nat) (x : Site) : (s.setSite t x).ports = s.ports := rfl
@[simp] theorem State.setSite_groups (s : State) (t : Nat) (x : Site) : (s.setSite t x).groups = s.groups := rfl
@[simp] theorem State.setSite_bays (s : State) (t : Nat) (x : Site) : (s.setSite t x).bays = s.bays := rfl
@[simp] theorem State.setSite_tags (s : State) (t : Nat) (x : Site) : (s.setSite t x).tags = s.tags := rfl
@[simp] theorem State.setSite_regions (s : State) (t : Nat) (x : Site) : (s.setSite t x).regions = s.regions := rfl
@[simp] theorem State.setSite_rings (s : State) (t : Nat) (x : Site) : (s.setSite t x).rings = s.rings := rfl
@[simp] theorem State.setSite_sec (s : State) (t : Nat) (x : Site) : (s.setSite t x).sec = s.sec := rfl
@[simp] theorem State.setSite_module (s : State) (t : Nat) (x : Site) : (s.setSite t x).module = s.module := rfl
@[simp] theorem State.setSite_events (s : State) (t : Nat) (x : Site) : (s.setSite t x).events = s.events := rfl
@[simp] theorem State.setSite_posted (s : State) (t : Nat) (x : Site) : (s.setSite t x).posted = s.posted := rfl
@[simp] theorem State.setSite_nextId (s : State) (t : Nat) (x : Site) : (s.setSite t x).nextId = s.nextId := rfl
@[simp] theorem State.setSite_gangOut (s : State) (t : Nat) (x : Site) : (s.setSite t x).gangOut = s.gangOut := rfl
@[simp] theorem State.setSite_heldOrder (s : State) (t : Nat) (x : Site) : (s.setSite t x).heldOrder = s.heldOrder := rfl
@[simp] theorem State.setSite_lastRecord (s : State) (t : Nat) (x : Site) : (s.setSite t x).lastRecord = s.lastRecord := rfl
@[simp] theorem State.setSite_period (s : State) (t : Nat) (x : Site) : (s.setSite t x).period = s.period := rfl
@[simp] theorem State.setSite_images (s : State) (t : Nat) (x : Site) : (s.setSite t x).images = s.images := rfl

/-! ### State.setField -/

@[simp] theorem State.setField_tick (s : State) (f : Nat) (x : Field) : (s.setField f x).tick = s.tick := rfl
@[simp] theorem State.setField_draws (s : State) (f : Nat) (x : Field) : (s.setField f x).draws = s.draws := rfl
@[simp] theorem State.setField_agenda (s : State) (f : Nat) (x : Field) : (s.setField f x).agenda = s.agenda := rfl
@[simp] theorem State.setField_ev (s : State) (f : Nat) (x : Field) : (s.setField f x).ev = s.ev := rfl
@[simp] theorem State.setField_slot (s : State) (f : Nat) (x : Field) : (s.setField f x).slot = s.slot := rfl
@[simp] theorem State.setField_mem (s : State) (f : Nat) (x : Field) : (s.setField f x).mem = s.mem := rfl
@[simp] theorem State.setField_ecc (s : State) (f : Nat) (x : Field) : (s.setField f x).ecc = s.ecc := rfl
@[simp] theorem State.setField_tiles (s : State) (f : Nat) (x : Field) : (s.setField f x).tiles = s.tiles := rfl
@[simp] theorem State.setField_sites (s : State) (f : Nat) (x : Field) : (s.setField f x).sites = s.sites := rfl
@[simp] theorem State.setField_clusters (s : State) (f : Nat) (x : Field) : (s.setField f x).clusters = s.clusters := rfl
@[simp] theorem State.setField_islands (s : State) (f : Nat) (x : Field) : (s.setField f x).islands = s.islands := rfl
@[simp] theorem State.setField_ports (s : State) (f : Nat) (x : Field) : (s.setField f x).ports = s.ports := rfl
@[simp] theorem State.setField_groups (s : State) (f : Nat) (x : Field) : (s.setField f x).groups = s.groups := rfl
@[simp] theorem State.setField_bays (s : State) (f : Nat) (x : Field) : (s.setField f x).bays = s.bays := rfl
@[simp] theorem State.setField_tags (s : State) (f : Nat) (x : Field) : (s.setField f x).tags = s.tags := rfl
@[simp] theorem State.setField_regions (s : State) (f : Nat) (x : Field) : (s.setField f x).regions = s.regions := rfl
@[simp] theorem State.setField_rings (s : State) (f : Nat) (x : Field) : (s.setField f x).rings = s.rings := rfl
@[simp] theorem State.setField_sec (s : State) (f : Nat) (x : Field) : (s.setField f x).sec = s.sec := rfl
@[simp] theorem State.setField_module (s : State) (f : Nat) (x : Field) : (s.setField f x).module = s.module := rfl
@[simp] theorem State.setField_events (s : State) (f : Nat) (x : Field) : (s.setField f x).events = s.events := rfl
@[simp] theorem State.setField_posted (s : State) (f : Nat) (x : Field) : (s.setField f x).posted = s.posted := rfl
@[simp] theorem State.setField_nextId (s : State) (f : Nat) (x : Field) : (s.setField f x).nextId = s.nextId := rfl
@[simp] theorem State.setField_gangOut (s : State) (f : Nat) (x : Field) : (s.setField f x).gangOut = s.gangOut := rfl
@[simp] theorem State.setField_heldOrder (s : State) (f : Nat) (x : Field) : (s.setField f x).heldOrder = s.heldOrder := rfl
@[simp] theorem State.setField_lastRecord (s : State) (f : Nat) (x : Field) : (s.setField f x).lastRecord = s.lastRecord := rfl
@[simp] theorem State.setField_period (s : State) (f : Nat) (x : Field) : (s.setField f x).period = s.period := rfl
@[simp] theorem State.setField_images (s : State) (f : Nat) (x : Field) : (s.setField f x).images = s.images := rfl

/-! ### State.setCluster -/

@[simp] theorem State.setCluster_tick (s : State) (k : Nat) (x : Cluster) : (s.setCluster k x).tick = s.tick := rfl
@[simp] theorem State.setCluster_draws (s : State) (k : Nat) (x : Cluster) : (s.setCluster k x).draws = s.draws := rfl
@[simp] theorem State.setCluster_agenda (s : State) (k : Nat) (x : Cluster) : (s.setCluster k x).agenda = s.agenda := rfl
@[simp] theorem State.setCluster_ev (s : State) (k : Nat) (x : Cluster) : (s.setCluster k x).ev = s.ev := rfl
@[simp] theorem State.setCluster_slot (s : State) (k : Nat) (x : Cluster) : (s.setCluster k x).slot = s.slot := rfl
@[simp] theorem State.setCluster_mem (s : State) (k : Nat) (x : Cluster) : (s.setCluster k x).mem = s.mem := rfl
@[simp] theorem State.setCluster_ecc (s : State) (k : Nat) (x : Cluster) : (s.setCluster k x).ecc = s.ecc := rfl
@[simp] theorem State.setCluster_tiles (s : State) (k : Nat) (x : Cluster) : (s.setCluster k x).tiles = s.tiles := rfl
@[simp] theorem State.setCluster_sites (s : State) (k : Nat) (x : Cluster) : (s.setCluster k x).sites = s.sites := rfl
@[simp] theorem State.setCluster_fields (s : State) (k : Nat) (x : Cluster) : (s.setCluster k x).fields = s.fields := rfl
@[simp] theorem State.setCluster_islands (s : State) (k : Nat) (x : Cluster) : (s.setCluster k x).islands = s.islands := rfl
@[simp] theorem State.setCluster_ports (s : State) (k : Nat) (x : Cluster) : (s.setCluster k x).ports = s.ports := rfl
@[simp] theorem State.setCluster_groups (s : State) (k : Nat) (x : Cluster) : (s.setCluster k x).groups = s.groups := rfl
@[simp] theorem State.setCluster_bays (s : State) (k : Nat) (x : Cluster) : (s.setCluster k x).bays = s.bays := rfl
@[simp] theorem State.setCluster_tags (s : State) (k : Nat) (x : Cluster) : (s.setCluster k x).tags = s.tags := rfl
@[simp] theorem State.setCluster_regions (s : State) (k : Nat) (x : Cluster) : (s.setCluster k x).regions = s.regions := rfl
@[simp] theorem State.setCluster_rings (s : State) (k : Nat) (x : Cluster) : (s.setCluster k x).rings = s.rings := rfl
@[simp] theorem State.setCluster_sec (s : State) (k : Nat) (x : Cluster) : (s.setCluster k x).sec = s.sec := rfl
@[simp] theorem State.setCluster_module (s : State) (k : Nat) (x : Cluster) : (s.setCluster k x).module = s.module := rfl
@[simp] theorem State.setCluster_events (s : State) (k : Nat) (x : Cluster) : (s.setCluster k x).events = s.events := rfl
@[simp] theorem State.setCluster_posted (s : State) (k : Nat) (x : Cluster) : (s.setCluster k x).posted = s.posted := rfl
@[simp] theorem State.setCluster_nextId (s : State) (k : Nat) (x : Cluster) : (s.setCluster k x).nextId = s.nextId := rfl
@[simp] theorem State.setCluster_gangOut (s : State) (k : Nat) (x : Cluster) : (s.setCluster k x).gangOut = s.gangOut := rfl
@[simp] theorem State.setCluster_heldOrder (s : State) (k : Nat) (x : Cluster) : (s.setCluster k x).heldOrder = s.heldOrder := rfl
@[simp] theorem State.setCluster_lastRecord (s : State) (k : Nat) (x : Cluster) : (s.setCluster k x).lastRecord = s.lastRecord := rfl
@[simp] theorem State.setCluster_period (s : State) (k : Nat) (x : Cluster) : (s.setCluster k x).period = s.period := rfl
@[simp] theorem State.setCluster_images (s : State) (k : Nat) (x : Cluster) : (s.setCluster k x).images = s.images := rfl

/-! ### State.setIsland -/

@[simp] theorem State.setIsland_tick (s : State) (i : Nat) (x : Island) : (s.setIsland i x).tick = s.tick := rfl
@[simp] theorem State.setIsland_draws (s : State) (i : Nat) (x : Island) : (s.setIsland i x).draws = s.draws := rfl
@[simp] theorem State.setIsland_agenda (s : State) (i : Nat) (x : Island) : (s.setIsland i x).agenda = s.agenda := rfl
@[simp] theorem State.setIsland_ev (s : State) (i : Nat) (x : Island) : (s.setIsland i x).ev = s.ev := rfl
@[simp] theorem State.setIsland_slot (s : State) (i : Nat) (x : Island) : (s.setIsland i x).slot = s.slot := rfl
@[simp] theorem State.setIsland_mem (s : State) (i : Nat) (x : Island) : (s.setIsland i x).mem = s.mem := rfl
@[simp] theorem State.setIsland_ecc (s : State) (i : Nat) (x : Island) : (s.setIsland i x).ecc = s.ecc := rfl
@[simp] theorem State.setIsland_tiles (s : State) (i : Nat) (x : Island) : (s.setIsland i x).tiles = s.tiles := rfl
@[simp] theorem State.setIsland_sites (s : State) (i : Nat) (x : Island) : (s.setIsland i x).sites = s.sites := rfl
@[simp] theorem State.setIsland_clusters (s : State) (i : Nat) (x : Island) : (s.setIsland i x).clusters = s.clusters := rfl
@[simp] theorem State.setIsland_fields (s : State) (i : Nat) (x : Island) : (s.setIsland i x).fields = s.fields := rfl
@[simp] theorem State.setIsland_ports (s : State) (i : Nat) (x : Island) : (s.setIsland i x).ports = s.ports := rfl
@[simp] theorem State.setIsland_groups (s : State) (i : Nat) (x : Island) : (s.setIsland i x).groups = s.groups := rfl
@[simp] theorem State.setIsland_bays (s : State) (i : Nat) (x : Island) : (s.setIsland i x).bays = s.bays := rfl
@[simp] theorem State.setIsland_tags (s : State) (i : Nat) (x : Island) : (s.setIsland i x).tags = s.tags := rfl
@[simp] theorem State.setIsland_regions (s : State) (i : Nat) (x : Island) : (s.setIsland i x).regions = s.regions := rfl
@[simp] theorem State.setIsland_rings (s : State) (i : Nat) (x : Island) : (s.setIsland i x).rings = s.rings := rfl
@[simp] theorem State.setIsland_sec (s : State) (i : Nat) (x : Island) : (s.setIsland i x).sec = s.sec := rfl
@[simp] theorem State.setIsland_module (s : State) (i : Nat) (x : Island) : (s.setIsland i x).module = s.module := rfl
@[simp] theorem State.setIsland_events (s : State) (i : Nat) (x : Island) : (s.setIsland i x).events = s.events := rfl
@[simp] theorem State.setIsland_posted (s : State) (i : Nat) (x : Island) : (s.setIsland i x).posted = s.posted := rfl
@[simp] theorem State.setIsland_nextId (s : State) (i : Nat) (x : Island) : (s.setIsland i x).nextId = s.nextId := rfl
@[simp] theorem State.setIsland_gangOut (s : State) (i : Nat) (x : Island) : (s.setIsland i x).gangOut = s.gangOut := rfl
@[simp] theorem State.setIsland_heldOrder (s : State) (i : Nat) (x : Island) : (s.setIsland i x).heldOrder = s.heldOrder := rfl
@[simp] theorem State.setIsland_lastRecord (s : State) (i : Nat) (x : Island) : (s.setIsland i x).lastRecord = s.lastRecord := rfl
@[simp] theorem State.setIsland_period (s : State) (i : Nat) (x : Island) : (s.setIsland i x).period = s.period := rfl
@[simp] theorem State.setIsland_images (s : State) (i : Nat) (x : Island) : (s.setIsland i x).images = s.images := rfl

/-! ### State.setPort -/

@[simp] theorem State.setPort_tick (s : State) (p : Nat) (x : Port) : (s.setPort p x).tick = s.tick := rfl
@[simp] theorem State.setPort_draws (s : State) (p : Nat) (x : Port) : (s.setPort p x).draws = s.draws := rfl
@[simp] theorem State.setPort_agenda (s : State) (p : Nat) (x : Port) : (s.setPort p x).agenda = s.agenda := rfl
@[simp] theorem State.setPort_ev (s : State) (p : Nat) (x : Port) : (s.setPort p x).ev = s.ev := rfl
@[simp] theorem State.setPort_slot (s : State) (p : Nat) (x : Port) : (s.setPort p x).slot = s.slot := rfl
@[simp] theorem State.setPort_mem (s : State) (p : Nat) (x : Port) : (s.setPort p x).mem = s.mem := rfl
@[simp] theorem State.setPort_ecc (s : State) (p : Nat) (x : Port) : (s.setPort p x).ecc = s.ecc := rfl
@[simp] theorem State.setPort_tiles (s : State) (p : Nat) (x : Port) : (s.setPort p x).tiles = s.tiles := rfl
@[simp] theorem State.setPort_sites (s : State) (p : Nat) (x : Port) : (s.setPort p x).sites = s.sites := rfl
@[simp] theorem State.setPort_clusters (s : State) (p : Nat) (x : Port) : (s.setPort p x).clusters = s.clusters := rfl
@[simp] theorem State.setPort_fields (s : State) (p : Nat) (x : Port) : (s.setPort p x).fields = s.fields := rfl
@[simp] theorem State.setPort_islands (s : State) (p : Nat) (x : Port) : (s.setPort p x).islands = s.islands := rfl
@[simp] theorem State.setPort_groups (s : State) (p : Nat) (x : Port) : (s.setPort p x).groups = s.groups := rfl
@[simp] theorem State.setPort_bays (s : State) (p : Nat) (x : Port) : (s.setPort p x).bays = s.bays := rfl
@[simp] theorem State.setPort_tags (s : State) (p : Nat) (x : Port) : (s.setPort p x).tags = s.tags := rfl
@[simp] theorem State.setPort_regions (s : State) (p : Nat) (x : Port) : (s.setPort p x).regions = s.regions := rfl
@[simp] theorem State.setPort_rings (s : State) (p : Nat) (x : Port) : (s.setPort p x).rings = s.rings := rfl
@[simp] theorem State.setPort_sec (s : State) (p : Nat) (x : Port) : (s.setPort p x).sec = s.sec := rfl
@[simp] theorem State.setPort_module (s : State) (p : Nat) (x : Port) : (s.setPort p x).module = s.module := rfl
@[simp] theorem State.setPort_events (s : State) (p : Nat) (x : Port) : (s.setPort p x).events = s.events := rfl
@[simp] theorem State.setPort_posted (s : State) (p : Nat) (x : Port) : (s.setPort p x).posted = s.posted := rfl
@[simp] theorem State.setPort_nextId (s : State) (p : Nat) (x : Port) : (s.setPort p x).nextId = s.nextId := rfl
@[simp] theorem State.setPort_gangOut (s : State) (p : Nat) (x : Port) : (s.setPort p x).gangOut = s.gangOut := rfl
@[simp] theorem State.setPort_heldOrder (s : State) (p : Nat) (x : Port) : (s.setPort p x).heldOrder = s.heldOrder := rfl
@[simp] theorem State.setPort_lastRecord (s : State) (p : Nat) (x : Port) : (s.setPort p x).lastRecord = s.lastRecord := rfl
@[simp] theorem State.setPort_period (s : State) (p : Nat) (x : Port) : (s.setPort p x).period = s.period := rfl
@[simp] theorem State.setPort_images (s : State) (p : Nat) (x : Port) : (s.setPort p x).images = s.images := rfl

/-! ### State.setGroup -/

@[simp] theorem State.setGroup_tick (s : State) (g : Nat) (x : Group) : (s.setGroup g x).tick = s.tick := rfl
@[simp] theorem State.setGroup_draws (s : State) (g : Nat) (x : Group) : (s.setGroup g x).draws = s.draws := rfl
@[simp] theorem State.setGroup_agenda (s : State) (g : Nat) (x : Group) : (s.setGroup g x).agenda = s.agenda := rfl
@[simp] theorem State.setGroup_ev (s : State) (g : Nat) (x : Group) : (s.setGroup g x).ev = s.ev := rfl
@[simp] theorem State.setGroup_slot (s : State) (g : Nat) (x : Group) : (s.setGroup g x).slot = s.slot := rfl
@[simp] theorem State.setGroup_mem (s : State) (g : Nat) (x : Group) : (s.setGroup g x).mem = s.mem := rfl
@[simp] theorem State.setGroup_ecc (s : State) (g : Nat) (x : Group) : (s.setGroup g x).ecc = s.ecc := rfl
@[simp] theorem State.setGroup_tiles (s : State) (g : Nat) (x : Group) : (s.setGroup g x).tiles = s.tiles := rfl
@[simp] theorem State.setGroup_sites (s : State) (g : Nat) (x : Group) : (s.setGroup g x).sites = s.sites := rfl
@[simp] theorem State.setGroup_clusters (s : State) (g : Nat) (x : Group) : (s.setGroup g x).clusters = s.clusters := rfl
@[simp] theorem State.setGroup_fields (s : State) (g : Nat) (x : Group) : (s.setGroup g x).fields = s.fields := rfl
@[simp] theorem State.setGroup_islands (s : State) (g : Nat) (x : Group) : (s.setGroup g x).islands = s.islands := rfl
@[simp] theorem State.setGroup_ports (s : State) (g : Nat) (x : Group) : (s.setGroup g x).ports = s.ports := rfl
@[simp] theorem State.setGroup_bays (s : State) (g : Nat) (x : Group) : (s.setGroup g x).bays = s.bays := rfl
@[simp] theorem State.setGroup_tags (s : State) (g : Nat) (x : Group) : (s.setGroup g x).tags = s.tags := rfl
@[simp] theorem State.setGroup_regions (s : State) (g : Nat) (x : Group) : (s.setGroup g x).regions = s.regions := rfl
@[simp] theorem State.setGroup_rings (s : State) (g : Nat) (x : Group) : (s.setGroup g x).rings = s.rings := rfl
@[simp] theorem State.setGroup_sec (s : State) (g : Nat) (x : Group) : (s.setGroup g x).sec = s.sec := rfl
@[simp] theorem State.setGroup_module (s : State) (g : Nat) (x : Group) : (s.setGroup g x).module = s.module := rfl
@[simp] theorem State.setGroup_events (s : State) (g : Nat) (x : Group) : (s.setGroup g x).events = s.events := rfl
@[simp] theorem State.setGroup_posted (s : State) (g : Nat) (x : Group) : (s.setGroup g x).posted = s.posted := rfl
@[simp] theorem State.setGroup_nextId (s : State) (g : Nat) (x : Group) : (s.setGroup g x).nextId = s.nextId := rfl
@[simp] theorem State.setGroup_gangOut (s : State) (g : Nat) (x : Group) : (s.setGroup g x).gangOut = s.gangOut := rfl
@[simp] theorem State.setGroup_heldOrder (s : State) (g : Nat) (x : Group) : (s.setGroup g x).heldOrder = s.heldOrder := rfl
@[simp] theorem State.setGroup_lastRecord (s : State) (g : Nat) (x : Group) : (s.setGroup g x).lastRecord = s.lastRecord := rfl
@[simp] theorem State.setGroup_period (s : State) (g : Nat) (x : Group) : (s.setGroup g x).period = s.period := rfl
@[simp] theorem State.setGroup_images (s : State) (g : Nat) (x : Group) : (s.setGroup g x).images = s.images := rfl

/-! ### State.setBay -/

@[simp] theorem State.setBay_tick (s : State) (b : Nat) (x : Bay) : (s.setBay b x).tick = s.tick := rfl
@[simp] theorem State.setBay_draws (s : State) (b : Nat) (x : Bay) : (s.setBay b x).draws = s.draws := rfl
@[simp] theorem State.setBay_agenda (s : State) (b : Nat) (x : Bay) : (s.setBay b x).agenda = s.agenda := rfl
@[simp] theorem State.setBay_ev (s : State) (b : Nat) (x : Bay) : (s.setBay b x).ev = s.ev := rfl
@[simp] theorem State.setBay_slot (s : State) (b : Nat) (x : Bay) : (s.setBay b x).slot = s.slot := rfl
@[simp] theorem State.setBay_mem (s : State) (b : Nat) (x : Bay) : (s.setBay b x).mem = s.mem := rfl
@[simp] theorem State.setBay_ecc (s : State) (b : Nat) (x : Bay) : (s.setBay b x).ecc = s.ecc := rfl
@[simp] theorem State.setBay_tiles (s : State) (b : Nat) (x : Bay) : (s.setBay b x).tiles = s.tiles := rfl
@[simp] theorem State.setBay_sites (s : State) (b : Nat) (x : Bay) : (s.setBay b x).sites = s.sites := rfl
@[simp] theorem State.setBay_clusters (s : State) (b : Nat) (x : Bay) : (s.setBay b x).clusters = s.clusters := rfl
@[simp] theorem State.setBay_fields (s : State) (b : Nat) (x : Bay) : (s.setBay b x).fields = s.fields := rfl
@[simp] theorem State.setBay_islands (s : State) (b : Nat) (x : Bay) : (s.setBay b x).islands = s.islands := rfl
@[simp] theorem State.setBay_ports (s : State) (b : Nat) (x : Bay) : (s.setBay b x).ports = s.ports := rfl
@[simp] theorem State.setBay_groups (s : State) (b : Nat) (x : Bay) : (s.setBay b x).groups = s.groups := rfl
@[simp] theorem State.setBay_tags (s : State) (b : Nat) (x : Bay) : (s.setBay b x).tags = s.tags := rfl
@[simp] theorem State.setBay_regions (s : State) (b : Nat) (x : Bay) : (s.setBay b x).regions = s.regions := rfl
@[simp] theorem State.setBay_rings (s : State) (b : Nat) (x : Bay) : (s.setBay b x).rings = s.rings := rfl
@[simp] theorem State.setBay_sec (s : State) (b : Nat) (x : Bay) : (s.setBay b x).sec = s.sec := rfl
@[simp] theorem State.setBay_module (s : State) (b : Nat) (x : Bay) : (s.setBay b x).module = s.module := rfl
@[simp] theorem State.setBay_events (s : State) (b : Nat) (x : Bay) : (s.setBay b x).events = s.events := rfl
@[simp] theorem State.setBay_posted (s : State) (b : Nat) (x : Bay) : (s.setBay b x).posted = s.posted := rfl
@[simp] theorem State.setBay_nextId (s : State) (b : Nat) (x : Bay) : (s.setBay b x).nextId = s.nextId := rfl
@[simp] theorem State.setBay_gangOut (s : State) (b : Nat) (x : Bay) : (s.setBay b x).gangOut = s.gangOut := rfl
@[simp] theorem State.setBay_heldOrder (s : State) (b : Nat) (x : Bay) : (s.setBay b x).heldOrder = s.heldOrder := rfl
@[simp] theorem State.setBay_lastRecord (s : State) (b : Nat) (x : Bay) : (s.setBay b x).lastRecord = s.lastRecord := rfl
@[simp] theorem State.setBay_period (s : State) (b : Nat) (x : Bay) : (s.setBay b x).period = s.period := rfl
@[simp] theorem State.setBay_images (s : State) (b : Nat) (x : Bay) : (s.setBay b x).images = s.images := rfl

/-! ### State.setTag -/

@[simp] theorem State.setTag_tick (s : State) (f : Nat) (x : FrameTag) : (s.setTag f x).tick = s.tick := rfl
@[simp] theorem State.setTag_draws (s : State) (f : Nat) (x : FrameTag) : (s.setTag f x).draws = s.draws := rfl
@[simp] theorem State.setTag_agenda (s : State) (f : Nat) (x : FrameTag) : (s.setTag f x).agenda = s.agenda := rfl
@[simp] theorem State.setTag_ev (s : State) (f : Nat) (x : FrameTag) : (s.setTag f x).ev = s.ev := rfl
@[simp] theorem State.setTag_slot (s : State) (f : Nat) (x : FrameTag) : (s.setTag f x).slot = s.slot := rfl
@[simp] theorem State.setTag_mem (s : State) (f : Nat) (x : FrameTag) : (s.setTag f x).mem = s.mem := rfl
@[simp] theorem State.setTag_ecc (s : State) (f : Nat) (x : FrameTag) : (s.setTag f x).ecc = s.ecc := rfl
@[simp] theorem State.setTag_tiles (s : State) (f : Nat) (x : FrameTag) : (s.setTag f x).tiles = s.tiles := rfl
@[simp] theorem State.setTag_sites (s : State) (f : Nat) (x : FrameTag) : (s.setTag f x).sites = s.sites := rfl
@[simp] theorem State.setTag_clusters (s : State) (f : Nat) (x : FrameTag) : (s.setTag f x).clusters = s.clusters := rfl
@[simp] theorem State.setTag_fields (s : State) (f : Nat) (x : FrameTag) : (s.setTag f x).fields = s.fields := rfl
@[simp] theorem State.setTag_islands (s : State) (f : Nat) (x : FrameTag) : (s.setTag f x).islands = s.islands := rfl
@[simp] theorem State.setTag_ports (s : State) (f : Nat) (x : FrameTag) : (s.setTag f x).ports = s.ports := rfl
@[simp] theorem State.setTag_groups (s : State) (f : Nat) (x : FrameTag) : (s.setTag f x).groups = s.groups := rfl
@[simp] theorem State.setTag_bays (s : State) (f : Nat) (x : FrameTag) : (s.setTag f x).bays = s.bays := rfl
@[simp] theorem State.setTag_regions (s : State) (f : Nat) (x : FrameTag) : (s.setTag f x).regions = s.regions := rfl
@[simp] theorem State.setTag_rings (s : State) (f : Nat) (x : FrameTag) : (s.setTag f x).rings = s.rings := rfl
@[simp] theorem State.setTag_sec (s : State) (f : Nat) (x : FrameTag) : (s.setTag f x).sec = s.sec := rfl
@[simp] theorem State.setTag_module (s : State) (f : Nat) (x : FrameTag) : (s.setTag f x).module = s.module := rfl
@[simp] theorem State.setTag_events (s : State) (f : Nat) (x : FrameTag) : (s.setTag f x).events = s.events := rfl
@[simp] theorem State.setTag_posted (s : State) (f : Nat) (x : FrameTag) : (s.setTag f x).posted = s.posted := rfl
@[simp] theorem State.setTag_nextId (s : State) (f : Nat) (x : FrameTag) : (s.setTag f x).nextId = s.nextId := rfl
@[simp] theorem State.setTag_gangOut (s : State) (f : Nat) (x : FrameTag) : (s.setTag f x).gangOut = s.gangOut := rfl
@[simp] theorem State.setTag_heldOrder (s : State) (f : Nat) (x : FrameTag) : (s.setTag f x).heldOrder = s.heldOrder := rfl
@[simp] theorem State.setTag_lastRecord (s : State) (f : Nat) (x : FrameTag) : (s.setTag f x).lastRecord = s.lastRecord := rfl
@[simp] theorem State.setTag_period (s : State) (f : Nat) (x : FrameTag) : (s.setTag f x).period = s.period := rfl
@[simp] theorem State.setTag_images (s : State) (f : Nat) (x : FrameTag) : (s.setTag f x).images = s.images := rfl

/-! ### State.setRegion -/

@[simp] theorem State.setRegion_tick (s : State) (r : Nat) (x : Region) : (s.setRegion r x).tick = s.tick := rfl
@[simp] theorem State.setRegion_draws (s : State) (r : Nat) (x : Region) : (s.setRegion r x).draws = s.draws := rfl
@[simp] theorem State.setRegion_agenda (s : State) (r : Nat) (x : Region) : (s.setRegion r x).agenda = s.agenda := rfl
@[simp] theorem State.setRegion_ev (s : State) (r : Nat) (x : Region) : (s.setRegion r x).ev = s.ev := rfl
@[simp] theorem State.setRegion_slot (s : State) (r : Nat) (x : Region) : (s.setRegion r x).slot = s.slot := rfl
@[simp] theorem State.setRegion_mem (s : State) (r : Nat) (x : Region) : (s.setRegion r x).mem = s.mem := rfl
@[simp] theorem State.setRegion_ecc (s : State) (r : Nat) (x : Region) : (s.setRegion r x).ecc = s.ecc := rfl
@[simp] theorem State.setRegion_tiles (s : State) (r : Nat) (x : Region) : (s.setRegion r x).tiles = s.tiles := rfl
@[simp] theorem State.setRegion_sites (s : State) (r : Nat) (x : Region) : (s.setRegion r x).sites = s.sites := rfl
@[simp] theorem State.setRegion_clusters (s : State) (r : Nat) (x : Region) : (s.setRegion r x).clusters = s.clusters := rfl
@[simp] theorem State.setRegion_fields (s : State) (r : Nat) (x : Region) : (s.setRegion r x).fields = s.fields := rfl
@[simp] theorem State.setRegion_islands (s : State) (r : Nat) (x : Region) : (s.setRegion r x).islands = s.islands := rfl
@[simp] theorem State.setRegion_ports (s : State) (r : Nat) (x : Region) : (s.setRegion r x).ports = s.ports := rfl
@[simp] theorem State.setRegion_groups (s : State) (r : Nat) (x : Region) : (s.setRegion r x).groups = s.groups := rfl
@[simp] theorem State.setRegion_bays (s : State) (r : Nat) (x : Region) : (s.setRegion r x).bays = s.bays := rfl
@[simp] theorem State.setRegion_tags (s : State) (r : Nat) (x : Region) : (s.setRegion r x).tags = s.tags := rfl
@[simp] theorem State.setRegion_rings (s : State) (r : Nat) (x : Region) : (s.setRegion r x).rings = s.rings := rfl
@[simp] theorem State.setRegion_sec (s : State) (r : Nat) (x : Region) : (s.setRegion r x).sec = s.sec := rfl
@[simp] theorem State.setRegion_module (s : State) (r : Nat) (x : Region) : (s.setRegion r x).module = s.module := rfl
@[simp] theorem State.setRegion_events (s : State) (r : Nat) (x : Region) : (s.setRegion r x).events = s.events := rfl
@[simp] theorem State.setRegion_posted (s : State) (r : Nat) (x : Region) : (s.setRegion r x).posted = s.posted := rfl
@[simp] theorem State.setRegion_nextId (s : State) (r : Nat) (x : Region) : (s.setRegion r x).nextId = s.nextId := rfl
@[simp] theorem State.setRegion_gangOut (s : State) (r : Nat) (x : Region) : (s.setRegion r x).gangOut = s.gangOut := rfl
@[simp] theorem State.setRegion_heldOrder (s : State) (r : Nat) (x : Region) : (s.setRegion r x).heldOrder = s.heldOrder := rfl
@[simp] theorem State.setRegion_lastRecord (s : State) (r : Nat) (x : Region) : (s.setRegion r x).lastRecord = s.lastRecord := rfl
@[simp] theorem State.setRegion_period (s : State) (r : Nat) (x : Region) : (s.setRegion r x).period = s.period := rfl
@[simp] theorem State.setRegion_images (s : State) (r : Nat) (x : Region) : (s.setRegion r x).images = s.images := rfl

/-! ### State.updRegion -/

@[simp] theorem State.updRegion_tick (s : State) (r : Nat) (f : Region → Region) : (s.updRegion r f).tick = s.tick := rfl
@[simp] theorem State.updRegion_draws (s : State) (r : Nat) (f : Region → Region) : (s.updRegion r f).draws = s.draws := rfl
@[simp] theorem State.updRegion_agenda (s : State) (r : Nat) (f : Region → Region) : (s.updRegion r f).agenda = s.agenda := rfl
@[simp] theorem State.updRegion_ev (s : State) (r : Nat) (f : Region → Region) : (s.updRegion r f).ev = s.ev := rfl
@[simp] theorem State.updRegion_slot (s : State) (r : Nat) (f : Region → Region) : (s.updRegion r f).slot = s.slot := rfl
@[simp] theorem State.updRegion_mem (s : State) (r : Nat) (f : Region → Region) : (s.updRegion r f).mem = s.mem := rfl
@[simp] theorem State.updRegion_ecc (s : State) (r : Nat) (f : Region → Region) : (s.updRegion r f).ecc = s.ecc := rfl
@[simp] theorem State.updRegion_tiles (s : State) (r : Nat) (f : Region → Region) : (s.updRegion r f).tiles = s.tiles := rfl
@[simp] theorem State.updRegion_sites (s : State) (r : Nat) (f : Region → Region) : (s.updRegion r f).sites = s.sites := rfl
@[simp] theorem State.updRegion_clusters (s : State) (r : Nat) (f : Region → Region) : (s.updRegion r f).clusters = s.clusters := rfl
@[simp] theorem State.updRegion_fields (s : State) (r : Nat) (f : Region → Region) : (s.updRegion r f).fields = s.fields := rfl
@[simp] theorem State.updRegion_islands (s : State) (r : Nat) (f : Region → Region) : (s.updRegion r f).islands = s.islands := rfl
@[simp] theorem State.updRegion_ports (s : State) (r : Nat) (f : Region → Region) : (s.updRegion r f).ports = s.ports := rfl
@[simp] theorem State.updRegion_groups (s : State) (r : Nat) (f : Region → Region) : (s.updRegion r f).groups = s.groups := rfl
@[simp] theorem State.updRegion_bays (s : State) (r : Nat) (f : Region → Region) : (s.updRegion r f).bays = s.bays := rfl
@[simp] theorem State.updRegion_tags (s : State) (r : Nat) (f : Region → Region) : (s.updRegion r f).tags = s.tags := rfl
@[simp] theorem State.updRegion_rings (s : State) (r : Nat) (f : Region → Region) : (s.updRegion r f).rings = s.rings := rfl
@[simp] theorem State.updRegion_sec (s : State) (r : Nat) (f : Region → Region) : (s.updRegion r f).sec = s.sec := rfl
@[simp] theorem State.updRegion_module (s : State) (r : Nat) (f : Region → Region) : (s.updRegion r f).module = s.module := rfl
@[simp] theorem State.updRegion_events (s : State) (r : Nat) (f : Region → Region) : (s.updRegion r f).events = s.events := rfl
@[simp] theorem State.updRegion_posted (s : State) (r : Nat) (f : Region → Region) : (s.updRegion r f).posted = s.posted := rfl
@[simp] theorem State.updRegion_nextId (s : State) (r : Nat) (f : Region → Region) : (s.updRegion r f).nextId = s.nextId := rfl
@[simp] theorem State.updRegion_gangOut (s : State) (r : Nat) (f : Region → Region) : (s.updRegion r f).gangOut = s.gangOut := rfl
@[simp] theorem State.updRegion_heldOrder (s : State) (r : Nat) (f : Region → Region) : (s.updRegion r f).heldOrder = s.heldOrder := rfl
@[simp] theorem State.updRegion_lastRecord (s : State) (r : Nat) (f : Region → Region) : (s.updRegion r f).lastRecord = s.lastRecord := rfl
@[simp] theorem State.updRegion_period (s : State) (r : Nat) (f : Region → Region) : (s.updRegion r f).period = s.period := rfl
@[simp] theorem State.updRegion_images (s : State) (r : Nat) (f : Region → Region) : (s.updRegion r f).images = s.images := rfl

/-! ### State.setRing -/

@[simp] theorem State.setRing_tick (s : State) (k : Nat) (x : Ring) : (s.setRing k x).tick = s.tick := rfl
@[simp] theorem State.setRing_draws (s : State) (k : Nat) (x : Ring) : (s.setRing k x).draws = s.draws := rfl
@[simp] theorem State.setRing_agenda (s : State) (k : Nat) (x : Ring) : (s.setRing k x).agenda = s.agenda := rfl
@[simp] theorem State.setRing_ev (s : State) (k : Nat) (x : Ring) : (s.setRing k x).ev = s.ev := rfl
@[simp] theorem State.setRing_slot (s : State) (k : Nat) (x : Ring) : (s.setRing k x).slot = s.slot := rfl
@[simp] theorem State.setRing_mem (s : State) (k : Nat) (x : Ring) : (s.setRing k x).mem = s.mem := rfl
@[simp] theorem State.setRing_ecc (s : State) (k : Nat) (x : Ring) : (s.setRing k x).ecc = s.ecc := rfl
@[simp] theorem State.setRing_tiles (s : State) (k : Nat) (x : Ring) : (s.setRing k x).tiles = s.tiles := rfl
@[simp] theorem State.setRing_sites (s : State) (k : Nat) (x : Ring) : (s.setRing k x).sites = s.sites := rfl
@[simp] theorem State.setRing_clusters (s : State) (k : Nat) (x : Ring) : (s.setRing k x).clusters = s.clusters := rfl
@[simp] theorem State.setRing_fields (s : State) (k : Nat) (x : Ring) : (s.setRing k x).fields = s.fields := rfl
@[simp] theorem State.setRing_islands (s : State) (k : Nat) (x : Ring) : (s.setRing k x).islands = s.islands := rfl
@[simp] theorem State.setRing_ports (s : State) (k : Nat) (x : Ring) : (s.setRing k x).ports = s.ports := rfl
@[simp] theorem State.setRing_groups (s : State) (k : Nat) (x : Ring) : (s.setRing k x).groups = s.groups := rfl
@[simp] theorem State.setRing_bays (s : State) (k : Nat) (x : Ring) : (s.setRing k x).bays = s.bays := rfl
@[simp] theorem State.setRing_tags (s : State) (k : Nat) (x : Ring) : (s.setRing k x).tags = s.tags := rfl
@[simp] theorem State.setRing_regions (s : State) (k : Nat) (x : Ring) : (s.setRing k x).regions = s.regions := rfl
@[simp] theorem State.setRing_sec (s : State) (k : Nat) (x : Ring) : (s.setRing k x).sec = s.sec := rfl
@[simp] theorem State.setRing_module (s : State) (k : Nat) (x : Ring) : (s.setRing k x).module = s.module := rfl
@[simp] theorem State.setRing_events (s : State) (k : Nat) (x : Ring) : (s.setRing k x).events = s.events := rfl
@[simp] theorem State.setRing_posted (s : State) (k : Nat) (x : Ring) : (s.setRing k x).posted = s.posted := rfl
@[simp] theorem State.setRing_nextId (s : State) (k : Nat) (x : Ring) : (s.setRing k x).nextId = s.nextId := rfl
@[simp] theorem State.setRing_gangOut (s : State) (k : Nat) (x : Ring) : (s.setRing k x).gangOut = s.gangOut := rfl
@[simp] theorem State.setRing_heldOrder (s : State) (k : Nat) (x : Ring) : (s.setRing k x).heldOrder = s.heldOrder := rfl
@[simp] theorem State.setRing_lastRecord (s : State) (k : Nat) (x : Ring) : (s.setRing k x).lastRecord = s.lastRecord := rfl
@[simp] theorem State.setRing_period (s : State) (k : Nat) (x : Ring) : (s.setRing k x).period = s.period := rfl
@[simp] theorem State.setRing_images (s : State) (k : Nat) (x : Ring) : (s.setRing k x).images = s.images := rfl

/-! ### State.setCmdRing -/

@[simp] theorem State.setCmdRing_tick (s : State) (k : Nat) (x : CmdRing) : (s.setCmdRing k x).tick = s.tick := rfl
@[simp] theorem State.setCmdRing_draws (s : State) (k : Nat) (x : CmdRing) : (s.setCmdRing k x).draws = s.draws := rfl
@[simp] theorem State.setCmdRing_agenda (s : State) (k : Nat) (x : CmdRing) : (s.setCmdRing k x).agenda = s.agenda := rfl
@[simp] theorem State.setCmdRing_ev (s : State) (k : Nat) (x : CmdRing) : (s.setCmdRing k x).ev = s.ev := rfl
@[simp] theorem State.setCmdRing_slot (s : State) (k : Nat) (x : CmdRing) : (s.setCmdRing k x).slot = s.slot := rfl
@[simp] theorem State.setCmdRing_mem (s : State) (k : Nat) (x : CmdRing) : (s.setCmdRing k x).mem = s.mem := rfl
@[simp] theorem State.setCmdRing_ecc (s : State) (k : Nat) (x : CmdRing) : (s.setCmdRing k x).ecc = s.ecc := rfl
@[simp] theorem State.setCmdRing_tiles (s : State) (k : Nat) (x : CmdRing) : (s.setCmdRing k x).tiles = s.tiles := rfl
@[simp] theorem State.setCmdRing_sites (s : State) (k : Nat) (x : CmdRing) : (s.setCmdRing k x).sites = s.sites := rfl
@[simp] theorem State.setCmdRing_clusters (s : State) (k : Nat) (x : CmdRing) : (s.setCmdRing k x).clusters = s.clusters := rfl
@[simp] theorem State.setCmdRing_fields (s : State) (k : Nat) (x : CmdRing) : (s.setCmdRing k x).fields = s.fields := rfl
@[simp] theorem State.setCmdRing_islands (s : State) (k : Nat) (x : CmdRing) : (s.setCmdRing k x).islands = s.islands := rfl
@[simp] theorem State.setCmdRing_ports (s : State) (k : Nat) (x : CmdRing) : (s.setCmdRing k x).ports = s.ports := rfl
@[simp] theorem State.setCmdRing_groups (s : State) (k : Nat) (x : CmdRing) : (s.setCmdRing k x).groups = s.groups := rfl
@[simp] theorem State.setCmdRing_bays (s : State) (k : Nat) (x : CmdRing) : (s.setCmdRing k x).bays = s.bays := rfl
@[simp] theorem State.setCmdRing_tags (s : State) (k : Nat) (x : CmdRing) : (s.setCmdRing k x).tags = s.tags := rfl
@[simp] theorem State.setCmdRing_regions (s : State) (k : Nat) (x : CmdRing) : (s.setCmdRing k x).regions = s.regions := rfl
@[simp] theorem State.setCmdRing_rings (s : State) (k : Nat) (x : CmdRing) : (s.setCmdRing k x).rings = s.rings := rfl
@[simp] theorem State.setCmdRing_module (s : State) (k : Nat) (x : CmdRing) : (s.setCmdRing k x).module = s.module := rfl
@[simp] theorem State.setCmdRing_events (s : State) (k : Nat) (x : CmdRing) : (s.setCmdRing k x).events = s.events := rfl
@[simp] theorem State.setCmdRing_posted (s : State) (k : Nat) (x : CmdRing) : (s.setCmdRing k x).posted = s.posted := rfl
@[simp] theorem State.setCmdRing_nextId (s : State) (k : Nat) (x : CmdRing) : (s.setCmdRing k x).nextId = s.nextId := rfl
@[simp] theorem State.setCmdRing_gangOut (s : State) (k : Nat) (x : CmdRing) : (s.setCmdRing k x).gangOut = s.gangOut := rfl
@[simp] theorem State.setCmdRing_heldOrder (s : State) (k : Nat) (x : CmdRing) : (s.setCmdRing k x).heldOrder = s.heldOrder := rfl
@[simp] theorem State.setCmdRing_lastRecord (s : State) (k : Nat) (x : CmdRing) : (s.setCmdRing k x).lastRecord = s.lastRecord := rfl
@[simp] theorem State.setCmdRing_period (s : State) (k : Nat) (x : CmdRing) : (s.setCmdRing k x).period = s.period := rfl
@[simp] theorem State.setCmdRing_images (s : State) (k : Nat) (x : CmdRing) : (s.setCmdRing k x).images = s.images := rfl

/-! ### State.later -/

@[simp] theorem State.later_tick (s : State) (i : Instr) (e : EvArgs) : (s.later i e).tick = s.tick := rfl
@[simp] theorem State.later_draws (s : State) (i : Instr) (e : EvArgs) : (s.later i e).draws = s.draws := rfl
@[simp] theorem State.later_ev (s : State) (i : Instr) (e : EvArgs) : (s.later i e).ev = s.ev := rfl
@[simp] theorem State.later_slot (s : State) (i : Instr) (e : EvArgs) : (s.later i e).slot = s.slot := rfl
@[simp] theorem State.later_mem (s : State) (i : Instr) (e : EvArgs) : (s.later i e).mem = s.mem := rfl
@[simp] theorem State.later_ecc (s : State) (i : Instr) (e : EvArgs) : (s.later i e).ecc = s.ecc := rfl
@[simp] theorem State.later_tiles (s : State) (i : Instr) (e : EvArgs) : (s.later i e).tiles = s.tiles := rfl
@[simp] theorem State.later_sites (s : State) (i : Instr) (e : EvArgs) : (s.later i e).sites = s.sites := rfl
@[simp] theorem State.later_clusters (s : State) (i : Instr) (e : EvArgs) : (s.later i e).clusters = s.clusters := rfl
@[simp] theorem State.later_fields (s : State) (i : Instr) (e : EvArgs) : (s.later i e).fields = s.fields := rfl
@[simp] theorem State.later_islands (s : State) (i : Instr) (e : EvArgs) : (s.later i e).islands = s.islands := rfl
@[simp] theorem State.later_ports (s : State) (i : Instr) (e : EvArgs) : (s.later i e).ports = s.ports := rfl
@[simp] theorem State.later_groups (s : State) (i : Instr) (e : EvArgs) : (s.later i e).groups = s.groups := rfl
@[simp] theorem State.later_bays (s : State) (i : Instr) (e : EvArgs) : (s.later i e).bays = s.bays := rfl
@[simp] theorem State.later_tags (s : State) (i : Instr) (e : EvArgs) : (s.later i e).tags = s.tags := rfl
@[simp] theorem State.later_regions (s : State) (i : Instr) (e : EvArgs) : (s.later i e).regions = s.regions := rfl
@[simp] theorem State.later_rings (s : State) (i : Instr) (e : EvArgs) : (s.later i e).rings = s.rings := rfl
@[simp] theorem State.later_sec (s : State) (i : Instr) (e : EvArgs) : (s.later i e).sec = s.sec := rfl
@[simp] theorem State.later_module (s : State) (i : Instr) (e : EvArgs) : (s.later i e).module = s.module := rfl
@[simp] theorem State.later_events (s : State) (i : Instr) (e : EvArgs) : (s.later i e).events = s.events := rfl
@[simp] theorem State.later_posted (s : State) (i : Instr) (e : EvArgs) : (s.later i e).posted = s.posted := rfl
@[simp] theorem State.later_nextId (s : State) (i : Instr) (e : EvArgs) : (s.later i e).nextId = s.nextId := rfl
@[simp] theorem State.later_gangOut (s : State) (i : Instr) (e : EvArgs) : (s.later i e).gangOut = s.gangOut := rfl
@[simp] theorem State.later_heldOrder (s : State) (i : Instr) (e : EvArgs) : (s.later i e).heldOrder = s.heldOrder := rfl
@[simp] theorem State.later_lastRecord (s : State) (i : Instr) (e : EvArgs) : (s.later i e).lastRecord = s.lastRecord := rfl
@[simp] theorem State.later_period (s : State) (i : Instr) (e : EvArgs) : (s.later i e).period = s.period := rfl
@[simp] theorem State.later_images (s : State) (i : Instr) (e : EvArgs) : (s.later i e).images = s.images := rfl

/-! ### State.drawn -/

@[simp] theorem State.drawn_tick (s : State) : s.drawn.tick = s.tick := rfl
@[simp] theorem State.drawn_agenda (s : State) : s.drawn.agenda = s.agenda := rfl
@[simp] theorem State.drawn_ev (s : State) : s.drawn.ev = s.ev := rfl
@[simp] theorem State.drawn_slot (s : State) : s.drawn.slot = s.slot := rfl
@[simp] theorem State.drawn_mem (s : State) : s.drawn.mem = s.mem := rfl
@[simp] theorem State.drawn_ecc (s : State) : s.drawn.ecc = s.ecc := rfl
@[simp] theorem State.drawn_tiles (s : State) : s.drawn.tiles = s.tiles := rfl
@[simp] theorem State.drawn_sites (s : State) : s.drawn.sites = s.sites := rfl
@[simp] theorem State.drawn_clusters (s : State) : s.drawn.clusters = s.clusters := rfl
@[simp] theorem State.drawn_fields (s : State) : s.drawn.fields = s.fields := rfl
@[simp] theorem State.drawn_islands (s : State) : s.drawn.islands = s.islands := rfl
@[simp] theorem State.drawn_ports (s : State) : s.drawn.ports = s.ports := rfl
@[simp] theorem State.drawn_groups (s : State) : s.drawn.groups = s.groups := rfl
@[simp] theorem State.drawn_bays (s : State) : s.drawn.bays = s.bays := rfl
@[simp] theorem State.drawn_tags (s : State) : s.drawn.tags = s.tags := rfl
@[simp] theorem State.drawn_regions (s : State) : s.drawn.regions = s.regions := rfl
@[simp] theorem State.drawn_rings (s : State) : s.drawn.rings = s.rings := rfl
@[simp] theorem State.drawn_sec (s : State) : s.drawn.sec = s.sec := rfl
@[simp] theorem State.drawn_module (s : State) : s.drawn.module = s.module := rfl
@[simp] theorem State.drawn_events (s : State) : s.drawn.events = s.events := rfl
@[simp] theorem State.drawn_posted (s : State) : s.drawn.posted = s.posted := rfl
@[simp] theorem State.drawn_nextId (s : State) : s.drawn.nextId = s.nextId := rfl
@[simp] theorem State.drawn_gangOut (s : State) : s.drawn.gangOut = s.gangOut := rfl
@[simp] theorem State.drawn_heldOrder (s : State) : s.drawn.heldOrder = s.heldOrder := rfl
@[simp] theorem State.drawn_lastRecord (s : State) : s.drawn.lastRecord = s.lastRecord := rfl
@[simp] theorem State.drawn_period (s : State) : s.drawn.period = s.period := rfl
@[simp] theorem State.drawn_images (s : State) : s.drawn.images = s.images := rfl

/-! ### State.atSlot -/

@[simp] theorem State.atSlot_tick (s : State) (t c : Nat) (a : Word) (w : BitVec 32) : (s.atSlot t c a w).tick = s.tick := rfl
@[simp] theorem State.atSlot_draws (s : State) (t c : Nat) (a : Word) (w : BitVec 32) : (s.atSlot t c a w).draws = s.draws := rfl
@[simp] theorem State.atSlot_agenda (s : State) (t c : Nat) (a : Word) (w : BitVec 32) : (s.atSlot t c a w).agenda = s.agenda := rfl
@[simp] theorem State.atSlot_ev (s : State) (t c : Nat) (a : Word) (w : BitVec 32) : (s.atSlot t c a w).ev = s.ev := rfl
@[simp] theorem State.atSlot_mem (s : State) (t c : Nat) (a : Word) (w : BitVec 32) : (s.atSlot t c a w).mem = s.mem := rfl
@[simp] theorem State.atSlot_ecc (s : State) (t c : Nat) (a : Word) (w : BitVec 32) : (s.atSlot t c a w).ecc = s.ecc := rfl
@[simp] theorem State.atSlot_tiles (s : State) (t c : Nat) (a : Word) (w : BitVec 32) : (s.atSlot t c a w).tiles = s.tiles := rfl
@[simp] theorem State.atSlot_sites (s : State) (t c : Nat) (a : Word) (w : BitVec 32) : (s.atSlot t c a w).sites = s.sites := rfl
@[simp] theorem State.atSlot_clusters (s : State) (t c : Nat) (a : Word) (w : BitVec 32) : (s.atSlot t c a w).clusters = s.clusters := rfl
@[simp] theorem State.atSlot_fields (s : State) (t c : Nat) (a : Word) (w : BitVec 32) : (s.atSlot t c a w).fields = s.fields := rfl
@[simp] theorem State.atSlot_islands (s : State) (t c : Nat) (a : Word) (w : BitVec 32) : (s.atSlot t c a w).islands = s.islands := rfl
@[simp] theorem State.atSlot_ports (s : State) (t c : Nat) (a : Word) (w : BitVec 32) : (s.atSlot t c a w).ports = s.ports := rfl
@[simp] theorem State.atSlot_groups (s : State) (t c : Nat) (a : Word) (w : BitVec 32) : (s.atSlot t c a w).groups = s.groups := rfl
@[simp] theorem State.atSlot_bays (s : State) (t c : Nat) (a : Word) (w : BitVec 32) : (s.atSlot t c a w).bays = s.bays := rfl
@[simp] theorem State.atSlot_tags (s : State) (t c : Nat) (a : Word) (w : BitVec 32) : (s.atSlot t c a w).tags = s.tags := rfl
@[simp] theorem State.atSlot_regions (s : State) (t c : Nat) (a : Word) (w : BitVec 32) : (s.atSlot t c a w).regions = s.regions := rfl
@[simp] theorem State.atSlot_rings (s : State) (t c : Nat) (a : Word) (w : BitVec 32) : (s.atSlot t c a w).rings = s.rings := rfl
@[simp] theorem State.atSlot_sec (s : State) (t c : Nat) (a : Word) (w : BitVec 32) : (s.atSlot t c a w).sec = s.sec := rfl
@[simp] theorem State.atSlot_module (s : State) (t c : Nat) (a : Word) (w : BitVec 32) : (s.atSlot t c a w).module = s.module := rfl
@[simp] theorem State.atSlot_events (s : State) (t c : Nat) (a : Word) (w : BitVec 32) : (s.atSlot t c a w).events = s.events := rfl
@[simp] theorem State.atSlot_posted (s : State) (t c : Nat) (a : Word) (w : BitVec 32) : (s.atSlot t c a w).posted = s.posted := rfl
@[simp] theorem State.atSlot_nextId (s : State) (t c : Nat) (a : Word) (w : BitVec 32) : (s.atSlot t c a w).nextId = s.nextId := rfl
@[simp] theorem State.atSlot_gangOut (s : State) (t c : Nat) (a : Word) (w : BitVec 32) : (s.atSlot t c a w).gangOut = s.gangOut := rfl
@[simp] theorem State.atSlot_heldOrder (s : State) (t c : Nat) (a : Word) (w : BitVec 32) : (s.atSlot t c a w).heldOrder = s.heldOrder := rfl
@[simp] theorem State.atSlot_lastRecord (s : State) (t c : Nat) (a : Word) (w : BitVec 32) : (s.atSlot t c a w).lastRecord = s.lastRecord := rfl
@[simp] theorem State.atSlot_period (s : State) (t c : Nat) (a : Word) (w : BitVec 32) : (s.atSlot t c a w).period = s.period := rfl
@[simp] theorem State.atSlot_images (s : State) (t c : Nat) (a : Word) (w : BitVec 32) : (s.atSlot t c a w).images = s.images := rfl

/-! ### State.memWrite -/

@[simp] theorem State.memWrite_tick (s : State) (key n v : Nat) : (s.memWrite key n v).tick = s.tick := rfl
@[simp] theorem State.memWrite_draws (s : State) (key n v : Nat) : (s.memWrite key n v).draws = s.draws := rfl
@[simp] theorem State.memWrite_agenda (s : State) (key n v : Nat) : (s.memWrite key n v).agenda = s.agenda := rfl
@[simp] theorem State.memWrite_ev (s : State) (key n v : Nat) : (s.memWrite key n v).ev = s.ev := rfl
@[simp] theorem State.memWrite_slot (s : State) (key n v : Nat) : (s.memWrite key n v).slot = s.slot := rfl
@[simp] theorem State.memWrite_ecc (s : State) (key n v : Nat) : (s.memWrite key n v).ecc = s.ecc := rfl
@[simp] theorem State.memWrite_tiles (s : State) (key n v : Nat) : (s.memWrite key n v).tiles = s.tiles := rfl
@[simp] theorem State.memWrite_sites (s : State) (key n v : Nat) : (s.memWrite key n v).sites = s.sites := rfl
@[simp] theorem State.memWrite_clusters (s : State) (key n v : Nat) : (s.memWrite key n v).clusters = s.clusters := rfl
@[simp] theorem State.memWrite_fields (s : State) (key n v : Nat) : (s.memWrite key n v).fields = s.fields := rfl
@[simp] theorem State.memWrite_islands (s : State) (key n v : Nat) : (s.memWrite key n v).islands = s.islands := rfl
@[simp] theorem State.memWrite_ports (s : State) (key n v : Nat) : (s.memWrite key n v).ports = s.ports := rfl
@[simp] theorem State.memWrite_groups (s : State) (key n v : Nat) : (s.memWrite key n v).groups = s.groups := rfl
@[simp] theorem State.memWrite_bays (s : State) (key n v : Nat) : (s.memWrite key n v).bays = s.bays := rfl
@[simp] theorem State.memWrite_tags (s : State) (key n v : Nat) : (s.memWrite key n v).tags = s.tags := rfl
@[simp] theorem State.memWrite_regions (s : State) (key n v : Nat) : (s.memWrite key n v).regions = s.regions := rfl
@[simp] theorem State.memWrite_rings (s : State) (key n v : Nat) : (s.memWrite key n v).rings = s.rings := rfl
@[simp] theorem State.memWrite_sec (s : State) (key n v : Nat) : (s.memWrite key n v).sec = s.sec := rfl
@[simp] theorem State.memWrite_module (s : State) (key n v : Nat) : (s.memWrite key n v).module = s.module := rfl
@[simp] theorem State.memWrite_events (s : State) (key n v : Nat) : (s.memWrite key n v).events = s.events := rfl
@[simp] theorem State.memWrite_posted (s : State) (key n v : Nat) : (s.memWrite key n v).posted = s.posted := rfl
@[simp] theorem State.memWrite_nextId (s : State) (key n v : Nat) : (s.memWrite key n v).nextId = s.nextId := rfl
@[simp] theorem State.memWrite_gangOut (s : State) (key n v : Nat) : (s.memWrite key n v).gangOut = s.gangOut := rfl
@[simp] theorem State.memWrite_heldOrder (s : State) (key n v : Nat) : (s.memWrite key n v).heldOrder = s.heldOrder := rfl
@[simp] theorem State.memWrite_lastRecord (s : State) (key n v : Nat) : (s.memWrite key n v).lastRecord = s.lastRecord := rfl
@[simp] theorem State.memWrite_period (s : State) (key n v : Nat) : (s.memWrite key n v).period = s.period := rfl
@[simp] theorem State.memWrite_images (s : State) (key n v : Nat) : (s.memWrite key n v).images = s.images := rfl

/-! ### State.setEcc -/

@[simp] theorem State.setEcc_tick (s : State) (key v : Nat) : (s.setEcc key v).tick = s.tick := rfl
@[simp] theorem State.setEcc_draws (s : State) (key v : Nat) : (s.setEcc key v).draws = s.draws := rfl
@[simp] theorem State.setEcc_agenda (s : State) (key v : Nat) : (s.setEcc key v).agenda = s.agenda := rfl
@[simp] theorem State.setEcc_ev (s : State) (key v : Nat) : (s.setEcc key v).ev = s.ev := rfl
@[simp] theorem State.setEcc_slot (s : State) (key v : Nat) : (s.setEcc key v).slot = s.slot := rfl
@[simp] theorem State.setEcc_mem (s : State) (key v : Nat) : (s.setEcc key v).mem = s.mem := rfl
@[simp] theorem State.setEcc_tiles (s : State) (key v : Nat) : (s.setEcc key v).tiles = s.tiles := rfl
@[simp] theorem State.setEcc_sites (s : State) (key v : Nat) : (s.setEcc key v).sites = s.sites := rfl
@[simp] theorem State.setEcc_clusters (s : State) (key v : Nat) : (s.setEcc key v).clusters = s.clusters := rfl
@[simp] theorem State.setEcc_fields (s : State) (key v : Nat) : (s.setEcc key v).fields = s.fields := rfl
@[simp] theorem State.setEcc_islands (s : State) (key v : Nat) : (s.setEcc key v).islands = s.islands := rfl
@[simp] theorem State.setEcc_ports (s : State) (key v : Nat) : (s.setEcc key v).ports = s.ports := rfl
@[simp] theorem State.setEcc_groups (s : State) (key v : Nat) : (s.setEcc key v).groups = s.groups := rfl
@[simp] theorem State.setEcc_bays (s : State) (key v : Nat) : (s.setEcc key v).bays = s.bays := rfl
@[simp] theorem State.setEcc_tags (s : State) (key v : Nat) : (s.setEcc key v).tags = s.tags := rfl
@[simp] theorem State.setEcc_regions (s : State) (key v : Nat) : (s.setEcc key v).regions = s.regions := rfl
@[simp] theorem State.setEcc_rings (s : State) (key v : Nat) : (s.setEcc key v).rings = s.rings := rfl
@[simp] theorem State.setEcc_sec (s : State) (key v : Nat) : (s.setEcc key v).sec = s.sec := rfl
@[simp] theorem State.setEcc_module (s : State) (key v : Nat) : (s.setEcc key v).module = s.module := rfl
@[simp] theorem State.setEcc_events (s : State) (key v : Nat) : (s.setEcc key v).events = s.events := rfl
@[simp] theorem State.setEcc_posted (s : State) (key v : Nat) : (s.setEcc key v).posted = s.posted := rfl
@[simp] theorem State.setEcc_nextId (s : State) (key v : Nat) : (s.setEcc key v).nextId = s.nextId := rfl
@[simp] theorem State.setEcc_gangOut (s : State) (key v : Nat) : (s.setEcc key v).gangOut = s.gangOut := rfl
@[simp] theorem State.setEcc_heldOrder (s : State) (key v : Nat) : (s.setEcc key v).heldOrder = s.heldOrder := rfl
@[simp] theorem State.setEcc_lastRecord (s : State) (key v : Nat) : (s.setEcc key v).lastRecord = s.lastRecord := rfl
@[simp] theorem State.setEcc_period (s : State) (key v : Nat) : (s.setEcc key v).period = s.period := rfl
@[simp] theorem State.setEcc_images (s : State) (key v : Nat) : (s.setEcc key v).images = s.images := rfl

/-! ### Tile.setCtx -/

@[simp] theorem Tile.setCtx_region (y : Tile) (c : Nat) (z : Ctx) : (y.setCtx c z).region = y.region := rfl
@[simp] theorem Tile.setCtx_col (y : Tile) (c : Nat) (z : Ctx) : (y.setCtx c z).col = y.col := rfl
@[simp] theorem Tile.setCtx_row (y : Tile) (c : Nat) (z : Ctx) : (y.setCtx c z).row = y.row := rfl
@[simp] theorem Tile.setCtx_kernel (y : Tile) (c : Nat) (z : Ctx) : (y.setCtx c z).kernel = y.kernel := rfl
@[simp] theorem Tile.setCtx_exited (y : Tile) (c : Nat) (z : Ctx) : (y.setCtx c z).exited = y.exited := rfl
@[simp] theorem Tile.setCtx_exitValue (y : Tile) (c : Nat) (z : Ctx) : (y.setCtx c z).exitValue = y.exitValue := rfl
@[simp] theorem Tile.setCtx_stale (y : Tile) (c : Nat) (z : Ctx) : (y.setCtx c z).stale = y.stale := rfl
@[simp] theorem Tile.setCtx_tok (y : Tile) (c : Nat) (z : Ctx) : (y.setCtx c z).tok = y.tok := rfl
@[simp] theorem Tile.setCtx_rr (y : Tile) (c : Nat) (z : Ctx) : (y.setCtx c z).rr = y.rr := rfl
@[simp] theorem Tile.setCtx_held (y : Tile) (c : Nat) (z : Ctx) : (y.setCtx c z).held = y.held := rfl
@[simp] theorem Tile.setCtx_halted (y : Tile) (c : Nat) (z : Ctx) : (y.setCtx c z).halted = y.halted := rfl
@[simp] theorem Tile.setCtx_mtvec (y : Tile) (c : Nat) (z : Ctx) : (y.setCtx c z).mtvec = y.mtvec := rfl
@[simp] theorem Tile.setCtx_spmraw (y : Tile) (c : Nat) (z : Ctx) : (y.setCtx c z).spmraw = y.spmraw := rfl
@[simp] theorem Tile.setCtx_rfbad (y : Tile) (c : Nat) (z : Ctx) : (y.setCtx c z).rfbad = y.rfbad := rfl
@[simp] theorem Tile.setCtx_reptab (y : Tile) (c : Nat) (z : Ctx) : (y.setCtx c z).reptab = y.reptab := rfl
@[simp] theorem Tile.setCtx_rf (y : Tile) (c : Nat) (z : Ctx) : (y.setCtx c z).rf = y.rf := rfl
@[simp] theorem Tile.setCtx_nbr (y : Tile) (c : Nat) (z : Ctx) : (y.setCtx c z).nbr = y.nbr := rfl
@[simp] theorem Tile.setCtx_hop (y : Tile) (c : Nat) (z : Ctx) : (y.setCtx c z).hop = y.hop := rfl
@[simp] theorem Tile.setCtx_mx (y : Tile) (c : Nat) (z : Ctx) : (y.setCtx c z).mx = y.mx := rfl
@[simp] theorem Tile.setCtx_q (y : Tile) (c : Nat) (z : Ctx) : (y.setCtx c z).q = y.q := rfl
@[simp] theorem Tile.setCtx_bars (y : Tile) (c : Nat) (z : Ctx) : (y.setCtx c z).bars = y.bars := rfl
@[simp] theorem Tile.setCtx_coll (y : Tile) (c : Nat) (z : Ctx) : (y.setCtx c z).coll = y.coll := rfl
@[simp] theorem Tile.setCtx_levels (y : Tile) (c : Nat) (z : Ctx) : (y.setCtx c z).levels = y.levels := rfl
@[simp] theorem Tile.setCtx_xfer (y : Tile) (c : Nat) (z : Ctx) : (y.setCtx c z).xfer = y.xfer := rfl
@[simp] theorem Tile.setCtx_xhold (y : Tile) (c : Nat) (z : Ctx) : (y.setCtx c z).xhold = y.xhold := rfl
@[simp] theorem Tile.setCtx_streams (y : Tile) (c : Nat) (z : Ctx) : (y.setCtx c z).streams = y.streams := rfl
@[simp] theorem Tile.setCtx_train (y : Tile) (c : Nat) (z : Ctx) : (y.setCtx c z).train = y.train := rfl
@[simp] theorem Tile.setCtx_itlb (y : Tile) (c : Nat) (z : Ctx) : (y.setCtx c z).itlb = y.itlb := rfl
@[simp] theorem Tile.setCtx_dtlb (y : Tile) (c : Nat) (z : Ctx) : (y.setCtx c z).dtlb = y.dtlb := rfl
@[simp] theorem Tile.setCtx_inv (y : Tile) (c : Nat) (z : Ctx) : (y.setCtx c z).inv = y.inv := rfl
@[simp] theorem Tile.setCtx_seq (y : Tile) (c : Nat) (z : Ctx) : (y.setCtx c z).seq = y.seq := rfl
@[simp] theorem Tile.setCtx_dmax (y : Tile) (c : Nat) (z : Ctx) : (y.setCtx c z).dmax = y.dmax := rfl
@[simp] theorem Tile.setCtx_hackAt (y : Tile) (c : Nat) (z : Ctx) : (y.setCtx c z).hackAt = y.hackAt := rfl
@[simp] theorem Tile.setCtx_scrubEnd (y : Tile) (c : Nat) (z : Ctx) : (y.setCtx c z).scrubEnd = y.scrubEnd := rfl
@[simp] theorem Tile.setCtx_counts (y : Tile) (c : Nat) (z : Ctx) : (y.setCtx c z).counts = y.counts := rfl
@[simp] theorem Tile.setCtx_metered (y : Tile) (c : Nat) (z : Ctx) : (y.setCtx c z).metered = y.metered := rfl
@[simp] theorem Tile.setCtx_lost (y : Tile) (c : Nat) (z : Ctx) : (y.setCtx c z).lost = y.lost := rfl
@[simp] theorem Tile.setCtx_leaving (y : Tile) (c : Nat) (z : Ctx) : (y.setCtx c z).leaving = y.leaving := rfl

/-! ### Tile.setBar -/

@[simp] theorem Tile.setBar_region (y : Tile) (n : Nat) (b : Barrier) : (y.setBar n b).region = y.region := rfl
@[simp] theorem Tile.setBar_col (y : Tile) (n : Nat) (b : Barrier) : (y.setBar n b).col = y.col := rfl
@[simp] theorem Tile.setBar_row (y : Tile) (n : Nat) (b : Barrier) : (y.setBar n b).row = y.row := rfl
@[simp] theorem Tile.setBar_kernel (y : Tile) (n : Nat) (b : Barrier) : (y.setBar n b).kernel = y.kernel := rfl
@[simp] theorem Tile.setBar_exited (y : Tile) (n : Nat) (b : Barrier) : (y.setBar n b).exited = y.exited := rfl
@[simp] theorem Tile.setBar_exitValue (y : Tile) (n : Nat) (b : Barrier) : (y.setBar n b).exitValue = y.exitValue := rfl
@[simp] theorem Tile.setBar_ctxs (y : Tile) (n : Nat) (b : Barrier) : (y.setBar n b).ctxs = y.ctxs := rfl
@[simp] theorem Tile.setBar_stale (y : Tile) (n : Nat) (b : Barrier) : (y.setBar n b).stale = y.stale := rfl
@[simp] theorem Tile.setBar_tok (y : Tile) (n : Nat) (b : Barrier) : (y.setBar n b).tok = y.tok := rfl
@[simp] theorem Tile.setBar_rr (y : Tile) (n : Nat) (b : Barrier) : (y.setBar n b).rr = y.rr := rfl
@[simp] theorem Tile.setBar_held (y : Tile) (n : Nat) (b : Barrier) : (y.setBar n b).held = y.held := rfl
@[simp] theorem Tile.setBar_halted (y : Tile) (n : Nat) (b : Barrier) : (y.setBar n b).halted = y.halted := rfl
@[simp] theorem Tile.setBar_mtvec (y : Tile) (n : Nat) (b : Barrier) : (y.setBar n b).mtvec = y.mtvec := rfl
@[simp] theorem Tile.setBar_spmraw (y : Tile) (n : Nat) (b : Barrier) : (y.setBar n b).spmraw = y.spmraw := rfl
@[simp] theorem Tile.setBar_rfbad (y : Tile) (n : Nat) (b : Barrier) : (y.setBar n b).rfbad = y.rfbad := rfl
@[simp] theorem Tile.setBar_reptab (y : Tile) (n : Nat) (b : Barrier) : (y.setBar n b).reptab = y.reptab := rfl
@[simp] theorem Tile.setBar_rf (y : Tile) (n : Nat) (b : Barrier) : (y.setBar n b).rf = y.rf := rfl
@[simp] theorem Tile.setBar_nbr (y : Tile) (n : Nat) (b : Barrier) : (y.setBar n b).nbr = y.nbr := rfl
@[simp] theorem Tile.setBar_hop (y : Tile) (n : Nat) (b : Barrier) : (y.setBar n b).hop = y.hop := rfl
@[simp] theorem Tile.setBar_mx (y : Tile) (n : Nat) (b : Barrier) : (y.setBar n b).mx = y.mx := rfl
@[simp] theorem Tile.setBar_q (y : Tile) (n : Nat) (b : Barrier) : (y.setBar n b).q = y.q := rfl
@[simp] theorem Tile.setBar_coll (y : Tile) (n : Nat) (b : Barrier) : (y.setBar n b).coll = y.coll := rfl
@[simp] theorem Tile.setBar_levels (y : Tile) (n : Nat) (b : Barrier) : (y.setBar n b).levels = y.levels := rfl
@[simp] theorem Tile.setBar_xfer (y : Tile) (n : Nat) (b : Barrier) : (y.setBar n b).xfer = y.xfer := rfl
@[simp] theorem Tile.setBar_xhold (y : Tile) (n : Nat) (b : Barrier) : (y.setBar n b).xhold = y.xhold := rfl
@[simp] theorem Tile.setBar_streams (y : Tile) (n : Nat) (b : Barrier) : (y.setBar n b).streams = y.streams := rfl
@[simp] theorem Tile.setBar_train (y : Tile) (n : Nat) (b : Barrier) : (y.setBar n b).train = y.train := rfl
@[simp] theorem Tile.setBar_itlb (y : Tile) (n : Nat) (b : Barrier) : (y.setBar n b).itlb = y.itlb := rfl
@[simp] theorem Tile.setBar_dtlb (y : Tile) (n : Nat) (b : Barrier) : (y.setBar n b).dtlb = y.dtlb := rfl
@[simp] theorem Tile.setBar_inv (y : Tile) (n : Nat) (b : Barrier) : (y.setBar n b).inv = y.inv := rfl
@[simp] theorem Tile.setBar_seq (y : Tile) (n : Nat) (b : Barrier) : (y.setBar n b).seq = y.seq := rfl
@[simp] theorem Tile.setBar_dmax (y : Tile) (n : Nat) (b : Barrier) : (y.setBar n b).dmax = y.dmax := rfl
@[simp] theorem Tile.setBar_hackAt (y : Tile) (n : Nat) (b : Barrier) : (y.setBar n b).hackAt = y.hackAt := rfl
@[simp] theorem Tile.setBar_scrubEnd (y : Tile) (n : Nat) (b : Barrier) : (y.setBar n b).scrubEnd = y.scrubEnd := rfl
@[simp] theorem Tile.setBar_counts (y : Tile) (n : Nat) (b : Barrier) : (y.setBar n b).counts = y.counts := rfl
@[simp] theorem Tile.setBar_metered (y : Tile) (n : Nat) (b : Barrier) : (y.setBar n b).metered = y.metered := rfl
@[simp] theorem Tile.setBar_lost (y : Tile) (n : Nat) (b : Barrier) : (y.setBar n b).lost = y.lost := rfl
@[simp] theorem Tile.setBar_leaving (y : Tile) (n : Nat) (b : Barrier) : (y.setBar n b).leaving = y.leaving := rfl

/-! ### Tile.setStream -/

@[simp] theorem Tile.setStream_region (y : Tile) (n : Nat) (e : StreamEnd) : (y.setStream n e).region = y.region := rfl
@[simp] theorem Tile.setStream_col (y : Tile) (n : Nat) (e : StreamEnd) : (y.setStream n e).col = y.col := rfl
@[simp] theorem Tile.setStream_row (y : Tile) (n : Nat) (e : StreamEnd) : (y.setStream n e).row = y.row := rfl
@[simp] theorem Tile.setStream_kernel (y : Tile) (n : Nat) (e : StreamEnd) : (y.setStream n e).kernel = y.kernel := rfl
@[simp] theorem Tile.setStream_exited (y : Tile) (n : Nat) (e : StreamEnd) : (y.setStream n e).exited = y.exited := rfl
@[simp] theorem Tile.setStream_exitValue (y : Tile) (n : Nat) (e : StreamEnd) : (y.setStream n e).exitValue = y.exitValue := rfl
@[simp] theorem Tile.setStream_ctxs (y : Tile) (n : Nat) (e : StreamEnd) : (y.setStream n e).ctxs = y.ctxs := rfl
@[simp] theorem Tile.setStream_stale (y : Tile) (n : Nat) (e : StreamEnd) : (y.setStream n e).stale = y.stale := rfl
@[simp] theorem Tile.setStream_tok (y : Tile) (n : Nat) (e : StreamEnd) : (y.setStream n e).tok = y.tok := rfl
@[simp] theorem Tile.setStream_rr (y : Tile) (n : Nat) (e : StreamEnd) : (y.setStream n e).rr = y.rr := rfl
@[simp] theorem Tile.setStream_held (y : Tile) (n : Nat) (e : StreamEnd) : (y.setStream n e).held = y.held := rfl
@[simp] theorem Tile.setStream_halted (y : Tile) (n : Nat) (e : StreamEnd) : (y.setStream n e).halted = y.halted := rfl
@[simp] theorem Tile.setStream_mtvec (y : Tile) (n : Nat) (e : StreamEnd) : (y.setStream n e).mtvec = y.mtvec := rfl
@[simp] theorem Tile.setStream_spmraw (y : Tile) (n : Nat) (e : StreamEnd) : (y.setStream n e).spmraw = y.spmraw := rfl
@[simp] theorem Tile.setStream_rfbad (y : Tile) (n : Nat) (e : StreamEnd) : (y.setStream n e).rfbad = y.rfbad := rfl
@[simp] theorem Tile.setStream_reptab (y : Tile) (n : Nat) (e : StreamEnd) : (y.setStream n e).reptab = y.reptab := rfl
@[simp] theorem Tile.setStream_rf (y : Tile) (n : Nat) (e : StreamEnd) : (y.setStream n e).rf = y.rf := rfl
@[simp] theorem Tile.setStream_nbr (y : Tile) (n : Nat) (e : StreamEnd) : (y.setStream n e).nbr = y.nbr := rfl
@[simp] theorem Tile.setStream_hop (y : Tile) (n : Nat) (e : StreamEnd) : (y.setStream n e).hop = y.hop := rfl
@[simp] theorem Tile.setStream_mx (y : Tile) (n : Nat) (e : StreamEnd) : (y.setStream n e).mx = y.mx := rfl
@[simp] theorem Tile.setStream_q (y : Tile) (n : Nat) (e : StreamEnd) : (y.setStream n e).q = y.q := rfl
@[simp] theorem Tile.setStream_bars (y : Tile) (n : Nat) (e : StreamEnd) : (y.setStream n e).bars = y.bars := rfl
@[simp] theorem Tile.setStream_coll (y : Tile) (n : Nat) (e : StreamEnd) : (y.setStream n e).coll = y.coll := rfl
@[simp] theorem Tile.setStream_levels (y : Tile) (n : Nat) (e : StreamEnd) : (y.setStream n e).levels = y.levels := rfl
@[simp] theorem Tile.setStream_xfer (y : Tile) (n : Nat) (e : StreamEnd) : (y.setStream n e).xfer = y.xfer := rfl
@[simp] theorem Tile.setStream_xhold (y : Tile) (n : Nat) (e : StreamEnd) : (y.setStream n e).xhold = y.xhold := rfl
@[simp] theorem Tile.setStream_train (y : Tile) (n : Nat) (e : StreamEnd) : (y.setStream n e).train = y.train := rfl
@[simp] theorem Tile.setStream_itlb (y : Tile) (n : Nat) (e : StreamEnd) : (y.setStream n e).itlb = y.itlb := rfl
@[simp] theorem Tile.setStream_dtlb (y : Tile) (n : Nat) (e : StreamEnd) : (y.setStream n e).dtlb = y.dtlb := rfl
@[simp] theorem Tile.setStream_inv (y : Tile) (n : Nat) (e : StreamEnd) : (y.setStream n e).inv = y.inv := rfl
@[simp] theorem Tile.setStream_seq (y : Tile) (n : Nat) (e : StreamEnd) : (y.setStream n e).seq = y.seq := rfl
@[simp] theorem Tile.setStream_dmax (y : Tile) (n : Nat) (e : StreamEnd) : (y.setStream n e).dmax = y.dmax := rfl
@[simp] theorem Tile.setStream_hackAt (y : Tile) (n : Nat) (e : StreamEnd) : (y.setStream n e).hackAt = y.hackAt := rfl
@[simp] theorem Tile.setStream_scrubEnd (y : Tile) (n : Nat) (e : StreamEnd) : (y.setStream n e).scrubEnd = y.scrubEnd := rfl
@[simp] theorem Tile.setStream_counts (y : Tile) (n : Nat) (e : StreamEnd) : (y.setStream n e).counts = y.counts := rfl
@[simp] theorem Tile.setStream_metered (y : Tile) (n : Nat) (e : StreamEnd) : (y.setStream n e).metered = y.metered := rfl
@[simp] theorem Tile.setStream_lost (y : Tile) (n : Nat) (e : StreamEnd) : (y.setStream n e).lost = y.lost := rfl
@[simp] theorem Tile.setStream_leaving (y : Tile) (n : Nat) (e : StreamEnd) : (y.setStream n e).leaving = y.leaving := rfl

/-! ### Tile.updQ -/

@[simp] theorem Tile.updQ_region (y : Tile) (f : Queues → Queues) : (y.updQ f).region = y.region := rfl
@[simp] theorem Tile.updQ_col (y : Tile) (f : Queues → Queues) : (y.updQ f).col = y.col := rfl
@[simp] theorem Tile.updQ_row (y : Tile) (f : Queues → Queues) : (y.updQ f).row = y.row := rfl
@[simp] theorem Tile.updQ_kernel (y : Tile) (f : Queues → Queues) : (y.updQ f).kernel = y.kernel := rfl
@[simp] theorem Tile.updQ_exited (y : Tile) (f : Queues → Queues) : (y.updQ f).exited = y.exited := rfl
@[simp] theorem Tile.updQ_exitValue (y : Tile) (f : Queues → Queues) : (y.updQ f).exitValue = y.exitValue := rfl
@[simp] theorem Tile.updQ_ctxs (y : Tile) (f : Queues → Queues) : (y.updQ f).ctxs = y.ctxs := rfl
@[simp] theorem Tile.updQ_stale (y : Tile) (f : Queues → Queues) : (y.updQ f).stale = y.stale := rfl
@[simp] theorem Tile.updQ_tok (y : Tile) (f : Queues → Queues) : (y.updQ f).tok = y.tok := rfl
@[simp] theorem Tile.updQ_rr (y : Tile) (f : Queues → Queues) : (y.updQ f).rr = y.rr := rfl
@[simp] theorem Tile.updQ_held (y : Tile) (f : Queues → Queues) : (y.updQ f).held = y.held := rfl
@[simp] theorem Tile.updQ_halted (y : Tile) (f : Queues → Queues) : (y.updQ f).halted = y.halted := rfl
@[simp] theorem Tile.updQ_mtvec (y : Tile) (f : Queues → Queues) : (y.updQ f).mtvec = y.mtvec := rfl
@[simp] theorem Tile.updQ_spmraw (y : Tile) (f : Queues → Queues) : (y.updQ f).spmraw = y.spmraw := rfl
@[simp] theorem Tile.updQ_rfbad (y : Tile) (f : Queues → Queues) : (y.updQ f).rfbad = y.rfbad := rfl
@[simp] theorem Tile.updQ_reptab (y : Tile) (f : Queues → Queues) : (y.updQ f).reptab = y.reptab := rfl
@[simp] theorem Tile.updQ_rf (y : Tile) (f : Queues → Queues) : (y.updQ f).rf = y.rf := rfl
@[simp] theorem Tile.updQ_nbr (y : Tile) (f : Queues → Queues) : (y.updQ f).nbr = y.nbr := rfl
@[simp] theorem Tile.updQ_hop (y : Tile) (f : Queues → Queues) : (y.updQ f).hop = y.hop := rfl
@[simp] theorem Tile.updQ_mx (y : Tile) (f : Queues → Queues) : (y.updQ f).mx = y.mx := rfl
@[simp] theorem Tile.updQ_bars (y : Tile) (f : Queues → Queues) : (y.updQ f).bars = y.bars := rfl
@[simp] theorem Tile.updQ_coll (y : Tile) (f : Queues → Queues) : (y.updQ f).coll = y.coll := rfl
@[simp] theorem Tile.updQ_levels (y : Tile) (f : Queues → Queues) : (y.updQ f).levels = y.levels := rfl
@[simp] theorem Tile.updQ_xfer (y : Tile) (f : Queues → Queues) : (y.updQ f).xfer = y.xfer := rfl
@[simp] theorem Tile.updQ_xhold (y : Tile) (f : Queues → Queues) : (y.updQ f).xhold = y.xhold := rfl
@[simp] theorem Tile.updQ_streams (y : Tile) (f : Queues → Queues) : (y.updQ f).streams = y.streams := rfl
@[simp] theorem Tile.updQ_train (y : Tile) (f : Queues → Queues) : (y.updQ f).train = y.train := rfl
@[simp] theorem Tile.updQ_itlb (y : Tile) (f : Queues → Queues) : (y.updQ f).itlb = y.itlb := rfl
@[simp] theorem Tile.updQ_dtlb (y : Tile) (f : Queues → Queues) : (y.updQ f).dtlb = y.dtlb := rfl
@[simp] theorem Tile.updQ_inv (y : Tile) (f : Queues → Queues) : (y.updQ f).inv = y.inv := rfl
@[simp] theorem Tile.updQ_seq (y : Tile) (f : Queues → Queues) : (y.updQ f).seq = y.seq := rfl
@[simp] theorem Tile.updQ_dmax (y : Tile) (f : Queues → Queues) : (y.updQ f).dmax = y.dmax := rfl
@[simp] theorem Tile.updQ_hackAt (y : Tile) (f : Queues → Queues) : (y.updQ f).hackAt = y.hackAt := rfl
@[simp] theorem Tile.updQ_scrubEnd (y : Tile) (f : Queues → Queues) : (y.updQ f).scrubEnd = y.scrubEnd := rfl
@[simp] theorem Tile.updQ_counts (y : Tile) (f : Queues → Queues) : (y.updQ f).counts = y.counts := rfl
@[simp] theorem Tile.updQ_metered (y : Tile) (f : Queues → Queues) : (y.updQ f).metered = y.metered := rfl
@[simp] theorem Tile.updQ_lost (y : Tile) (f : Queues → Queues) : (y.updQ f).lost = y.lost := rfl
@[simp] theorem Tile.updQ_leaving (y : Tile) (f : Queues → Queues) : (y.updQ f).leaving = y.leaving := rfl

/-! ### Tile.updMx -/

@[simp] theorem Tile.updMx_region (y : Tile) (f : Matrix → Matrix) : (y.updMx f).region = y.region := rfl
@[simp] theorem Tile.updMx_col (y : Tile) (f : Matrix → Matrix) : (y.updMx f).col = y.col := rfl
@[simp] theorem Tile.updMx_row (y : Tile) (f : Matrix → Matrix) : (y.updMx f).row = y.row := rfl
@[simp] theorem Tile.updMx_kernel (y : Tile) (f : Matrix → Matrix) : (y.updMx f).kernel = y.kernel := rfl
@[simp] theorem Tile.updMx_exited (y : Tile) (f : Matrix → Matrix) : (y.updMx f).exited = y.exited := rfl
@[simp] theorem Tile.updMx_exitValue (y : Tile) (f : Matrix → Matrix) : (y.updMx f).exitValue = y.exitValue := rfl
@[simp] theorem Tile.updMx_ctxs (y : Tile) (f : Matrix → Matrix) : (y.updMx f).ctxs = y.ctxs := rfl
@[simp] theorem Tile.updMx_stale (y : Tile) (f : Matrix → Matrix) : (y.updMx f).stale = y.stale := rfl
@[simp] theorem Tile.updMx_tok (y : Tile) (f : Matrix → Matrix) : (y.updMx f).tok = y.tok := rfl
@[simp] theorem Tile.updMx_rr (y : Tile) (f : Matrix → Matrix) : (y.updMx f).rr = y.rr := rfl
@[simp] theorem Tile.updMx_held (y : Tile) (f : Matrix → Matrix) : (y.updMx f).held = y.held := rfl
@[simp] theorem Tile.updMx_halted (y : Tile) (f : Matrix → Matrix) : (y.updMx f).halted = y.halted := rfl
@[simp] theorem Tile.updMx_mtvec (y : Tile) (f : Matrix → Matrix) : (y.updMx f).mtvec = y.mtvec := rfl
@[simp] theorem Tile.updMx_spmraw (y : Tile) (f : Matrix → Matrix) : (y.updMx f).spmraw = y.spmraw := rfl
@[simp] theorem Tile.updMx_rfbad (y : Tile) (f : Matrix → Matrix) : (y.updMx f).rfbad = y.rfbad := rfl
@[simp] theorem Tile.updMx_reptab (y : Tile) (f : Matrix → Matrix) : (y.updMx f).reptab = y.reptab := rfl
@[simp] theorem Tile.updMx_rf (y : Tile) (f : Matrix → Matrix) : (y.updMx f).rf = y.rf := rfl
@[simp] theorem Tile.updMx_nbr (y : Tile) (f : Matrix → Matrix) : (y.updMx f).nbr = y.nbr := rfl
@[simp] theorem Tile.updMx_hop (y : Tile) (f : Matrix → Matrix) : (y.updMx f).hop = y.hop := rfl
@[simp] theorem Tile.updMx_q (y : Tile) (f : Matrix → Matrix) : (y.updMx f).q = y.q := rfl
@[simp] theorem Tile.updMx_bars (y : Tile) (f : Matrix → Matrix) : (y.updMx f).bars = y.bars := rfl
@[simp] theorem Tile.updMx_coll (y : Tile) (f : Matrix → Matrix) : (y.updMx f).coll = y.coll := rfl
@[simp] theorem Tile.updMx_levels (y : Tile) (f : Matrix → Matrix) : (y.updMx f).levels = y.levels := rfl
@[simp] theorem Tile.updMx_xfer (y : Tile) (f : Matrix → Matrix) : (y.updMx f).xfer = y.xfer := rfl
@[simp] theorem Tile.updMx_xhold (y : Tile) (f : Matrix → Matrix) : (y.updMx f).xhold = y.xhold := rfl
@[simp] theorem Tile.updMx_streams (y : Tile) (f : Matrix → Matrix) : (y.updMx f).streams = y.streams := rfl
@[simp] theorem Tile.updMx_train (y : Tile) (f : Matrix → Matrix) : (y.updMx f).train = y.train := rfl
@[simp] theorem Tile.updMx_itlb (y : Tile) (f : Matrix → Matrix) : (y.updMx f).itlb = y.itlb := rfl
@[simp] theorem Tile.updMx_dtlb (y : Tile) (f : Matrix → Matrix) : (y.updMx f).dtlb = y.dtlb := rfl
@[simp] theorem Tile.updMx_inv (y : Tile) (f : Matrix → Matrix) : (y.updMx f).inv = y.inv := rfl
@[simp] theorem Tile.updMx_seq (y : Tile) (f : Matrix → Matrix) : (y.updMx f).seq = y.seq := rfl
@[simp] theorem Tile.updMx_dmax (y : Tile) (f : Matrix → Matrix) : (y.updMx f).dmax = y.dmax := rfl
@[simp] theorem Tile.updMx_hackAt (y : Tile) (f : Matrix → Matrix) : (y.updMx f).hackAt = y.hackAt := rfl
@[simp] theorem Tile.updMx_scrubEnd (y : Tile) (f : Matrix → Matrix) : (y.updMx f).scrubEnd = y.scrubEnd := rfl
@[simp] theorem Tile.updMx_counts (y : Tile) (f : Matrix → Matrix) : (y.updMx f).counts = y.counts := rfl
@[simp] theorem Tile.updMx_metered (y : Tile) (f : Matrix → Matrix) : (y.updMx f).metered = y.metered := rfl
@[simp] theorem Tile.updMx_lost (y : Tile) (f : Matrix → Matrix) : (y.updMx f).lost = y.lost := rfl
@[simp] theorem Tile.updMx_leaving (y : Tile) (f : Matrix → Matrix) : (y.updMx f).leaving = y.leaving := rfl

/-! ### Reading a part after writing it -/

theorem State.tile_setTile (s : State) (t u : Nat) (x : Tile) : (s.setTile t x).tile u = if u = t then x else s.tile u :=
  fget_fset _ _ _ _ _

@[simp] theorem State.tile_setTile_same (s : State) (t : Nat) (x : Tile) : (s.setTile t x).tile t = x := by
  simp [State.tile_setTile]

theorem State.tile_setTile_ne (s : State) {t u : Nat} (x : Tile) (h : u ≠ t) : (s.setTile t x).tile u = s.tile u := by
  simp [State.tile_setTile, h]

@[simp] theorem State.tile_updTile_same (s : State) (t : Nat) (f : Tile → Tile) : (s.updTile t f).tile t = f (s.tile t) := by
  simp [State.updTile]

theorem State.tile_updTile_ne (s : State) {t u : Nat} (f : Tile → Tile) (h : u ≠ t) : (s.updTile t f).tile u = s.tile u :=
  State.tile_setTile_ne s _ h

@[simp] theorem Tile.ctx_setCtx_same (y : Tile) (c : Nat) (z : Ctx) : (y.setCtx c z).ctx c = z := fget_fset_same _ _ _ _

theorem Tile.ctx_setCtx_ne (y : Tile) {c d : Nat} (z : Ctx) (h : d ≠ c) : (y.setCtx c z).ctx d = y.ctx d := fget_fset_ne _ _ _ h

@[simp] theorem State.ctx_setCtx_same (s : State) (t c : Nat) (y : Ctx) : (s.setCtx t c y).ctx t c = y := by
  simp [State.setCtx, State.ctx]

theorem State.ctx_setCtx_ne (s : State) {t c u d : Nat} (y : Ctx) (h : ¬(u = t ∧ d = c)) : (s.setCtx t c y).ctx u d = s.ctx u d := by
  unfold State.setCtx State.ctx
  by_cases hu : u = t
  · subst hu; rw [State.tile_setTile_same, Tile.ctx_setCtx_ne _ _ (fun e => h ⟨rfl, e⟩)]
  · rw [State.tile_setTile_ne _ _ hu]

@[simp] theorem State.ctx_updCtx_same (s : State) (t c : Nat) (f : Ctx → Ctx) : (s.updCtx t c f).ctx t c = f (s.ctx t c) :=
  State.ctx_setCtx_same _ _ _ _

theorem State.ctx_updCtx_ne (s : State) {t c u d : Nat} (f : Ctx → Ctx) (h : ¬(u = t ∧ d = c)) :
    (s.updCtx t c f).ctx u d = s.ctx u d := State.ctx_setCtx_ne s _ h

@[simp] theorem State.cur_updCur (s : State) (f : Ctx → Ctx) : (s.updCur f).cur = f s.cur := State.ctx_updCtx_same _ _ _ _

@[simp] theorem State.curTile_updCurTile (s : State) (f : Tile → Tile) : (s.updCurTile f).curTile = f s.curTile :=
  State.tile_updTile_same _ _ _

@[simp] theorem State.site_setSite_same (s : State) (t : Nat) (x : Site) : (s.setSite t x).site t = x := fget_fset_same _ _ _ _
@[simp] theorem State.field_setField_same (s : State) (f : Nat) (x : Field) : (s.setField f x).field f = x := fget_fset_same _ _ _ _
@[simp] theorem State.cluster_setCluster_same (s : State) (k : Nat) (x : Cluster) : (s.setCluster k x).cluster k = x := fget_fset_same _ _ _ _
@[simp] theorem State.island_setIsland_same (s : State) (i : Nat) (x : Island) : (s.setIsland i x).island i = x := fget_fset_same _ _ _ _
@[simp] theorem State.port_setPort_same (s : State) (p : Nat) (x : Port) : (s.setPort p x).port p = x := fget_fset_same _ _ _ _
@[simp] theorem State.group_setGroup_same (s : State) (g : Nat) (x : Group) : (s.setGroup g x).group g = x := fget_fset_same _ _ _ _
@[simp] theorem State.bay_setBay_same (s : State) (b : Nat) (x : Bay) : (s.setBay b x).bay b = x := fget_fset_same _ _ _ _
@[simp] theorem State.tag_setTag_same (s : State) (f : Nat) (x : FrameTag) : (s.setTag f x).tag f = x := fget_fset_same _ _ _ _
@[simp] theorem State.region_setRegion_same (s : State) (r : Nat) (x : Region) : (s.setRegion r x).region r = x := fget_fset_same _ _ _ _
@[simp] theorem State.ring_setRing_same (s : State) (k : Nat) (x : Ring) : (s.setRing k x).ring k = x := fget_fset_same _ _ _ _
@[simp] theorem State.cmdRing_setCmdRing_same (s : State) (k : Nat) (x : CmdRing) : (s.setCmdRing k x).cmdRing k = x := fget_fset_same _ _ _ _
@[simp] theorem Region.kernel_setKernel_same (x : Region) (k : Nat) (y : Kernel) : (x.setKernel k y).kernel k = y := fget_fset_same _ _ _ _
@[simp] theorem Queues.counter_setCounter_same (q : Queues) (n : Nat) (x : Counter) : (q.setCounter n x).counter n = x := fget_fset_same _ _ _ _
@[simp] theorem Tile.bar_setBar_same (x : Tile) (n : Nat) (b : Barrier) : (x.setBar n b).bar n = b := fget_fset_same _ _ _ _
@[simp] theorem Tile.stream_setStream_same (x : Tile) (n : Nat) (e : StreamEnd) : (x.setStream n e).stream n = e := fget_fset_same _ _ _ _

/-! ### Registers (R57, R61) -/

/-- g0 reads as zero (R57). -/
@[simp] theorem Ctx.readG_zero (x : Ctx) : x.readG 0 = 0 := rfl

/-- g0 is always full (R61). -/
@[simp] theorem Ctx.stateG_zero (x : Ctx) : x.stateG 0 = .full := rfl

/-- A write to g0 is discarded (R57). -/
@[simp] theorem Ctx.putG_zero (x : Ctx) (m : Bool) (v : Word) : x.putG m 0 v = x := rfl

@[simp] theorem Ctx.putG_mon (x : Ctx) (m : Bool) (r : Nat) (v : Word) : (x.putG m r v).mon = x.mon := by
  unfold Ctx.putG; split <;> [rfl; (split <;> rfl)]

/-- A register reads what was written to it in the same mode. -/
theorem Ctx.readG_putG_same (x : Ctx) {r : Nat} (v : Word) (h : r ≠ 0) : (x.putG x.mon r v).readG r = v := by
  unfold Ctx.putG Ctx.readG
  cases hm : monName x.mon r <;> simp [h, hm]

/-- A write leaves every other register alone. -/
theorem Ctx.readG_putG_ne (x : Ctx) {r q : Nat} (m : Bool) (v : Word) (h : q ≠ r) : (x.putG m r v).readG q = x.readG q := by
  unfold Ctx.readG
  rw [Ctx.putG_mon]
  unfold Ctx.putG
  split
  · rfl
  · split
    · split <;> [rfl; (split <;> simp [fget_fset_ne, h])]
    · split <;> [rfl; (split <;> simp [fget_fset_ne, h])]

/-- The written register is full (R61). -/
theorem Ctx.stateG_putG_same (x : Ctx) (r : Nat) (v : Word) : (x.putG x.mon r v).stateG r = .full := by
  unfold Ctx.putG Ctx.stateG
  by_cases h : r = 0
  · simp [h]
  · cases hm : monName x.mon r <;> simp [h, hm]

@[simp] theorem Ctx.readV_putV_same (x : Ctx) (v : Nat) (w : VecReg) : (x.putV v w).readV v = w := fget_fset_same _ _ _ _
theorem Ctx.readV_putV_ne (x : Ctx) {v u : Nat} (w : VecReg) (h : u ≠ v) : (x.putV v w).readV u = x.readV u := fget_fset_ne _ _ _ h

/-- m0 reads all ones (R155). -/
@[simp] theorem Ctx.mask_zero (x : Ctx) : x.mask 0 = 0xFFFF#16 := rfl

end Sys2Proof.Machine
end

