-- ==== Sys2Proof/Laws/Issue.lean ====
section
/-! SUPPORT. Everything `issue` can do, said once: the conditions of R77 in order, then the operation. -/
namespace Sys2Proof.Machine

theorem Need.ready_iff (n : Need) (s : State) : n.ready s = true ↔ n.gate s = .go := by
  simp [Need.ready]

/-- What an instruction that is ready answers, in terms of its operation. -/
theorem issue_ready {n : Need} {s : State} (body : List Word → State → Act) (h : n.ready s = true) :
    issue n s body = match body (n.vals s) (n.take s) with
      | .fault c v => trap s c v
      | .wait f => stall (f s)
      | .ok s' => .next s' := by
  rw [Need.ready_iff] at h
  unfold issue
  rw [h]
  all_goals (cases body (n.vals s) (n.take s) <;> rfl)

/-- A ready instruction whose operation succeeds completes. -/
theorem issue_ok {n : Need} {s s' : State} {body : List Word → State → Act} (h : n.ready s = true)
    (hb : body (n.vals s) (n.take s) = .ok s') : issue n s body = .next s' := by
  simp only [issue_ready body h, hb]

/-- A ready instruction whose operation faults takes the trap, without an effect (R10). -/
theorem issue_fault {n : Need} {s : State} {body : List Word → State → Act} {c : Nat} {v : Word} (h : n.ready s = true)
    (hb : body (n.vals s) (n.take s) = .fault c v) : issue n s body = .next (s.takeTrap c v) := by
  simp only [issue_ready body h, hb, trap]

/-- A ready instruction whose operation is to wait is passed over. -/
theorem issue_wait {n : Need} {s : State} {body : List Word → State → Act} {f : State → State} (h : n.ready s = true)
    (hb : body (n.vals s) (n.take s) = .wait f) : issue n s body = stall (f s) := by
  simp only [issue_ready body h, hb]

/-- A word stopped by its conditions takes their trap (R77). -/
theorem issue_gate_fault {n : Need} {s : State} (body : List Word → State → Act) {c : Nat} {v : Word} (h : n.gate s = .fault c v) :
    issue n s body = .next (s.takeTrap c v) := by
  simp only [issue, h, trap]

/-- All that `issue` answers. -/
theorem issue_cases {n : Need} {s : State} {body : List Word → State → Act} {o : Out} (h : issue n s body = o) :
    (∃ c v, o = .next (s.takeTrap c v)) ∨ (∃ f, o = stall (f s) ∧ (f = id ∨ body (n.vals s) (n.take s) = .wait f)) ∨
    (∃ s', o = .next s' ∧ n.ready s = true ∧ body (n.vals s) (n.take s) = .ok s') := by
  unfold issue at h
  split at h
  · exact .inl ⟨_, _, h.symm⟩
  · exact .inr (.inl ⟨id, h.symm, .inl rfl⟩)
  · rename_i hg
    split at h
    · exact .inl ⟨_, _, h.symm⟩
    · rename_i f hf; exact .inr (.inl ⟨f, h.symm, .inr hf⟩)
    · rename_i s' hs; exact .inr (.inr ⟨s', h.symm, by simp [Need.ready, hg], hs⟩)

/-- An instruction in user mode that is reserved to monitor mode (R70). -/
theorem gate_priv {n : Need} {s : State} (hw : n.illegal s = false) (hp : n.priv = true) (hm : s.cur.mon = false) :
    n.gate s = .fault 0x02 0 := by
  simp [Need.gate, hw, hp, hm]

/-- A word without registers is ready where it is legal and permitted. -/
theorem ready_none {n : Need} {s : State} (hw : n.illegal s = false) (hp : n.priv = true → s.cur.mon = true)
    (h1 : n.srcs = []) (h2 : n.vsrcs = []) (h3 : n.dsts = []) (h4 : n.vdsts = []) : n.ready s = true := by
  have hp' : (n.priv && !s.cur.mon) = false := by cases h : n.priv <;> simp_all
  simp [Need.ready, Need.gate, hw, hp', h1, h2, h3, h4, Need.blocked, Need.absent, Need.named, Need.unbound, Need.ended, Need.marked, Need.rowFails]

end Sys2Proof.Machine
end

