-- ==== Sys2Proof/Tests/Slice0.lean ====
section
/-! SUPPORT. Tests: ill-formed instructions refused, words written out from the encodings, one-step results worked out from the rules, and for each statement states that
meet its hypotheses: its witnesses, theorems named witness_..., whose docstrings name the statement (an obligation or a part of one under Sys2Proof.Claims). -/

namespace Sys2Proof.Tests

set_option maxRecDepth 100000
set_option exponentiation.threshold 4096
set_option Elab.async false

open Sys2Proof Sys2Proof.Machine Sys2Proof.Claims

/-! ### Words, field by field in the formats of R54 -/

def wR (op rd ra rb : BitVec 6) (wa wb : BitVec 1) (fn : BitVec 6) : BitVec 32 := op ++ rd ++ ra ++ rb ++ wa ++ wb ++ fn
def wI (op rd ra : BitVec 6) (wa : BitVec 1) (imm : BitVec 13) : BitVec 32 := op ++ rd ++ ra ++ wa ++ imm
def wU (op rd : BitVec 6) (imm : BitVec 20) : BitVec 32 := op ++ rd ++ imm
def wJ (op : BitVec 6) (disp : BitVec 26) : BitVec 32 := op ++ disp
def wB (op : BitVec 6) (cond : BitVec 3) (ra rb : BitVec 6) (disp : BitVec 11) : BitVec 32 := op ++ cond ++ ra ++ rb ++ disp
def wV (op : BitVec 6) (vd va vb : BitVec 5) (m : BitVec 3) (fn : BitVec 8) : BitVec 32 := op ++ vd ++ va ++ vb ++ m ++ fn
def wM (op : BitVec 6) (acc : BitVec 2) (ga gb : BitVec 6) (fn : BitVec 12) : BitVec 32 := op ++ acc ++ ga ++ gb ++ fn
def wX (rnd : BitVec 3) (scale : BitVec 6) (absb absa negb nega clamp sat : BitVec 1) : BitVec 32 :=
  0x3E#6 ++ 0#11 ++ rnd ++ scale ++ absb ++ absa ++ negb ++ nega ++ clamp ++ sat

/-- The word decodes to the instruction, and the encoder writes that word. -/
def reads (w : BitVec 32) (i : Instr) : Bool :=
  (match decode w with
   | .ok j => decide (j = i)
   | .error _ => false) && decide (encode i = some w)

/-- The word is no instruction. -/
def refused (w : BitVec 32) : Bool :=
  match decode w with
  | .ok _ => false
  | .error _ => true

/-- Bits as R54 places them: rd 25 to 20, ra 19 to 14, rb 13 to 8, wa 7, wb 6, fn 5 to 0. -/
theorem test_word_bits :
    wR 1 0b100001 0b011110 0b101010 1 0 0b000101 = 0b00000110000101111010101010000101#32 ∧
    wI 2 1 2 1 3 = 0b00001000000100001010000000000011#32 ∧ wB 0x10 5 1 2 0x7FF = 0b01000010100000100001011111111111#32 ∧
    wV 0x20 1 2 3 4 5 = 0b10000000001000100001110000000101#32 ∧ wM 0x28 2 3 4 5 = 0b10100010000011000100000000000101#32 := by decide +kernel

/-- The rows of R69 with two sources and a destination. -/
theorem test_words_r : ∀ p ∈ ([(1, 0, .add), (1, 1, .sub), (1, 2, .andG), (1, 3, .orG), (1, 4, .xorG), (1, 5, .andn), (1, 6, .shl), (1, 7, .shr),
    (1, 8, .sar), (1, 9, .rot), (1, 10, .slt), (1, 11, .sltu), (1, 12, .seq), (1, 13, .sel), (1, 14, .min), (1, 15, .max), (1, 16, .minu),
    (1, 17, .maxu), (0x0A, 0, .mul), (0x0A, 1, .mulh), (0x0A, 2, .mulhu), (0x0A, 3, .div), (0x0A, 4, .divu), (0x0A, 5, .rem), (0x0A, 6, .remu),
    (0x0B, 3, .ext), (0x0B, 4, .ins), (0x0B, 6, .clmul), (0x0B, 7, .clmulh), (0x11, 0, .startCtx), (0x16, 0, .tprobe), (0x16, 1, .lrenew),
    (0x1A, 2, .xcopy), (0x1B, 7, .coll)] : List (BitVec 6 × BitVec 6 × RForm)),
    reads (wR p.1 9 17 33 1 0 p.2.1) (p.2.2 9 17 33 1 0) = true ∧ reads (wR p.1 55 59 56 0 1 p.2.1) (p.2.2 55 59 56 0 1) = true := by decide +kernel

/-- The atomics of R69: fn[5] the width. -/
theorem test_words_atomics : ∀ p ∈ ([(0, .amoadd), (1, .amoand), (2, .amoor), (3, .amoxor), (4, .amomin), (5, .amomax), (6, .amominu), (7, .amomaxu),
    (8, .amoswap), (9, .amocas), (10, .amoaddf)] : List (BitVec 5 × (BitVec 6 → BitVec 6 → BitVec 6 → BitVec 1 → BitVec 1 → BitVec 1 → Instr))),
    reads (wR 0x14 9 17 33 0 1 (1#1 ++ p.1)) (p.2 9 17 33 0 1 1) = true ∧ reads (wR 0x14 9 17 33 1 0 (0#1 ++ p.1)) (p.2 9 17 33 1 0 0) = true := by decide +kernel

/-- The rows of R69 with one source and a destination, rb and wb reserved. -/
theorem test_words_r1 : ∀ p ∈ ([(0x0B, 0, .clz), (0x0B, 1, .ctz), (0x0B, 2, .popc), (0x0B, 5, .bswap), (0x11, 12, .rdctx), (0x17, 2, .rdmap),
    (0x17, 4, .rtrd), (0x1C, 0, .tform), (0x1C, 1, .tjoin), (0x1D, 0, .kq)] : List (BitVec 6 × BitVec 6 × (BitVec 6 → BitVec 6 → BitVec 1 → Instr))),
    reads (wR p.1 9 17 0 1 0 p.2.1) (p.2.2 9 17 1) = true ∧ refused (wR p.1 9 17 1 1 0 p.2.1) = true ∧ refused (wR p.1 9 17 0 1 1 p.2.1) = true := by
  decide +kernel

/-- The rows of R69 with two sources and no destination, rd reserved. -/
theorem test_words_ab : ∀ p ∈ ([(0x16, 2, .tdrop), (0x17, 3, .rtwr), (0x18, 0, .send), (0x18, 1, .sendh), (0x18, 2, .sendN), (0x18, 3, .sendE),
    (0x18, 4, .sendS), (0x18, 5, .sendW), (0x19, 9, .hmsg), (0x1B, 3, .barv)] :
      List (BitVec 6 × BitVec 6 × (BitVec 6 → BitVec 6 → BitVec 1 → BitVec 1 → Instr))),
    reads (wR p.1 0 17 33 1 0 p.2.1) (p.2.2 17 33 1 0) = true ∧ refused (wR p.1 1 17 33 1 0 p.2.1) = true := by decide +kernel

/-- The rows of R69 with one source alone; those with a destination alone; those with no register. -/
theorem test_words_few :
    (∀ p ∈ ([(0x11, 11, .mirr), (0x16, 5, .twait), (0x1D, 1, .kexit)] : List (BitVec 6 × BitVec 6 × (BitVec 6 → BitVec 1 → Instr))),
      reads (wR p.1 0 17 0 1 0 p.2.1) (p.2.2 17 1) = true ∧ refused (wR p.1 32 17 0 1 0 p.2.1) = true) ∧
    (∀ p ∈ ([(0x16, 3, .rdtime), (0x16, 4, .rdtsr), (0x1A, 3, .xpop), (0x1C, 5, .tsync), (0x1C, 8, .rdskew)] :
        List (BitVec 6 × BitVec 6 × (BitVec 6 → Instr))),
      reads (wR p.1 55 0 0 0 0 p.2.1) (p.2.2 55) = true ∧ refused (wR p.1 55 0 0 1 0 p.2.1) = true) ∧
    (∀ p ∈ ([(0x11, 1, .endCtx), (0x11, 2, .yield), (0x11, 5, .mret), (0x19, 3, .hseal), (0x19, 4, .hopen), (0x1C, 6, .tgang), (0x1C, 7, .tend)] :
        List (BitVec 6 × BitVec 6 × Instr)),
      reads (wR p.1 0 0 0 0 0 p.2.1) p.2.2 = true ∧ refused (wR p.1 1 0 0 0 0 p.2.1) = true) := by decide +kernel

/-- The rows whose rb field is a number (R69; queue, stream, barrier and train chapters). -/
theorem test_words_numbers :
    reads (wR 0x11 0 0 63 0 0 3) (.trapN 63) = true ∧ reads (wR 0x11 0 0 33 0 0 4) (.sysc 33) = true ∧ reads (wR 0x11 0 0 5 0 0 8) (.brk 5) = true ∧
    reads (wR 0x11 40 0 0 0 0 9) (.mkfull 40 0) = true ∧ reads (wR 0x11 31 0 1 0 0 10) (.mkempty 31 1) = true ∧
    reads (wR 0x17 9 0 3 0 0 0) (.rdnbr 9 3) = true ∧ reads (wR 0x17 9 0 2 0 0 1) (.rdhop 9 2) = true ∧
    reads (wR 0x19 0 17 7 1 0 0) (.qcfg 17 7 1) = true ∧ reads (wR 0x19 0 17 63 0 0 1) (.hset 17 63 0) = true ∧
    reads (wR 0x19 0 0 62 0 0 2) (.hclr 62) = true ∧ reads (wR 0x19 0 17 15 1 0 5) (.rcarm 17 15 1) = true ∧
    reads (wR 0x19 9 0 14 0 0 6) (.rcrd 9 14) = true ∧ reads (wR 0x19 13 17 33 1 0 7) (.tsend 13 17 33 1 0) = true ∧
    reads (wR 0x19 9 0 12 0 0 8) (.tcancel 9 12) = true ∧ reads (wR 0x1A 0 17 3 1 0 0) (.sopen 17 3 1) = true ∧
    reads (wR 0x1A 9 0 2 0 0 1) (.sclose 9 2) = true ∧ reads (wR 0x1B 9 17 63 1 0 0) (.binit 9 17 63 1) = true ∧
    reads (wR 0x1B 9 17 62 0 0 1) (.binitF 9 17 62 0) = true ∧ reads (wR 0x1B 0 17 61 1 0 2) (.bexp 17 61 1) = true ∧
    reads (wR 0x1B 9 0 60 0 0 4) (.bwait 9 60) = true ∧ reads (wR 0x1B 9 0 59 0 0 5) (.btest 9 59) = true ∧ reads (wR 0x1B 0 0 58 0 0 6) (.binv 58) = true ∧
    reads (wR 0x1C 0 17 3 1 0 2) (.tleave 17 3 1) = true ∧ reads (wR 0x1C 0 0 63 0 0 3) (.tmark 63) = true ∧
    reads (wR 0x1C 9 0 62 0 0 4) (.trejoin 9 62) = true ∧
    reads (wR 0x15 0 0 0 0 0 (0#3 ++ 2#3)) (.fenceRel 2) = true ∧ reads (wR 0x15 0 0 0 0 0 (1#3 ++ 4#3)) (.fenceAcq 4) = true ∧
    reads (wR 0x15 0 0 0 0 0 (2#3 ++ 0#3)) (.fenceFull 0) = true ∧ refused (wR 0x15 0 0 0 0 0 (2#3 ++ 5#3)) = true ∧
    refused (wR 0x15 0 0 0 0 0 (3#3 ++ 0#3)) = true ∧ refused (wR 0x19 0 17 8 1 0 0) = true ∧ refused (wR 0x1A 0 17 4 1 0 0) = true := by decide +kernel

/-- rdsys and wrsys (R70): the number in bits 19 to 8. -/
theorem test_words_system :
    reads (0x11#6 ++ 9#6 ++ 0x015#12 ++ 0#2 ++ 6#6) (.rdsys 9 0x015) = true ∧ reads (0x11#6 ++ 9#6 ++ 0x107#12 ++ 0#2 ++ 7#6) (.wrsys 9 0x107) = true ∧
    refused (0x11#6 ++ 9#6 ++ 0x006#12 ++ 0#2 ++ 6#6) = true ∧ refused (0x11#6 ++ 9#6 ++ 0x013#12 ++ 0#2 ++ 7#6) = true ∧
    refused (0x11#6 ++ 56#6 ++ 0x015#12 ++ 0#2 ++ 7#6) = true := by decide +kernel

/-- The I format (R71). -/
theorem test_words_i :
    reads (wI 2 9 17 1 0x1FFF) (.addi 9 17 1 0x1FFF) = true ∧ reads (wI 3 9 17 0 0x1000) (.andi 9 17 0 0x1000) = true ∧
    reads (wI 4 9 17 1 0x0FFF) (.ori 9 17 1 0x0FFF) = true ∧ reads (wI 5 9 17 0 5) (.xori 9 17 0 5) = true ∧
    reads (wI 6 9 17 1 (0#2 ++ 0#5 ++ 63#6)) (.shli 9 17 1 63) = true ∧ reads (wI 6 9 17 1 (1#2 ++ 0#5 ++ 1#6)) (.shri 9 17 1 1) = true ∧
    reads (wI 6 9 17 1 (2#2 ++ 0#5 ++ 2#6)) (.sari 9 17 1 2) = true ∧ reads (wI 6 9 17 1 (3#2 ++ 0#5 ++ 32#6)) (.roti 9 17 1 32) = true ∧
    refused (wI 6 9 17 1 (0#2 ++ 1#5 ++ 63#6)) = true ∧
    reads (wI 7 9 17 1 (0#1 ++ 0x800#12)) (.slti 9 17 1 0x800) = true ∧ reads (wI 7 9 17 0 (1#1 ++ 0x7FF#12)) (.sltiu 9 17 0 0x7FF) = true ∧
    (∀ p ∈ ([(0, .lb), (1, .lbu), (2, .lh), (3, .lhu), (4, .lw), (5, .lwu), (6, .ld)] :
        List (BitVec 3 × (BitVec 6 → BitVec 6 → BitVec 1 → BitVec 1 → BitVec 9 → Instr))),
      reads (wI 0x12 9 17 1 (p.1 ++ 1#1 ++ 0x100#9)) (p.2 9 17 1 1 0x100) = true) ∧ refused (wI 0x12 9 17 1 (7#3 ++ 0#10)) = true ∧
    (∀ p ∈ ([(0, .sb), (1, .sh), (2, .sw), (3, .sd)] : List (BitVec 2 × (BitVec 6 → BitVec 6 → BitVec 1 → BitVec 11 → Instr))),
      reads (wI 0x13 9 17 0 (p.1 ++ 0x400#11)) (p.2 9 17 0 0x400) = true) := by decide +kernel

/-- The U, J and B formats (R71, R72), and the repeater's words (R176). -/
theorem test_words_ujb :
    reads (wU 8 9 0x80001) (.lih 9 0x80001) = true ∧ reads (wU 9 9 0xFFFFF) (.adr 9 0xFFFFF) = true ∧ reads (wJ 0x0C 0x3FFFFFE) (.j 0x3FFFFFE) = true ∧
    reads (wJ 0x0D 0x2000000) (.jal 0x2000000) = true ∧ reads (wU 0x0E 3 0x7FFFF) (.pbr 3 0x7FFFF) = true ∧ refused (wU 0x0E 4 1) = true ∧
    (∀ p ∈ ([(0, .bEq), (1, .bNe), (2, .bLt), (3, .bGe), (4, .bLtu), (5, .bGeu)] : List (BitVec 3 × (BitVec 6 → BitVec 6 → BitVec 11 → Instr))),
      reads (wB 0x10 p.1 17 33 0x400) (p.2 17 33 0x400) = true) ∧ reads (wB 0x10 7 0 0 0x7FF) (.bAl 0x7FF) = true ∧
    refused (wB 0x10 6 17 0 0) = true ∧ refused (wB 0x10 7 1 0 0) = true ∧
    (∀ p ∈ ([(0, .bcEq), (1, .bcNe), (2, .bcLt), (3, .bcGe), (4, .bcLtu), (5, .bcGeu)] : List (BitVec 3 × (BitVec 6 → BitVec 6 → BitVec 2 → Instr))),
      reads (wB 0x0F p.1 17 33 3) (p.2 17 33 3) = true ∧ refused (wB 0x0F p.1 17 33 4) = true) ∧
    reads (wB 0x0F 6 1 0 0) (.ret 1) = true ∧ reads (wB 0x0F 7 0 0 2) (.br 2) = true ∧
    reads (wU 0x1E (0#2 ++ 15#4) (3#4 ++ 0xFFFF#16)) (.rpt 15 3 0xFFFF) = true ∧
    reads (wU 0x1E (1#2 ++ 7#4) (4#4 ++ 0#9 ++ 1#1 ++ 17#6)) (.rptR 7 4 1 17) = true ∧
    reads (wU 0x1E (2#2 ++ 7#4) (4#4 ++ 0#9 ++ 0#1 ++ 17#6)) (.rptx 7 4 0 17) = true ∧ refused (wU 0x1E (3#2 ++ 7#4) 0) = true := by decide +kernel

/-- The V format (R74). -/
theorem test_words_v :
    (∀ p ∈ ([(0x20, 0, .vaddF), (0x20, 1, .vsubF), (0x20, 2, .vmulF), (0x20, 3, .vminF), (0x20, 4, .vmaxF), (0x21, 0, .vfma), (0x21, 1, .vfms),
        (0x21, 2, .vfnma), (0x21, 3, .vfnms), (0x22, 0, .vaddI), (0x22, 1, .vsubI), (0x22, 2, .vmulI), (0x22, 3, .vmulh), (0x22, 4, .vmulhu),
        (0x22, 5, .vminI), (0x22, 6, .vmaxI), (0x22, 7, .vminu), (0x22, 8, .vmaxu), (0x23, 0, .vand), (0x23, 1, .vor), (0x23, 2, .vxor),
        (0x23, 3, .vandn), (0x23, 4, .vsel), (0x23, 5, .vshl), (0x23, 6, .vshr), (0x23, 7, .vsar)] :
        List (BitVec 6 × BitVec 6 × (BitVec 5 → BitVec 5 → BitVec 5 → BitVec 3 → BitVec 2 → Instr))),
      reads (wV p.1 9 17 30 5 (p.2.1 ++ 2#2)) (p.2.2 9 17 30 5 2) = true ∧ reads (wV p.1 30 2 18 0 (p.2.1 ++ 1#2)) (p.2.2 30 2 18 0 1) = true) ∧
    (∀ p ∈ ([(0x20, 5, .vcmpEqF), (0x20, 6, .vcmpLtF), (0x20, 7, .vcmpLe), (0x20, 8, .vcmpUn), (0x22, 9, .vcmpEqI), (0x22, 10, .vcmpLtI),
        (0x22, 11, .vcmpLtu)] : List (BitVec 6 × BitVec 6 × (BitVec 5 → BitVec 5 → BitVec 5 → BitVec 3 → BitVec 2 → Instr))),
      reads (wV p.1 7 17 30 5 (p.2.1 ++ 3#2)) (p.2.2 7 17 30 5 3) = true ∧ refused (wV p.1 0 17 30 5 (p.2.1 ++ 3#2)) = true ∧
      refused (wV p.1 8 17 30 5 (p.2.1 ++ 3#2)) = true) ∧
    (∀ p ∈ ([(0, .vrcp), (1, .vrsq), (2, .vsqrt), (3, .vexp2), (4, .vlog2), (5, .vtanh)] :
        List (BitVec 6 × (BitVec 5 → BitVec 5 → BitVec 3 → BitVec 2 → Instr))),
      reads (wV 0x24 9 17 0 6 (p.1 ++ 0#2)) (p.2 9 17 6 0) = true ∧ refused (wV 0x24 9 17 1 6 (p.1 ++ 0#2)) = true) ∧
    reads (wV 0x25 9 17 1 2 (4#4 ++ 0#4)) (.vcvt 9 17 1 2 4 0) = true ∧ reads (wV 0x25 8 17 0 2 (15#4 ++ 10#4)) (.vcvt 8 17 0 2 15 10) = true ∧
    reads (wV 0x26 9 17 30 2 (0#4 ++ 10#4)) (.vperm 9 17 30 2 2) = true ∧ reads (wV 0x26 9 17 0 2 (1#4 ++ 11#4)) (.vbcast 9 17 2 3) = true ∧
    reads (wV 0x26 9 17 31 0 (2#4 ++ 9#4)) (.vext 9 17 31 1) = true ∧ reads (wV 0x26 9 17 15 0 (3#4 ++ 10#4)) (.vins 9 17 15 2) = true ∧
    (∀ p ∈ ([(4, .vredAdd), (5, .vredMax), (6, .vredMin)] : List (BitVec 4 × (BitVec 5 → BitVec 5 → BitVec 3 → BitVec 4 → Instr))),
      reads (wV 0x26 9 17 0 2 (p.1 ++ 3#4)) (p.2 9 17 2 3) = true ∧ refused (wV 0x26 9 17 0 2 (p.1 ++ 4#4)) = true) ∧
    reads (wV 0x26 9 17 30 2 (7#4 ++ 11#4)) (.vclmul 9 17 30 2) = true ∧ refused (wV 0x26 9 17 30 2 (7#4 ++ 10#4)) = true ∧
    refused (wV 0x26 9 17 30 2 (0#4 ++ 7#4)) = true ∧
    reads (wV 0x27 9 17 30 2 (0#3 ++ 3#2 ++ 1#1 ++ 0#2)) (.vld 9 17 30 2 3 1) = true ∧
    reads (wV 0x27 9 17 30 2 (1#3 ++ 3#2 ++ 0#1 ++ 0#2)) (.vst 9 17 30 2 3) = true ∧ refused (wV 0x27 9 17 30 2 (1#3 ++ 3#2 ++ 1#1 ++ 0#2)) = true ∧
    reads (wV 0x27 16 17 30 0 (2#3 ++ 2#2 ++ 1#1 ++ 0#2)) (.vldt 16 17 30 1) = true ∧
    reads (wV 0x27 8 17 30 3 (3#3 ++ 3#2 ++ 0#1 ++ 0#2)) (.vgather 8 17 30 3 1 0) = true ∧
    reads (wV 0x27 8 17 30 3 (4#3 ++ 2#2 ++ 0#1 ++ 0#2)) (.vscatter 8 17 30 3 0) = true := by decide +kernel

/-- The M format (R75) and the modifier word (R65). -/
theorem test_words_m :
    (∀ p ∈ ([(0, .mcfg), (1, .munf), (2, .mldb), (8, .msave), (9, .mrest)] : List (BitVec 4 × (BitVec 6 → BitVec 6 → Instr))),
      reads (wM 0x28 0 17 33 (0#8 ++ p.1)) (p.2 17 33) = true ∧ refused (wM 0x28 1 17 33 (0#8 ++ p.1)) = true ∧ refused (wM 0x28 0 17 33 (1#8 ++ p.1)) = true) ∧
    reads (wM 0x28 2 0 33 (0#8 ++ 3#4)) (.mzero 2 33) = true ∧ reads (wM 0x28 3 17 33 (0x14#8 ++ 4#4)) (.mstr 3 17 33 0x14) = true ∧
    reads (wM 0x28 2 17 33 (0#8 ++ 5#4)) (.mrd 2 17 33) = true ∧ reads (wM 0x28 1 17 33 (0#8 ++ 6#4)) (.mwr 1 17 33) = true ∧
    reads (wM 0x28 0 17 0 (0#8 ++ 7#4)) (.mpop 17) = true ∧ refused (wM 0x28 0 17 33 10) = true ∧
    reads (wM 0x29 3 17 33 (4#4 ++ 5#4 ++ 0#4)) (.mmac 3 17 33 4 5) = true ∧ refused (wM 0x29 3 17 33 (0#4 ++ 2#4 ++ 0#4)) = true ∧
    refused (wM 0x29 3 17 33 (0#4 ++ 0#4 ++ 1#4)) = true ∧
    reads (wM 0x2A 3 0 33 (8#4 ++ 8#4 ++ 0#4)) (.mmacu 3 33 8 8) = true ∧ reads (wM 0x2B 3 0 33 (6#4 ++ 6#4 ++ 0#4)) (.mmacs 3 33 6 6) = true ∧
    refused (wM 0x2B 3 1 33 (6#4 ++ 6#4 ++ 0#4)) = true ∧
    reads (wX 5 0x20 1 0 0 1 0 1) (.pfx 5 0x20 1 0 0 1 0 1) = true ∧ reads (wX 0 0 0 0 0 0 0 0) (.pfx 0 0 0 0 0 0 0 0) = true ∧
    reads (wX 1 1 0 1 1 0 1 0) (.pfx 1 1 0 1 1 0 1 0) = true ∧ refused (wX 6 0 0 0 0 0 0 0) = true ∧ refused (wX 0 0 0 0 0 0 0 0 ||| 0x8000#32) = true := by
  decide +kernel

/-- Words R76 names, and opcodes R68 leaves out. -/
theorem test_words_refused : refused 0x00000000 = true ∧ refused 0xFFFFFFFF = true ∧ ∀ op ∈ ([0x00, 0x1F, 0x2C, 0x3D, 0x3F] : List (BitVec 6)), refused (wJ op 0) = true := by
  decide +kernel

/-- What stands for no word has no encoding. -/
theorem test_events_have_no_word : encode .powerOn = none ∧ encode .runtimeRestartDone = none ∧ encode .remoteRequest = none := by decide +kernel

/-! ### Ill-formed instructions: one for each limit -/

theorem test_wf_ports : (Instr.add 4 60 3 0 0).wf = false ∧ (Instr.add 4 2 60 0 0).wf = false ∧ (Instr.add 56 2 3 0 0).wf = false ∧
    (Instr.add 63 59 56 0 0).wf = true ∧ (Instr.sel 60 2 3 0 0).wf = false ∧ (Instr.ins 56 2 3 0 0).wf = false ∧ (Instr.sd 56 2 0 0).wf = false ∧
    (Instr.amocas 60 2 3 0 0 0).wf = false ∧ (Instr.amoadd 60 2 3 0 0 0).wf = true ∧ (Instr.xcopy 60 2 3 0 0).wf = false ∧ (Instr.xpop 60).wf = false ∧
    (Instr.sclose 60 0).wf = false ∧ (Instr.mpop 60).wf = false ∧ (Instr.mrd 0 60 2).wf = false ∧ (Instr.bEq 60 2 0).wf = false ∧ (Instr.ret 60).wf = false := by
  decide +kernel

theorem test_wf_system : (Instr.rdsys 4 0x006).wf = false ∧ (Instr.rdsys 4 0x100).wf = false ∧ (Instr.wrsys 4 0x002).wf = false ∧ (Instr.wrsys 56 0x001).wf = false ∧
    (Instr.wrsys 55 0x001).wf = true ∧ (Instr.mkfull 56 0).wf = false ∧ (Instr.mkfull 32 1).wf = false ∧ (Instr.mkempty 4 2).wf = false ∧
    (Instr.fenceRel 5).wf = false ∧ (Instr.fenceFull 4).wf = true ∧ (Instr.pfx 6 0 0 0 0 0 0 0).wf = false ∧ (Instr.pfx 5 0 0 0 0 0 0 0).wf = true := by decide +kernel

theorem test_wf_vector : (Instr.vaddF 1 2 4 0 1).wf = false ∧ (Instr.vaddF 2 3 4 0 1).wf = false ∧ (Instr.vfma 2 4 5 0 1).wf = false ∧ (Instr.vaddF 1 3 5 0 0).wf = true ∧
    (Instr.vcmpEqF 0 2 4 0 0).wf = false ∧ (Instr.vcmpEqI 8 2 4 0 0).wf = false ∧ (Instr.vcmpLtu 7 2 4 0 0).wf = true ∧ (Instr.vcvt 2 4 0 0 3 3).wf = false ∧
    (Instr.vcvt 2 4 0 0 7 0).wf = false ∧ (Instr.vcvt 2 4 1 0 0 2).wf = false ∧ (Instr.vcvt 2 4 1 0 5 0).wf = true ∧ (Instr.vcvt 3 4 0 0 1 0).wf = false ∧
    (Instr.vcvt 2 5 0 0 0 15).wf = false ∧ (Instr.vext 4 5 16 2).wf = false ∧ (Instr.vext 4 5 15 2).wf = true ∧ (Instr.vins 4 5 8 3).wf = false ∧
    (Instr.vredAdd 4 5 0 4).wf = false ∧ (Instr.vredMin 4 5 0 7).wf = false ∧ (Instr.vredMax 4 5 0 8).wf = true ∧ (Instr.vldt 8 2 3 0).wf = false ∧
    (Instr.vldt 16 2 3 0).wf = true ∧ (Instr.vgather 3 2 4 0 0 0).wf = false ∧ (Instr.vscatter 5 2 4 0 0).wf = false := by decide +kernel

theorem test_wf_matrix : (Instr.mstr 0 2 3 0x01).wf = false ∧ (Instr.mstr 0 2 3 0x20).wf = false ∧ (Instr.mstr 0 2 3 0x10).wf = false ∧ (Instr.mstr 0 2 3 0x14).wf = true ∧
    (Instr.mstr 0 2 3 0x82).wf = false ∧ (Instr.mstr 0 2 3 0x98).wf = true ∧ (Instr.mmac 0 2 3 0 2).wf = false ∧ (Instr.mmac 0 2 3 1 1).wf = false ∧
    (Instr.mmacu 0 3 4 5).wf = true ∧ (Instr.mmacs 0 3 7 7).wf = false ∧ (Instr.mcfg 60 3).wf = false := by decide +kernel

/-! ### States to try things on -/

/-- A region of 3 by 2 tiles in the corner of the wafer. -/
def reg1 : Region := { state := 2, w := 3, h := 2 }

/-- The tile at column 1 of row 0 of region 1. -/
def tileA : Tile := { region := 1, col := 1, mtvec := 0x170000, ctxs := [(0, { Ctx.fresh 2 0x100 with g := [(2, 7), (3, 5)] })] }

/-- A machine of one region with the tile's context 0 about to issue the word at 0x100. -/
def st0 : State :=
  { State.reset with
    tiles := [(1, tileA)], regions := [(1, reg1)], slot := { site := 1, ctx := 0, addr := 0x100 } }

/-- st0 with another context 0. -/
def stC (f : Ctx → Ctx) : State := { st0 with tiles := [(1, { tileA with ctxs := [(0, f (tileA.ctx 0))] })] }

/-- st0 with another tile. -/
def stT (f : Tile → Tile) : State := { st0 with tiles := [(1, f tileA)] }

/-- st0 with g2 and g3. -/
def stG (a b : Word) : State := stC (fun c => { c with g := [(2, a), (3, b)] })

/-- All that the word names is at hand, and the condition of its operation holds. -/
def meets (n : Need) (s : State) (p : List Word → State → Bool) : Bool := n.ready s && p (n.vals s) (n.take s)

/-- The state an instruction leaves. -/
def after (i : Instr) (s : State) : State :=
  match exec i s with
  | .next t => t
  | _ => s

/-! ### Witnesses: states and operands that meet the hypotheses of the statements -/

/-- DecodeEncode, EncodeDecode: an instruction of every shape of field at its extremes has a word, and it decodes. -/
theorem witness_encoding : ∀ i ∈ ([.add 63 59 0 1 1, .wrsys 55 0x107, .vcvt 30 28 0 7 15 1, .mmacs 3 59 5 4, .pfx 5 63 1 1 1 1 1 1] : List Instr),
    i.wf = true ∧ ∃ w, encode i = some w ∧ decode w = .ok i := by
  intro i h
  fin_cases h <;> exact ⟨by decide, _, rfl, rfl⟩

/-- The hypotheses of StepRunsDecoded at a state, with the context chosen, not the leader of a train. -/
def stepHyps (s : State) (t : Nat) (i : Instr) : Bool :=
  let x := s.elapse.poll t (List.range 12)
  decide (s.choice = .issue t) && !(s.elapse.tile t).held && !(s.elapse.tile t).halted &&
  !(decide ((s.elapse.tile t).train.state = 2) && !((s.elapse.tile t).ctx 0).mon && x.1.contains 0) &&
  (match (x.2.tile t).choose x.1 with
   | (some c, rr) =>
     let s3 := x.2.updTile t (fun x => { x with tok := (x.tok + 1) % 12, rr := rr, ctxs := x.ctxs.map (fun e => (e.1, { e.2 with yielded := false })) })
     let s4 := s3.countFetch t c
     match s4.pickWord t c with
     | .word q => decide ((s4.ctx t c).dueFault = none) && !(s4.ctx t c).stepDue && !(s4.ctx t c).breaks q.slot.addr &&
        (match decode q.slot.word with
         | .ok j => decide (j = i)
         | .error _ => false)
     | _ => false
   | _ => false)

/-- StepRunsDecoded: the word placed after reset. -/
theorem witness_step : stepHyps (State.reset.withFetchWord 32 0x08400003) 0 (.addi 4 0 0 3) = true := by decide +kernel

/-- StepRunsDecoded: the leader of a train, whose context 0 is ready, goes ahead of all others. -/
theorem witness_step_leader :
    let s := State.reset.withFetchWord 32 0x08400003
    let s := s.updTile 0 (fun x => { x with train := { x.train with state := 2 } })
    s.choice = .issue 0 ∧ (s.elapse.tile 0).held = false ∧ (s.elapse.tile 0).train.state = 2 ∧ ((s.elapse.tile 0).ctx 0).mon = false ∧
    (s.elapse.poll 0 (List.range 12)).1.contains 0 = true := by decide +kernel

/-- PickReadsPc: a plain word, a modifier with its partner, a word in error, one that was just stored to, and a pc off a word boundary. -/
theorem witness_pick :
    let stale := fun (s : State) (o : Nat) => (s.tile 0).stale.find? (fun e => e.1 == o)
    (∀ p ∈ ([(0x08400003, false), (0xF8000801, true)] : List (Nat × Bool)),
      let s := State.reset.withFetchWord 64 p.1
      let pc := (s.ctx 0 0).pc
      (s.ctx 0 0).frame.state ≠ .run ∧ fld pc 0 2 = 0 ∧ s.checkForm 0 (s.ctx 0 0).mon pc 4 = .ok (.loc 0) ∧
      stale s 0 = none ∧ s.uncorrectable 0 0 4 = false ∧ isModifier (BitVec.ofNat 32 (s.spmRead 0 0 4)) = p.2 ∧
      s.checkForm 0 (s.ctx 0 0).mon (pc + 4) 4 = .ok (.loc 4) ∧ stale s 4 = none ∧ s.uncorrectable 0 4 4 = false ∧
      ({ s with ecc := [(s.spmKey 0 0 / 8, 66)] } : State).uncorrectable 0 0 4 = true ∧
      stale (s.updTile 0 (fun x => { x with stale := [(0, some 0x08400003)] })) 0 = some (0, some 0x08400003) ∧
      stale (s.updTile 0 (fun x => { x with stale := [(0, none)] })) 0 = some (0, none)) ∧
    isModifier 0x08400003 = false ∧
    (let s := State.reset.updCtx 0 0 (fun y => { y with pc := y.pc + 2 })
     (s.ctx 0 0).frame.state ≠ .run ∧ fld (s.ctx 0 0).pc 0 2 ≠ 0) := by decide +kernel

/-- GuaranteedTurn and PriorityTurn: the token's context is ready; it is not, at the last value of RR. -/
theorem witness_turns : (0 ∈ [0, 11]) ∧ ({} : Tile).tok = 0 ∧ ([3, 11] : List Nat) ≠ [] ∧ (∀ c ∈ [3, 11], c < 12) ∧ (5 : Nat) ∉ [3, 11] ∧
    (({ tok := 5, rr := 11 } : Tile).choose [3, 11]).1 = some 11 := by decide +kernel

/-- RegisterAlu, MultiplyDivide, CarrylessProduct, ExtractField, BitCounts, the immediate forms: every word is ready where its sources are full; with
the wait bits set, at g0, and reading and writing one register. -/
theorem witness_scalar :
    (∀ p ∈ aluRows, (needRR (p.1 4 2 3 0 0) 4 2 3 0 0).ready st0 = true ∧ (needRR (p.1 0 55 59 1 1) 2 2 2 1 1).ready st0 = true) ∧
    (∀ p ∈ mulRows, (needRR (p.1 4 2 3 0 0) 4 2 3 0 0).ready st0 = true) ∧
    (∀ i ∈ ([.clmul 4 2 3 0 0, .clmulh 4 2 3 0 0, .ext 4 2 3 0 0] : List Instr), (needRR i 4 2 3 0 0).ready st0 = true) ∧
    (∀ i ∈ ([.sel 4 2 3 0 0, .ins 4 2 3 0 0] : List Instr), ({ wf := i.wf, srcs := [blk 4, (2, false), (3, false)], dsts := [4] } : Need).ready st0 = true) ∧
    (∀ i ∈ ([.clz 4 2 0, .ctz 4 2 0, .popc 4 2 0, .bswap 4 2 0, .addi 4 2 0 0x1000, .andi 4 2 0 5, .ori 4 2 0 5, .xori 4 2 0 5, .shli 4 2 0 63, .shri 4 2 0 0,
      .sari 4 2 0 63, .roti 4 2 0 0, .slti 4 2 0 0x800, .sltiu 4 2 0 0x7FF] : List Instr), (needR i 4 2 0).ready st0 = true) ∧
    (∀ i ∈ ([.lih 4 0x80000, .adr 4 0x7FFFF] : List Instr), (needD i 4).ready st0 = true) := by decide +kernel

/-- DivisionCorners: the borderline operands. -/
theorem witness_division : ([(7, 0), (0x8000000000000000, 0xFFFFFFFFFFFFFFFF), (0xFFFFFFFFFFFFFFF9, 2), (7, 0xFFFFFFFFFFFFFFFE)] : List (Word × Word)).all
    (fun p => ([.div, .divu, .rem, .remu] : List RForm).all (fun f => let n := needRR (f 4 2 3 0 0) 4 2 3 0 0
      n.ready (stG p.1 p.2) && decide (n.vals (stG p.1 p.2) = [p.1, p.2]))) = true := by decide +kernel

/-- Branches and jumps: taken and not taken, to a word address and to none. -/
theorem witness_branches :
    (∀ p ∈ branchRows, ({ wf := (p.1 2 3 4).wf, srcs := [blk 2, blk 3] } : Need).ready st0 = true ∧
      meets { wf := (p.2.1 2 3 1).wf, srcs := [blk 2, blk 3] } st0 (fun v s => !p.2.2 (v0 v) (v1 v) || (fget 0 s.cur.t 1).toNat % 4 == 0) = true) ∧
    (∀ p ∈ branchRows, ([5, 7, 9] : List Word).any (fun a => meets { wf := (p.2.1 2 3 1).wf, srcs := [blk 2, blk 3] } (stC (fun c => { c with g := [(2, a), (3, 7)], t := [(1, 6)] }))
      (fun v s => p.2.2 (v0 v) (v1 v) && (fget 0 s.cur.t 1).toNat % 4 != 0)) = true) ∧
    (∀ i ∈ ([.j 5, .pbr 1 5, .bAl 0x400] : List Instr), (need0 i).ready st0 = true) ∧ (needD (.jal 5) 1).ready st0 = true ∧
    meets (need0 (.br 3)) st0 (fun _ s => (fget 0 s.cur.t 3).toNat % 4 == 0) = true ∧
    meets (need0 (.br 3)) (stC (fun c => { c with t := [(3, 0xFFFFFFFFFFFFFFFF)] })) (fun _ s => (fget 0 s.cur.t 3).toNat % 4 != 0) = true ∧
    meets { wf := (Instr.ret 2).wf, srcs := [blk 2] } (stG 8 0) (fun v _ => (v0 v).toNat % 4 == 0) = true ∧
    meets { wf := (Instr.ret 2).wf, srcs := [blk 2] } (stG 7 0) (fun v _ => (v0 v).toNat % 4 != 0) = true := by decide +kernel

/-- StartContext: with a free helper and with none; at a word address and off one. EndAndYield: of a helper and of context 0. -/
theorem witness_contexts :
    let busy := stT (fun x => { x with ctxs := (List.range 12).map (fun k => (k, { Ctx.fresh 2 0x100 with g := [(2, 8)] })) })
    meets (needRR (.startCtx 4 2 3 0 0) 4 2 3 0 0) (stG 8 5) (fun v _ => (v0 v).toNat % 4 == 0) = true ∧
    meets (needRR (.startCtx 4 2 3 0 0) 4 2 3 0 0) busy (fun v s => (v0 v).toNat % 4 == 0 &&
      ((List.range' 1 11).filter (fun c => (s.curTile.ctx c).state = .free)).isEmpty) = true ∧
    (let last := (busy.updTile 1 (fun x => (x.setCtx 6 {}).updQ (fun q => { q with dispatchQ := [{}], handlers := [(0, 0x8000000000000100)] })))
     meets (needRR (.startCtx 4 2 3 0 0) 4 2 3 0 0) last (fun v s => (v0 v).toNat % 4 == 0 && s.curTile.canDispatch &&
       ((List.range' 1 11).filter (fun c => (s.curTile.ctx c).state = .free)).length == 1) = true) ∧
    meets (needRR (.startCtx 4 2 3 0 0) 4 2 3 0 0) (stG 7 5) (fun v _ => (v0 v).toNat % 4 != 0) = true ∧
    meets (need0 .endCtx) { busy with slot := { busy.slot with ctx := 11 } } (fun _ s => s.slot.ctx != 0) = true ∧
    meets (need0 .endCtx) st0 (fun _ s => s.slot.ctx == 0) = true ∧ (need0 .yield).ready st0 = true := by decide +kernel

/-- TrapInstructions, TrapEntry, MonitorTrapHalts and MonitorReturn: in either mode; TEPC at a word address and off one. -/
theorem witness_traps :
    let mon := stC (fun c => { c with mon := true, tepc := 0x104 })
    st0.slot.pair = false ∧ st0.cur.mon = false ∧ mon.cur.mon = true ∧ mon.slot.pair = false ∧
    (mon.cur.mgs.all (fun e => !e.2.isPending)) = true ∧ mon.cur.tepc.toNat % 4 = 0 ∧
    (let m := stC (fun c => { c with mon := true, tepc := 0x107, mgs := [(1, .empty)] })
     m.cur.mon = true ∧ (m.cur.mgs.all (fun e => !e.2.isPending)) = true ∧ m.cur.tepc.toNat % 4 ≠ 0) ∧
    (let m := mon.updTile 1 (fun x => (x.setCtx 3 { state := .faultWait }).setCtx 4 { state := .live })
     m.cur.mon = true ∧ (m.ctx 1 3).state = .faultWait ∧ (m.ctx 1 4).state = .live ∧ (m.ctx 1 5).state = .free) := by decide +kernel

/-- SystemRegisters: every register in monitor mode, and each that is not reserved in user mode; with no atomic of the context's in flight. -/
theorem witness_system :
    let mon := stC (fun c => { c with mon := true })
    mon.curTile.q.flagsOwed 0 = false ∧
    (∀ p ∈ sysReads, ({ wf := (Instr.rdsys 4 (BitVec.ofNat 12 p.1)).wf, dsts := [4], priv := sysPriv.contains p.1 } : Need).ready mon = true) ∧
    (∀ p ∈ sysWrites, ({ wf := (Instr.wrsys 2 (BitVec.ofNat 12 p.1)).wf, srcs := [blk 2], priv := sysPriv.contains p.1 } : Need).ready mon = true) ∧
    (∀ p ∈ sysReads, sysPriv.contains p.1 = false → ({ wf := true, dsts := [4], priv := sysPriv.contains p.1 } : Need).ready st0 = true) := by decide +kernel

/-- PrivilegedTraps: each of its forms in user mode. -/
theorem witness_privileged : st0.cur.mon = false ∧ Instr.mret.wf = true ∧ (Instr.rtwr 2 3 0 0).wf = true ∧ (Instr.rtrd 4 2 0).wf = true ∧
    (∀ n ∈ sysPriv, (Instr.rdsys 4 (BitVec.ofNat 12 n)).wf = true) ∧ (Instr.wrsys 4 0x010).wf = true ∧ (0x010 ∈ sysPriv) := by decide +kernel

/-- RegisterStates: full and empty, g0 and a vector register; MIRR on a tile of full grade and on a reduced one, with g39 and with g40; rdctx. -/
theorem witness_register_states :
    let red := { st0 with sites := [(1, { reduced := true })] }
    let g := fun (s : State) (w : Word) => s.updCur (fun c => { c with g := [(2, w)] })
    (needD (.mkempty 0 0) 0).ready st0 = true ∧ (needD (.mkfull 55 0) 55).ready (stC (fun c => { c with gs := [(55, .empty)] })) = true ∧
    ({ wf := (Instr.mkempty 31 1).wf, vdsts := [(31#6).setWidth 5], vec := true } : Need).ready st0 = true ∧
    ({ wf := (Instr.mkfull 31 1).wf, vdsts := [(31#6).setWidth 5], vec := true } : Need).ready st0 = true ∧
    meets (needA (.mirr 2 0) 2 0) (g st0 0xFFFFFFFF) (fun _ s => !s.isReduced s.slot.site) = true ∧
    meets (needA (.mirr 2 0) 2 0) (g red 0xB8A7) (fun v s => s.isReduced s.slot.site &&
      (List.range 4).all (fun k => !bit (v0 v) (8 * k + 7) || decide (fld (v0 v) (8 * k) 6 < 40) || decide (55 < fld (v0 v) (8 * k) 6))) = true ∧
    meets (needA (.mirr 2 0) 2 0) (g red 0xA8) (fun v s => s.isReduced s.slot.site && bit (v0 v) 7 && decide (40 ≤ fld (v0 v) 0 6 ∧ fld (v0 v) 0 6 ≤ 55)) = true ∧
    (needR (.rdctx 4 2 0) 4 2 0).ready st0 = true ∧
    (({} : Ctx).state = .free ∧ (tileA.ctx 0).state ≠ .free ∧ (tileA.ctx 0).mgs = [] ∧ (tileA.ctx 0).hwm < 64) := by decide +kernel

/-- TimeAndTile: a tick that has come; REPTAB 0, 97 and 98, and a row of each kind at its last value. -/
theorem witness_time :
    let mon := fun a b => stC (fun c => { c with mon := true, mg := [(2, a), (3, b)] })
    (∀ i ∈ ([.rdtime 4, .rdtsr 4, .rdnbr 4 3, .rdhop 4 0] : List Instr), (needD i 4).ready st0 = true) ∧ (needR (.rdmap 4 2 0) 4 2 0).ready st0 = true ∧
    meets (needA (.twait 2 0) 2 0) (stG 0 0) (fun v s => v0 v != 0xFFFFFFFFFFFFFFFF && decide ((v0 v).toNat ≤ s.nowAt s.slot.site)) = true ∧
    meets { needR (.rtrd 4 2 0) 4 2 0 with priv := true } (mon 97 0) (fun v _ => decide ((v0 v).toNat ≤ 97)) = true ∧
    meets { needR (.rtrd 4 2 0) 4 2 0 with priv := true } (mon 98 0) (fun v _ => decide (97 < (v0 v).toNat)) = true ∧
    ([(0, 56), (1, 56), (2, 1023), (97, 1023)] : List (Word × Word)).all (fun p =>
      meets { needAB (.rtwr 2 3 0 0) 2 3 0 0 with priv := true } (mon p.1 p.2) (fun v s => decide ((v0 v).toNat ≤ 97 ∧ fld (v1 v) 10 21 = 0 ∧
        fld (v1 v) 0 10 ≤ (if (v0 v).toNat < 2 then 56 else 1023)) && (List.range 12).all (fun c => c == s.slot.ctx || (s.curTile.ctx c).state != .live) &&
        s.curTile.mx.fifo.isEmpty && s.curTile.xfer.isEmpty)) = true ∧
    ([(98, 0), (2, 1024), (1, 57)] : List (Word × Word)).all (fun p =>
      meets { needAB (.rtwr 2 3 0 0) 2 3 0 0 with priv := true } (mon p.1 p.2) (fun v _ => decide (97 < (v0 v).toNat ∨ fld (v1 v) 10 21 ≠ 0 ∨
        (if (v0 v).toNat < 2 then 56 else 1023) < fld (v1 v) 0 10))) = true := by decide +kernel

/-- ScalarFrame: with registers, with two elements of one input port as sources, and into an output port. -/
theorem witness_scalar_frame :
    let ports := stT (fun x => x.updQ (fun q => { q with portcfg := [(0, 0x80020000), (4, 0x180020000)], inq := [(0, [{ val := 5 }, { val := 6 }])] }))
    (scalarNeed (.add 4 2 3 0 0)).isSome = true ∧ (needRR (.add 4 2 3 0 0) 4 2 3 0 0).ready st0 = true ∧
    (needRR (.add 4 56 56 0 0) 4 56 56 0 0).ready ports = true ∧ (needRR (.add 60 2 3 0 0) 60 2 3 0 0).ready ports = true ∧
    (needRR (.add 4 56 56 0 0) 4 56 56 0 0).vals ports = [5, 6] := by decide +kernel

/-- SelectionTraps: an illegal word; a vector word in context 4; an empty source with its wait bit set; a register a reduced tile lacks; one in a
row that has failed. ProgramCounter: outside a frame. -/
theorem witness_selection :
    let e := stC (fun c => { c with gs := [(2, .empty)] })
    let red := { st0 with sites := [(1, { reduced := true })] }
    ({ wf := false } : Need).wf = false ∧ ({ vec := true } : Need).vec = true ∧ 4 ≤ ({ st0 with slot := { st0.slot with ctx := 4 } }).slot.ctx ∧
    ({ srcs := [(2, true)] } : Need).illegal e = false ∧ inPort 2 = false ∧ e.cur.stateG 2 = .empty ∧
    ({ srcs := [(40, true)] } : Need).illegal red = false ∧ ({ srcs := [(40, true)] } : Need).blocked red = false ∧ red.emptySrc 40 = false ∧
    red.isReduced 1 = true ∧ (40 ∈ ({ srcs := [(40, true)] } : Need).named) ∧
    (let bad := { st0 with sites := [(1, { badRows := 2 })] }
     let n : Need := { srcs := [(2, true)] }
     n.illegal bad = false ∧ n.blocked bad = false ∧ bad.emptySrc 2 = false ∧ bad.isReduced 1 = false ∧ monName bad.cur.mon 2 = false ∧ bad.regFails 1 2 = true) ∧
    st0.slot.framed = false := by decide +kernel

/-- AddressConditions: each clause at the values where it ends (own tile, another tile, edge; columns and offsets at their limits). -/
theorem witness_addresses :
    let n := fun b : Bool => if b then 1 else 0
    let at_ := fun (a : Word) (size : Nat) (mon : Bool) => [n (decide (a.toNat % size = 0)), n (bit a 63), fld a 37 26,
      n (decide (addrCol a < (st0.dims 1).1 ∧ addrRow a < (st0.dims 1).2)), n (decide (addrOff a + size ≤ 0x170000)),
      n (decide (addrOff a + size ≤ 0x180000)), n mon, n (decide (addrCol a = (st0.tile 1).col ∧ addrRow a = (st0.tile 1).row))]
    let own : Word := (st0.tile 1).addrOf 0
    let far : Word := ({ (st0.tile 1) with col := 2 } : Tile).addrOf 0
    let out : Word := ({ (st0.tile 1) with col := 3 } : Tile).addrOf 0
    ((0x7FFFFFFFFFFFFFFF : Word).toNat % 8 ≠ 0) ∧
    bit (0x8100000000000000 : Word) 63 = true ∧ fld (0x8100000000000000 : Word) 56 7 = 1 ∧ (0x8100000000000000 : Word).toNat % 8 = 0 ∧
    bit (0x80FFFFFFFFFFFFF8 : Word) 63 = true ∧ fld (0x80FFFFFFFFFFFFF8 : Word) 56 7 = 0 ∧ (0x80FFFFFFFFFFFFF8 : Word).toNat % 8 = 0 ∧
    fld (0x2000000000 : Word) 37 26 = 1 ∧ bit (0x2000000000 : Word) 63 = false ∧
    at_ out 8 false = [1, 0, 0, 0, 1, 1, 0, 0] ∧
    at_ (own + 0x180000) 8 false = [1, 0, 0, 1, 0, 0, 0, 1] ∧
    at_ (own + 0x16FFFC) 8 false = [0, 0, 0, 1, 0, 1, 0, 1] ∧
    at_ (own + 0x170000) 8 false = [1, 0, 0, 1, 0, 1, 0, 1] ∧
    at_ (own + 0x17FFF8) 8 true = [1, 0, 0, 1, 0, 1, 1, 1] ∧
    at_ (own + 0x16FFF8) 8 false = [1, 0, 0, 1, 1, 1, 0, 1] ∧
    at_ (far + 0x17FFF8) 8 true = [1, 0, 0, 1, 0, 1, 1, 0] ∧
    at_ (far + 0x16FFF8) 8 false = [1, 0, 0, 1, 1, 1, 0, 0] ∧
    (match ({ st0 with regions := [(1, { reg1 with holes := [2] })] } : State).placeFrom 1 (addrCol far) (addrRow far) with | .hole => true | _ => false) = true := by decide +kernel

/-- The address of the own tile's slice, for the states of the witnesses. -/
def own (o : Nat) : Word := tileA.addrOf o

/-- An address of another tile of the region. -/
def farAt (o : Nat) : Word := ({ tileA with col := 2 } : Tile).addrOf o

/-- An uncorrectable error in the words at offsets 0 to 63 of the own slice. -/
def badWords (s : State) : State := { s with ecc := (List.range 8).map (fun k => (s.spmKey 1 (8 * k) / 8, 66)) }

/-- LocalLoads: the last bytes a load may reach, with a good word, with RAW, with an uncorrectable error, and a fault of R209. -/
theorem witness_loads : ∀ p ∈ loadRows, let i := p.1 4 2 0 0 0; let n := needR i 4 2 0; let size := p.2.1
    meets n (stG (own (0x170000 - size)) 0) (fun v s => !s.accessHeld && decide (s.precheck (effective (v0 v) (0#9) size) size size true false = .ok (.loc (0x170000 - size))) &&
      !s.curTile.spmraw && !s.uncorrectable 1 (0x170000 - size) size) = true ∧
    meets n ((stG (own 0) 0).updTile 1 (fun x => { x with spmraw := true })) (fun v s =>
      !s.accessHeld && decide (s.precheck (effective (v0 v) (0#9) size) size size true false = .ok (.loc 0)) && s.curTile.spmraw) = true ∧
    meets n (badWords (stG (own 0) 0)) (fun v s => !s.accessHeld && decide (s.precheck (effective (v0 v) (0#9) size) size size true false = .ok (.loc 0)) &&
      !s.curTile.spmraw && s.uncorrectable 1 0 size) = true ∧
    meets n (stG (own 0x170000) 0) (fun v s => !s.accessHeld && decide (s.precheck (effective (v0 v) (0#9) size) size size true false = .error (0x13, own 0x170000))) = true := by
  decide +kernel

/-- LocalStores and LocalStoreFrame: the last bytes a store may reach, in a word without an error; a word with an error in it; a fault of R209. -/
theorem witness_stores : ∀ p ∈ storeRows, let i := p.1 3 2 0 0; let size := p.2; let n : Need := { wf := i.wf, srcs := [(2, false), blk 3] }
    meets n (stG (own (0x170000 - size)) 5) (fun v s => !s.accessHeld && decide (s.precheck (effective (v0 v) (0#11) size) size size false true = .ok (.loc (0x170000 - size))) &&
      !s.storeBlocked 1 (0x170000 - size) size && s.correctables 1 (0x170000 - size) size == 0) = true ∧
    (size < 8 → meets n (badWords (stG (own 0) 5)) (fun v s => !s.accessHeld && decide (s.precheck (effective (v0 v) (0#11) size) size size false true = .ok (.loc 0)) &&
      s.storeBlocked 1 0 size) = true) ∧
    meets n (stG (farAt 0x170000) 5) (fun v s => !s.accessHeld && decide (s.precheck (effective (v0 v) (0#11) size) size size false true = .error (0x13, farAt 0x170000))) = true := by
  decide +kernel

/-- LocalAtomics: both widths, with a good word, with an error and with a misaligned address; AtomicValues: the widths and the largest old values. -/
theorem witness_atomics :
    (∀ p ∈ atomicRows, ∀ z ∈ ([0, 1] : List Nat), let i := p.1 4 2 3 0 0 (BitVec.ofNat 1 z); let size := if BitVec.ofNat 1 z = 1 then 8 else 4
      let n : Need := { wf := i.wf, srcs := [(2, false), (3, false)] ++ (if p.2 = 9 then [blk 4] else []), dsts := [4] }
      meets n (stG (own (0x170000 - size)) 5) (fun v s => !s.accessHeld && decide (s.precheck (v0 v) size size true true = .ok (.loc (0x170000 - size))) &&
        !s.uncorrectable 1 (0x170000 - size) size) = true ∧
      meets n (badWords (stG (own 0) 5)) (fun v s => !s.accessHeld && decide (s.precheck (v0 v) size size true true = .ok (.loc 0)) && s.uncorrectable 1 0 size) = true ∧
      meets n (stG (own 2) 5) (fun v s => !s.accessHeld && decide (s.precheck (v0 v) size size true true = .error (0x10, own 2))) = true) ∧
    2 ^ 32 - 1 < 2 ^ (8 * 4) ∧ 2 ^ 64 - 1 < 2 ^ (8 * 8) := by decide +kernel

/-- RemoteRequests: an address of another tile, with an empty retention buffer. -/
theorem witness_remote :
    let l : Loc := match st0.checkAddr 1 false (farAt 0) 8 8 with | .ok l => l | .error _ => .loc 0
    (∀ p ∈ loadRows, let i := p.1 4 2 0 0 0; meets (needR i 4 2 0) (stG (farAt 0) 5) (fun v s =>
      !s.accessHeld && decide (s.precheck (effective (v0 v) (0#9) p.2.1) p.2.1 p.2.1 true false = .ok l) &&
      (match l with | .loc _ => false | _ => true) && (match s.reach l 0 with | .far _ _ => true | _ => false)) = true) ∧
    (∀ p ∈ storeRows, let i := p.1 3 2 0 0; meets { wf := i.wf, srcs := [(2, false), blk 3] } (stG (farAt 0) 5) (fun v s =>
      !s.accessHeld && decide (s.precheck (effective (v0 v) (0#11) p.2) p.2 p.2 false true = .ok l) && (match s.reach l 1 with | .far _ _ => true | _ => false) &&
      decide (s.curTile.retFree ≠ 0)) = true) ∧
    (∀ p ∈ atomicRows, let i := p.1 4 2 3 0 0 1; meets { wf := i.wf, srcs := [(2, false), (3, false)] ++ (if p.2 = 9 then [blk 4] else []), dsts := [4] }
      (stG (farAt 0) 5) (fun v s => !s.accessHeld && decide (s.precheck (v0 v) 8 8 true true = .ok l) && (match s.reach l 2 with | .far _ _ => true | _ => false) &&
        decide (s.curTile.retFree ≠ 0)) = true) := by decide +kernel

/-- Fences: a fence to issue, a context with each kind of fence pending. Pages: tprobe of a held translation, lrenew with its walk's word at hand, tdrop; an address of no edge form. -/
theorem witness_pages :
    let e : Tlb := { region := 1, va := 0x1000, lg := 12, pa := 0x2000, r := true, deadline := 1000 }
    let s := (stG 0x8000000000001000 0).updTile 1 (fun x => { x with dtlb := [e], ctxs := x.ctxs.map (fun c => (c.1, { c.2 with probed := some 9 })) })
    (∀ i ∈ ([.fenceRel 0, .fenceAcq 4, .fenceFull 2] : List Instr), (need0 i).ready st0 = true) ∧
    (∀ k ∈ ([0, 1, 2] : List Nat), ((tileA.setCtx 3 { state := .live, fence := k }).ctx 3).fence = k) ∧
    meets (needRR (.tprobe 4 2 3 0 0) 4 2 3 0 0) s (fun v s => edgeForm (v0 v) &&
      (tlbFind s.curTile.dtlb s.curTile.region (s.nowAt s.slot.site) (fld (v0 v) 0 56) (pageKind (v1 v))).isSome) = true ∧
    meets (needRR (.tprobe 4 2 3 0 0) 4 2 3 0 0) (stG 0x1000 0) (fun v _ => !edgeForm (v0 v)) = true ∧
    (needRR (.lrenew 4 2 3 0 0) 4 2 3 0 0).ready s = true ∧ edgeForm (v0 ((needRR (.lrenew 4 2 3 0 0) 4 2 3 0 0).vals s)) = true ∧
    ((needRR (.lrenew 4 2 3 0 0) 4 2 3 0 0).take s).cur.probed = some 9 ∧
    meets (needAB (.tdrop 2 3 0 0) 2 3 0 0) (stG 0x80FFFFFFFFFFFFFF 0xFFFFFFFFFFFFFFFF) (fun v _ => edgeForm (v0 v)) = true ∧
    meets (needAB (.tdrop 2 3 0 0) 2 3 0 0) (stG 0x8100000000000000 1) (fun v _ => !edgeForm (v0 v)) = true := by decide +kernel

/-- The descriptor and payload words of a send to the tile at column 2 of row 0: kind, length field, ARG; count minus one, offset. -/
def mdw (kind len arg : Nat) : Word := BitVec.ofNat 64 (2 + len * 2 ^ 32 + kind * 2 ^ 37 + arg * 2 ^ 40)
def pword (cnt off : Nat) : Word := BitVec.ofNat 64 (off + 2 ^ 21 + cnt * 2 ^ 57)

/-- Sends, send and sendh: the largest payload and count, ending at the last byte below the monitor range; operands that break the format; a destination outside the region; an error in the payload; for send
also a PUT that would reach the monitor range of its destination. -/
theorem witness_sends :
    let n := needAB (.send 2 3 0 0) 2 3 0 0
    let m := needAB (.sendh 2 3 0 0) 2 3 0 0
    let ok := fun (k : List Nat) (l : Nat) (v : List Word) (s : State) => s.sendOperandsOk (v0 v) (v1 v) k l false
    let dest := fun (v : List Word) (s : State) => match namedDest s (v0 v) with | .ok _ => true | .error _ => false
    let rest := fun (v : List Word) (s : State) => putRangeOk (v0 v) (v1 v) && decide (pwCount (v1 v) ≤ s.curTile.retFree)
    meets n (stG (mdw 0 30 0) (pword 63 (0x170000 - 64 * 240))) (fun v s => ok [0, 1] 240 v s && dest v s && rest v s &&
      !s.accessHeld &&
      !s.uncorrectable 1 (pwOff (v1 v)) (pwCount (v1 v) * mdwLen (v0 v))) = true ∧
    meets n (stG (mdw 1 1 0x2DFFF) (pword 0 0)) (fun v s => ok [0, 1] 240 v s && dest v s && rest v s) = true ∧
    meets n (stG (mdw 0 31 0) (pword 0 0)) (fun v s => !ok [0, 1] 240 v s) = true ∧
    meets n (stG (mdw 0 1 0 + 1) (pword 0 0)) (fun v s => ok [0, 1] 240 v s && !dest v s) = true ∧
    meets n (stG (mdw 1 1 0x2E000) (pword 0 0)) (fun v s => ok [0, 1] 240 v s && dest v s && !putRangeOk (v0 v) (v1 v)) = true ∧
    meets n (badWords (stG (mdw 0 1 0) (pword 0 0))) (fun v s => ok [0, 1] 240 v s && dest v s && rest v s &&
      !s.accessHeld &&
      s.uncorrectable 1 (pwOff (v1 v)) (pwCount (v1 v) * mdwLen (v0 v))) = true ∧
    meets m (stG (mdw 2 4 63) (pword 0 0)) (fun v s => ok [2] 32 v s && dest v s && rest v s) = true ∧
    meets m (stG (mdw 2 5 63) (pword 0 0)) (fun v s => !ok [2] 32 v s) = true ∧
    meets m (stG (mdw 2 4 63 + 1) (pword 0 0)) (fun v s => ok [2] 32 v s && !dest v s) = true := by decide +kernel

/-- Sends, hmsg and the sends to a neighbour: to the east, south and west of the tile, to the north of the tile below it; a side outside the region and one at a hole. -/
theorem witness_near_sends :
    let south := stG (mdw 0 1 0 - 2) (pword 0 0 + 0x20000000) |>.updTile 1 (fun x => { x with row := 1 })
    let near := fun (dir : Nat) (v : List Word) (s : State) => s.sendOperandsOk (v0 v) (v1 v) [0, 1] 240 true && (nearDest s dir).isSome
    let good := fun (dir : Nat) (s : State) => match nearDest s dir with | some (.ok _) => true | _ => false
    meets (needAB (.hmsg 2 3 0 0) 2 3 0 0) (stG (mdw 3 30 255 - 2) (pword 0 0)) (fun v s => s.sendOperandsOk (v0 v) (v1 v) [3] 240 true) = true ∧
    meets (needAB (.hmsg 2 3 0 0) 2 3 0 0) (stG (mdw 3 30 256 - 2) (pword 0 0)) (fun v s => !s.sendOperandsOk (v0 v) (v1 v) [3] 240 true) = true ∧
    meets (needAB (.sendN 2 3 0 0) 2 3 0 0) south (fun v s => near 0 v s && good 0 s) = true ∧
    meets (needAB (.sendE 2 3 0 0) 2 3 0 0) (stG (mdw 0 1 0 - 2) (pword 0 0)) (fun v s => near 1 v s && good 1 s) = true ∧
    meets (needAB (.sendS 2 3 0 0) 2 3 0 0) (stG (mdw 0 1 0 - 2) (pword 0 0)) (fun v s => near 2 v s && good 2 s) = true ∧
    meets (needAB (.sendW 2 3 0 0) 2 3 0 0) (stG (mdw 0 1 0 - 2) (pword 0 0)) (fun v s => near 3 v s && good 3 s) = true ∧
    meets (needAB (.sendN 2 3 0 0) 2 3 0 0) (stG (mdw 0 1 0 - 2) (pword 0 0)) (fun _ s => (nearDest s 0).isNone) = true ∧
    meets (needAB (.sendE 2 3 0 0) 2 3 0 0) { stG (mdw 0 1 0 - 2) (pword 0 0) with regions := [(1, { reg1 with holes := [2] })] }
      (fun v s => near 1 v s && !good 1 s) = true := by decide +kernel

/-- TriggeredSends: an idle counter, a fired one, and 16 sends waiting. -/
theorem witness_triggers :
    let n := needAB (.tsend 15 2 3 0 0) 2 3 0 0
    let s := stG (mdw 0 1 0) (pword 0 0)
    let ok := fun (v : List Word) (s : State) => s.sendOperandsOk (v0 v) (v1 v) [0, 1, 2, 3] (if mdwKind (v0 v) = 2 then 32 else 240) (mdwKind (v0 v) == 3) &&
      (match s.sendDest s.slot.site (fld (v0 v) 0 8) (fld (v0 v) 8 8) with | .ok _ => true | .error _ => false) && putRangeOk (v0 v) (v1 v) &&
      !s.accessHeld
    meets n s (fun v s => ok v s && decide (s.curTile.q.triggers.length < 16) && decide ((s.curTile.q.counter 15).state ≠ 2)) = true ∧
    meets n (s.updTile 1 (fun x => x.updQ (fun q => { q with counters := [(15, { state := 2 })], triggers := List.replicate 15 {} })))
      (fun v s => ok v s && decide (s.curTile.q.triggers.length < 16) && decide ((s.curTile.q.counter 15).state = 2)) = true ∧
    meets n (s.updTile 1 (fun x => x.updQ (fun q => { q with triggers := List.replicate 16 {} })))
      (fun v s => ok v s && decide (16 ≤ s.curTile.q.triggers.length)) = true := by decide +kernel

/-- PortBinding: an input port bound, an output port released with an element gathered, a value that breaks the format, and a TAG bound twice. -/
theorem witness_ports :
    let q := fun (k : Nat) (w : Word) (f : Queues → Queues) (p : List Word → State → Bool) =>
      meets (needA (.qcfg 2 (BitVec.ofNat 3 k) 0) 2 0) ((stG w 0).updTile 1 (fun x => x.updQ f)) p
    let dest := fun (k : Nat) (v : List Word) (s : State) => !(decide (4 ≤ k) && cfgV (v0 v) && cfgVc (v0 v) == 2) ||
      (match s.sendDest s.slot.site (fld (v0 v) 0 8) (fld (v0 v) 8 8) with | .ok _ => true | .error _ => false)
    q 3 0xFF0080020000 id (fun v s => portcfgOk 3 (v0 v) && !s.curTile.q.boundTwice 3 (v0 v) && dest 3 v s && decide (fget [] s.curTile.q.gathered 3 = [])) = true ∧
    q 7 0x1E80020002 id (fun v s => portcfgOk 7 (v0 v) && !s.curTile.q.boundTwice 7 (v0 v) && dest 7 v s && decide (fget [] s.curTile.q.gathered 7 = [])) = true ∧
    q 4 0 (fun q => { q with portcfg := [(4, 0x280020000)], gathered := [(4, [(0, 5)])] }) (fun v s => portcfgOk 4 (v0 v) && !s.curTile.q.boundTwice 4 (v0 v) &&
      dest 4 v s && decide (fget [] s.curTile.q.gathered 4 ≠ []) && decide (s.curTile.retFree ≠ 0) && (fget [] s.curTile.q.gathered 4).all (fun e => e.1 == 0)) = true ∧
    q 4 0x1F80020000 id (fun v _ => !portcfgOk 4 (v0 v)) = true ∧
    q 1 0x80020000 (fun q => { q with portcfg := [(0, 0x80020000)] }) (fun v s => portcfgOk 1 (v0 v) && s.curTile.q.boundTwice 1 (v0 v)) = true := by decide +kernel

/-- HandlerTable and ReceiveCounters: entries that keep and break their format at the limit of the address; a counter armed idle, fired and with reserved bits. -/
theorem witness_handlers :
    meets (needA (.hset 2 63 0) 2 0) (stG 0x800000000016FFFC 0) (fun v _ => handlerOk (v0 v)) = true ∧
    meets (needA (.hset 2 63 0) 2 0) (stG 0x8000000000170000 0) (fun v _ => !handlerOk (v0 v)) = true ∧
    (∀ i ∈ ([.hclr 63, .hseal, .hopen] : List Instr), (need0 i).ready st0 = true) ∧
    meets (needA (.rcarm 2 15 0) 2 0) (stG 0xC080000000000000 0) (fun v _ => fld (v0 v) 40 15 == 0) = true ∧
    meets (needA (.rcarm 2 15 0) 2 0) (stG 0x0000010000000000 0) (fun v _ => fld (v0 v) 40 15 != 0) = true ∧
    (∀ i ∈ ([.rcrd 4 15, .tcancel 4 0] : List Instr), (needD i 4).ready st0 = true) := by decide +kernel

/-- Barriers: each instruction on an idle, an armed, a complete and a collecting barrier as its clauses ask, with PEND and ARR at their limits. -/
theorem witness_barriers :
    let at_ := fun (b : Nat) (w : Word) => (stG w 0).updTile 1 (fun x => x.setBar 63 { x.bar 63 with state := b, pend := 2 ^ 36 - 2, arr := 254 })
    (∀ i ∈ ([.binit 4 2 63 0, .binitF 4 2 63 0] : List Instr),
      meets (needR i 4 2 0) (at_ 0 0xFFFFFFFFFFF) (fun v s => fld (v0 v) 44 20 == 0 && (s.curTile.bar 63).state != 3 && !(s.curTile.bar 63).busy) = true ∧
      meets (needR i 4 2 0) (at_ 0 0x100000000000) (fun v _ => fld (v0 v) 44 20 != 0) = true ∧
      meets (needR i 4 2 0) (at_ 3 0) (fun v s => fld (v0 v) 44 20 == 0 && (s.curTile.bar 63).state == 3) = true) ∧
    meets (needR (.binit 4 2 63 0) 4 2 0) (at_ 1 0) (fun v s => fld (v0 v) 44 20 == 0 && (s.curTile.bar 63).busy) = true ∧
    meets (needA (.bexp 2 63 0) 2 0) (at_ 1 0x1000000001) (fun v s => fld (v0 v) 44 20 == 0 && (s.curTile.bar 63).state == 1 &&
      decide ((s.curTile.bar 63).pend + fld (v0 v) 0 36 < 2 ^ 36) && decide ((s.curTile.bar 63).arr + fld (v0 v) 36 8 < 256)) = true ∧
    meets (needA (.bexp 2 63 0) 2 0) (at_ 1 2) (fun v s => (s.curTile.bar 63).state == 1 && decide (2 ^ 36 ≤ (s.curTile.bar 63).pend + fld (v0 v) 0 36)) = true ∧
    meets (needA (.bexp 2 63 0) 2 0) (at_ 1 0x2000000000) (fun v s => (s.curTile.bar 63).state == 1 && decide (256 ≤ (s.curTile.bar 63).arr + fld (v0 v) 36 8)) = true ∧
    meets (needA (.bexp 2 63 0) 2 0) (at_ 2 0) (fun v s => fld (v0 v) 44 20 == 0 && (s.curTile.bar 63).state != 1) = true ∧
    meets (need0 (.binv 63)) (at_ 2 0) (fun _ s => (s.curTile.bar 63).state != 3) = true ∧ meets (need0 (.binv 63)) (at_ 3 0) (fun _ s => (s.curTile.bar 63).state == 3) = true ∧
    (needD (.btest 4 63) 4).ready st0 = true ∧ meets (needD (.bwait 4 63) 4) (at_ 2 0) (fun _ s => (s.curTile.bar 63).state == 2) = true ∧
    meets (needD (.bwait 4 63) 4) st0 (fun _ s => (s.curTile.bar 63).state == 0) = true := by decide +kernel

/-- BarrierArrival: at the own tile with nothing outstanding and with a store outstanding, at another tile, and a bad operand. -/
theorem witness_arrivals :
    let n := needAB (.barv 2 3 0 0) 2 3 0 0
    let dest := fun (v : List Word) (s : State) => match s.sendDest s.slot.site (fld (v0 v) 16 8) (fld (v0 v) 24 8) with | .ok u => u | .error _ => 999
    let out : Ret := { id := 0, ctx := 0, body := .store 0 8 0, state := .flying }
    meets n (stG 0x0001103F 0xFFFFFFFFF) (fun v s => barvOk (v0 v) (v1 v) && dest v s == 1 && s.curTile.released s.slot.ctx s.nextId) = true ∧
    meets n ((stG 0x00010000 0).updTile 1 (fun x => x.updQ (fun q => { q with ret := [out] }))) (fun v s =>
      barvOk (v0 v) (v1 v) && dest v s == 1 && !s.curTile.released s.slot.ctx s.nextId) = true ∧
    meets n (stG 0x00020000 0) (fun v s => barvOk (v0 v) (v1 v) && dest v s == 2 && decide (s.curTile.retFree ≠ 0)) = true ∧
    meets n (stG 0x00010000 0x1000000000) (fun v _ => !barvOk (v0 v) (v1 v)) = true := by decide +kernel

/-- Collectives: a rectangle of the whole region that holds the tile, and one that does not. -/
theorem witness_collectives :
    let n := needRR (.coll 4 2 3 0 0) 4 2 3 0 0
    let holds := fun (v : List Word) (s : State) => let d := v1 v; collOk d && decide ((collOrg d).1 ≤ s.curTile.col ∧ s.curTile.col < (collOrg d).1 + (collDims d).1 ∧
      (collOrg d).2 ≤ s.curTile.row ∧ s.curTile.row < (collOrg d).2 + (collDims d).2)
    meets n (stG 5 0x3FB101020000) (fun v s => let d := v1 v; holds v s && decide ((collOrg d).1 + (collDims d).1 ≤ (s.dims 1).1 ∧ (collOrg d).2 + (collDims d).2 ≤ (s.dims 1).2) &&
      (List.range (collCount d)).all (fun p => (s.collSite 1 d p).isSome) && !s.curTile.coll.active && decide (s.curTile.retFree ≠ 0) && !(s.curTile.bar (collBar d)).busy) = true ∧
    meets n (stG 5 0xB000000002) (fun v s => !holds v s) = true ∧ meets n (stG 5 0x8300000001) (fun v s => !holds v s) = true := by decide +kernel

/-- Transfers: a copy of the whole slice below the monitor range to another tile; a length of zero; xpop with the FIFO empty and with a command running. -/
theorem witness_transfers :
    let n : Need := { wf := (Instr.xcopy 5 2 3 0 0).wf, srcs := [(2, false), (3, false), blk 5] }
    let s := fun (c : Word) => stC (fun x => { x with g := [(2, farAt 0), (3, own 0), (5, c)] })
    let e : XCmd := { id := 3, state := 1 }
    meets n (s 0x170000) (fun v s => decide (s.xcopyCheck (v2 v) (v0 v) (v1 v) = none) && decide (s.curTile.xfer.length < 8) && decide (s.curTile.retFree ≠ 0) &&
      !s.accessHeld) = true ∧
    meets n (s 0) (fun v s => decide (s.xcopyCheck (v2 v) (v0 v) (v1 v) = some (0x24, 0))) = true ∧
    (needD (.xpop 4) 4).ready st0 = true ∧ ((needD (.xpop 4) 4).take st0).curTile.xfer.find? XCmd.claimable = none ∧
    meets (needD (.xpop 4) 4) (stT (fun x => { x with xfer := [e] })) (fun _ s => decide (s.curTile.xfer.find? XCmd.claimable = some e) && e.state != 2) = true := by decide +kernel

/-- A stream block: one element, columns 1 to 2 of row 0, streamed by column 1, with its TAG and role. -/
def spbOf (tag role : Nat) : Nat :=
  0x8000000000001000 + (2 ^ 64 + 2 ^ 96 + 2 ^ 128 + 2 ^ 160 + 2 ^ 192) + 2 ^ 384 + 2 ^ 408 + 2 * 2 ^ 416 + tag * 2 ^ 424 + role * 2 ^ 432

/-- Streams: a source end from a block in the own slice; an address off a line; sclose of a free slot and of an ended stream. -/
theorem witness_streams :
    let s := ((stG (own 0) 0).spmWrite 1 0 64 (spbOf 7 0))
    let e : StreamEnd := { state := 1, spb := BitVec.ofNat 512 (spbOf 7 0), digest := spbDigest (BitVec.ofNat 512 (spbOf 7 0)), ctx := 0, mark := 1 }
    meets (needA (.sopen 2 3 0) 2 0) s (fun v s => decide (s.checkAddr 1 s.cur.mon (v0 v) 64 64 = .ok (.loc 0)) && !s.uncorrectable 1 0 64 &&
      decide (s.spmRead 1 0 64 = spbOf 7 0) && e.limitsOk (s.dims 1).1 (s.dims 1).2 && (List.range 4).all (fun k => (s.curTile.stream k).state == 0) && e.role == 0 &&
      s.curTile.col == e.scol && s.curTile.row == e.srow &&
      (List.range (e.c1 + 1 - e.c0)).all (fun j => match s.placeFrom 1 (e.c0 + j) e.row with | .site _ => true | _ => false) &&
      !s.accessHeld && decide (s.curTile.retFree ≠ 0)) = true ∧
    meets (needA (.sopen 2 3 0) 2 0) (stG (own 8) 0) (fun v _ => (v0 v).toNat % 64 != 0) = true ∧
    meets (needD (.sclose 4 3) 4) st0 (fun _ s => (s.curTile.stream 3).state == 0) = true ∧
    meets (needD (.sclose 4 3) 4) (stT (fun x => x.setStream 3 { e with state := 3 })) (fun _ s => decide (3 ≤ (s.curTile.stream 3).state) && (s.curTile.stream 3).role == 0) = true := by
  decide +kernel

/-- Trains: every instruction in a state that permits it, and the train fault in context 1 and without a train. -/
theorem witness_trains :
    let tr := fun (k : Nat) (a : Word) => (stG a 0).updTile 1 (fun x => { x with train := { x.train with state := k } })
    let req := (stG 0x0700 0).updTile 1 (fun x => { x with train := { x.train with request := some (7, 0, 2) } })
    meets (needR (.tform 4 2 0) 4 2 0) (stG 0xFF02 0) (fun v s => s.slot.ctx == 0 && s.curTile.train.state == 0 && fld (v0 v) 16 48 == 0 && decide (2 ≤ fld (v0 v) 0 8) &&
      decide (s.curTile.col + fld (v0 v) 0 8 ≤ (s.dims 1).1) && (List.range (fld (v0 v) 0 8)).all (fun d => match s.placeFrom 1 (s.curTile.col + d) s.curTile.row with | .site _ => true | _ => false)) = true ∧
    meets (needR (.tjoin 4 2 0) 4 2 0) req (fun v s => decide (s.curTile.train.request = some (7, 0, 2)) && fld (v0 v) 16 48 == 0 && fld (v0 v) 0 8 == 0 && fld (v0 v) 8 8 == 7 &&
      decide (0 < s.curTile.col)) = true ∧ req.slot.ctx = 0 ∧ req.curTile.train.state = 0 ∧
    meets (needA (.tleave 2 3 0) 2 0) (tr 3 0) (fun v s => s.curTile.train.state != 0 && s.curTile.train.state != 4 && (!s.slot.train || v0 v == 0)) = true ∧
    meets (needA (.tleave 2 3 0) 2 0) { tr 3 1 with slot := { st0.slot with train := true } } (fun v s => s.curTile.train.state != 0 && s.curTile.train.state != 4 && s.slot.train &&
      v0 v != 0 && fld (s.curTile.own (fget 0 s.cur.t 3)) 0 2 == 0) = true ∧
    meets (need0 (.tmark 63)) (tr 4 0) (fun _ s => s.slot.ctx == 0 && s.curTile.train.state != 0) = true ∧
    meets (needD (.trejoin 4 63) 4) (tr 4 0) (fun _ s => s.slot.ctx == 0 && s.curTile.train.state == 4) = true ∧
    meets (needD (.tsync 4) 4) (tr 2 0) (fun _ s => s.curTile.train.state != 0 && s.curTile.train.state != 4) = true ∧
    meets (need0 .tgang) (tr 2 0) (fun _ s => s.curTile.train.state != 0 && s.curTile.train.state != 4) = true ∧
    meets (need0 .tend) (tr 2 0) (fun _ s => s.slot.ctx == 0 && s.curTile.train.state != 0) = true ∧
    meets (needD (.rdskew 4) 4) st0 (fun _ s => s.slot.ctx == 0) = true ∧
    (∀ i ∈ ([.tgang, .tend, .tmark 0] : List Instr), meets (need0 i) st0 (fun _ s => s.curTile.train.state == 0) = true ∧
      meets (need0 i) { tr 2 0 with slot := { st0.slot with ctx := 1 } } (fun _ s => s.slot.ctx != 0) = true) := by decide +kernel

/-- KernelEnqueue and KernelExit; RepeaterFrames: counts and masks at their limits, user and monitor mode. -/
theorem witness_kernels :
    let mon := stC (fun c => { c with mon := true, mg := [(2, 7)] })
    meets (needR (.kq 4 2 0) 4 2 0) (stG (own (0x170000 - 64)) 0) (fun v s => decide (s.checkAddr 1 s.cur.mon (v0 v) 64 64 = .ok (.loc (0x170000 - 64))) &&
      !s.accessHeld && !s.uncorrectable 1 (0x170000 - 64) 64 && decide (s.curTile.retFree ≠ 0)) = true ∧
    meets (needR (.kq 4 2 0) 4 2 0) (stG (own 8) 0) (fun v s => decide (s.checkAddr 1 s.cur.mon (v0 v) 64 64 = .error 0x10)) = true ∧
    (needA (.kexit 2 0) 2 0).ready st0 = true ∧ ((needA (.kexit 2 0) 2 0).take st0).curTile.exitReady = true ∧
    meets (need0 (.rpt 15 15 0xFFFF)) st0 (fun _ s => !s.cur.mon) = true ∧ meets (need0 (.rpt 0 0 0)) mon (fun _ s => s.cur.mon) = true ∧ inPort 2 = false ∧
    meets (needA (.rptR 0 0 0 2) 2 0) (stG 0xFFFFFFFF 0) (fun v s => !s.cur.mon && decide ((v0 v).toNat < 2 ^ 32)) = true ∧
    meets (needA (.rptR 0 0 0 2) 2 0) (stG 0x100000000 0) (fun v _ => decide (2 ^ 32 ≤ (v0 v).toNat)) = true ∧
    meets (needA (.rptx 0 0 0 2) 2 0) (stG 0xFFFFFFFFFFFF 0) (fun v s => !s.cur.mon && decide ((v0 v).toNat < 2 ^ 48)) = true ∧
    meets (needA (.rptx 0 0 0 2) 2 0) (stG 0x1000000000000 0) (fun v _ => decide (2 ^ 48 ≤ (v0 v).toNat)) = true := by decide +kernel

/-- VectorArithmetic, VectorCompares, VectorInteger, VectorMoves and VectorFolds: every form with its sources at hand, pairs and the last registers among them. -/
theorem witness_vector :
    (∀ p ∈ ([.vaddF, .vsubF, .vmulF, .vminF, .vmaxF] : List (BitVec 5 → BitVec 5 → BitVec 5 → BitVec 3 → BitVec 2 → Instr)),
      (needV (p 30 2 4 0 1) (vgroup true 2 ++ vgroup true 4) (vgroup true 30) false 0).ready st0 = true ∧
      (needV (p 31 1 1 7 0) (vgroup false 1 ++ vgroup false 1) (vgroup false 31) false 7).ready st0 = true) ∧
    (∀ p ∈ ([.vfma, .vfms, .vfnma, .vfnms] : List (BitVec 5 → BitVec 5 → BitVec 5 → BitVec 3 → BitVec 2 → Instr)),
      (needV (p 30 2 4 0 1) (vgroup true 2 ++ vgroup true 4) (vgroup true 30) true 0).ready st0 = true) ∧
    (∀ p ∈ ([.vrcp, .vrsq, .vsqrt, .vexp2, .vlog2, .vtanh] : List (BitVec 5 → BitVec 5 → BitVec 3 → BitVec 2 → Instr)),
      (needV (p 31 1 0 2) (vgroup false 1) (vgroup false 31) false 0).ready st0 = true) ∧
    (needV (.vcvt 30 4 0 0 11 8) (vgroup false 4) (vgroup true 30) false 0).ready st0 = true ∧
    (∀ p ∈ ([.vcmpEqF, .vcmpLtF, .vcmpLe, .vcmpUn, .vcmpEqI, .vcmpLtI, .vcmpLtu] : List (BitVec 5 → BitVec 5 → BitVec 5 → BitVec 3 → BitVec 2 → Instr)),
      ({ wf := (p 7 2 4 1 2).wf, vsrcs := [2, 4], vec := true } : Need).ready st0 = true) ∧
    (∀ p ∈ ([.vaddI, .vsubI, .vmulI, .vmulh, .vmulhu, .vminI, .vmaxI, .vminu, .vmaxu, .vand, .vor, .vxor, .vandn, .vshl, .vshr, .vsar] :
        List (BitVec 5 → BitVec 5 → BitVec 5 → BitVec 3 → BitVec 2 → Instr)), (needV (p 31 31 31 7 3) [31, 31] [31] false 7).ready st0 = true) ∧
    ({ wf := (Instr.vsel 1 2 3 4 0).wf, vsrcs := [2, 3], vdsts := [1], vec := true } : Need).ready st0 = true ∧
    (needV (.vperm 1 2 3 0 0) [2, 3] [1] true 0).ready st0 = true ∧
    ({ wf := (Instr.vbcast 1 31 0 3).wf, srcs := [blk (g5 31)], vdsts := [1], vec := true } : Need).ready st0 = true ∧
    ({ wf := (Instr.vext 31 2 7 3).wf, vsrcs := [2], dsts := [g5 31], vec := true } : Need).ready st0 = true ∧
    ({ wf := (Instr.vins 1 2 31 1).wf, srcs := [blk (g5 2)], vsrcs := [1], vdsts := [1], vec := true } : Need).ready st0 = true ∧
    (∀ p ∈ ([.vredAdd, .vredMax, .vredMin] : List (BitVec 5 → BitVec 5 → BitVec 3 → BitVec 4 → Instr)),
      ({ wf := (p 1 2 0 15).wf, vsrcs := [2], vdsts := [1], vec := true } : Need).ready st0 = true) ∧
    (needV (.vclmul 1 2 3 0) [2, 3] [1] false 0).ready st0 = true := by decide +kernel

/-- LanesOfAResult: a width and a function whose values fit it, at the largest. -/
theorem witness_lanes : (8 : Nat) ∈ [8, 16, 32, 64] ∧ ∀ j : Nat, ((fun _ => (255, 0) : Nat → Nat × BitVec 6) j).1 < 2 ^ 8 :=
  ⟨by decide, fun _ => by show 255 < 2 ^ 8; decide⟩

/-- VectorLoads: the last row below the monitor range; 16 rows; elements at both ends of the slice; no error codes, no RAW. -/
theorem witness_vector_loads :
    let s := stG (own 0) 64
    let t := stC (fun c => { c with g := [(2, own 0), (3, 4)], v := [(9, 0x5BFFF)] })
    let ld : Need := { wf := (Instr.vld 1 2 3 0 2 0).wf, srcs := [blk (g5 2), blk (g5 3)], vdsts := [1], vec := true }
    let tr : Need := { wf := (Instr.vldt 16 2 3 0).wf, srcs := [blk (g5 2), blk (g5 3)], vec := true, vdsts := (List.range 16).map (fun j => 16 + BitVec.ofNat 5 j) }
    let ga : Need := { wf := (Instr.vgather 8 2 3 0 0 0).wf, srcs := [blk (g5 2), blk (g5 3)], vsrcs := [9], vdsts := [8], vec := true }
    s.ecc = [] ∧ s.curTile.spmraw = false ∧
    meets ld (stG (own 0x16FFC0) 0) (fun v s => !s.accessHeld && decide (s.precheck (v0 v + v1 v) 64 64 true false = .ok (.loc 0x16FFC0))) = true ∧
    meets tr s (fun v s => (List.range 16).all (fun j => !s.accessHeld && decide (s.precheck (v0 v + BitVec.ofNat 64 j * v1 v) 64 64 true false = .ok (.loc (64 * j))))) = true ∧
    meets ga t (fun v s => (List.range 16).all (fun j =>
      let a := v0 v + BitVec.ofInt 64 (BitVec.ofNat 32 (lane (s.cur.readV 9).toNat 32 j)).toInt * v1 v
      !s.accessHeld && decide (s.precheck a 4 4 true false = .ok (.loc (if j = 0 then 0x16FFFC else 0))))) = true := by decide +kernel

/-- VectorStores: a row at the end of the slice, a misaligned one, and a scatter of 16 elements. -/
theorem witness_vector_stores :
    let n : Need := { wf := (Instr.vst 1 2 3 0 2).wf, srcs := [blk (g5 2), blk (g5 3)], vsrcs := [1], vec := true }
    let m : Need := { wf := (Instr.vscatter 8 2 3 0 0).wf, srcs := [blk (g5 2), blk (g5 3)], vsrcs := [8, 9], vec := true }
    let parts := fun (v : List Word) (s : State) => gatherParts s.cur 8 0 (gatherWidth 0) (v0 v) (v1 v)
    meets n (stG (own 0x16FFC0) 0) (fun v s => !s.accessHeld && decide (s.precheck (v0 v + v1 v) 64 64 false true = .ok (.loc 0x16FFC0)) &&
      !s.rowBlocked 1 0x16FFC0 (byteMask (activeLanes (s.cur.mask 0) (elemWidth 2)) (elemWidth 2 / 8))) = true ∧
    meets n (stG (own 32) 0) (fun v s => !s.accessHeld && decide (s.precheck (v0 v + v1 v) 64 64 false true = .error (0x10, own 32))) = true ∧
    meets m (stG (own 0) 4) (fun v s => !s.partsMeet (parts v s) && match s.checkParts false true (parts v s) with
      | .ok ls => (s.firstMiss 1 (fun _ => false) ls).isNone && ls.all (fun p => match p.2 with | .loc o => !s.storeBlocked 1 o p.1.size | _ => true) &&
          decide (farParts (lastOfEach ls) ≤ s.curTile.retFree)
      | .error _ => false) = true ∧
    meets m (stG (own 2) 4) (fun v s => !s.partsMeet (parts v s) && match s.checkParts false true (parts v s) with | .ok _ => false | .error _ => true) = true := by decide +kernel

/-- ScalarPairs: each row of R152 behind a modifier with every field its class takes; addi with the immediate's own. IllegalPairs: a branch, and a rounding field in front of add. -/
theorem witness_pairs :
    (∀ p ∈ pairRows, let w := (encode (p.1 4 2 3 0 0)).getD 0
      (Instr.pfx 0 0x20 1 1 1 1 0 1).wf = true ∧ (match decode w with | .ok j => decide (j = p.1 4 2 3 0 0) | .error _ => false) = true ∧
      (needRR (p.1 4 2 3 0 0) 4 2 3 0 0).ready { st0 with slot := { st0.slot with word2 := w, pair := true } } = true) ∧
    (let w := (encode (.addi 4 2 0 0x1000)).getD 0
     (match decode w with | .ok j => decide (j = .addi 4 2 0 0x1000) | .error _ => false) = true ∧
     (needR (.addi 4 2 0 0x1000) 4 2 0).ready { st0 with slot := { st0.slot with word2 := w, pair := true } } = true) ∧
    acceptsOf (.bAl 4) = none ∧ (match acceptsOf (.add 4 2 3 0 0) with | some c => !(modifierOf 1 0 0 0 0 0 0 0).fits c | none => false) = true := by decide +kernel

/-- MatrixCommands: every command with operands at their limits, an operand that fails its check, and a FIFO with one place left. -/
theorem witness_matrix :
    let room := stT (fun x => x.updMx (fun m => { m with fifo := List.replicate 7 {} }))
    let go := fun (i : Instr) (r : List (BitVec 6)) (a b : Word) (p : State → List Word → Bool) =>
      meets { wf := i.wf, srcs := r.map blk } (stG a b) (fun v s => decide (s.curTile.mx.fifo.length < 8) && p s v &&
        !s.accessHeld)
    decide (room.curTile.mx.fifo.length < 8) = true ∧
    go (.mcfg 2 3) [2, 3] 0x1FFFE0 0xFFFF000000000000 (fun _ v => fld (v1 v) 0 48 == 0 && fld (v0 v) 24 40 == 0 && !bit (v0 v) 21 && fld (v0 v) 0 5 == 0) = true ∧
    go (.munf 2 3) [2, 3] (own (0x170000 - 32)) 0 (fun s v => fld (v1 v) 0 48 == 0 && (s.spmOperand (v0 v) 32).isSome && fld (v0 v) 0 5 == 0) = true ∧
    go (.mldb 2 3) [2, 3] (own (0x170000 - 64 * 1024)) 0x100000 (fun s v => fld (v1 v) 22 25 == 0 && decide (1 ≤ fld (v1 v) 10 11 ∧ fld (v1 v) 10 11 ≤ 1024 ∧
      fld (v1 v) 0 10 + fld (v1 v) 10 11 ≤ (if bit (v1 v) 21 then 64 else 1024)) && (s.spmOperand (v0 v) (64 * fld (v1 v) 10 11)).isSome && fld (v0 v) 0 6 == 0) = true ∧
    go (.mzero 3 3) [3] 0 0 (fun _ v => fld (v0 v) 0 48 == 0) = true ∧
    go (.mstr 3 2 3 0) [2, 3] (own (0x170000 - 4096)) 128 (fun s v => let z := codeWidth 0 / 8; let r := fld (v1 v) 0 16
      fld (v1 v) 22 26 == 0 && r % 64 == 0 && decide (32 * z ≤ r) && (s.spmOperand (v0 v) (31 * r + 32 * z)).isSome && fld (v0 v) 0 6 == 0) = true ∧
    go (.mmac 3 2 3 0 0) [2, 3] (own 0) 0x200 (fun s v => macCheck 0 false (v1 v) && (s.spmOperand (v0 v) (64 * sliceRows 0 (mK (v1 v)))).isSome && fld (v0 v) 0 6 == 0) = true ∧
    go (.mmacu 3 3 8 8) [3] 0 0x800 (fun _ v => macCheck 8 true (v0 v)) = true ∧ go (.mmacs 3 3 6 6) [3] 0 0x1000 (fun _ v => macCheck 6 false (v0 v)) = true ∧
    go (.mzero 3 3) [3] 0 1 (fun _ v => fld (v0 v) 0 48 != 0) = true ∧ go (.mmacs 0 3 0 0) [3] 0 0x1001 (fun _ v => !macCheck 0 false (v0 v)) = true ∧
    st0.slot.framed = false := by decide +kernel

/-- MatrixAccumulators and MatrixSaveRestore: the first and last doublewords, ASTAT and beyond; the last part, and part 0 of a quiet unit; either mode. -/
theorem witness_matrix_state :
    let mon := fun (p : Word) (s : State) => (s.updCur (fun c => { c with mon := true, mg := [(2, own 0), (3, p)] }))
    let rd : Need := { wf := (Instr.mrd 3 4 3).wf, srcs := [blk 3], dsts := [4] }
    let wr : Need := { wf := (Instr.mwr 3 2 3).wf, srcs := [blk 2, blk 3] }
    let sv : Need := { wf := (Instr.msave 2 3).wf, srcs := [blk 2, blk 3], priv := true }
    ([0, 511, 512] : List Nat).all (fun q => meets rd (stG 0 (BitVec.ofNat 64 q)) (fun v s => !s.curTile.mx.busy 3 && decide ((v0 v).toNat ≤ 512))) = true ∧
    meets rd (stG 0 513) (fun v s => !s.curTile.mx.busy 3 && decide (512 < (v0 v).toNat)) = true ∧
    meets wr (stG 63 511) (fun v s => !s.curTile.mx.busy 3 && decide ((v1 v).toNat < 512)) = true ∧
    meets wr (stG 63 512) (fun v s => !s.curTile.mx.busy 3 && decide ((v1 v).toNat = 512 ∧ (v0 v).toNat < 64)) = true ∧
    (needD (.mpop 4) 4).ready st0 = true ∧ ((needD (.mpop 4) 4).take st0).curTile.mx.fifo.find? MCmd.claimable = none ∧
    meets sv (mon 21 st0) (fun v s => decide (partCheck s v = none) && !s.accessHeld) = true ∧
    meets sv (mon 21 st0) (fun v s => decide (partCheck s v = none) && !s.accessHeld && !s.uncorrectable 1 (addrOff (v0 v)) (partSize (v1 v).toNat) && decide ((v1 v).toNat ≠ 0)) = true ∧
    meets sv (mon 0 (st0.spmWrite 1 0 2 1)) (fun v s => decide (partCheck s v = none) && !s.accessHeld && !s.uncorrectable 1 (addrOff (v0 v)) (partSize 0) && decide ((v1 v).toNat = 0) &&
      part0Ok (s.spmRead 1 0 (partSize 0))) = true ∧ st0.cur.mon = false := by decide +kernel

/-- SliceReadBack, ResetState, MemoryFormKept, QuietEvents: a slice without error codes and its last bytes; a memory in its form; a quiet event that answers. -/
theorem witness_memory : st0.ecc = [] ∧ 0x17FFF8 + 8 ≤ 0x180000 ∧ State.reset.memWf = true ∧ (st0.spmWrite 1 0 64 (spbOf 7 0)).memWf = true ∧
    (match exec .thermalAlert st0 with | .next t => t.mem.isEmpty | _ => false) = true ∧
    (match exec .moduleSeated st0 with | .next t => t.tiles.length | _ => 0) = 1 := by decide +kernel

/-! ### One step each -/

/-- g4 after an instruction, and the pc. -/
def g4 (i : Instr) (s : State) : Word := (after i s).cur.readG 4

/-- R138: wrapping, signed and unsigned order, shifts by the low six bits. -/
theorem test_alu : g4 (.add 4 2 3 0 0) (stG 0xFFFFFFFFFFFFFFFF 2) = 1 ∧ g4 (.sub 4 2 3 0 0) (stG 0 1) = 0xFFFFFFFFFFFFFFFF ∧
    g4 (.andn 4 2 3 0 0) (stG 0xFF 0x0F) = 0xF0 ∧ g4 (.slt 4 2 3 0 0) (stG 0xFFFFFFFFFFFFFFFF 0) = 1 ∧ g4 (.sltu 4 2 3 0 0) (stG 0xFFFFFFFFFFFFFFFF 0) = 0 ∧
    g4 (.sar 4 2 3 0 0) (stG 0x8000000000000000 63) = 0xFFFFFFFFFFFFFFFF ∧ g4 (.shr 4 2 3 0 0) (stG 0x8000000000000000 127) = 1 ∧
    g4 (.rot 4 2 3 0 0) (stG 0x8000000000000001 4) = 0x18 ∧ g4 (.min 4 2 3 0 0) (stG 0xFFFFFFFFFFFFFFFF 0) = 0xFFFFFFFFFFFFFFFF ∧
    g4 (.minu 4 2 3 0 0) (stG 0xFFFFFFFFFFFFFFFF 0) = 0 ∧ (after (.add 4 2 3 0 0) st0).cur.pc = 0x104 := by decide +kernel

/-- R139 to R144: sel reads its destination; immediates are sign-extended; lih shifts by 12; adr counts in words. -/
theorem test_immediates : g4 (.sel 4 2 3 0 0) st0 = 5 ∧ g4 (.addi 4 2 0 0x1FFF) st0 = 6 ∧ g4 (.andi 4 2 0 0x1FFE) st0 = 6 ∧ g4 (.sltiu 4 2 0 0xFFF) st0 = 1 ∧
    g4 (.slti 4 2 0 0xFFF) st0 = 0 ∧ g4 (.roti 4 2 0 63) st0 = 0x8000000000000003 ∧ g4 (.lih 4 0x80000) st0 = 0xFFFFFFFF80000000 ∧
    g4 (.adr 4 0xFFFFF) st0 = 0xFC := by decide +kernel

/-- R145, R146: high halves, and the table of borderline divisions. -/
theorem test_muldiv : g4 (.mulh 4 2 3 0 0) (stG 0xFFFFFFFFFFFFFFFF 2) = 0xFFFFFFFFFFFFFFFF ∧ g4 (.mulhu 4 2 3 0 0) (stG 0xFFFFFFFFFFFFFFFF 2) = 1 ∧
    g4 (.div 4 2 3 0 0) (stG 0xFFFFFFFFFFFFFFF9 2) = 0xFFFFFFFFFFFFFFFD ∧ g4 (.rem 4 2 3 0 0) (stG 0xFFFFFFFFFFFFFFF9 2) = 0xFFFFFFFFFFFFFFFF ∧
    g4 (.div 4 2 3 0 0) (stG 5 0) = 0xFFFFFFFFFFFFFFFF ∧ g4 (.remu 4 2 3 0 0) (stG 5 0) = 5 ∧
    g4 (.div 4 2 3 0 0) (stG 0x8000000000000000 0xFFFFFFFFFFFFFFFF) = 0x8000000000000000 := by decide +kernel

/-- R148 to R150: counts of zero, a signed field, an inserted one, bytes reversed, (x + 1) squared is x squared + 1. -/
theorem test_bits : g4 (.clz 4 2 0) (stG 0 0) = 64 ∧ g4 (.ctz 4 2 0) (stG 8 0) = 3 ∧ g4 (.popc 4 2 0) (stG 0xF0F0 0) = 8 ∧
    g4 (.ext 4 2 3 0 0) (stG 0xF5 0x8304) = 0xFFFFFFFFFFFFFFFF ∧ g4 (.ext 4 2 3 0 0) (stG 0xF5 0x0304) = 0xF ∧
    (after (.ins 3 2 3 0 0) (stG 0xFF 0x0304)).cur.readG 3 = 0x03F4 ∧ g4 (.bswap 4 2 0) (stG 0x0102030405060708 0) = 0x0807060504030201 ∧
    g4 (.clmul 4 2 3 0 0) (stG 3 3) = 5 := by decide +kernel

/-- R109, R111: taken, not taken, a link, and a target off a word boundary. -/
theorem test_control : (after (.bNe 2 3 0x7FF) st0).cur.pc = 0xFC ∧ (after (.bEq 2 3 0x7FF) st0).cur.pc = 0x104 ∧ (after (.jal 4) st0).cur.readG 1 = 0x104 ∧
    (after (.jal 4) st0).cur.pc = 0x110 ∧ (after (.ret 2) (stG 0x200 0)).cur.pc = 0x200 ∧ (after (.ret 2) st0).cur.tcause = 0x03 ∧
    (after (.ret 2) st0).cur.tval = 7 := by decide +kernel

/-- R118, R119, R129: the record of a system call; the return; mret in user mode; g0 stays zero. -/
theorem test_traps : (after (.sysc 5) st0).cur.tepc = 0x104 ∧ (after (.sysc 5) st0).cur.tcause = 7 ∧ (after (.sysc 5) st0).cur.tval = 5 ∧
    (after (.sysc 5) st0).cur.pc = 0x170000 ∧ (after .mret (after (.sysc 5) st0)).cur.pc = 0x104 ∧ (after .mret (after (.sysc 5) st0)).cur.mon = false ∧
    (after .mret st0).cur.tcause = 2 ∧ (after (.add 0 2 3 0 0) st0).cur.readG 0 = 0 := by decide +kernel

/-- R127, R133: start gives the lowest free helper with g2; an emptied register, read with its wait bit, traps. -/
theorem test_contexts : g4 (.startCtx 4 2 3 0 0) (stG 8 5) = 1 ∧ ((after (.startCtx 4 2 3 0 0) (stG 8 5)).ctx 1 1).pc = 8 ∧
    ((after (.startCtx 4 2 3 0 0) (stG 8 5)).ctx 1 1).readG 2 = 5 ∧ (after (.endCtx) st0).cur.tcause = 0x0C ∧
    (after (.add 4 2 3 1 0) (stC (fun c => { c with gs := [(2, .empty)] }))).cur.tcause = 4 ∧
    (after (.add 4 2 3 0 0) (stC (fun c => { c with gs := [(2, .empty)] }))).slot.stalled = true := by decide +kernel

/-- R214, R219: bytes lowest first, sign extension, the old value of an atomic, a compare that fails. -/
theorem test_memory :
    let s := (stG (own 16) 0x1122334455667788).spmWrite 1 16 8 0x80
    g4 (.lb 4 2 0 0 0) s = 0xFFFFFFFFFFFFFF80 ∧ g4 (.lbu 4 2 0 0 0) s = 0x80 ∧ (after (.sw 3 2 0 1) s).spmRead 1 20 4 = 0x55667788 ∧
    (after (.sw 3 2 0 1) s).spmRead 1 20 1 = 0x88 ∧ g4 (.amoadd 4 2 3 0 0 1) s = 0x80 ∧ (after (.amoadd 4 2 3 0 0 1) s).spmRead 1 16 8 = 0x1122334455667808 ∧
    (after (.amocas 4 2 3 0 0 1) s).spmRead 1 16 8 = 0x80 ∧ (after (.ld 4 2 0 0 0) (stG (own 4) 0)).cur.tcause = 0x10 ∧
    (after (.ld 4 2 0 0 0) (stG (own 4) 0)).cur.tval = own 4 := by decide +kernel

/-- R130: FCSR keeps its fields; reserved bits are dropped; PRI. -/
theorem test_system : (after (.wrsys 2 0x001) (stG 0xFFFFFFFFFFFFFFFF 0)).cur.fcsr = 0x803F ∧ (after (.wrsys 2 0x003) (stG 3 0)).cur.pri = 3 ∧
    g4 (.rdsys 4 0x008) st0 = 0x10001 ∧ g4 (.rdsys 4 0x009) st0 = 0x203 ∧ (after (.rdsys 4 0x015) st0).cur.tcause = 2 := by decide +kernel

/-- Vectors (R159 to R166): lanes of bytes wrap; 1.0 + 2.0; the square root of 4.0; sixteen ones; a mask; lane 1. -/
theorem test_vector :
    let s := stC (fun c => { c with v := [(1, 0x408000003F8000FF), (2, 0x3F80000040000001)], masks := [(1, 2)] })
    let w := fun (i : Instr) (r : Nat) (q : State) => ((after i q).cur.readV r).toNat
    lane (w (.vaddI 3 1 2 0 0) 3 s) 8 0 = 0 ∧ lane (w (.vaddF 3 1 2 0 0) 3 s) 32 1 = 0x40A00000 ∧ lane (w (.vsqrt 3 1 0 0) 3 s) 32 1 = 0x40000000 ∧
    lane (w (.vaddI 3 1 2 1 2) 3 s) 32 0 = 0 ∧ (after (.vext 4 1 1 2) s).cur.readG 4 = 0x40800000 ∧
    (after (.vcmpLtF 2 2 1 0 0) s).cur.mask 2 = 2 ∧ lane (w (.vshr 3 1 2 0 2) 3 s) 32 1 = 0x40800000 := by decide +kernel

/-- Barriers (R347, R353): two arrivals and the second completes; the accumulator written reads back (R201); a pushed command (R189). -/
theorem test_units :
    let s := after (.barv 2 3 0 0) ((after (.binit 4 3 1 0) (stG 0x00011001 0x2000000000)).updCur (fun c => { c with g := [(2, 0x00011001)] }))
    (s.curTile.bar 1).arr = 1 ∧ ((after (.barv 2 3 0 0) s).curTile.bar 1).state = 2 ∧
    (after (.mrd 3 4 3) (after (.mwr 3 2 3) (stG 0x1122334455667788 511))).cur.readG 4 = 0x1122334455667788 ∧
    ((after (.mzero 1 3) (stG 0 0)).curTile.mx.fifo.length = 1) := by decide +kernel

/-- The march test's worked example (R482, R483): rows 20 and 37 of the register file, two rows of bank 3 and five of bank 9; without bank 9 the site is of full grade. -/
theorem test_march :
    let x : Site := { badRows := BitVec.ofNat 57 (2 ^ 20 + 2 ^ 37), badSpm := [(3, 17), (3, 900), (9, 1), (9, 2), (9, 3), (9, 4), (9, 5)] }
    let grade := fun (w : Word) => (st0.gradeMarch 1 w).site 1
    x.marchStatus false = 0x0002000C00400020 ∧ { x with badSpm := [(3, 17), (3, 900)] }.marchStatus false = 0x0000000400400020 ∧
    (grade 0x0002000C00400020).state = some .dead ∧ (grade 0x0000000400400020).reduced = false ∧ (grade 0x0000000400400020).state ≠ some .dead ∧
    (grade 0x0000000000000007).reduced = true ∧ (grade 0x0000000000000003).reduced = false := by decide +kernel

/-- A site that dies (R96), a chronometer set (R275), power removed (R454), a module seated (R456), a spare site fenced (R88). -/
theorem test_events :
    ((after .tileDeath { st0 with ev := { a := 1 } }).site 1).state = some .dead ∧ ((after .chronometerSet { st0 with ev := { a := 3, b := 77 } }).field 3).base = 77 ∧
    (after .powerRemoval st0).module.powered = false ∧ ((after .moduleSeated { st0 with ev := { a := 3, b := 7 } }).bay 3).group = 7 ∧
    (after .siteFence { State.reset with ev := { a := 40 } }).siteState 40 = .fenced := by decide +kernel

/-! ### Witnesses for events -/

/-- A state in which tile 1 has one retention entry, and the event names it. -/
def stR (e : Ret) (u : Nat) : State :=
  { (stT (fun x => x.updQ (fun q => { q with ret := [{ e with id := 3 }] }))) with
    tiles := [(1, tileA.updQ (fun q => { q with ret := [{ e with id := 3 }] })), (2, { tileA with col := 2 })], ev := { a := 1, b := 3, c := u } }

/-- A state whose edge ports 0 to 7 serve an answering memory. -/
def stE (s : State) : State := { s with groups := [(0, { role := 1, answering := true })], ports := (List.range 8).map (fun p => (p, { state := 3 })) }

/-- PowerEvents and SiteEvents: each clause's state. -/
theorem witness_sites :
    let site := fun (x : Site) => { State.reset with sites := [(5, x)], ev := { a := 5, flag := true } }
    (State.reset.ev.a ≤ State.reset.tick) ∧ State.reset.module.therm = 0 ∧ ({ State.reset with module := { therm := 1 } } : State).module.therm = 1 ∧
    (site {}).siteState 5 ≠ .dead ∧ (site {}).ev.flag = true ∧ st0.ev.flag = false ∧
    ((site { state := some .free }).siteState 5 = .free) ∧ (site { state := some .fenced }).siteState 5 = .fenced ∧ ((site {}).site 5).noGrade = false ∧
    (st0.region 1).state ≠ 0 ∧ bit (0x7FFFFFFFFFFFFFFF : Word) 63 = false ∧ (64 ≤ 127 ∧ 127 < 128) ∧ (st0.island 3).failed = false ∧
    (let s := { st0 with tiles := [(1, { tileA with leaving := some 0 })], ev := { a := 1 } }
     (s.tile 1).leaving = some 0 ∧ Nat.max (s.tile 1).scrubEnd ((s.tile 1).dmax + 2 * epsilon) ≤ { s with fields := [(fieldOfCluster (s.clusterOf 1), { state := 1, base := 10 ^ 6 })] }.nowAt 1) := by
  decide +kernel

/-- SiteEvents: a rehome word that names a spare site. -/
theorem witness_rehome :
    let w : Word := BitVec.ofNat 64 (2 ^ 63 + 5 * 2 ^ 10 + 1 * 2 ^ 24)
    let s := { st0 with regions := [(1, { reg1 with state := 3, stopped := true, holes := [1] })], sites := [(5, { state := some .spare })], ev := { a := 1, b := 7, w := w } }
    let x := s.region 1
    let v := s.ev.w &&& rehomeMask
    let u := 640 * fld v 18 6 + 32 * fld v 0 5 + fld v 10 5
    s.ev.b < 8 ∧ x.state = 3 ∧ x.stopped = true ∧ bit v 63 = true ∧ fld v 18 6 < 36 ∧ fld v 0 5 < 20 ∧ u = 5 ∧ s.siteState u = .spare ∧ fld v 24 8 < x.w ∧ fld v 32 8 < x.h ∧
    ({ x with rhm := fset 0 x.rhm s.ev.b 0 } : Region).rehomed (fld v 24 8) (fld v 32 8) = none ∧
    (s.setRegion s.ev.a { x with rhm := fset 0 x.rhm s.ev.b v, holes := x.holes.filter (· != fld v 32 8 * x.w + fld v 24 8) }).tooFar s.ev.a (fld v 24 8) (fld v 32 8) = false := by
  decide +kernel

/-- ClockEvents: unset, locked with the error at ε and beyond, in holdover for long enough. -/
theorem witness_clocks :
    let f := fun (k : Nat) (e : Int) (t : Nat) => { State.reset with fields := [(3, { state := k, goodSince := 5 })], tick := t, ev := { a := 3, i := e } }
    ((f 0 0 0).field 3).state = 0 ∧ ((f 1 (-epsilon) 0).ev.i.natAbs ≤ epsilon ∧ ((f 1 (-epsilon) 0).field 3).state ≠ 0) ∧
    (epsilon < (f 1 (epsilon + 1) 0).ev.i.natAbs ∧ ((f 1 (epsilon + 1) 0).field 3).state = 1) ∧
    (((f 2 0 1000005).field 3).state = 2 ∧ ((f 2 0 1000005).field 3).goodSince + 1000000 ≤ (f 2 0 1000005).tick) := by decide +kernel

/-- TranslationEvents: a lookup that the second level holds and one it does not, the head of the queue with a walker free, the four ways an entry is read, and a context in fault-wait. -/
theorem witness_translation :
    let s := { st0 with tiles := [(1, tileA.setCtx 0 { tileA.ctx 0 with xlate := .asked 0x1000 1 })], ev := { a := 1, b := 0 } }
    let e : Tlb := { region := 1, va := 0x1000, lg := 12, w := true, deadline := 1000 }
    let k := s.busOf 1
    s.wanted 1 0 = some (0x1000, 1) ∧ (s.tile 1).held = false ∧ (tlbFind (s.cluster k).l2 1 (s.nowAt 1) 0x1000 1 = none) ∧
    tlbFind ({ s with clusters := [(k, { l2 := [e] })] }.cluster k).l2 1 (s.nowAt 1) 0x1000 1 = some e ∧
    (let q := { s with clusters := [(k, { waiting := [(1, 0)] })] }
     (q.cluster k).waiting.head? = some (1, 0) ∧ (List.range 8).find? (fun n => !(fget ({} : Walker) (q.cluster k).walkers n).busy) = some 0) ∧
    (let w : Walker := { busy := true, phase := 1, region := 1, l1 := 0, t1 := 0x5000, tpa := 0x40 }
     let q := fun (v : Nat) => { (stE st0).memWrite (edgeKey 0x40) 8 v with clusters := [(0, { walkers := [(7, w)] })], ev := { a := 0, b := 7 } }
     let reads := fun (s : State) (w : Walker) (x : Entry) => match s.readEntry 0 w 1 0x5000 0x40 false (fun e => !teLeaf e) with | .got e _ w1 _ => entryOf 1 w1.l1 e == x | _ => false
     (fget ({} : Walker) ((q 0).cluster 0).walkers 7).phase = 1 ∧
     (match (stE st0).readEntry 0 w 1 0x5000 (2 ^ 45) false (fun e => !teLeaf e) with | .error => true | _ => false) = true ∧
     reads (q 0) w .invalid = true ∧ reads (q (1 + 2 ^ 14)) { w with l1 := 1 } (.table 4096) = true ∧ reads (q (3 + 2 ^ 14)) w .leaf = true) ∧
    (let q := { st0 with tiles := [(1, tileA.setCtx 2 { state := .faultWait, faultSeq := 9 })], ev := { a := 1, b := 9 } }
     (q.tile 1).held = false ∧ (q.tile 1).faultWaiter 9 = some 2) := by decide +kernel

/-- RequestEvents: requests in flight to another tile of each kind, with and without an error; answers; acknowledgements. -/
theorem witness_requests :
    let f : Ret := { state := .flying, dst := .tile 2 }
    (∀ b ∈ ([.load (farAt 8) 8, .store (farAt 8) 8 5, .row (farAt 64) 0xFF 5, .atomic (farAt 8) 8 0 5 0] : List Body),
      let s := stR { f with body := b } 2
      (match s.flying 1 3 with | some e => decide (e.body = b ∧ e.dst = .tile 2 ∧ e.sink = .none) && (s.tile 1).q.inTurn e | none => false) = true ∧ s.sealHit 1 (.tile 2) = none ∧
      s.uncorrectable 2 8 8 = false ∧ s.storeBlocked 2 8 8 = false ∧ s.rowBlocked 2 64 0xFF = false) ∧
    (let s := stR { f with body := .load (farAt 0) 64, sink := .vec 5 0 false 0 } 2
     (match s.flying 1 3 with | some e => decide (e.body = .load (farAt 0) 64 ∧ e.dst = .tile 2 ∧ e.sink = .vec 5 0 false 0) && (s.tile 1).q.inTurn e | none => false) = true ∧
     s.sealHit 1 (.tile 2) = none) ∧
    ({ stR { f with body := .load (farAt 8) 8 } 2 with ecc := [(State.spmKey st0 2 8 / 8, 66)] } : State).uncorrectable 2 8 8 = true ∧
    ((stR { f with state := .done } 2).answeredEntry 1 3).isSome = true ∧ ((stR { f with state := .done } 2).tile 1).held = false ∧ (stR f 2).sealHitBack 1 (.tile 2) = none ∧
    ((stR { f with state := .done, dst := .edge 0x40 } 2).answeredEntry 1 3).isSome = true ∧ (stR f 2).sealHitBack 1 (.edge 0x40) = none ∧
    (match (stR { f with state := .done, body := .store (farAt 8) 8 5 } 2).entry 1 3 with | some e => decide (e.state = .done ∧ e.code = 0 ∧ e.sink = .none) | none => false) = true := by
  decide +kernel

/-- RequestEvents: at an edge port that is up, inside and outside its deadline, with the field's clock in doubt, with the region's slot and with none; at the
module, under its key and another, in time and too late. -/
theorem witness_edge_requests :
    let f : Ret := { state := .flying, dst := .edge 0x40, body := .load 0x8000000000000040 8, deadline := 1000 }
    let s := stE (stR f 2)
    let p := stE (stR { f with state := .atPort } 2)
    let i := s.portField ((s.servingPort 0x40).getD 0)
    let g := (p.servingPort 0x40).getD 0
    (match s.flying 1 3 with | some e => decide (e.dst = .edge 0x40 ∧ s.arrivalPort e 0x40 = s.servingPort 0x40) && (s.tile 1).q.inTurn e | none => false) = true ∧
    s.sealHit 1 (.edge 0x40) = none ∧ (s.servingPort 0x40).isSome = true ∧ (s.field i).state ≠ 2 ∧ s.now i + 420 < f.deadline ∧
    ({ f with deadline := 420 }.deadline ≤ s.now i + 420) ∧ (({ s with fields := [(i, { state := 2 })] } : State).field i).state = 2 ∧
    (match p.entry 1 3 with
     | some e => decide (e.state = .atPort ∧ e.dst = .edge 0x40 ∧ e.mirrored = false ∧ p.arrivalPort e 0x40 = p.servingPort 0x40) && !p.portRefuses g e && p.copiesAnswer e 0x40
     | none => false) = true ∧ paWafer 0x40 = p.module.waferNo ∧
    (∀ k < 64, (({ slots := (List.range 64).map (fun k => (k, 7)) } : Port).mayUse 1 k) = false) ∧
    (p.portUp g && (p.port g).mayUse (p.tile 1).region (p.now (p.portField g) / 8 % 64)) = true ∧ (p.group (paGroup 0x40)).answering = true ∧
    (match (stR { f with state := .refused } 2).entry 1 3 with | some e => e.wantsXlate && e.kind != 3 | none => false) = true ∧
    p.now (p.portField g) < f.deadline ∧ ({ f with deadline := 0 }.deadline ≤ p.now (p.portField g)) ∧
    (p.tag (0x40 / 4096)).kid = 0 ∧ (p.tag (0x40 / 4096)).locked = false ∧ p.memBad (edgeKey 0x40) 8 = false ∧
    (({ p with tags := [(0, { kid := 5 })] } : State).tag (0x40 / 4096)).kid ≠ 0 := by decide +kernel

/-- MessageEvents: a message in flight to a tile with room and without, to an island; one turned away; a fired send; an event, a dispatch of each kind. -/
theorem witness_messages :
    let f : Ret := { state := .flying, dst := .tile 2, body := .msg 0 [5] }
    let s := stR f 2
    let full := s.updTile 2 (fun x => x.updQ (fun q => { q with used := 1024 }))
    (s.flying 1 3).isSome = true ∧ s.sealHit 1 (.tile 2) = none ∧ s.sealHitBack 1 (.tile 2) = none ∧
    (match s.flying 1 3 with
     | some e => decide ((s.tile 2).halted = false ∧ (s.tile 1).q.firstOf e = true ∧ (s.tile 2).q.used + e.flits ≤ 1024 ∧ (s.tile 2).held = false ∧ e.code = 0) &&
        !s.turnsAway 1 2 0 e && !s.turnsAway 1 2 e.flits e && full.turnsAway 1 2 e.flits e
     | none => false) = true ∧
    1024 < (full.tile 2).q.used + f.flits ∧ ((s.updTile 2 (fun x => { x with halted := true })).tile 2).halted = true ∧
    (let two := s.updTile 1 (fun x => x.updQ (fun q => { q with ret := [{ f with id := 2, state := .refused }, { f with id := 3 }] }))
     (match two.flying 1 3 with | some e => !(two.tile 1).q.firstOf e | none => false) = true) ∧
    ((s.updTile 2 (fun x => x.updQ (fun q => { q with portcfg := [(3, 0x80020000)] }))).tile 2).q.portFor 2 0 = some 3 ∧
    (let h := { stR { f with dst := .island 0 } 2 with rings := [(hostRing 1, { n := 16 })] }
     h.islandDown (h.homeOf 1) = false ∧ h.sealHit 1 (.island 0) = none ∧ (match h.flying 1 3 with | some e => (h.tile 1).q.firstOf e | none => false) = true ∧ h.vc6Turn 1 3 = true) ∧
    (st0.tile 1).region ≠ 0 ∧ (({ st0 with rings := [(hostRing 1, { n := 16, widx := 16 })] } : State).ring (hostRing 1)).full = true ∧
    (({ st0 with rings := [(hostRing 1, { n := 16 })] } : State).ring (hostRing 1)).full = false ∧ (State.reset.tile 9).region = 0 ∧
    (match (stR { f with state := .refused } 2).entry 1 3 with | some e => decide (e.state = .refused) && e.body.isQueued | none => false) = true ∧ (s.tile 1).stopping = false ∧
    (let q := (stR { f with state := .formed } 2).updTile 1 (fun x => x.updQ (fun q => { q with fired := [(3, 1)] }))
     (q.tile 1).q.fired.find? (q.tile 1).mayFire = some (3, 1)) ∧
    (let r := { st0 with rings := [(eventRing 1, { n := 16 })] }
     r.eventRoom { region := 1, src := some 1 } = true ∧ r.vc6Turn 1 0 = true) ∧
    (let d := fun (i : QItem) (w : Word) => st0.updTile 1 (fun x => x.updQ (fun q => { q with dispatchQ := [i], handlers := [(0, w)] }))
     ((d {} 0).tile 1).q.dispatchQ = [{}] ∧ ((d {} 0).tile 1).q.isSealed = false ∧ ((d {} 0).tile 1).stopping = false ∧ ((d {} 0).tile 1).halted = false ∧ ((d {} 0).tile 1).exited = false ∧
     ((d {} 0).tile 1).highFree = some 11 ∧ bit (fget 0 ((d {} 0).tile 1).q.handlers 0) 63 = false ∧
     bit (fget 0 ((d { kind := 1 } 0x8000000000000000).tile 1).q.handlers 0) 63 = true) := by decide +kernel

/-- LinkEvents: ports up, at half width, in training; groups and bays of each kind. -/
theorem witness_links :
    let p := fun (x : Port) => { State.reset with ports := [(9, x)], ev := { a := 9, flag := true } }
    ((p { state := 3 }).port 9).state = 3 ∧ ((p { state := 4, sp := true }).port 9).state = 4 ∧ (p { state := 2 }).portState 9 = 2 ∧ ((p { state := 2, trainFails := 1 }).port 9).trainFails < 2 ∧
    2 ≤ ((p { state := 2, trainFails := 2 }).port 9).trainFails ∧ (State.reset.group 71).role ≠ 2 ∧ State.reset.roleStatus 71 2 = 0 ∧ State.reset.roleStatus 71 1 = 4 ∧
    (let b := fun (x : Bay) (r : Nat) => { State.reset with bays := [(2, x)], groups := [(0, { role := r })], ev := { a := 2 } }
     ((b { present := true, group := 0 } 0).bay 2).present = true ∧ ((b { present := true, group := 0 } 0).group 0).role ≠ 1 ∧ ((b { present := true, group := 0 } 1).group 0).role = 1 ∧
     ((b { scrub := true } 0).bay 2).scrub = true ∧ ((b {} 0).bay 2).group = 255 ∧ ((b { group := 0 } 1).bay 2).group ≠ 255) := by decide +kernel

/-- TransferEvents: a queued command, a running one with units to send, units in flight, a local copy, a command whose last unit has settled. -/
theorem witness_transfer_events :
    let c : XCmd := { id := 3, gc := 64, gd := farAt 0, gs := own 0 }
    let s := fun (e : XCmd) => { st0 with tiles := [(1, { tileA with xfer := [e] }), (2, { tileA with col := 2 })], ev := { a := 1 } }
    let run := { c with state := 1 }
    ((s c).tile 1).xfer.find? (fun e => decide ((s c).xkind 1 e ≠ .localCopy) && e.state == 1 && e.code == 0 && decide (e.progress < e.len)) = none ∧
    ((s c).tile 1).xfer.find? (fun e => e.state == 0) = some c ∧ (s c).mayStart 1 c = true ∧ ((s c).tile 1).stopping = false ∧
    ((s run).tile 1).xfer.find? (fun e => decide ((s run).xkind 1 e ≠ .localCopy) && e.state == 1 && e.code == 0 && decide (e.progress < e.len)) = some run ∧
    (match (s run).sendUnit 1 run with | .go _ => true | _ => false) = true ∧
    (let q := stR { state := .flying, dst := .tile 2, body := .xread 0 64, sink := .xfer 3 0 64 } 2
     ((q.tile 1).q.ret.find? (fun e => decide (e.state = .flying) && !q.goesNowhere e.dst && (match e.body with | .xread _ _ => true | _ => false))).isSome = true ∧
     q.sealHit 1 (.tile 2) = none) ∧
    (let q := stR { state := .flying, dst := .tile 2, body := .seg 0 64 5, sink := .xfer 3 0 64 } 2
     ((q.tile 1).q.ret.find? (fun e => e.unitReady && !(decide (e.state = .flying) && q.goesNowhere e.dst))).isSome = true ∧ q.sealHit 1 (.tile 2) = none ∧
     ((q.updTile 1 (fun x => { x with xfer := [run] })).tile 1).xfer.find? (fun y => y.id == 3) = some run) ∧
    (let l := { run with gd := own 128 }
     ((s l).tile 1).q.ret = [] ∧ ((s l).tile 1).xfer.find? (fun e => decide ((s l).xkind 1 e = .localCopy) && e.state == 1 && e.code == 0 && decide (e.progress < e.len)) = some l) ∧
    (let d := { run with progress := 64 }
     ((s d).tile 1).xfer.find? (fun e => e.state == 1 && (e.code != 0 || decide (e.len ≤ e.progress)) && !((s d).tile 1).unitsOut e.id) = some d ∧
     d.code = 0 ∧ d.claimed = false ∧ d.drop = false ∧ d.quiet = false) := by decide +kernel

/-- StreamEvents: a digest that matches, one that differs, GO and ABORT at a receiver, a source at each stage of its messages, a line's reply, elements at a receiver. -/
theorem witness_stream_events :
    let e : StreamEnd := { state := 1, spb := BitVec.ofNat 512 (spbOf 7 0), digest := 9 }
    let r : StreamEnd := { state := 1, spb := BitVec.ofNat 512 (spbOf 7 1), digest := 9 }
    let d := fun (v : BitVec 32) (g : List Nat) =>
      let s := stR { state := .flying, dst := .tile 1, body := .digest 1 0 7 v } 2
      s.updTile 1 (fun x => x.setStream 3 { e with matched := g })
    (match (d 9 []).flying 1 3 with | some m => decide (m.body = .digest 1 0 7 9) && !(d 9 []).turnsAway 1 1 0 m && ((d 9 []).sealHit 1 m.dst).isNone | none => false) = true ∧
    ((d 9 []).tile 1).endOf 1 0 7 0 = some 3 ∧ (((d 9 []).tile 1).stream 3).state = 1 ∧ (((d 8 []).tile 1).stream 3).digest ≠ 8 ∧
    (((d 9 []).streamTiles 1 e e.scol).all (fun u => ([1] : List Nat).contains u) = false) ∧ ((d 9 [2]).streamTiles 1 e e.scol).all (fun u => ([2, 1] : List Nat).contains u) = true ∧
    (let q := { st0 with tiles := [(2, { tileA with col := 2 }.setStream 0 r)], ev := { a := 1, c := 2, w := BitVec.ofNat 64 (9 + 2 ^ 32 * 7 + 2 ^ 40) } }
     0 ≤ q.ev.i ∧ q.sealHit 1 (.tile 2) = none ∧ (q.tile 2).endOf (fld q.ev.w 40 8) (fld q.ev.w 48 8) (fld q.ev.w 32 8) 1 = some 0 ∧ ((q.tile 2).stream 0).state = 1 ∧ ((q.tile 2).stream 0).digest = q.ev.w.setWidth 32) ∧
    (let q := { st0 with tiles := [(2, { tileA with col := 2 }.setStream 0 r)], ev := { a := 1, c := 2, w := BitVec.ofNat 64 (0x26 + 2 ^ 8 * 7 + 2 ^ 16) } }
     0 ≤ q.ev.i ∧ q.sealHit 1 (.tile 2) = none ∧ (q.tile 2).endOf (fld q.ev.w 16 8) (fld q.ev.w 24 8) (fld q.ev.w 8 8) 0 = none ∧ (q.tile 2).endOf (fld q.ev.w 16 8) (fld q.ev.w 24 8) (fld q.ev.w 8 8) 1 = some 0 ∧ r.role ≠ 0) ∧
    (e.role = 0 ∧ e.elements = 1 ∧ ({ e with injected := 1 }.elements ≤ 1) ∧ ({ e with gathered := [5] } : StreamEnd).batch = 1 ∧ ({ e with gathered := [] } : StreamEnd).batch ≠ 0 ∧
      (st0.tile 1).stopping = false ∧ (st0.tile 1).messagesOut 7 < 4 ∧ (st0.tile 1).retFree ≠ 0 ∧ (st0.tile 1).released 0 0 = true ∧
      (xlGood (some { va := 0x1000, lg := 12, r := true, deadline := 2048 }) 0 0 (fld (e.elemAddr 0) 0 56 / 64 * 64) 0).isSome = true) ∧
    (let q := stR { state := .done, body := .load 0x8000000000001000 64, sink := .strm 3 0x8000000000001000 } 2
     let q := q.updTile 1 (fun x => x.setStream 3 { e with state := 2, asked := some 3 })
     ((q.tile 1).q.ret.find? (fun e => decide (e.state = .done) && (match e.sink with | .strm k _ => k == 3 | _ => false))).isSome = true ∧ (((q.freeEntry 1 3).tile 1).stream 3).asked = some 3) ∧
    (let q := (stR { state := .flying, body := .elems 7 [5] [2] [2] } 2).updTile 2 (fun x => (x.setStream 0 { r with state := 2 }).updQ (fun q => { q with portcfg := [(0, 0x70080040000)] }))
     (match q.entry 1 3 with | some m => decide (m.body = .elems 7 [5] [2] [2]) | none => false) = true ∧ (q.tile 2).lost = false ∧
     (q.tile 2).halted = false ∧ (q.region (q.tile 2).region).stopped = false ∧ q.sealHit 1 (.tile 2) = none ∧
     (q.tile 2).endOf (q.tile 1).col (q.tile 1).row 7 1 = some 0 ∧ ((q.tile 2).stream 0).state = 2 ∧ (q.tile 2).q.streamPort 7 = some 0) := by decide +kernel

/-- TrainEvents: a request, a train that forms, words for a follower, a passer-by, markers, lines, VC7 elements, a frame that fills and one whose fetch faults. -/
theorem witness_train_events :
    let lead : Train := { state := 1, id := 5, c0 := 1, n := 2 }
    let foll : Train := { state := 1, id := 5, c0 := 1, n := 2, d := 1, joined := true }
    let s := { st0 with tiles := [(1, { tileA.setCtx 0 { tileA.ctx 0 with formed := true } with train := lead }), (2, { tileA with col := 2, train := foll })], ev := { a := 1, b := 1 } }
    s.memberSite 1 1 = some 2 ∧ (s.tile 2).train.request = none ∧ s.followers 1 = [2] ∧ ((s.tile 1).ctx 0).formed = true ∧ (s.followers 1).length + 1 = (s.tile 1).train.n ∧
    (∀ u ∈ s.followers 1, (s.tile u).train.state = 1 ∧ (s.tile u).train.joined = true ∧ (s.tile u).train.c0 = 1 ∧ (s.tile u).train.id = 5) ∧
    (let w := (encode (.addi 4 2 0 3)).getD 0
     let q := fun (k : Nat) => { st0 with tiles := [(1, { tileA with train := { foll with state := k, lane := [(0x100, w, 0)] } })], ev := { a := 1 } }
     isTmark w = false ∧ ((q 4).tile 1).train.state ≠ 3 ∧ (q 3).westAhead 1 = true ∧ (q 3).eastNear 1 1 1 = true ∧ bringsFrame w = false ∧
     ((q 3).tile 1).train.wire = [] ∧ ((q 3).tile 1).fenceDone 0 = true ∧
     (let z := (q 3).updTile 1 (fun x => { x with train := { x.train with wire := [(5, none), (6, some 8)], step := 8 } })
      (∀ e ∈ (z.tile 1).train.wire, e.2 = none ∨ e.2 = some 8) ∧ (z.tile 1).train.step ≤ 8) ∧
     (match ({ q 3 with slot := { site := 1, ctx := 0, addr := ((q 3).tile 1).own 0x100, word := w, train := true } } : State).followWord with | .next t => !t.slot.stalled | _ => false) = true) ∧
    isTmark ((encode (.tmark 63)).getD 0) = true ∧ fld ((encode (.tmark 63)).getD 0) 8 6 = 63 ∧
    (let q := fun (k : Nat) => st0.updTile 1 (fun x => { x with train := { x.train with lineDue := k } })
     ((q 1).tile 1).train.raised = false ∧ ((q 1).tile 1).train.lineDue ≠ 0 ∧ (((q 1).tile 1).ctx 0).owed = 0 ∧ ((q 1).tile 1).quiet 0 = true ∧ ((q 2).tile 1).mx.isEmpty = true) ∧
    (let q := st0.updTile 1 (fun x => { x with train := { x.train with wire := [(5, some 7)], state := 3, step := 8 } })
     (q.tile 1).train.wire = [(5, some 7)] ∧ 7 < (q.tile 1).train.step ∧ (List.range 4).find? (fun p => let w := (q.tile 1).q.cfg p; cfgV w && cfgVc w == 7) = none ∧
     (List.range 4).find? (fun p => let w := ((q.updTile 1 (fun x => x.updQ (fun y => { y with portcfg := [(2, 0x80070000)] }))).tile 1).q.cfg p; cfgV w && cfgVc w == 7) = some 2) ∧
    (let f := fun (b : Word) => { st0 with tiles := [(1, tileA.setCtx 0 { tileA.ctx 0 with frame := { state := .fill, base := b, len := 1, count := 1, word := 1 } })], ev := { a := 1, b := 0 } }
     let q := (f (own 0x104)).memWrite (st0.spmKey 1 0x104) 4 ((encode (.addi 4 2 0 3)).getD 0).toNat
     (match q.fillBody 1 0 (q.ctx 1 0).frame [] 1 with | .pass ws _ => ws.length == 1 | _ => false) = true ∧
     (match (f (own 0x102)).fillBody 1 0 ((f (own 0x102)).ctx 1 0).frame [] 1 with | .fault _ _ _ => true | _ => false) = true) := by decide +kernel

/-- UnitEvents: an arrival, contributions and a result on their way; a matrix command that may start, one that has work and one that has none. -/
theorem witness_unit_events :
    let f : Ret := { state := .flying, dst := .tile 2 }
    ((stR { f with body := .barv 0x1001 5 } 2).flying 1 3).isSome = true ∧ (stR { f with body := .barv 0x1001 5 } 2).sealHit 1 (.tile 2) = none ∧
    (let q := stR { f with state := .formed, dst := .tile 1, body := .barv 0x1001 5 } 2
     (match q.entry 1 3 with | some e => decide (e.state = .formed ∧ e.body = .barv 0x1001 5 ∧ e.dst = .tile 1) && (q.tile 1).released e.ctx e.mark | none => false) = true ∧
     (q.tile 1).stopping = false) ∧
    ((stR { f with body := .coll true 0 5 0 false 3 } 2).flying 1 3).isSome = true ∧ (stR { f with body := .coll true 0 5 0 false 3 } 2).sealHit 1 (.tile 2) = none ∧
    (let q := (stR { f with body := .coll false 0 5 0 false 3 } 2).updTile 2 (fun x => { x with coll := { active := true, level := 16 } })
     (match q.flying 1 3 with | some e => !q.turnsAway 1 2 0 e && (q.sealHit 1 e.dst).isNone | none => false) = true ∧ (q.tile 2).coll.active = true ∧ (q.tile 2).coll.level = 16) ∧
    (let c : MCmd := { word := (encode (.mmacs 1 3 0 0)).getD 0, gb := 1, serial := 4 }
     let m := fun (e : MCmd) => st0.updTile 1 (fun x => x.updMx (fun m => { m with fifo := [e], state := 1 }))
     ((m c).tile 1).mx.fifo.find? (fun e => e.state == 0) = some c ∧ ((m c).tile 1).mayStart c = true ∧
     ((m { c with state := 1 }).tile 1).mx.fifo.find? (fun e => e.serial == 4 && e.state == 1) = some { c with state := 1 } ∧ ((m c).tile 1).mx.state ≠ 3 ∧
     c.progress < c.total ∧ ({ c with progress := 1 } : MCmd).total ≤ 1 ∧
     (let z : MCmd := { word := (encode (.mldb 2 3)).getD 0, ga := own 0, gb := 0x400, serial := 4, state := 1 }
      (z.progress < z.total ∧ (match (m z).work 1 z with | .done _ _ => true | _ => false) = true ∧ (match (badWords (m z)).work 1 z with | .fail _ _ => true | _ => false) = true))) := by
  decide +kernel

/-- Page tables that map the first 4 GiB to themselves, and at 0x10000 an image of one tile whose text is one byte: address and byte. -/
def imageBytes : List Host.Cell :=
  [(0x1000, 0x01), (0x1001, 0x80), (0x2000, 0x01), (0x2001, 0xC0), (0x3000, 0x1F), (0x3001, 0x0E), (0x4000, 0x01), (0x4001, 0x40),
    (0x4002, 0x01), (0x5000, 0x01), (0x5001, 0x80), (0x5002, 0x01), (0x6000, 0x1F), (0x6001, 0x0E), (0x10000, 0x46), (0x10001, 0x49),
    (0x10002, 0x4E), (0x10003, 0x4B), (0x10004, 0x01), (0x1000A, 0x01), (0x10010, 0x40), (0x10018, 0x81), (0x10048, 0x80), (0x10050,
    0x01)]

/-- A region with these tables, and a kernel of that image whose tile is claimed; its deadline is tick 5, which has come or not. -/
def stImage (late : Bool) : State :=
  { stE st0 with
    mem := imageBytes.map (fun c => (0x1000000000000000 + c.1, c.2))
    regions := [(1, { reg1 with s1root := 0x4000, s2root := 0x1000, kernels := [(9, { state := 2, desc := 0x10000, deadline := 5, group := 9, w := 1, h := 1, x0 := 1 })] })]
    fields := if late then (List.range 40).map (fun i => (i, { state := 1, base := 5 })) else [] }

/-- KernelEvents: a launch, a placement of a saved kernel, a loaded image, a start that is due, and the events of gangs. -/
theorem witness_kernel_events :
    let k := fun (x : Kernel) => { st0 with regions := [(1, { reg1 with kernels := [(9, x)], queue := [9] })], ev := { a := 1, b := 9 } }
    let gang : BitVec 512 := BitVec.ofNat 512 (8 * 2 ^ (8 * 0x21) + 2 * 2 ^ (8 * 0x28))
    (st0.region 1).state = 2 ∧
    (let q := stR { state := .flying, dst := .island 0, body := .kq 5 } 2
     (q.flying 1 3).isSome = true ∧ q.sealHit 1 (.island 0) = none ∧ q.islandDown (q.homeOf 1) = false ∧ q.vc6Turn 1 3 = true ∧ (q.region (q.tile 1).region).stopped = false) ∧
    (st0.parent_ 1 = false) ∧
    (((k { state := 6, group := 9 }).region 1).queue = [9] ∧ bit ((k {}).region 1).causes 5 = false ∧ (((k { state := 6 }).region 1).kernel 9).closed = true ∧
      ((k { state := 6, group := 9 }).placeAll 1 [9]).isSome = true) ∧
    (let bad := k { state := 2, group := 9, w := 1, h := 1, x0 := 1 }
     (((bad.region 1).members 9).filter (fun n => ((bad.region 1).kernel n).state == 2) = [9] ∧ (bad.loadKernel 1 9).2 = false ∧
      (((bad.retireKernel 1 9 6 5).region 1).members 9).filter (fun n => (((bad.retireKernel 1 9 6 5).region 1).kernel n).state == 2) = [])) ∧
    (let due := { k { state := 3, tgo := 0, w := 1, h := 1, x0 := 1 } with fields := [(fieldOf 1, { state := 1 })] }
     ((due.region 1).kernel 9).state = 3 ∧ (due.kernelSites 1 ((due.region 1).kernel 9)).filter (fun p => due.reached p.2 0) ≠ [] ∧ (due.tile 1).halted = false) ∧
    (let end_ := k { state := 4, w := 1, h := 1, x0 := 1 }
     ((end_.region 1).kernel 9).state = 4 ∧ ((end_.region 1).kernel 9).ending = none ∧ end_.ev.c ≠ 1 ∧
     ((end_.kernelSites 1 ((end_.region 1).kernel 9)).foldl (fun z p => z.stopTile 1 9 p.2) end_).kernelSettled 1 9 = true) ∧
    (((k { state := 6 }).region 1).kernel 9).state = 6 ∧ ((k { state := 6 }).region 1 |>.kernel 9).ending = none ∧
    (({ state := 3, desc := gang } : Kernel).gang = true) ∧ (({ state := 3, desc := gang } : Kernel).acked = false) ∧ (k {}).now 0 < 5 ∧
    (({ state := 1, deadline := 0 } : Kernel).deadline ≤ (k {}).now 0) ∧
    (let w := (encode (.bwait 4 1)).getD 0
     let q := { k { state := 4, desc := gang } with tiles := [(1, { tileA.setCtx 0 { tileA.ctx 0 with pc := own 0x100, waitAt := some 0 } with kernel := 9 })] }
     let q := q.memWrite (q.spmKey 1 0x100) 4 w.toNat
     let x := q.tile 1
     x.region ≠ 0 ∧ x.kernel ≠ 0 ∧ ((q.region 1).kernel 9).gang = true ∧ (x.ctx 0).state = .live ∧ (x.ctx 0).waitAt = some 0 ∧
     (match q.fetch 1 0 (x.ctx 0).pc with | .word w _ => bwaitOf w == some 1 | _ => false) = true ∧ ((q.region 1).kernel 9).gbar.testBit 1 = true ∧ (x.bar 1).state ≠ 2 ∧
     0 + ((q.region 1).kernel 9).gto ≤ q.nowAt 1) := by decide +kernel

theorem walk2_table {s : State} {tbl ipa l e a : Nat} (hi : tableIndex ipa l = 0) (hc : (!s.islandServed tbl || s.memBad (edgeKey tbl) 8) = false)
    (hr : s.memRead (edgeKey tbl) 8 = e) (he : entryOf 2 l e = .table a) : s.walk2 tbl ipa (l + 1) = s.walk2 a ipa l := by
  rw [State.walk2]; simp only [hi, Nat.mul_zero, Nat.add_zero]; rw [hc, hr, he]; rfl

theorem walk2_leaf {s : State} {tbl ipa l e : Nat} (hi : tableIndex ipa l = 0) (hc : (!s.islandServed tbl || s.memBad (edgeKey tbl) 8) = false)
    (hr : s.memRead (edgeKey tbl) 8 = e) (he : entryOf 2 l e = .leaf) : s.walk2 tbl ipa (l + 1) = some e := by
  rw [State.walk2]; simp only [hi, Nat.mul_zero, Nat.add_zero]; rw [hc, hr, he]; rfl

theorem stImage_walk2 {l : Bool} (ipa : Nat) (h : ipa < 2 ^ 30) : (stImage l).walk2 0x1000 ipa 5 = some 0xE1F := by
  rw [walk2_table (e := 0x8001) (a := 0x2000) (by unfold tableIndex; omega) (by cases l <;> decide +kernel) (by cases l <;> decide +kernel) (by cases l <;> decide +kernel),
    walk2_table (e := 0xC001) (a := 0x3000) (by unfold tableIndex; omega) (by cases l <;> decide +kernel) (by cases l <;> decide +kernel) (by cases l <;> decide +kernel),
    walk2_leaf (e := 0xE1F) (by unfold tableIndex; omega) (by cases l <;> decide +kernel) (by cases l <;> decide +kernel) (by cases l <;> decide +kernel)]

theorem walk1_step {s : State} {r tbl va l e : Nat} (hi : tableIndex va l = 0) (h2 : s.walk2 r tbl 5 = some 0xE1F) (ht : tbl < 2 ^ 30)
    (hc : (!s.islandServed tbl || s.memBad (edgeKey tbl) 8) = false) (hr : s.memRead (edgeKey tbl) 8 = e) :
    s.walk1 r tbl va (l + 1) = match entryOf 1 l e with
      | .table a => s.walk1 r a va l
      | .leaf => some e
      | _ => none := by
  have hl : leafAddr 0xE1F tbl = tbl := by
    have : teFrame 0xE1F = 0 ∧ pageLg (teSz 0xE1F) = 32 := by decide
    unfold leafAddr; rw [this.1, this.2]; omega
  have hp : teR 0xE1F = true ∧ teM 0xE1F = false := by decide
  have hk : s.islandCopy [tbl] 8 = some tbl := by
    have hb := (Bool.or_eq_false_iff.mp hc).2
    have hs : s.islandServed tbl = true := by
      have h := (Bool.or_eq_false_iff.mp hc).1
      rwa [Bool.not_eq_false'] at h
    simp only [State.islandCopy, List.find?_cons, hs, hb, Bool.not_false, Bool.and_self]
  rw [State.walk1]; simp only [hi, Nat.mul_zero, Nat.add_zero, h2, hl, hp.1, hp.2, if_true, copiesAt, Bool.false_eq_true, if_false, hk, hr]
  all_goals rfl

theorem stImage_walk1 {l : Bool} (va : Nat) (h : va < 2 ^ 30) : (stImage l).walk1 0x1000 0x4000 va 5 = some 0xE1F := by
  rw [walk1_step (e := 0x14001) (by unfold tableIndex; omega) (stImage_walk2 _ (by decide)) (by decide) (by cases l <;> decide +kernel) (by cases l <;> decide +kernel),
    show entryOf 1 4 0x14001 = .table 0x5000 by cases l <;> decide +kernel]
  dsimp only
  rw [walk1_step (e := 0x18001) (by unfold tableIndex; omega) (stImage_walk2 _ (by decide)) (by decide) (by cases l <;> decide +kernel) (by cases l <;> decide +kernel),
    show entryOf 1 3 0x18001 = .table 0x6000 by cases l <;> decide +kernel]
  dsimp only
  rw [walk1_step (e := 0xE1F) (by unfold tableIndex; omega) (stImage_walk2 _ (by decide)) (by decide) (by cases l <;> decide +kernel) (by cases l <;> decide +kernel),
    show entryOf 1 2 0xE1F = .leaf by cases l <;> decide +kernel]

/-- The one program of that image. -/
def imageProg : Prog := ⟨0, 0, 0, 0, 0, 128, 1, 0, 0, 0, 0, 0, 0⟩

theorem stImage_port {l : Bool} (va : Nat) (h : va < 2 ^ 30) : (stImage l).islandServed va = true := by
  have hp : ∀ p < 8, (stImage l).portState p ≠ 5 := by cases l <;> decide +kernel
  have h1 : paWafer va = 0 := by unfold paWafer; omega
  have h2 : paGroup va = 0 := by unfold paGroup; omega
  have h3 : paPort va < 8 := by unfold paPort; rw [h2]; omega
  have h4 : paNamesPort va = true := by unfold paNamesPort; rw [decide_eq_true_eq]; omega
  have h5 : (stImage l).module.waferNo = 0 ∧ ((stImage l).group 0).role = 1 := by cases l <;> decide +kernel
  have h6 : ∀ p < 8, ((stImage l).field ((stImage l).portField p)).state ≠ 2 := by cases l <;> decide +kernel
  unfold State.islandServed State.servingPort
  rw [h1, h2, h4, h5.1, h5.2, if_pos rfl, if_neg (by simp only [Bool.not_true, Bool.false_eq_true, false_or]; omega)]
  simp only [hp _ h3, h6 _ h3, ne_eq, not_false_eq_true, not_true_eq_false, if_true, if_false, decide_true]

/-- The region's tables map an address below 2^30 to itself. -/
theorem stImage_xlate {l : Bool} (va : Nat) (h : va < 2 ^ 30) : (stImage l).islandXlate 1 va 0 = some ([va], false) := by
  have hl : leafAddr 0xE1F va = va := by
    have : teFrame 0xE1F = 0 ∧ pageLg (teSz 0xE1F) = 32 := by decide
    unfold leafAddr; rw [this.1, this.2]; omega
  have hr : ((stImage l).region 1).s2root = 0x1000 ∧ ((stImage l).region 1).s1root = 0x4000 := by cases l <;> decide +kernel
  have ha : teAllows 0xE1F 0 = true ∧ teKid 0xE1F = 0 ∧ teM 0xE1F = false := by decide
  have ht : ∀ f, ((stImage l).tag f).denies 0 = false := fun _ => rfl
  unfold State.islandXlate
  simp only [hr.1, hr.2, stImage_walk1 va h, hl, stImage_walk2 va h, ha.1, ha.2.1, ha.2.2, copiesAt, Bool.false_eq_true, if_false, List.filter_cons, stImage_port va h,
    if_true, List.filter_nil, List.all_cons, List.all_nil, ht]
  rfl

theorem stImage_readVa {l : Bool} (n : Nat) : ∀ va, va + n < 2 ^ 30 → (stImage l).readVa 1 va n = some ((stImage l).memRead (edgeKey va) n) := by
  have hb : ∀ k m, (stImage l).memBad k m = false := by
    intro k m; unfold State.memBad; rw [List.any_eq_false]; intro x _; show ¬((0 == 66) = true); decide
  induction n with
  | zero => intro va _; rfl
  | succ n ih =>
    intro va h
    have hc : (stImage l).islandCopy [va] 1 = some va := by
      simp only [State.islandCopy, List.find?_cons, stImage_port va (by omega), hb, Bool.not_false, Bool.and_self]
    rw [State.readVa, stImage_xlate va (by omega), ih (va + 1) (by omega)]
    dsimp only
    rw [hc]
    simp only [Option.some.injEq]
    show _ + 256 * _ = _
    simp only [State.memRead, Memory.readLE, Nat.mul_zero, Nat.add_zero]
    rfl

theorem readImage_ok {s : State} {r img v : Nat} {ps : List (Prog × FMap Word)} (h : s.readVa r img 64 = some v)
    (hc : ¬(natBytes v 0 4 ≠ 0x4B4E4946 ∨ natBytes v 4 2 ≠ 1 ∨ natBytes v 7 1 ≠ 0 ∨ natBytes v 0xC 4 ≠ 0 ∨ natBytes v 0x20 32 ≠ 0 ∨ 55 < natBytes v 6 1 ∨
      natBytes v 0xA 2 = 0 ∨ natBytes v 0x10 8 % 64 ≠ 0)) (hl : ¬natBytes v 0x18 8 < natBytes v 0x10 8 + 64 * natBytes v 0xA 2)
    (hp : s.readProgs r img (natBytes v 0x10 8) (natBytes v 0x18 8) (natBytes v 0xA 2) = .ok ps)
    (ha : (List.range (natBytes v 9 1 + 1)).all (fun y => (List.range (natBytes v 8 1 + 1)).all (fun x => (ps.filter (fun p => p.1.covers x y)).length == 1)) = true) :
    s.readImage r img = .ok { w := natBytes v 8 1 + 1, h := natBytes v 9 1 + 1, hwm := natBytes v 6 1, len := natBytes v 0x18 8, progs := ps } := by
  unfold State.readImage; rw [h]; dsimp only; rw [if_neg hc, if_neg hl, hp]; dsimp only; rw [if_pos ha]

theorem stImage_image {l : Bool} : (stImage l).readImage 1 0x10000 = .ok { w := 1, h := 1, hwm := 0, len := 129, progs := [(imageProg, [])] } := by
  have h1 : (stImage l).readVa 1 0x10000 64 = some (0x4B4E4946 + 2 ^ 32 + 2 ^ 80 + 64 * 2 ^ 128 + 129 * 2 ^ 192) := by
    rw [stImage_readVa _ _ (by decide)]; cases l <;> decide +kernel
  have h2 : (stImage l).readVa 1 (0x10000 + 64 + 64 * 0) 64 = some (128 * 2 ^ 64 + 1 * 2 ^ 128) := by
    rw [stImage_readVa _ _ (by decide)]; cases l <;> decide +kernel
  have h3 : (stImage l).readProgs 1 0x10000 64 129 1 = .ok [(imageProg, [])] := by
    have hp : Prog.of (128 * 2 ^ 64 + 1 * 2 ^ 128) = imageProg ∧ imageProg.ok 129 = true ∧ imageProg.zero = 0 := by cases l <;> decide +kernel
    rw [State.readProgs, State.readProgs, h2]
    dsimp only
    rw [hp.1, hp.2.1, if_neg (fun h => h hp.2.2)]
    rfl
  exact readImage_ok h1 (by cases l <;> decide +kernel) (by cases l <;> decide +kernel) h3 (by cases l <;> decide +kernel)

theorem copyIn_zero (s : State) (r va t off : Nat) : s.copyIn r va t off 0 = (s, true) := rfl

theorem copyIn_succ (s : State) (r va t off n : Nat) : s.copyIn r va t off (n + 1) = match s.readVa r va 1 with
    | none => (s, false)
    | some v => ((s.spmWrite t off 1 v).storeEcc t off 1).copyIn r (va + 1) t (off + 1) n := rfl

theorem loadTile_one {s : State} {r img t v : Nat} (hv : s.readVa r (img + 128) 1 = some v) :
    s.loadTile r img { w := 1, h := 1, hwm := 0, len := 129, progs := [(imageProg, [])] } 0 t = ((s.spmWrite t 0 1 v).storeEcc t 0 1, true) := by
  have hf : [(imageProg, ([] : FMap Word))].find? (fun p => p.1.covers (0 % 1) (0 / 1)) = some (imageProg, []) := rfl
  unfold State.loadTile
  dsimp only
  rw [hf]
  have h1 : s.copyIn r (img + 128) t 0 1 = ((s.spmWrite t 0 1 v).storeEcc t 0 1, true) := by rw [copyIn_succ, hv]; exact copyIn_zero _ _ _ _ _
  show (if !(s.copyIn r (img + 128) t 0 1).2 then s.copyIn r (img + 128) t 0 1 else State.copyIn (s.copyIn r (img + 128) t 0 1).1 r (img + 0) t 0 0 : State × Bool) = _
  rw [h1, copyIn_zero, if_neg (show ¬(!true) = true by decide)]

theorem loadKernel_one {s : State} {r n v : Nat} (hi : ((s.region r).kernel n).image = 0x10000) (hr : ((s.region r).kernel n).rrec = 0)
    (hm : s.mapped r 0x10000 129 = true) (hs : s.kernelSites r ((s.region r).kernel n) = [(0, 1)]) (hv : s.readVa r (0x10000 + 128) 1 = some v)
    (h : s.readImage r 0x10000 = .ok { w := 1, h := 1, hwm := 0, len := 129, progs := [(imageProg, [])] }) :
    s.loadKernel r n = ((s.spmWrite 1 0 1 v).storeEcc 1 0 1, true) := by
  unfold State.loadKernel
  dsimp only
  rw [hi, h, hs]
  dsimp only
  rw [hm, if_neg (show ¬(!true) = true by decide), if_neg (fun h => h.1 hr)]
  exact loadTile_one hv

theorem stImage_mapped {l : Bool} : (stImage l).mapped 1 0x10000 129 = true := by
  have h : (stImage l).islandXlate 1 (0x10000 / 4096 * 4096 + 4096 * 0) 0 = some ([0x10000], false) := stImage_xlate 0x10000 (by decide)
  unfold State.mapped
  show (decide _ && [0].all _) = true
  simp only [List.all_cons, h, List.all_nil]
  rfl

/-- KernelEvents: an image read through the region's tables and loaded, before its deadline and after it. -/
theorem witness_loading (l : Bool) : let s := stImage l; let t := (s.loadKernel 1 9).1; let k := (t.region 1).kernel 9
    ((s.region 1).members 9).filter (fun n => ((s.region 1).kernel n).state == 2) = [9] ∧ (s.loadKernel 1 9).2 = true ∧
    ((t.region 1).members 9).filter (fun n => ((t.region 1).kernel n).state == 2) = [9] ∧ k.timed = false ∧ k.deadline ≠ 0 ∧
    (if l then k.deadline ≤ t.now (t.region 1).home else t.now (t.region 1).home < k.deadline) ∧
    (((t.retireKernel 1 9 3 0).region 1).members 9).filter (fun n => (((t.retireKernel 1 9 3 0).region 1).kernel n).state == 2) = [] := by
  have hv : (stImage l).readVa 1 (0x10000 + 128) 1 = some (0 + 256 * 0) := by
    rw [stImage_readVa _ _ (by decide)]; cases l <;> decide +kernel
  have h : (stImage l).loadKernel 1 9 = (((stImage l).spmWrite 1 0 1 (0 + 256 * 0)).storeEcc 1 0 1, true) :=
    loadKernel_one (by cases l <;> decide +kernel) (by cases l <;> decide +kernel) stImage_mapped (by cases l <;> decide +kernel) hv stImage_image
  dsimp only
  rw [h]
  cases l <;> exact ⟨by decide +kernel, rfl, by decide +kernel, by decide +kernel, by decide +kernel, by decide +kernel, by decide +kernel⟩

/-- HackEvents: a region that stops, one that resumes, one with a tile to evacuate, one to inspect; an image with its sections and none. -/
theorem witness_hacks :
    let h := fun (x : Region) (t : Tile) => { st0 with regions := [(1, x)], tiles := [(1, t)], ev := { a := 1, b := 1 } }
    let stop := h { reg1 with state := 3, stopTick := some 0 } tileA.hold
    let go := h { reg1 with state := 3, stopped := true, resumeTick := some 0 } tileA
    (stop.region 1).stopTick = some 0 ∧ (stop.region 1).stopped = false ∧ (∀ u ∈ stop.ownTiles 1, 0 ≤ stop.nowAt u) ∧ (stop.region 1).lostDue = [] ∧
    (let t := (stop.ownTiles 1).foldl State.hackTile stop
     (∀ u ∈ stop.ownTiles 1, (t.tile u).held = true) ∧ t.linksEmpty (stop.ownTiles 1) = true) ∧ (go.region 1).saved = [] ∧
    (go.tile 1).held = false ∧ (go.tile 1).following = false ∧ ((go.tile 1).ctx 0).state ≠ .halted ∧
    (go.region 1).resumeTick = some 0 ∧ (go.region 1).causes = 0 ∧ (go.region 1).stopped = true ∧ (go.region 1).kernels = [] ∧ (∀ u ∈ go.ownTiles 1, 0 ≤ go.nowAt u) ∧
    (go.tile 1).region = 1 ∧ (let q := h { reg1 with state := 3, stopped := true, kernels := [(9, { state := 5 })] } { tileA with kernel := 9 }
      ((q.region 1).kernel (q.tile 1).kernel).state = 5) ∧
    st0.restoreCheck 1 0 ≠ 0 ∧ ({ reg1 with conf := true } : Region).conf = true ∧ bit ({ reg1 with causes := 0x80 } : Region).causes 7 = true := by decide +kernel

/-- HackEvents: an image without the slice, its sections behind the header. -/
theorem witness_image :
    let put := fun (s : State) (i off len : Nat) => (s.memWrite (sysKey (0x20 + 16 * i)) 8 off).memWrite (sysKey (0x28 + 16 * i)) 8 len
    let s := ((sectionSizes false).take 10).foldl (fun (p : State × Nat × Nat) n => (put p.1 p.2.1 p.2.2 n, p.2.1 + 1, p.2.2 + n)) (st0.memWrite (sysKey 0) 2 1, 0, 256)
    s.1.restoreCheck 1 0 = 0 := by decide +kernel

/-- RegionEvents: a region in creation, one under reset whose tiles are released, one stopped for a border move, a period that has passed and a ring length. -/
theorem witness_region_events :
    let q := fun (x : Region) => { st0 with regions := [(1, x)], ev := { a := 1, b := 65536 }, tick := 10000000 }
    ((q { reg1 with state := 1 }).region 1).state = 1 ∧
    ((q { reg1 with state := 4 }).region 1).state = 4 ∧ (q { reg1 with state := 4 }).tiles.all (fun e => !(e.2.region == 1 && e.2.leaving.isSome)) = true ∧
    ((q { reg1 with strip := [3], stopped := true }).region 1).strip ≠ [] ∧ ((q { reg1 with strip := [3], stopped := true }).region 1).stripFrom = 0 ∧
    ((q { reg1 with strip := [3], stopped := true }).region 1).stopped = true ∧ (q reg1).period < (q reg1).tick / 10000000 ∧ ringLenOk (q reg1).ev.b = true := by decide +kernel

/-- SourceValues, RegisterWrite and MatrixPushFrame: a port with two elements named twice, a destination below the ports, a word outside a frame. -/
theorem witness_register_use :
    let s := stT (fun x => x.updQ (fun q => { q with inq := [(0, [{ val := 5 }, { val := 6 }])] }))
    ({ srcs := [(56, false), (56, false)] } : Need).srcs = [(56, false), (56, false)] ∧ inPort 56 = true ∧ inPort 55 = false ∧
    s.curTile.q.inq? ((56 : BitVec 6).toNat - 56) = [{ val := 5 }, { val := 6 }] ∧ (59 : BitVec 6) ≠ 0 ∧ (59 : BitVec 6).toNat < 60 ∧ s.slot.framed = false := by decide +kernel

/-- RecordEvents: a region whose period has passed, posted faults of either stage, a ring and its reader's index in and out of range. -/
theorem witness_records :
    let x := reg1
    let s := { st0 with fields := [(fieldOfCluster (st0.clusterOf 1), { state := 1, base := 2 * 10 ^ 9 })] }
    x.finalDue = false ∧ x.state ≠ 0 ∧ x.state ≠ 5 ∧ x.lastBoundary + 10 ^ 9 + 100000 ≤ s.now x.home ∧ x.heldRecs.length < 4 ∧
    (∀ p ∈ ([{ region := 1, stage := 1, site := 1 }, { region := 1, stage := 2, site := 1 }] : List Posted),
      let q := { st0 with posted := [p], rings := [(faultRing 1, { n := 16 })] }
      q.posted.find? (fun p => q.postedRoom p && q.vc6Turn p.site p.seq) = some p) ∧
    (let r : Ring := { n := 16, widx := 5, ridx := 3 }
     r.n ≠ 0 ∧ (r.ridx ≤ 5 ∧ 5 ≤ r.widx) ∧ (r.widx < 6 ∨ 6 < r.ridx) ∧ (r.widx < 2 ∨ 2 < r.ridx) ∧ faultRing 1 ≠ usageRing) ∧
    st0.period < ({ st0 with tick := 10000000 } : State).tick / 10000000 ∧ ringLenOk 65536 = true := by decide +kernel

/-- TrapEntry and SelectionTraps: a receiver's ended stream in slot 3 behind port 0, an unbound output port, and an error mark of the second source. -/
theorem witness_ends :
    let e : StreamEnd := { state := 4, spb := BitVec.ofNat 512 (spbOf 7 1), code := 0x16 }
    let s := stT (fun x => (x.setStream 3 e).updQ (fun q => { q with portcfg := [(0, 0x70080040000)] }))
    let n : Need := { srcs := [(56, true)] }
    let o : Need := { srcs := [(2, true)], dsts := [60] }
    let m := stC (fun c => { c with gs := [(3, .marked 0x15 0x40)] })
    let p : Need := { srcs := [(2, true), (3, false)] }
    (s.curTile.stream 3 = e ∧ 3 ≤ e.state ∧ e.role = 1 ∧ (∀ k < 3, (s.curTile.stream k).state = 0)) ∧
    (n.illegal s = false ∧ n.blocked s = false ∧ s.emptySrc 56 = false ∧ s.isReduced 1 = false ∧ n.unbound s = false ∧ n.ended s = some e) ∧
    (o.illegal st0 = false ∧ o.blocked st0 = false ∧ st0.emptySrc 2 = false ∧ (60 ∈ o.dsts) ∧ cfgV (st0.curTile.q.cfg 4) = false) ∧
    p.illegal m = false ∧ p.blocked m = false ∧ m.emptySrc 2 = false ∧ p.unbound m = false ∧ p.ended m = none ∧ p.rowFails m = false ∧
    p.marked m = some (0x15, 0x40) := by decide +kernel

/-- AccessOrder: a context with nothing claimed and nothing outstanding; one with a claimed command, and one with a read before its last receipt. CountersLow: counters at zero. -/
theorem witness_access_order :
    st0.accessHeld = false ∧ (stT (fun x => x.updMx (fun m => { m with fifo := [{ claimed := true }] }))).accessHeld = true ∧
    (stT (fun x => { x with xfer := [{ claimed := true, state := 1 }] })).accessHeld = true ∧
    (stT (fun x => (x.setCtx 0 { x.ctx 0 with acquired := 4 }).updQ (fun q => { q with ret := [{ id := 3, state := .flying, body := .load (farAt 0) 8, sink := .greg 0 4 false 8 false }] }))).accessHeld = true ∧
    (∀ s : State, s.sites = [] → CountersLow s 8) := by
  refine ⟨by decide +kernel, by decide +kernel, by decide +kernel, by decide +kernel, fun s h u => ?_⟩
  show (fget {} s.sites u).sealCtr.toNat + 8 < _
  rw [h]; exact (by decide : ({} : Site).sealCtr.toNat + 8 < 2 ^ 64 - 1)

/-- Barriers: a bwait that waits, in a kernel of a gang whose timeout watches the barrier. -/
theorem witness_waits :
    let k : Kernel := { state := 4, desc := BitVec.ofNat 512 (8 * 2 ^ (8 * 0x21) + 2 * 2 ^ (8 * 0x28)) }
    let s := { stT (fun x => ({ x with kernel := 9 }).setBar 1 { state := 1, arr := 1 }) with regions := [(1, { reg1 with kernels := [(9, k)] })] }
    meets (needD (.bwait 4 1) 4) s (fun _ s => decide ((s.curTile.bar 1).state = 1 ∧ s.cur.waitAt = none ∧ s.curTile.kernel ≠ 0) &&
      ((s.region s.curTile.region).kernel s.curTile.kernel).gang && ((s.region s.curTile.region).kernel s.curTile.kernel).gbar.testBit 1) = true ∧
    meets (needD (.btest 4 1) 4) (s.updTile 1 (fun x => x.setBar 1 { state := 2 })) (fun _ s => decide ((s.curTile.bar 1).state = 2)) = true := by decide +kernel

/-- PowerEvents: the measured values at the limits of each row, an alert whose conditions have been absent for 60 s and one for less, 5 s of heat, both feeds lost. -/
theorem witness_thermal :
    let w := fun (inl out flow : Nat) (a b : Bool) => BitVec.ofNat 64 (2 ^ 24 * inl + 2 ^ 16 * out + 2 ^ 8 * flow + (if a then 16 else 0) + (if b then 32 else 0))
    let s := fun (x : Module) (v : Word) (t : Nat) => { State.reset with tick := t, module := x, ev := { w := v } }
    let ok := w 45 55 81 true true
    let r := fun (x : Module) (v : Word) (t : Nat) => (s x v t).report.module
    (s {} ok 0).ev.flag = false ∧ (r {} ok 0).therm = 0 ∧ ((r {} ok 0).inlet = 45 ∧ (r {} ok 0).flow = 81 ∧ (r {} ok 0).feedA = true ∧ (r {} ok 0).feedB = true) ∧
    45 < (r {} (w 46 55 81 true true) 0).inlet ∧ (r {} (w 45 55 80 true true) 0).flow < 81 ∧ (r {} (w 45 55 81 false true) 0).feedA = false ∧
    ((r { therm := 1, clearSince := some 5 } ok 60000000005).therm = 1 ∧ (r { therm := 1, clearSince := some 5 } ok 60000000005).clearSince = some 5 ∧ 5 + 60000000000 ≤ 60000000005) ∧
    (r { therm := 1, clearSince := none } ok 7).clearSince = some 7 ∧ (r { therm := 1, clearSince := some 5 } (w 46 55 81 true true) 7).clearSince = none ∧
    ((r { hotSince := some 5 } (w 45 56 81 true true) 5000000005).hotSince = some 5 ∧ (r { hotSince := some 5 } (w 45 56 81 true true) 5000000005).therm < 2 ∧ 5 + 5000000000 ≤ 5000000005) ∧
    (r { hotSince := some 5 } (w 45 55 60 true true) 9).hotSince = none ∧ (r {} (w 45 55 81 false false) 0).feedB = false ∧ 2 ≤ (r { therm := 2 } ok 0).therm := by decide +kernel

/-- SiteEvents: a dead and an excluded site; a fenced one that tests well, at home and with its name rehomed away; a word without V over a valid one of a stopped region and
of a running one; BAY of a bay without a group and with; a child's tile that goes back to its parent. -/
theorem witness_site_more :
    let dead := { State.reset with sites := [(5, { state := some .dead })], ev := { a := 5 } }
    let excl := { State.reset with module := { excluded := 1 }, ev := { a := 5 } }
    let fenced := fun (x : Site) => { st0 with sites := [(1, { x with state := some .fenced })], tiles := [], ev := { a := 1 } }
    let away : State := { st0 with sites := [(1, { state := some .fenced }), (5, { state := some .assigned })], tiles := [(5, tileA)],
                                   regions := [(1, { reg1 with state := 2, rhm := [(0, BitVec.ofNat 64 (2 ^ 63 + 5 * 2 ^ 10 + 1 * 2 ^ 24))] })], ev := { a := 1 } }
    let reh := fun (st : Nat) (b : Bool) => { away with regions := [(1, { away.region 1 with state := st, stopped := b })], ev := { a := 1, b := 0, w := 0 } }
    dead.siteState 5 = .dead ∧ excl.siteState 5 = .excluded ∧
    ((fenced {}).siteState 1 = .fenced ∧ ((fenced {}).site 1).withMap.noGrade = false ∧ marchBankx (((fenced {}).site 1).marchStatus (((fenced {}).tile 1).rfbad != 0 ||
      fget 0 ((fenced {}).tile 1).reptab 0 != 0 || fget 0 ((fenced {}).tile 1).reptab 1 != 0)) = 0 ∧ ((fenced {}).logicalOf 1).isSome = true ∧ (fenced {}).rehomedAway 1 = false) ∧
    (away.siteState 1 = .fenced ∧ away.rehomedAway 1 = true) ∧
    (((reh 3 true).region 1).state = 3 ∧ ((reh 3 true).region 1).stopped = true ∧ bit (fget 0 ((reh 3 true).region 1).rhm 0) 63 = true ∧ bit (reh 3 true).ev.w 63 = false ∧
      bit (fget 0 ((reh 3 true).region 1).rhm 1) 63 = false ∧ ((reh 2 false).region 1).state ≠ 3) ∧
    (State.reset.bay 0).group = 255 ∧ (({ State.reset with bays := [(0, { group := 0 })], groups := [(0, { role := 1 })] } : State).bay 0).group ≠ 255 ∧
    (let s := { st0 with tiles := [(1, { tileA with region := 7, leaving := some 1 })], regions := [(1, reg1), (7, { reg1 with w := 1, col0 := 1 })],
                         fields := [(fieldOf 1, { state := 1, base := 10 ^ 6 })], ev := { a := 1 } }
     (s.tile 1).leaving = some 1 ∧ (1 : Nat) ≠ (s.tile 1).region ∧ (s.region 7).state = 2 ∧ Nat.max (s.tile 1).scrubEnd ((s.tile 1).dmax + 2 * epsilon) ≤ s.nowAt 1) := by decide +kernel

/-- ClockEvents: in holdover with a further error beyond ε, and a step of the regulator that is due or not. -/
theorem witness_holdover :
    let f := { State.reset with fields := [(3, { state := 2 })], ev := { a := 3, i := -(epsilon : Int) - 1 } }
    (f.field 3).state = 2 ∧ epsilon < f.ev.i.natAbs ∧ (f.field 3).state ≠ 0 ∧ State.reset.regulated = State.reset.later .regulatorPeriod {} ∧
    (State.reset.later .regulatorPeriod {}).regulated = State.reset.later .regulatorPeriod {} := by decide +kernel

/-- TranslationEvents: a table read whose stage-2 lease has ended, and one at a port that cannot serve it yet; the walker cache keeps a table's entry of either stage and a stage-2 leaf for a table. -/
theorem witness_walks :
    let w : Walker := { busy := true, phase := 1, region := 1, l1 := 0, t1 := 0x5000, tpa := 0x40, tdl := 5 }
    let q := { stE st0 with clusters := [(0, { walkers := [(7, w)] })], fields := [(fieldOfCluster 0, { state := 1, base := 5 })], ev := { a := 0, b := 7 } }
    let slow := { q with ports := (List.range 8).map (fun p => (p, { state := 3, slots := (List.range 63).map (fun k => (k, 7)) })), fields := [] }
    (match q.readEntry 0 w 1 0x5000 0x40 false (keepEntry 1 0 true) with | .stale => true | _ => false) = true ∧
    (match slow.readEntry 0 { w with tdl := 2 ^ 64 } 1 0x5000 0x40 false (keepEntry 1 0 true) with | .wait => true | _ => false) = true ∧
    keepEntry 1 1 true (1 + 2 ^ 14) = true ∧ keepEntry 2 0 true (3 + 2 ^ 14) = true ∧ keepEntry 2 0 false (3 + 2 ^ 14) = false ∧ keepEntry 2 0 true 0 = false := by decide +kernel

/-- RequestEvents: a store's error on its way back; loads and stores at the module with a bad word, whole and in part; a frame under another key, for a plain store and for an engine's;
a request that waits at its port too long. -/
theorem witness_edge_more :
    let f : Ret := { state := .atPort, dst := .edge 0x40, deadline := 1000 }
    let p := fun (e : Ret) => stE (stR { f with body := e.body, sink := e.sink } 2)
    let bad := fun (s : State) => { s with ecc := [(edgeKey 0x40 / 8, 66)] }
    let st : Ret := { body := .store 0x8000000000000044 4 7 }
    let ld : Ret := { body := .load 0x8000000000000040 8 }
    let en : Ret := { body := .store 0x8000000000000040 8 7, sink := .xfer 1 0 8 }
    (match (stR { f with state := .done, body := st.body, code := 0x16, dst := .edge 0x40 } 2).entry 1 3 with | some e => decide (e.state = .done ∧ e.code ≠ 0 ∧ e.sink = .none) | none => false) = true ∧
    (stR f 2).sealHitBack 1 (.edge 0x40) = none ∧ ((stR f 2).tile 1).held = false ∧
    (∀ e ∈ ([st, ld, en] : List Ret), (match (p e).entry 1 3 with | some y => decide (y.state = .atPort ∧ y.dst = .edge 0x40 ∧ y.mirrored = false ∧ y.body = e.body ∧ y.sink = e.sink ∧
      (p e).now ((p e).portField (((p e).servingPort 0x40).getD 0)) < y.deadline) | none => false) = true ∧ ((p e).servingPort 0x40).isSome = true) ∧
    (bad (p ld)).memBad (edgeKey 0x40) 8 = true ∧ (partWords (edgeKey 0x44) 4).any (fun k => (bad (p st)).eccAt k == 66) = true ∧
    ((p st).memBad (edgeKey 0x44) 4 = false) ∧ en.sink.isEngine = true ∧ st.sink.isEngine = false ∧
    (({ p en with tags := [(0, { locked := true })] } : State).tag (0x40 / 4096)).locked = true ∧
    (p ld).goodCopy [0x40] (edgeKey 0x40) = some 0x40 ∧ (∀ k ∈ memWords (edgeKey 0x44) 4, (p st).eccAt k = 0 ∧ k % 8 = 0) := by decide +kernel

/-- A region under keys, whose clusters are all covered, and a tile far from its edge ports. -/
def stSealed (t : Nat) : State :=
  { stE st0 with tiles := [(t, tileA)], regions := [(1, { reg1 with conf := true })], clusters := (List.range 300).map (fun k => (k, { gateKeys := [1] })), ev := { a := t, b := 3 } }

theorem sealMiss_some {s : State} {l : List Nat} (hd : s.draws = 0) (h : Config.sealOk 0 = false) (hl : 0 < l.length) : ∃ g, s.sealMiss l = some g := by
  refine ⟨l[Config.pick 0 % l.length]'(Nat.mod_lt _ hl), ?_⟩
  have hn : l.isEmpty = false := by cases l with | nil => simp at hl | cons => rfl
  simp only [State.sealMiss, hd, h, hn, Bool.or_false, Bool.false_eq_true, if_false]
  exact List.getElem?_eq_getElem _

/-- TranslationEvents, MessageEvents and RequestEvents: a seal that fails on the way from a tile to its island, back from it, and back from an edge port, where the ciphers let it. -/
theorem witness_seals : Config.sealOk 0 = false →
    (∃ g, (stSealed 1).sealHit 1 (.island ((stSealed 1).homeOf 1)) = some g) ∧ (∃ g, (stSealed 1).sealHitBack 1 (.island ((stSealed 1).homeOf 1)) = some g) ∧
    (stSealed 1).sealSpent 1 (.island ((stSealed 1).homeOf 1)) = false ∧ ∃ g, (stSealed 640).sealHitBack 640 (.edge 0x40) = some g := by
  intro h
  have e : ∀ i, (Dst.island i).offMesh = false := fun _ => rfl
  have o : (Dst.edge 0x40).offMesh = false := by decide +kernel
  refine ⟨?_, ?_, by decide +kernel, ?_⟩
  · unfold State.sealHit; rw [e, if_neg (by decide)]; exact sealMiss_some rfl h (by decide +kernel)
  · unfold State.sealHitBack; rw [e, if_neg (by decide)]; exact sealMiss_some rfl h (by decide +kernel)
  · unfold State.sealHitBack; rw [o, if_neg (by decide)]; exact sealMiss_some rfl h (by decide +kernel)

/-- MessageEvents: an event of a tile's and one that an island raises, at the head of those due; a seal counter at its last number on a sealed way. -/
theorem witness_event_ways :
    let r := fun (e : EventMsg) => { st0 with rings := [(eventRing 1, { n := 16 })], events := [e] }
    (r { region := 1, src := some 1 }).events = [{ region := 1, src := some 1 }] ∧ (r { region := 1 }).eventRoom { region := 1 } = true ∧
    (match (r { region := 1, src := some 1 }).vc6Enter 1 ((r { region := 1, src := some 1 }).eventIsland { region := 1, src := some 1 }) with | .ok _ => true | .error _ => false) = true ∧
    ({ stSealed 1 with sites := [(1, { sealCtr := BitVec.allOnes 64 })] } : State).sealSpent 1 (.island ((stSealed 1).homeOf 1)) = true ∧
    st0.sealSpent 1 (.island 0) = false ∧ st0.sealHit 1 (.island 0) = none := by decide +kernel

/-- LinkEvents: a group of memory whose module is in and whose port has come up. -/
theorem witness_attach :
    let s := { State.reset with groups := [(0, { role := 1 })], bays := [(2, { present := true, group := 0 })], ports := [(1, { state := 3 })] }
    (s.group 0).role = 1 ∧ (s.group 0).answering = false ∧ s.moduleIn 0 = true ∧ (portsOf 0).any (fun p => s.portState p == 2) = false ∧ (portsOf 0).any s.portUp = true := by
  decide +kernel

/-- TransferEvents: a read and a segment that may be served, before which an earlier one for the same tile is still on its way or not. -/
theorem witness_transfer_order :
    let x : Ret := { state := .flying, dst := .tile 2, body := .xread 0 64, sink := .xfer 3 0 64 }
    let g : Ret := { state := .flying, dst := .tile 2, body := .seg 0 64 5, sink := .xfer 3 0 64 }
    ((stR x 2).tile 1).q.ret.find? ((stR x 2).readReady 1) = some { x with id := 3 } ∧ ((stR g 2).tile 1).q.ret.find? ((stR g 2).segReady 1) = some { g with id := 3 } ∧
    (let q := (stR x 2).updTile 1 (fun x => x.updQ (fun y => { y with ret := [{ g with id := 2 }, { x.q.ret.headD {} with id := 3 }] }))
     (q.tile 1).q.vc3Turn { x with id := 3 } = false ∧ (q.tile 1).q.ret.find? (q.readReady 1) = none) ∧
    (st0.tile 1).q.ret.find? (st0.segReady 1) = none := by decide +kernel

/-- StreamEvents: GO and ABORT on their way, at a receiver and at a source, kept back by the hack, and before a halted tile; a digest for a source that has failed; a source with a
bad element, and a line that failed. -/
theorem witness_stream_ends :
    let e : StreamEnd := { state := 1, spb := BitVec.ofNat 512 (spbOf 7 0), digest := 9 }
    let r : StreamEnd := { state := 1, spb := BitVec.ofNat 512 (spbOf 7 1), digest := 9 }
    let f : Ret := { state := .flying, dst := .tile 2 }
    let at_ := fun (b : Body) (x : StreamEnd) => (stR { f with body := b } 2).updTile 2 (fun y => y.setStream 0 x)
    let go := at_ (.streamGo 1 0 7 9) r
    let ab := at_ (.streamAbort 1 0 7 0x26 true) r
    (∀ q ∈ [go, ab], (q.flying 1 3).isSome = true ∧ (q.tile 2).halted = false ∧ q.sealHit 1 (.tile 2) = none ∧ ((q.freeEntry 1 3).tile 2).endOf 1 0 7 1 = some 0 ∧
      ((q.freeEntry 1 3).tile 2).endOf 1 0 7 0 = none ∧ ((q.freeEntry 1 3).tile 2).stream 0 = r) ∧
    ((at_ (.streamAbort 1 0 7 0x26 false) { e with state := 2 }).freeEntry 1 3 |>.tile 2).endOf 1 0 7 0 = some 0 ∧
    (match (stR { f with state := .formed, body := .streamGo 1 0 7 9 } 2).entry 1 3 with | some m => decide (m.state = .formed) | none => false) = true ∧
    ((go.updTile 2 (fun x => { x with halted := true })).tile 2).halted = true ∧
    (let q := (stR { state := .flying, dst := .tile 1, body := .digest 1 0 7 9 } 2).updTile 1 (fun x => x.setStream 3 { e with state := 4 })
     (q.tile 1).endOf 1 0 7 0 = some 3 ∧ ((q.tile 1).stream 3).state = 4 ∧ (match q.flying 1 3 with | some m => !q.turnsAway 1 1 0 m && (q.sealHit 1 m.dst).isNone | none => false) = true) ∧
    (({ e with state := 2, code := 0x16 } : StreamEnd).code ≠ 0 ∧ e.role = 0) ∧ (∀ u ∈ st0.streamTiles 1 e e.scol, st0.sealSpent 1 (.tile u) = false) ∧
    (stR { f with state := .done, code := 0x16, body := .load 0x8000000000001000 64, sink := .strm 3 0x8000000000001000 } 2).sealHitBack 1 f.dst = none := by decide +kernel

/-- A follower with one word in its lane, and the state in which it runs there. -/
def stLane (w : BitVec 32) (k : Nat) : State :=
  { st0 with tiles := [(1, { tileA with train := { state := k, id := 5, c0 := 1, n := 2, d := 1, marker := 63, lane := [(0x100, w, 0)] } })], ev := { a := 1 } }

def stFollow (w : BitVec 32) : State :=
  let x := (stLane w 3).tile 1
  let y : Ctx := (x.ctx 0).inStep (x.own 0x100)
  let l : Slot := { site := 1, ctx := 0, addr := x.own 0x100, word := w, word2 := 0, pair := isModifier w, train := true, framed := decide (y.frame.state = .run) }
  { (stLane w 3).updTile 1 (fun z => { z.setCtx 0 y with train := { z.train with lane := [], nextAddr := 0x100 + BitVec.ofNat 64 l.size } }) with slot := l }

/-- TrainEvents: a word that meets its cycle in a follower, a mark there, one whose source is not there yet. -/
theorem witness_train_words :
    ([(encode (.addi 4 2 0 3)).getD 0, (encode (.tmark 63)).getD 0, (encode (.add 4 2 3 0 0)).getD 0] : List (BitVec 32)).all (fun w =>
      let q := stLane w 3
      (q.tile 1).train.lane == [(0x100, w, 0)] && q.westAhead 1 && q.eastNear 1 1 1 && (q.tile 1).train.wire == [] && (q.tile 1).fenceDone 0 && (stFollow w).slot.train) = true := by decide +kernel

/-- TrainEvents: the same words run, or wait; what is due in the follower comes first. -/
theorem witness_train_run :
    (match (stFollow ((encode (.addi 4 2 0 3)).getD 0)).followWord with | .next t => !t.slot.stalled | _ => false) = true ∧
    (match (stFollow ((encode (.tmark 63)).getD 0)).followWord with | .next t => !t.slot.stalled | _ => false) = true ∧
    (match ((stFollow ((encode (.add 4 2 3 0 0)).getD 0)).updCur (fun c => { c with gs := [(2, .pending)] })).followWord with
      | .next t => t.slot.stalled && decide ((t.ctx 1 0).xlate = .none) | _ => false) = true ∧
    ((stFollow 0).updCur (fun c => { c with stepDue := true })).cur.stepDue = true ∧
    ((stFollow 0).updCur (fun c => { c with dueFault := some (0x16, 5) })).cur.dueFault = some (0x16, 5) := by decide +kernel

/-- MatrixEvents: a command with an error or at its end, with no multiplication before it and with one. -/
theorem witness_matrix_order :
    let c : MCmd := { word := (encode (.mmacs 1 3 0 0)).getD 0, gb := 1, serial := 4, state := 1, code := 0x20 }
    let m := fun (l : List MCmd) => st0.updTile 1 (fun x => x.updMx (fun m => { m with fifo := l, state := 1 }))
    ((m [c]).tile 1).mx.fifo.find? (fun e => e.serial == 4 && e.state == 1) = some c ∧ c.code ≠ 0 ∧ ((m [c]).tile 1).mx.macBefore c = false ∧
    ((m [{ c with serial := 3 }, c]).tile 1).mx.macBefore c = true ∧ ((m [c]).tile 1).mx.state ≠ 3 := by decide +kernel

/-- KernelEvents: a start that only some of the tiles have reached, one whose tick has come on a tile that is saved or held, a record that is still to be written. -/
theorem witness_kernel_more :
    let k := fun (n : Nat) (x : Kernel) => { st0 with regions := [(1, { reg1 with state := n, kernels := [(9, x)], queue := [9] })], ev := { a := 1, b := 9, c := 2 } }
    let due := { k 2 { state := 3, tgo := 0, w := 2, h := 1, x0 := 1 } with fields := [(fieldOf 1, { state := 1 })] }
    ((due.region 1).kernel 9).state = 3 ∧ (due.region 1).state = 2 ∧ (due.kernelSites 1 ((due.region 1).kernel 9)).filter (fun p => due.reached p.2 0) ≠ [] ∧
    (((k 3 { state := 3 }).region 1).kernel 9).state = 3 ∧ ((k 3 { state := 3 }).region 1).state ≠ 2 ∧
    ((((k 2 { state := 6, due := [0] }).region 1).kernel 9).state = 6 ∧ (((k 2 { state := 6, due := [0] }).region 1).kernel 9).due ≠ []) ∧
    (k 2 {}).ev.c = 2 ∧ (k 2 { state := 6, group := 9 }).skewed 1 9 = false ∧
    (let bad := k 2 { state := 2, group := 9, w := 1, h := 1, x0 := 1 }
     (bad.unskewed.loadKernel 1 9).2 = false) := by decide +kernel

/-- HackEvents: a kernel saved as a whole, a degraded site to empty, requests to inspect a region that is open, one that is confidential, and one not alive. -/
theorem witness_hack_more :
    let q := { st0 with regions := [(1, { reg1 with state := 3, stopped := true, kernels := [(9, { state := 5 })] })], tiles := [(1, { tileA with kernel := 9 })], ev := { a := 1, b := 1, flag := true } }
    let i := fun (x : Region) (b : Nat) (f : Bool) => { st0 with regions := [(1, x)], ev := { a := 1, b := b, flag := f } }
    ((q.region 1).state = 3 ∧ (q.region 1).stopped = true ∧ (q.tile 1).region = 1 ∧ q.ev.flag = true ∧ ((q.region 1).kernel (q.tile 1).kernel).state = 5) ∧
    (let d := { st0 with sites := [(1, { degrade := true, state := some .assigned })] }
     d.fieldOut (fieldOf 1) = false ∧ (d.site 1).degrade = true ∧ (d.site 1).state = some .assigned ∧ (st0.site 1).degrade = false) ∧
    ((i reg1 0 true).region 1).conf = false ∧ bit ((i reg1 0 true).region 1).causes 7 = false ∧
    (((i { reg1 with conf := true } 1 false).region 1).conf = true ∧ (i { reg1 with conf := true } 1 false).ev.b = (i { reg1 with conf := true } 1 false).levelOne 1) ∧
    ((i { reg1 with conf := true } 1 true).ev.flag = true ∧ ((i { reg1 with state := 1 } 1 false).region 1).state = 1) ∧
    (({ reg1 with causes := 0x80 } : Region).saved = [] ∧ st0.restoreCheck 1 (inspectAt 1) ≠ 0) := by decide +kernel

/-- RegionEvents: a region in creation with a tile that is still to join, or to be scrubbed; a border move at each of its stages. -/
theorem witness_region_more :
    let q := fun (x : Region) (t : Tile) (b : Bool) => { st0 with regions := [(1, x)], tiles := [(1, t), (3, { tileA with col := 2, scrubEnd := t.scrubEnd })], ev := { a := 1, flag := b } }
    let m := { reg1 with state := 3, strip := [3], stopped := true, stripSide := 1, stripLen := 1 }
    (∀ e ∈ (q { reg1 with state := 1 } tileA false).tiles, e.2.leaving ≠ some 1) ∧
    (∀ t ∈ (q { reg1 with state := 1 } tileA false).ownTiles 1, ((q { reg1 with state := 1 } tileA false).tile t).scrubEnd ≤ (q { reg1 with state := 1 } tileA false).nowAt t) ∧
    (∃ e ∈ (q { reg1 with state := 1 } { tileA with leaving := some 1 } false).tiles, e.2.leaving = some 1) ∧
    ((q { reg1 with state := 1 } { tileA with scrubEnd := 9 } false).nowAt 1 < ((q { reg1 with state := 1 } { tileA with scrubEnd := 9 } false).tile 1).scrubEnd) ∧
    (((q m tileA false).region 1).strip ≠ [] ∧ ((q m tileA false).region 1).stripFrom = 0 ∧ (q m tileA false).ev.flag = false ∧ (q m tileA true).ev.flag = true) ∧
    ((q m { tileA with scrubEnd := 9 } true).nowAt 3 < ((q m { tileA with scrubEnd := 9 } true).tile 3).scrubEnd) ∧ ((q m tileA true).tile 3).scrubEnd ≤ (q m tileA true).nowAt 3 := by decide +kernel

/-- RecordEvents: a final record; a report before and after a boundary that waits; records held, with room in the ring and without; a posted fault's way. -/
theorem witness_record_more :
    let s := fun (n : Nat) => { st0 with heldOrder := [1, 1], regions := [(1, { reg1 with heldRecs := [5, 6] })], rings := [(usageRing, { n := 16, widx := n })] }
    ({ reg1 with finalDue := true } : Region).finalDue = true ∧
    (({ reg1 with snaps := [(7, [])] } : Region).snaps = [(7, [])] ∧ (6 : Nat) < 7 + 10 ^ 9) ∧ reg1.snaps = [] ∧ 6 < reg1.lastBoundary + 10 ^ 9 ∧
    (s 0).heldOrder = [1, 1] ∧ ((s 0).ring usageRing).full = false ∧ ((s 0).region 1).heldRecs = [5, 6] ∧ ((s 16).ring usageRing).full = true ∧
    (match st0.vc6Enter 1 (st0.region 1).home with | .ok _ => true | .error _ => false) = true := by decide +kernel


/-! ### Commands -/

/-- The first 224 bytes of entry number 1 of ring 0. -/
def cmdBody (code payload : Nat) : Nat := 1 + code * 2 ^ 64 + (cmdLen code).getD 0 * 2 ^ 80 + payload * 2 ^ 128

/-- The entry with its tag under the key zero. -/
def cmdOf (body : Nat) : Cmd := ⟨body % 2 ^ 1792 + ringTag 0 body * 2 ^ 1792⟩

/-- Ring 0 in the state x, with this entry next. -/
def withCmd (s : State) (x : CmdRing) (body : Nat) : State :=
  { s with
    mem := Memory.writeLE (Memory.writeLE s.mem (sysKey 0) 256 (cmdOf body).v) (sysKey 4096) 8 1
    sec := { s.sec with booted := true, rings := [(0, x)] } }

/-- An open ring of 16 entries. -/
def ring0 : CmdRing := { isOpen := true, n := 16 }

theorem ringTag_lt (k : BitVec 256) (v : Nat) : ringTag k v < 2 ^ 256 := BitVec.isLt _

theorem cmdOf_lt (body : Nat) : (cmdOf body).v < 2 ^ 2048 := by
  have h1 := ringTag_lt 0 body
  have h2 : body % 2 ^ 1792 < 2 ^ 1792 := Nat.mod_lt _ (by positivity)
  show body % 2 ^ 1792 + ringTag 0 body * 2 ^ 1792 < 2 ^ 2048
  have h3 : (2 : Nat) ^ 2048 = 2 ^ 256 * 2 ^ 1792 := by rw [← Nat.pow_add]
  have h4 : (ringTag 0 body + 1) * 2 ^ 1792 ≤ 2 ^ 256 * 2 ^ 1792 := Nat.mul_le_mul_right _ h1
  rw [h3]; rw [Nat.add_mul, Nat.one_mul] at h4
  exact lt_of_lt_of_le (by rw [Nat.add_comm]; exact Nat.add_lt_add_left h2 _) h4

theorem cmdOf_mod (body : Nat) : (cmdOf body).v % 2 ^ 1792 = body % 2 ^ 1792 := by
  show (body % 2 ^ 1792 + ringTag 0 body * 2 ^ 1792) % 2 ^ 1792 = _
  rw [Nat.add_mul_mod_self_right, Nat.mod_mod]

theorem natBytes_mod (v n lo k : Nat) (h : 8 * (lo + k) ≤ n) : natBytes (v % 2 ^ n) lo k = natBytes v lo k := by
  unfold natBytes
  apply Nat.eq_of_testBit_eq
  intro i
  simp only [Nat.testBit_mod_two_pow, Nat.testBit_div_two_pow]
  by_cases hi : i < 8 * k
  · simp only [show i + 8 * lo < n by omega, decide_true, Bool.true_and]
  · simp [hi]

theorem natBytes_cmdOf (body lo k : Nat) (h : lo + k ≤ 224) : natBytes (cmdOf body).v lo k = natBytes body lo k := by
  rw [← natBytes_mod _ 1792 lo k (by omega), cmdOf_mod, natBytes_mod _ 1792 lo k (by omega)]

theorem cmdOf_p (body lo k : Nat) (h : lo + k ≤ 208) : (cmdOf body).p lo k = (⟨body⟩ : Cmd).p lo k := natBytes_cmdOf _ _ _ (by omega)

theorem cmdOf_tag (body : Nat) : (cmdOf body).tag = ringTag 0 (cmdOf body).v := by
  have h1 : ringTag 0 (cmdOf body).v = ringTag 0 body := by unfold ringTag; rw [cmdOf_mod]
  have h2 : (cmdOf body).v / 2 ^ 1792 = ringTag 0 body := by
    show (body % 2 ^ 1792 + ringTag 0 body * 2 ^ 1792) / 2 ^ 1792 = _
    rw [Nat.add_mul_div_right _ _ (by positivity), Nat.div_eq_of_lt (Nat.mod_lt _ (by positivity)), Nat.zero_add]
  rw [h1]
  show (cmdOf body).v / 2 ^ 1792 % 2 ^ 256 = _
  rw [h2, Nat.mod_eq_of_lt (ringTag_lt 0 body)]

theorem cmdOf_formOk (body : Nat) (h : (⟨body⟩ : Cmd).formOk 0 = true) : (cmdOf body).formOk 0 = true := by
  have hc : (cmdOf body).code = (⟨body⟩ : Cmd).code := natBytes_cmdOf _ _ _ (by omega)
  have hp : (cmdOf body).plen = (⟨body⟩ : Cmd).plen := natBytes_cmdOf _ _ _ (by omega)
  have hr : (cmdOf body).ring = (⟨body⟩ : Cmd).ring := natBytes_cmdOf _ _ _ (by omega)
  have hl : ∀ n, cmdLen (⟨body⟩ : Cmd).code = some n → n ≤ 80 := by
    intro n
    unfold cmdLen
    split_ifs <;> simp <;> omega
  unfold Cmd.formOk at h ⊢
  rw [hc, hp, hr, natBytes_cmdOf body 0xE 2 (by omega), natBytes_cmdOf body 0xC0 32 (by omega)]
  cases hn : cmdLen (⟨body⟩ : Cmd).code with
  | none => rw [hn] at h; exact h
  | some n =>
    rw [hn] at h
    have := hl n hn
    dsimp only at h ⊢
    rw [cmdOf_p body n (176 - n) (by omega)]
    exact h

theorem pending_of {s : State} {k : Nat} {e : Cmd} {x : CmdRing} (hx : s.cmdRing k = x) (hb : s.sec.booted = true) (ha : s.sec.stateA = 0) (ho : x.isOpen = true)
    (hn : x.n = 16) (h0 : x.base = 0) (hr : x.ridx = 0) (hw : s.memRead (sysKey 4096) 8 = 1) (hv : s.memRead (sysKey 0) 256 = e.v) : s.pending k = some e := by
  have hc : x.ctl = 4096 := by unfold CmdRing.ctl; rw [h0, hn]
  unfold State.pending
  dsimp only
  rw [hx, hc, hn, h0, hr, hw, hv, if_pos ⟨hb, Or.inl ha, ho, by decide, by decide⟩]

theorem withCmd_ring (s : State) (x : CmdRing) (body : Nat) : (withCmd s x body).cmdRing 0 = x := rfl

theorem withCmd_mem (s : State) (x : CmdRing) (body : Nat) :
    (withCmd s x body).memRead (sysKey 4096) 8 = 1 ∧ (withCmd s x body).memRead (sysKey 0) 256 = (cmdOf body).v := by
  refine ⟨Memory.readLE_writeLE _ _ _ _, ?_⟩
  show Memory.readLE (Memory.writeLE (Memory.writeLE s.mem (sysKey 0) 256 (cmdOf body).v) (sysKey 4096) 8 1) (sysKey 0) 256 = _
  rw [Memory.readLE_writeLE_ne _ _ _ _ _ _ (by unfold sysKey; omega), Memory.readLE_writeLE, Nat.mod_eq_of_lt]
  exact lt_of_lt_of_eq (cmdOf_lt body) (Nat.pow_mul 2 8 256)

theorem withCmd_pending (s : State) (w h : Bool) (c : BitVec 256) (cr body : Nat) (ha : s.sec.stateA = 0) :
    (withCmd s { ring0 with waiting := w, halted := h, challenge := c, creating := cr } body).pending 0 = some (cmdOf body) :=
  pending_of rfl rfl ha rfl rfl rfl rfl (withCmd_mem _ _ _).1 (withCmd_mem _ _ _).2

theorem withCmd_served (s : State) (h : Bool) (c : BitVec 256) (body code : Nat) (ha : s.sec.stateA = 0) (hq : (⟨body⟩ : Cmd).seq = 1)
    (hc : (⟨body⟩ : Cmd).code = code) (hf : (⟨body⟩ : Cmd).formOk 0 = true)
    (hh : h = false ∨ code = 0x31 ∧ (⟨body⟩ : Cmd).p 0 32 = c.toNat) :
    Served (withCmd s { ring0 with halted := h, challenge := c } body) 0 code (cmdOf body) := by
  have hc' : (cmdOf body).code = code := (natBytes_cmdOf _ _ _ (by omega)).trans hc
  have hq' : (cmdOf body).seq = 1 := (natBytes_cmdOf _ _ _ (by omega)).trans hq
  refine ⟨withCmd_pending s false h c 0 body ha, by rw [withCmd_ring]; rfl, State.ringsTurn_one (x := { ring0 with halted := h, challenge := c }) rfl,
    by rw [withCmd_ring]; rfl, hc', ?_, cmdOf_formOk body hf⟩
  rw [withCmd_ring]
  have ht : (cmdOf body).tag = ringTag ring0.key (cmdOf body).v := cmdOf_tag body
  unfold CmdRing.decide_
  rw [hq', hc', cmdOf_p body 0 32 (by omega)]
  generalize (cmdOf body).v = v at ht
  generalize (cmdOf body).tag = t at ht
  rcases hh with rfl | ⟨rfl, hp⟩
  · simp [ring0, ht]
  · simp [ring0, hp, ht]

/-- The witness of a statement about an accepted command. -/
def canAnswer (code : Nat) (p : Nat → Cmd → State → Prop) : Prop := ∃ s e, s.ev.a = 0 ∧ Served s s.ev.a code e ∧ p s.ev.a e (accepted s s.ev.a e)

theorem canAnswer_intro {p : Nat → Cmd → State → Prop} {code : Nat} {s : State} {e : Cmd} (he : s.ev.a = 0) (hs : Served s 0 code e) (hp : p 0 e (accepted s 0 e)) :
    canAnswer code p := ⟨s, e, he, by rw [he]; exact hs, by rw [he]; exact hp⟩

theorem withCmd_ev (s : State) (x : CmdRing) (body : Nat) : (withCmd s x body).ev = s.ev := by cases s; rfl

theorem canAnswer_of {p : Nat → Cmd → State → Prop} (s : State) (h : Bool) (c : BitVec 256) (code payload : Nat) (he : s.ev.a = 0) (ha : s.sec.stateA = 0)
    (hf : (⟨cmdBody code payload⟩ : Cmd).seq = 1 ∧ (⟨cmdBody code payload⟩ : Cmd).code = code ∧ (⟨cmdBody code payload⟩ : Cmd).formOk 0 = true)
    (hh : h = false ∨ code = 0x31 ∧ (⟨cmdBody code payload⟩ : Cmd).p 0 32 = c.toNat)
    (hp : p 0 (cmdOf (cmdBody code payload)) (accepted (withCmd s { ring0 with halted := h, challenge := c } (cmdBody code payload)) 0 (cmdOf (cmdBody code payload)))) : canAnswer code p :=
  canAnswer_intro (by rw [withCmd_ev, he]) (withCmd_served s h c _ code ha hf.1 hf.2.1 hf.2.2 hh) hp


/-! ### Commands that name a region -/

/-- A control block of region 1: level 1, every override set, and one of region 5 inside it. -/
def rcbA : Nat := 1 + 2 ^ 16 + 2 ^ 48 + 0x7F * 2 ^ 64 + 8 * 2 ^ 72 + 2 ^ 80 + 2 ^ 88 + 2 ^ 112 + 2 * 2 ^ 144 + 2 ^ 152 + 16 * 2 ^ 160 + 2 ^ 24 * 2 ^ 192 +
  0x80 * 2 ^ 504 + 16 * 2 ^ 576 + 16 * 2 ^ 608 + 2 ^ 800
def rcbB : Nat := 1 + 5 * 2 ^ 16 + 2 ^ 32 + 2 * 2 ^ 48 + 0x80 * 2 ^ 504 + 16 * 2 ^ 576 + 16 * 2 ^ 608 + 2 ^ 800

/-- The blocks at 0x3000 and 0x4000, on a wafer whose clocks are set. -/
def stB : State := { st0 with
  mem := Memory.writeLE (Memory.writeLE [] (edgeKey 0x3000) 256 rcbA) (edgeKey 0x4000) 256 rcbB
  tiles := [(0, { tileA with col := 0 }), (1, tileA)]
  fields := [(fieldOfCluster (st0.clusterOf 1), { state := 1, base := 10 ^ 9 })]
  regions := [(1, { reg1 with rcb := BitVec.ofNat 2048 rcbA, prio := 8, lsh := 1, slots := 1, grow := 1 })] }

/-- What a control block describes. -/
def regA : Region := { rcb := BitVec.ofNat 2048 rcbA, rcbAddr := 0x3000, w := 3, h := 2, prio := 8, lsh := 1, slots := 1, fdom := 0, grow := 1, kt := 0, ct := 0 }
def regB : Region := { rcb := BitVec.ofNat 2048 rcbB, rcbAddr := 0x4000, w := 1, h := 1, prio := 8, lsh := 1, slots := 1, fdom := 0, grow := 0, kt := 0, ct := 0 }

/-- A state as a command runs in it. -/
def stB' (s : State) (code payload : Nat) : State := accepted (withCmd s ring0 (cmdBody code payload)) 0 (cmdOf (cmdBody code payload))

theorem stB_mem {s : State} (hm : s.mem = stB.mem) (code payload : Nat) :
    (stB' s code payload).memRead (edgeKey 0x3000) 256 = rcbA ∧ (stB' s code payload).memRead (edgeKey 0x4000) 256 = rcbB := by
  have h : ∀ a, a < 2 ^ 50 → (stB' s code payload).memRead (edgeKey a) 256 = Memory.readLE stB.mem (edgeKey a) 256 := by
    intro a ha
    show Memory.readLE (Memory.writeLE (Memory.writeLE s.mem _ _ _) _ _ _) _ _ = _
    rw [Memory.readLE_writeLE_ne _ _ _ _ _ _ (by unfold sysKey edgeKey; omega), Memory.readLE_writeLE_ne _ _ _ _ _ _ (by unfold sysKey edgeKey; omega), hm]
  constructor
  · rw [h _ (by decide)]
    show Memory.readLE (Memory.writeLE _ _ _ _) _ _ = _
    rw [Memory.readLE_writeLE_ne _ _ _ _ _ _ (by unfold edgeKey; omega), Memory.readLE_writeLE]; decide +kernel
  · rw [h _ (by decide)]
    show Memory.readLE (Memory.writeLE _ _ _ _) _ _ = _
    rw [Memory.readLE_writeLE]; decide +kernel

theorem canAnswer_cmd {p : Nat → Cmd → State → Prop} (s : State) (code payload : Nat) (he : s.ev.a = 0) (ha : s.sec.stateA = 0)
    (hf : (⟨cmdBody code payload⟩ : Cmd).seq = 1 ∧ (⟨cmdBody code payload⟩ : Cmd).code = code ∧ (⟨cmdBody code payload⟩ : Cmd).formOk 0 = true)
    (hp : p 0 (cmdOf (cmdBody code payload)) (stB' s code payload)) : canAnswer code p := by
  have hr : { ring0 with halted := false, challenge := 0 } = ring0 := rfl
  have hs := withCmd_served s false 0 _ code ha hf.1 hf.2.1 hf.2.2 (Or.inl rfl)
  rw [hr] at hs
  exact canAnswer_intro (by rw [withCmd_ev, he]) hs hp

/-- stB with a child of region 1. -/
def stC5 : State := { stB with regions := stB.regions ++ [(5, { regB with state := 2 })] }

theorem named_destroy : (stB' stB 2 0x3000).regionFrom ((cmdOf (cmdBody 2 0x3000)).p 0 8) = regA := by
  rw [cmdOf_p _ _ _ (by decide), show (⟨cmdBody 2 0x3000⟩ : Cmd).p 0 8 = 0x3000 by decide +kernel]
  unfold State.regionFrom
  rw [(stB_mem (s := stB) rfl 2 0x3000).1]
  decide +kernel

theorem named_parent : (stB' stC5 2 0x3000).regionFrom ((cmdOf (cmdBody 2 0x3000)).p 0 8) = regA := by
  rw [cmdOf_p _ _ _ (by decide), show (⟨cmdBody 2 0x3000⟩ : Cmd).p 0 8 = 0x3000 by decide +kernel]
  unfold State.regionFrom
  rw [(stB_mem (s := stC5) rfl 2 0x3000).1]
  decide +kernel

theorem named_reset : (stB' stB 5 0x3000).regionFrom ((cmdOf (cmdBody 5 0x3000)).p 0 8) = regA := by
  rw [cmdOf_p _ _ _ (by decide), show (⟨cmdBody 5 0x3000⟩ : Cmd).p 0 8 = 0x3000 by decide +kernel]
  unfold State.regionFrom
  rw [(stB_mem (s := stB) rfl 5 0x3000).1]
  decide +kernel

theorem named_share : (stB' stB 7 0x3000).regionFrom ((cmdOf (cmdBody 7 0x3000)).p 0 8) = regA := by
  rw [cmdOf_p _ _ _ (by decide), show (⟨cmdBody 7 0x3000⟩ : Cmd).p 0 8 = 0x3000 by decide +kernel]
  unfold State.regionFrom
  rw [(stB_mem (s := stB) rfl 7 0x3000).1]
  decide +kernel

theorem named_move : (stB' stB 6 0x3000).regionFrom ((cmdOf (cmdBody 6 0x3000)).p 0 8) = regA := by
  rw [cmdOf_p _ _ _ (by decide), show (⟨cmdBody 6 0x3000⟩ : Cmd).p 0 8 = 0x3000 by decide +kernel]
  unfold State.regionFrom
  rw [(stB_mem (s := stB) rfl 6 0x3000).1]
  decide +kernel

theorem named_create : (stB' stB 1 0x4000).regionFrom ((cmdOf (cmdBody 1 0x4000)).p 0 8) = regB := by
  rw [cmdOf_p _ _ _ (by decide), show (⟨cmdBody 1 0x4000⟩ : Cmd).p 0 8 = 0x4000 by decide +kernel]
  unfold State.regionFrom
  rw [(stB_mem (s := stB) rfl 1 0x4000).2]
  decide +kernel

/-- RegionCommands: each command in a state that lets it be. -/
theorem witness_region_commands :
    canAnswer 3 (fun k e s => e.p 2 6 = 0 ∧ s.mayName k (s.region (e.p 0 2)).level (s.region (e.p 0 2)).parent = true ∧
      ((s.region (e.p 0 2)).state = 2 ∨ (s.region (e.p 0 2)).state = 3)) ∧
    canAnswer 3 (fun k e s => e.p 2 6 = 0 ∧ s.mayName k (s.region (e.p 0 2)).level (s.region (e.p 0 2)).parent = true ∧ (s.region (e.p 0 2)).state < 2) ∧
    canAnswer 4 (fun k e s => e.p 2 6 = 0 ∧ s.mayName k (s.region (e.p 0 2)).level (s.region (e.p 0 2)).parent = true ∧
      ((s.region (e.p 0 2)).state = 2 ∨ (s.region (e.p 0 2)).state = 3)) ∧
    canAnswer 2 (fun k e s => s.namedBy k (e.p 0 8) = some (1, regA) ∧ s.children 1 = [] ∧ ((s.region 1).state = 2 ∨ (s.region 1).state = 3)) ∧
    canAnswer 2 (fun k e s => s.namedBy k (e.p 0 8) = some (1, regA) ∧ s.children 1 ≠ []) ∧
    canAnswer 5 (fun k e s => s.namedBy k (e.p 0 8) = some (1, regA) ∧ ((s.region 1).state = 2 ∨ (s.region 1).state = 3)) ∧
    canAnswer 7 (fun k e s => s.namedBy k (e.p 0 8) = some (1, regA) ∧ (s.region 1).exists_ = true ∧
      s.budgetOk 1 { regA with col0 := (s.region 1).col0, row0 := (s.region 1).row0, w := (s.region 1).w, h := (s.region 1).h } = true) ∧
    canAnswer 6 (fun k e s => s.namedBy k (e.p 0 8) = some (1, regA) ∧ e.p 0xA 1 ≤ 3 ∧ e.p 0xB 5 = 0 ∧ (s.region 1).exists_ = true ∧
      (s.noteRcb 1 regA).moveOk 1 (e.p 8 2) (e.p 0xA 1) = .ok [3, 35]) ∧
    canAnswer 1 (fun k e t => let x := t.regionFrom (e.p 0 8)
      x.level ≠ 1 ∧ e.p 8 48 = 0 ∧ t.rcbOk x = true ∧ t.mayName k x.level x.parent = true ∧ (t.region x.number).state = 0 ∧
      (x.level < 2 ∨ (t.region x.parent).state = 2 ∨ (t.region x.parent).state = 3) ∧ t.budgetOk x.number x = true ∧ t.keysFit x.number x = true ∧
      (t.regions.filter (fun e => e.2.exists_)).length < 4096 ∧ (t.rectSites x).length = x.w * x.h ∧ (∀ q ∈ t.rectSites x, t.claimable x q.2.2 = true) ∧
      (t.region x.parent).noKernels = true) := by
  have h1 : ∀ c, (⟨cmdBody c 1⟩ : Cmd).p 0 2 = 1 → (cmdOf (cmdBody c 1)).p 0 2 = 1 := fun c h => (cmdOf_p _ _ _ (by decide)).trans h
  refine ⟨canAnswer_cmd st0 3 1 rfl rfl (by decide +kernel) ⟨by rw [cmdOf_p _ _ _ (by decide)]; decide +kernel, rfl, ?_⟩, canAnswer_cmd st0 3 7 rfl rfl (by decide +kernel) ⟨by rw [cmdOf_p _ _ _ (by decide)]; decide +kernel, rfl, ?_⟩,
    canAnswer_cmd st0 4 1 rfl rfl (by decide +kernel) ⟨by rw [cmdOf_p _ _ _ (by decide)]; decide +kernel, rfl, ?_⟩, canAnswer_cmd stB 2 0x3000 rfl rfl (by decide +kernel) ⟨by unfold State.namedBy; rw [named_destroy]; decide +kernel, by decide +kernel, by decide +kernel⟩,
    canAnswer_cmd stC5 2 0x3000 rfl rfl (by decide +kernel) ⟨by unfold State.namedBy; rw [named_parent]; decide +kernel, by decide +kernel⟩,
    canAnswer_cmd stB 5 0x3000 rfl rfl (by decide +kernel) ⟨by unfold State.namedBy; rw [named_reset]; decide +kernel, by decide +kernel⟩,
    canAnswer_cmd stB 7 0x3000 rfl rfl (by decide +kernel) ⟨by unfold State.namedBy; rw [named_share]; decide +kernel, by decide +kernel, by decide +kernel⟩,
    canAnswer_cmd stB 6 0x3000 rfl rfl (by decide +kernel) ⟨by unfold State.namedBy; rw [named_move]; decide +kernel, by rw [cmdOf_p _ _ _ (by decide)]; decide +kernel, by rw [cmdOf_p _ _ _ (by decide)]; decide +kernel, by decide +kernel, ?_⟩,
    canAnswer_cmd stB 1 0x4000 rfl rfl (by decide +kernel) ?_⟩
  · rw [h1 3 (by decide +kernel)]; decide +kernel
  · rw [cmdOf_p _ _ _ (by decide), show (⟨cmdBody 3 7⟩ : Cmd).p 0 2 = 7 by decide +kernel]; decide +kernel
  · rw [h1 4 (by decide +kernel)]; decide +kernel
  · rw [cmdOf_p _ 8 2 (by decide), cmdOf_p _ 0xA 1 (by decide), show (⟨cmdBody 6 0x3000⟩ : Cmd).p 8 2 = 0 by decide +kernel, show (⟨cmdBody 6 0x3000⟩ : Cmd).p 0xA 1 = 0 by decide +kernel]
    decide +kernel
  · rw [named_create, cmdOf_p _ 8 48 (by decide)]
    decide +kernel

/-- stB with a child of region 1 that has two slots of its own. -/
def stKids : State := { stB with regions := stB.regions ++ [(5, { regB with state := 2, rcb := BitVec.ofNat 2048 (rcbB + 8 * 2 ^ 64), slots := 2 })] }

theorem named_share_kids : (stB' stKids 7 0x3000).regionFrom ((cmdOf (cmdBody 7 0x3000)).p 0 8) = regA := by
  rw [cmdOf_p _ _ _ (by decide), show (⟨cmdBody 7 0x3000⟩ : Cmd).p 0 8 = 0x3000 by decide +kernel]
  unfold State.regionFrom
  rw [(stB_mem (s := stKids) rfl 7 0x3000).1]
  decide +kernel

/-- RegionCommands: a share that leaves its children too little. -/
theorem witness_share_budget :
    canAnswer 7 (fun k e s => s.namedBy k (e.p 0 8) = some (1, regA) ∧ (s.region 1).exists_ = true ∧ s.childrenFit 1 regA = false) :=
  canAnswer_cmd stKids 7 0x3000 rfl rfl (by decide +kernel) ⟨by unfold State.namedBy; rw [named_share_kids]; decide +kernel, by decide +kernel, by decide +kernel⟩

/-- RegionCommands: a command that a takeover has cut off, in a ring whose turn it is. -/
theorem witness_cut_command : ∃ (s : State) (e : Cmd), s.pending s.ev.a = some e ∧ (s.cmdRing s.ev.a).waiting = false ∧ s.ringsTurn s.ev.a = true ∧ (s.cmdRing s.ev.a).cut = true ∧
    e.code = 3 ∧ e.formOk s.ev.a = true ∧ e.p 2 6 = 0 ∧ ((accepted s s.ev.a e).region (e.p 0 2)).state = 2 := by
  have hc : (cmdOf (cmdBody 3 1)).code = 3 := (natBytes_cmdOf _ _ _ (by omega)).trans (by decide +kernel)
  have h1 : (cmdOf (cmdBody 3 1)).p 0 2 = 1 := (cmdOf_p _ _ _ (by decide)).trans (by decide +kernel)
  have h2 : (cmdOf (cmdBody 3 1)).p 2 6 = 0 := (cmdOf_p _ _ _ (by decide)).trans (by decide +kernel)
  have hf : (cmdOf (cmdBody 3 1)).formOk 0 = true := cmdOf_formOk _ (by decide +kernel)
  obtain ⟨hm, hr⟩ := withCmd_mem st0 { ring0 with cut := true } (cmdBody 3 1)
  refine ⟨withCmd st0 { ring0 with cut := true } (cmdBody 3 1), cmdOf (cmdBody 3 1), ?_⟩
  rw [withCmd_ev, show st0.ev.a = 0 from rfl, withCmd_ring, h1, h2]
  exact ⟨pending_of rfl rfl rfl rfl rfl rfl rfl hm hr, rfl, State.ringsTurn_one (x := { ring0 with cut := true }) rfl, rfl, hc, hf, rfl, by decide +kernel⟩

theorem two_pending {t : State} {e : Cmd} {k : Nat} (hk : k < 2) (hb : t.sec.booted = true) (ha : t.sec.stateA = 0) (hm : t.memRead (sysKey 4096) 8 = 1)
    (hr : t.memRead (sysKey 0) 256 = e.v) : ({ t with sec := { t.sec with rings := [(0, ring0), (1, ring0)] } } : State).pending k = some e := by
  have : k = 0 ∨ k = 1 := by omega
  rcases this with rfl | rfl <;> exact pending_of rfl hb ha rfl rfl rfl rfl hm hr

/-- RegionCommands: two rings with something to serve; it is the second one's turn. -/
theorem witness_ring_waits : ∃ (s : State) (e : Cmd), s.pending s.ev.a = some e ∧ (s.cmdRing s.ev.a).waiting = false ∧ e.code = 3 ∧ s.ringsTurn s.ev.a = false := by
  obtain ⟨hm, hr⟩ := withCmd_mem st0 ring0 (cmdBody 3 1)
  have hc : (cmdOf (cmdBody 3 1)).code = 3 := (natBytes_cmdOf _ _ _ (by omega)).trans (by decide +kernel)
  let t := withCmd st0 ring0 (cmdBody 3 1)
  let s : State := { t with sec := { t.sec with rings := [(0, ring0), (1, ring0)] } }
  have p : ∀ k, k < 2 → s.pending k = some (cmdOf (cmdBody 3 1)) := fun k hk => two_pending hk rfl rfl hm hr
  refine ⟨s, cmdOf (cmdBody 3 1), p 0 (by decide), rfl, hc, ?_⟩
  have hd : s.ready = [0, 1] := by
    show (List.filter (fun e => !e.2.waiting && (s.pending e.1).isSome) [(0, ring0), (1, ring0)]).map (·.1) = [0, 1]
    simp only [List.filter_cons, p 0 (by decide), p 1 (by decide), Option.isSome_some, show ring0.waiting = false from rfl, Bool.not_false, Bool.and_self, if_true, List.filter_nil]
    rfl
  show s.ringsTurn 0 = false
  unfold State.ringsTurn
  rw [hd]
  decide

theorem stB'_tags (s : State) (code payload : Nat) : (stB' s code payload).tags = s.tags := by cases s; rfl
theorem stB'_draws (s : State) (code payload : Nat) : (stB' s code payload).sec.draws = s.sec.draws := by cases s; rfl
theorem withCmd_draws (s : State) (x : CmdRing) (body : Nat) : (withCmd s x body).sec.draws = s.sec.draws := by cases s; rfl

theorem retagOk_of {s : State} {e : Cmd} (h0 : e.p 0 8 = 0) (h1 : e.p 8 4 = 1) (h2 : e.p 12 2 = 5) (hw : s.module.waferNo = 0) (hr : (s.group 0).role = 1)
    (ha : (s.group 0).answering = true) : s.retagOk e = true := by
  have hp : paWafer 0 = 0 ∧ paGroup 0 = 0 ∧ paNamesPort 0 = true := by decide +kernel
  simp only [State.retagOk, Cmd.count, h0, h1, h2, hw, hp.1, hp.2.1, hp.2.2, hr, ha]
  decide +kernel

/-- SecurityEvents: each command in a state that lets it be; those that wait on firmware or randomness are in witness_security_given. -/
theorem witness_security_commands :
    canAnswer 0x11 (fun _ e s => kidOk (e.p 0 2) = true ∧ e.p 2 6 = 0 ∧ ∀ f ∈ s.tags, f.2.kid ≠ e.p 0 2) ∧
    canAnswer 0x11 (fun _ e s => kidOk (e.p 0 2) = true ∧ e.p 2 6 = 0 ∧ ∃ f ∈ s.tags, f.2.kid = e.p 0 2) ∧
    canAnswer 0x12 (fun _ e s => s.ev.flag = false ∧ s.retagOk e = true) ∧
    canAnswer 0x21 (fun _ e s => e.p 2 6 = 0 ∧ e.p 8 8 % 64 = 0 ∧ (e.p 0 2 = 0 ∨ (s.region (e.p 0 2)).exists_ = true)) ∧
    canAnswer 0x31 (fun k _ s => (s.cmdRing k).halted = true) ∧
    canAnswer 0x32 (fun _ e _ => e.p 0 8 % 64 = 0 ∧ powerOf2 16 65536 (e.p 8 4) = true ∧ e.p 12 4 = 0) ∧ st0.sec.stateB = 1 := by
  refine ⟨canAnswer_cmd st0 0x11 5 rfl rfl (by decide +kernel) ⟨by rw [cmdOf_p _ _ _ (by decide)]; decide +kernel, by rw [cmdOf_p _ _ _ (by decide)]; decide +kernel, by rw [stB'_tags]; exact fun f h => nomatch h⟩,
    canAnswer_cmd { st0 with tags := [(3, { kid := 5 })] } 0x11 5 rfl rfl (by decide +kernel) ⟨by rw [cmdOf_p _ _ _ (by decide)]; decide +kernel, by rw [cmdOf_p _ _ _ (by decide)]; decide +kernel, (3, { kid := 5 }), by rw [stB'_tags]; exact .head _, ?_⟩,
    canAnswer_cmd (stE st0) 0x12 (2 ^ 64 + 5 * 2 ^ 96 + 2 ^ 112) rfl rfl (by decide +kernel) ⟨by decide +kernel, ?_⟩,
    canAnswer_cmd st0 0x21 0 rfl rfl (by decide +kernel) ⟨by rw [cmdOf_p _ _ _ (by decide)]; decide +kernel, by rw [cmdOf_p _ _ _ (by decide)]; decide +kernel, .inl (by rw [cmdOf_p _ _ _ (by decide)]; decide +kernel)⟩,
    canAnswer_of st0 true 0 0x31 0 rfl rfl (by decide +kernel) (.inr ⟨rfl, by decide +kernel⟩) (by decide +kernel),
    canAnswer_cmd st0 0x32 (16 * 2 ^ 64) rfl rfl (by decide +kernel) ⟨by rw [cmdOf_p _ _ _ (by decide)]; decide +kernel, by rw [cmdOf_p _ _ _ (by decide)]; decide +kernel, by rw [cmdOf_p _ _ _ (by decide)]; decide +kernel⟩, rfl⟩
  · rw [cmdOf_p _ _ _ (by decide)]; decide +kernel
  · exact retagOk_of ((cmdOf_p _ _ _ (by decide)).trans (by decide +kernel)) ((cmdOf_p _ _ _ (by decide)).trans (by decide +kernel))
      ((cmdOf_p _ _ _ (by decide)).trans (by decide +kernel)) (by decide +kernel) (by decide +kernel) (by decide +kernel)

theorem drawKey_of {s : State} {k : Nat} {x : CmdRing} (hd : s.sec.draws = 0) (h : Config.reseedOk 0 = true) :
    (s.setCmdRing k x).drawKey.1 = some (Config.drbg 0) := by
  simp only [State.drawKey, State.setCmdRing, hd, h, if_true]

theorem drawKey_none {s : State} {k : Nat} {x : CmdRing} (hd : s.sec.draws = 0) (h : Config.reseedOk 0 = false) :
    (s.setCmdRing k x).drawKey.1 = none := by
  simp only [State.drawKey, State.setCmdRing, hd, h, Bool.false_eq_true, if_false]

/-- A state after the first draw makes a key. -/
def made (s : State) (e : Cmd) : State :=
  { s with sec := { s.sec with draws := 1 } }.bindKey (e.p 0 2) (e.p 4 2) (Config.drbg 0)

theorem makeKey_of {s : State} {e : Cmd} (hd : s.sec.draws = 0) (h : Config.reseedOk 0 = true) : s.makeKey 0 e = .done .ok 0 (made s e) := by
  unfold State.makeKey State.drawKey
  simp only [hd, h, if_true]
  rfl

/-- SecurityEvents: a key made at once or after a retry, a late launch of an image that passes or fails, and a new ring key, when the parts that the spec leaves to firmware and randomness let them be. -/
theorem witness_security_given :
    (Config.reseedOk 0 = true → ∃ key, canAnswer 0x10 (fun k e s => kidOk (e.p 0 2) = true ∧ e.p 2 2 = 0 ∧ e.p 6 2 = 0 ∧ e.p 4 2 ≠ 0 ∧ s.makeKey k e = .done .ok 0 key)) ∧
    (∀ b, Config.imageOk 0 0 = b → canAnswer 0x20 (fun _ e s => Config.imageOk (e.p 8 8) (s.memRead (edgeKey (e.p 0 8)) (e.p 8 8)) = b)) ∧
    (∀ key, Config.gcmOpen (Config.kmac256 256 0 72 wrapText 1) 0 (BitVec.ofNat 128 (1 + 0x30 * 2 ^ 64 + 64 * 2 ^ 80)) 0 0 = some key →
      canAnswer 0x30 (fun k e s => e.p 0xC 4 = 0 ∧ Config.gcmOpen (Config.kmac256 256 (s.cmdRing k).key 72 wrapText 1) (BitVec.ofNat 96 (e.p 0 12)) (BitVec.ofNat 128 (natBytes e.v 0 16))
        (BitVec.ofNat 256 (e.p 0x10 32)) (BitVec.ofNat 128 (e.p 0x30 16)) = some key)) ∧
    (∃ (s : State) (e : Cmd) (key : Option (BitVec 512)) (t : State), s.pending s.ev.a = some e ∧ (s.cmdRing s.ev.a).waiting = true ∧ (s.cmdRing s.ev.a).creating = 0 ∧ e.code = 0x10 ∧
      s.ev.b ≤ s.tick ∧ (Config.reseedOk 0 = true → key = some (Config.drbg 0)) ∧ (Config.reseedOk 0 = false → key = none) ∧
      (s.setCmdRing s.ev.a { s.cmdRing s.ev.a with retries := (s.cmdRing s.ev.a).retries + 1 }).drawKey = (key, t)) := by
  refine ⟨fun h => ⟨made (stB' st0 0x10 (5 + 2 ^ 32)) (cmdOf (cmdBody 0x10 (5 + 2 ^ 32))), canAnswer_cmd st0 0x10 (5 + 2 ^ 32) rfl rfl (by decide +kernel) ⟨by rw [cmdOf_p _ _ _ (by decide)]; decide +kernel, by rw [cmdOf_p _ _ _ (by decide)]; decide +kernel, by rw [cmdOf_p _ _ _ (by decide)]; decide +kernel, by rw [cmdOf_p _ _ _ (by decide)]; decide +kernel, ?_⟩⟩,
    fun b h => canAnswer_cmd st0 0x20 0 rfl rfl (by decide +kernel) ?_,
    fun key h => canAnswer_cmd st0 0x30 0 rfl rfl (by decide +kernel) ⟨by rw [cmdOf_p _ _ _ (by decide)]; decide +kernel, ?_⟩,
    withCmd st0 { ring0 with waiting := true, halted := false, challenge := 0, creating := 0 } (cmdBody 0x10 (5 + 2 ^ 32)), cmdOf (cmdBody 0x10 (5 + 2 ^ 32)), _, _,
      withCmd_pending st0 true false 0 0 _ rfl, by decide +kernel, by decide +kernel, ?_, by decide +kernel, ?_, ?_, rfl⟩
  · exact makeKey_of (by rw [stB'_draws]; rfl) h
  · rw [cmdOf_p _ 8 8 (by decide), show (⟨cmdBody 0x20 0⟩ : Cmd).p 8 8 = 0 by decide +kernel]
    exact h
  · rw [cmdOf_p _ 0 12 (by decide), cmdOf_p _ 0x10 32 (by decide), cmdOf_p _ 0x30 16 (by decide), natBytes_cmdOf _ _ _ (by decide),
      show (⟨cmdBody 0x30 0⟩ : Cmd).p 0 12 = 0 by decide +kernel, show (⟨cmdBody 0x30 0⟩ : Cmd).p 0x10 32 = 0 by decide +kernel,
      show (⟨cmdBody 0x30 0⟩ : Cmd).p 0x30 16 = 0 by decide +kernel, show natBytes (cmdBody 0x30 0) 0 16 = 1 + 0x30 * 2 ^ 64 + 64 * 2 ^ 80 by decide +kernel]
    exact h
  · exact (natBytes_cmdOf _ _ _ (by omega)).trans (by decide +kernel)
  · exact fun h => drawKey_of (withCmd_draws _ _ _) h
  · exact fun h => drawKey_none (withCmd_draws _ _ _) h

theorem withCmd_tags (s : State) (x : CmdRing) (body : Nat) : (withCmd s x body).tags = s.tags := by cases s; rfl
theorem withCmd_tag (s : State) (x : CmdRing) (body : Nat) : (withCmd s x body).tag = s.tag := by funext n; unfold State.tag; rw [withCmd_tags]

/-- A frame locked for its new tags. -/
def stRetag : State := { st0 with tags := [(0, { locked := true })], ev := { flag := true } }

/-- SecurityEvents: a RETAG under way, whose core may fail. -/
theorem witness_retag_running : ∃ (s : State) (e : Cmd), s.ev.flag = true ∧ s.pending s.ev.a = some e ∧ (s.cmdRing s.ev.a).waiting = true ∧ e.code = 0x12 ∧ s.ev.b < e.count ∧
    (s.tag (e.frame + s.ev.b)).locked = true ∧
    s.tags.find? (fun f => f.2.locked && decide (e.frame ≤ f.1 ∧ f.1 < e.frame + e.count)) = some (e.frame + 0, { locked := true }) := by
  have h1 : (cmdOf (cmdBody 0x12 (2 ^ 64 + 5 * 2 ^ 96))).p 8 4 = 1 := (cmdOf_p _ 8 4 (by decide)).trans (by decide +kernel)
  have h0 : (cmdOf (cmdBody 0x12 (2 ^ 64 + 5 * 2 ^ 96))).p 0 8 = 0 := (cmdOf_p _ 0 8 (by decide)).trans (by decide +kernel)
  have hc : (cmdOf (cmdBody 0x12 (2 ^ 64 + 5 * 2 ^ 96))).code = 0x12 := (natBytes_cmdOf _ _ _ (by omega)).trans (by decide +kernel)
  have hp := withCmd_pending stRetag true false 0 0 (cmdBody 0x12 (2 ^ 64 + 5 * 2 ^ 96)) rfl
  generalize cmdBody 0x12 (2 ^ 64 + 5 * 2 ^ 96) = b at *
  generalize hx : ({ ring0 with waiting := true, halted := false, challenge := 0, creating := 0 } : CmdRing) = x at hp
  refine ⟨withCmd stRetag x b, cmdOf b, ?_⟩
  rw [withCmd_ev, show stRetag.ev.a = 0 from rfl, withCmd_ring, Cmd.count, Cmd.frame, h1, h0]
  have ht : (withCmd stRetag x b).tag = stRetag.tag := withCmd_tag _ _ _
  have hg : (withCmd stRetag x b).tags = stRetag.tags := withCmd_tags _ _ _
  exact ⟨rfl, hp, by rw [← hx], hc, by decide, by rw [ht]; decide, by rw [hg]; decide⟩

end Sys2Proof.Tests
end

section
/-! SUPPORT. Stores to a site's SPM where every error code is good: the repair table gives each byte a place of its own (R86, R87), so the bytes stored
read back, lowest first (R3), and no other byte of any slice changes. -/
namespace Sys2Proof.Machine

/-! ### Where a byte of a slice stands -/

/-- A byte of a slice stands in its own row, or in the spare row of its bank whose entry names its row (R87). -/
theorem State.spmKey_cases (s : State) (t off : Nat) :
    s.spmKey t off = spmBase t + off ∨
    ∃ k < 4, fld (fget 0 (s.tile t).reptab (2 + 4 * (off / 65536) + k)) 0 10 = off / 64 % 1024 ∧
      s.spmKey t off = spmBase t + 0x180000 + (4 * (off / 65536) + k) * 64 + off % 64 := by
  unfold State.spmKey
  dsimp only
  split
  · rename_i k hk
    have hrow := List.find?_some hk
    rw [Bool.and_eq_true, beq_iff_eq] at hrow
    exact .inr ⟨k, List.mem_range.mp (List.mem_of_find?_eq_some hk), hrow.2, rfl⟩
  · exact .inl rfl

/-- No two bytes of slices share a place: the slices lie apart, and within one the spare row tells which row it substitutes (R86, R87). -/
theorem State.spmKey_inj (s : State) {t u o p : Nat} (ho : o < 0x180000) (hp : p < 0x180000) (h : s.spmKey t o = s.spmKey u p) :
    t = u ∧ o = p := by
  rcases s.spmKey_cases t o with hto | ⟨j, hj, hrow, hto⟩ <;> rcases s.spmKey_cases u p with hup | ⟨k, hk, hrow', hup⟩ <;>
    rw [hto, hup] at h <;> unfold spmBase at h
  · omega
  · omega
  · omega
  · have htu : t = u := by omega
    have hbank : o / 65536 = p / 65536 := by omega
    have hentry : j = k := by omega
    subst htu hentry
    rw [hbank, hrow'] at hrow
    omega

/-- A byte's place depends on the repair tables alone. -/
theorem State.spmKey_congr {s r : State} (h : r.tiles = s.tiles) (t off : Nat) : r.spmKey t off = s.spmKey t off := by
  unfold State.spmKey State.tile
  rw [h]

/-! ### The bytes that a write leaves -/

theorem State.spmWrite_tiles (n : Nat) (s : State) (t off v : Nat) : (s.spmWrite t off n v).tiles = s.tiles := by
  induction n generalizing s off v with
  | zero => rfl
  | succ n ih => exact ih _ _ _

theorem State.spmWrite_ecc (n : Nat) (s : State) (t off v : Nat) : (s.spmWrite t off n v).ecc = s.ecc := by
  induction n generalizing s off v with
  | zero => rfl
  | succ n ih => exact ih _ _ _

theorem State.spmWrite_spmKey (n : Nat) (s : State) (t off v u p : Nat) : (s.spmWrite t off n v).spmKey u p = s.spmKey u p :=
  State.spmKey_congr (s.spmWrite_tiles n t off v) u p

/-- A write changes no byte that stands elsewhere than the bytes it covers. -/
theorem State.byte_spmWrite_of_ne (n : Nat) {s : State} {t off v k : Nat} (h : ∀ i < n, k ≠ s.spmKey t (off + i)) :
    Memory.byte (s.spmWrite t off n v).mem k = Memory.byte s.mem k := by
  induction n generalizing s off v with
  | zero => rfl
  | succ n ih =>
    rw [State.spmWrite, ih fun i hi => ?_]
    · exact Memory.byte_put_ne _ _ (h 0 (by omega))
    · rw [Nat.add_assoc, Nat.add_comm 1 i]
      exact h (i + 1) (by omega)

/-- Every byte of a slice but those written stays. -/
theorem State.byte_spmWrite_outside {s : State} {t off n v u p : Nat} (hn : off + n ≤ 0x180000) (hp : p < 0x180000)
    (h : u ≠ t ∨ p < off ∨ off + n ≤ p) : Memory.byte (s.spmWrite t off n v).mem (s.spmKey u p) = Memory.byte s.mem (s.spmKey u p) :=
  State.byte_spmWrite_of_ne n fun i hi hkey => by
    obtain ⟨hut, hpo⟩ := s.spmKey_inj hp (by omega) hkey
    omega

/-- Read after write (R3): the low bytes of the number written. -/
theorem State.spmRead_spmWrite (n : Nat) {s : State} {t off v : Nat} (hn : off + n ≤ 0x180000) :
    (s.spmWrite t off n v).spmRead t off n = v % 256 ^ n := by
  induction n generalizing s off v with
  | zero => simp [State.spmRead, Nat.mod_one]
  | succ n ih =>
    have hfirst : Memory.byte (s.spmWrite t off (n + 1) v).mem (s.spmKey t off) = BitVec.ofNat 8 v :=
      (State.byte_spmWrite_outside (s := { s with mem := Memory.put s.mem (s.spmKey t off) (BitVec.ofNat 8 v) }) (by omega) (by omega)
        (.inr (.inl (Nat.lt_succ_self off)))).trans (Memory.byte_put_same _ _ _)
    rw [State.spmRead, State.spmWrite_spmKey, hfirst, State.spmWrite, ih (by omega), Nat.pow_succ' (m := 256), Nat.mod_mul, BitVec.toNat_ofNat]

/-! ### A store that meets no error -/

theorem State.eccAt_clean {s : State} (h : s.ecc = []) (k : Nat) : s.eccAt k = 0 := by
  rw [State.eccAt, h, fget_nil]

theorem State.correctables_clean {s : State} (h : s.ecc = []) (t off n : Nat) : s.correctables t off n = 0 := by
  simp [State.correctables, State.eccAt_clean h]

theorem State.storeEcc_clean {s : State} (h : s.ecc = []) (t off n : Nat) : s.storeEcc t off n = s :=
  List.foldl_fixed' (fun k => if_pos (State.eccAt_clean h k)) _

/-- Where every code is good a store writes its bytes and does nothing else: no code is mended and no error counted (R212). -/
theorem State.spmStore_clean {s : State} (h : s.ecc = []) (t off n v : Nat) : s.spmStore t off n v = s.spmWrite t off n v := by
  have hcount : (if n % 8 = 0 ∧ off % 8 = 0 then 0 else s.correctables t off n) = 0 := by rw [State.correctables_clean h, ite_self]
  rw [State.spmStore, hcount, State.countCec, if_pos rfl, State.spmPut, State.storeEcc_clean ((s.spmWrite_ecc n t off v).trans h)]

/-- Settles O59: with good codes a store is its bytes' write, no two bytes share a place, and so the bytes read back and the others stay. -/
theorem sliceReadBack : Obligations.SliceReadBack := by
  intro s t o n v hecc hfit
  dsimp only
  rw [State.spmStore_clean hecc]
  refine ⟨State.spmRead_spmWrite n hfit, fun u p hp hout => ?_⟩
  rw [State.spmWrite_spmKey]
  exact State.byte_spmWrite_outside hfit hp hout

end Sys2Proof.Machine
end

section
/-! SUPPORT. What a context fetches from its own slice (R112, R213), and whom the slot is given to (R105). -/
namespace Sys2Proof.Machine

/-! ### The fetch -/

/-- A pc off a word boundary is the misaligned-fetch fault (R112). -/
theorem State.fetch_misaligned {s : State} {t c : Nat} {a : Word} (h : fld a 0 2 ≠ 0) : s.fetch t c a = .fault 0x03 a := by
  rw [State.fetch, if_pos h]

/-- The word as the own slice holds it now, or the fault of an error in it (R112). -/
def State.ownWord (s : State) (t off : Nat) (a : Word) : Fetched :=
  if s.uncorrectable t off 4 then .fault 0x16 a else .word (BitVec.ofNat 32 (s.spmRead t off 4)) s

theorem State.ownWord_bad {s : State} {t off : Nat} (h : s.uncorrectable t off 4 = true) (a : Word) : s.ownWord t off a = .fault 0x16 a :=
  if_pos h

theorem State.ownWord_good {s : State} {t off : Nat} (h : s.uncorrectable t off 4 = false) (a : Word) :
    s.ownWord t off a = .word (BitVec.ofNat 32 (s.spmRead t off 4)) s := by
  rw [State.ownWord, h]; rfl

/-- A word of the own slice that no instruction before has stored to is fetched as it stands. -/
theorem State.fetch_own {s : State} {t c off : Nat} {a : Word} (ha : fld a 0 2 = 0) (hloc : s.checkForm t (s.ctx t c).mon a 4 = .ok (.loc off))
    (hstale : (s.tile t).stale.find? (fun e => e.1 == off) = none) : s.fetch t c a = s.ownWord t off a := by
  simp only [State.fetch, ha, ne_eq, not_true_eq_false, if_false, hloc, hstale, State.ownWord]

/-- One that the instruction before has stored to is fetched as it was, with the error it had, or as it stands (R213). -/
theorem State.fetch_stale {s : State} {t c off p : Nat} {old : Option (BitVec 32)} {a : Word} (ha : fld a 0 2 = 0)
    (hloc : s.checkForm t (s.ctx t c).mon a 4 = .ok (.loc off)) (hstale : (s.tile t).stale.find? (fun e => e.1 == off) = some (p, old)) :
    s.fetch t c a = old.elim (.fault 0x16 a) (fun w => .word w s) ∨ s.fetch t c a = s.ownWord t off a := by
  simp only [State.fetch, ha, ne_eq, not_true_eq_false, if_false, hloc, hstale]
  split
  · exact .inl (by cases old <;> rfl)
  · exact .inr rfl

theorem State.spmRead_atSlot (n : Nat) (s : State) (t c : Nat) (a : Word) (w : BitVec 32) (u off : Nat) :
    (s.atSlot t c a w).spmRead u off n = s.spmRead u off n := by
  induction n generalizing off with
  | zero => rfl
  | succ n ih => rw [State.spmRead, State.spmRead, ih]; rfl

/-- The word behind one on a word boundary lies on one. -/
theorem fld_add_four {a : Word} (h : fld a 0 2 = 0) : fld (a + 4) 0 2 = 0 := by
  simp only [fld, natBits, BitVec.toNat_add] at h ⊢
  simp at h ⊢
  omega

/-! ### The next word of a context -/

section
variable {s : State} {t c : Nat} (hf : (s.ctx t c).frame.state ≠ .run)
include hf

/-- A fault of the fetch at the pc is the fault of the context, at its pc. -/
theorem State.pickWord_of_fault {code : Nat} {tval : Word}
    (h : (s.atSlot t c (s.ctx t c).pc 0).fetch t c (s.ctx t c).pc = .fault code tval) :
    s.pickWord t c = .fault (s.atSlot t c (s.ctx t c).pc 0) code tval := by
  unfold State.pickWord
  dsimp only
  split
  · exact absurd ‹_› hf
  · rw [h]

/-- A word that is no modifier goes into the slot by itself. -/
theorem State.pickWord_of_word {w : BitVec 32}
    (h : (s.atSlot t c (s.ctx t c).pc 0).fetch t c (s.ctx t c).pc = .word w (s.atSlot t c (s.ctx t c).pc 0))
    (hw : isModifier w = false) : s.pickWord t c = .word (s.atSlot t c (s.ctx t c).pc w) := by
  unfold State.pickWord
  dsimp only
  split
  · exact absurd ‹_› hf
  · rw [h]; dsimp only; rw [hw]; rfl

/-- A modifier goes into the slot with the word behind it (R67). -/
theorem State.pickWord_of_pair {w w2 : BitVec 32}
    (h : (s.atSlot t c (s.ctx t c).pc 0).fetch t c (s.ctx t c).pc = .word w (s.atSlot t c (s.ctx t c).pc 0)) (hw : isModifier w = true)
    (h2 : (s.atSlot t c (s.ctx t c).pc 0).fetch t c ((s.ctx t c).pc + 4) = .word w2 (s.atSlot t c (s.ctx t c).pc 0)) :
    s.pickWord t c = .word { s with slot := { site := t, ctx := c, addr := (s.ctx t c).pc, word := w, word2 := w2, pair := true } } := by
  unfold State.pickWord
  dsimp only
  split
  · exact absurd ‹_› hf
  · rw [h]; dsimp only; rw [if_pos hw, h2]; rfl

end

/-- What the slot of a context holds comes from the four bytes at its pc (R67, R112, R213). -/
theorem pickReadsPc : Claims.PickReadsPc := by
  intro s t c pc hf stale
  let q := s.atSlot t c pc 0
  have hbad {off : Nat} (h : s.uncorrectable t off 4 = true) (a : Word) : q.ownWord t off a = .fault 0x16 a :=
    State.ownWord_bad (s := q) h a
  have hgood {off : Nat} (h : s.uncorrectable t off 4 = false) (a : Word) :
      q.ownWord t off a = .word (BitVec.ofNat 32 (s.spmRead t off 4)) q := by
    rw [← State.spmRead_atSlot 4 s t c pc 0]
    exact State.ownWord_good (s := q) h a
  have hown {a : Word} {off : Nat} (ha : fld a 0 2 = 0) (hloc : s.checkForm t (s.ctx t c).mon a 4 = .ok (.loc off)) (hst : stale off = none) :
      q.fetch t c a = q.ownWord t off a := State.fetch_own ha hloc hst
  refine ⟨fun ha => State.pickWord_of_fault hf (State.fetch_misaligned ha), ?_⟩
  intro off ha hloc w
  have hstale (p : Nat) (old : Option (BitVec 32)) (hst : stale off = some (p, old)) :
      q.fetch t c pc = old.elim (.fault 0x16 pc) (fun w => .word w q) ∨ q.fetch t c pc = q.ownWord t off pc := State.fetch_stale ha hloc hst
  refine ⟨?_, ?_, ?_, ?_, ?_⟩
  · intro hst herr
    exact State.pickWord_of_fault hf ((hown ha hloc hst).trans (hbad herr pc))
  · intro hst hok hw
    exact State.pickWord_of_word hf ((hown ha hloc hst).trans (hgood hok pc)) hw
  · intro p old hst hok hw hold
    rcases hstale p old hst with h | h
    · exact .inl (State.pickWord_of_word hf h hold)
    · exact .inr (State.pickWord_of_word hf (h.trans (hgood hok pc)) hw)
  · intro p hst hok hw
    rcases hstale p none hst with h | h
    · exact .inl (State.pickWord_of_fault hf h)
    · exact .inr (State.pickWord_of_word hf (h.trans (hgood hok pc)) hw)
  · intro hst hok hw hloc2 hst2 hok2
    exact State.pickWord_of_pair hf ((hown ha hloc hst).trans (hgood hok pc)) hw ((hown (fld_add_four ha) hloc2 hst2).trans (hgood hok2 (pc + 4)))

/-! ### The choice among the ready contexts -/

/-- The guaranteed turn: the context that TOK names is chosen where it is ready, and RR stays (R105). -/
theorem Tile.choose_token {x : Tile} {l : List Nat} (h : x.tok ∈ l) : x.choose l = (some x.tok, x.rr) := by
  rw [Tile.choose, if_neg (by simp [List.ne_nil_of_mem h]), if_pos (List.contains_iff_mem.mpr h)]

/-- The greatest of some numbers bounds them all. -/
theorem foldl_max_eq {l : List Nat} {m : Nat} (hm : m ∈ l) (hl : ∀ n ∈ l, n ≤ m) : l.foldl Nat.max 0 = m := by
  have h : l.max? = some m := List.max?_eq_some_iff.mpr ⟨hm, hl⟩
  exact List.foldl_max.trans (by simp [h])

theorem findSome?_ite_some {α β : Type} (q : α → Bool) (f : α → β) (l : List α) :
    l.findSome? (fun i => if q i then some (f i) else none) = (l.find? q).map f := by
  induction l with
  | nil => rfl
  | cons i l ih => cases h : q i <;> simp [h, ih]

/-- The context at a distance from RR is ready and of the priority p. -/
def Tile.readyAt (x : Tile) (l : List Nat) (p i : Nat) : Bool := l.contains ((x.rr + i) % 12) && (x.ctx ((x.rr + i) % 12)).epri == p

theorem Tile.readyAt_iff {x : Tile} {l : List Nat} {p i : Nat} :
    x.readyAt l p i = true ↔ (x.rr + i) % 12 ∈ l ∧ (x.ctx ((x.rr + i) % 12)).epri = p := by
  simp [Tile.readyAt]

/-- Without the guaranteed turn the search from RR for a ready context of the highest priority decides (R105). -/
theorem Tile.choose_priority {x : Tile} {l : List Nat} {m k : Nat} (htok : x.tok ∉ l) (hm : m ∈ l) (hmax : ∀ d ∈ l, (x.ctx d).epri ≤ (x.ctx m).epri)
    (hk : (List.range 12).find? (x.readyAt l (x.ctx m).epri) = some k) :
    x.choose l = (some ((x.rr + k) % 12), ((x.rr + k) % 12 + 1) % 12) := by
  have hp : (l.map fun c => (x.ctx c).epri).foldl Nat.max 0 = (x.ctx m).epri :=
    foldl_max_eq (List.mem_map_of_mem hm) (by simpa using hmax)
  have hfound := findSome?_ite_some (x.readyAt l (x.ctx m).epri) (fun i => (x.rr + i) % 12) (List.range 12)
  rw [hk] at hfound
  unfold Tile.readyAt at hfound
  rw [Tile.choose, if_neg (by simp [List.ne_nil_of_mem hm]), if_neg (by simpa using htok)]
  dsimp only
  rw [hp, hfound]
  rfl

/-- Some context of those listed has the highest priority. -/
theorem Tile.exists_highest (x : Tile) {l : List Nat} (h : l ≠ []) : ∃ m ∈ l, ∀ d ∈ l, (x.ctx d).epri ≤ (x.ctx m).epri := by
  simpa using Finset.exists_max_image l.toFinset (fun c => (x.ctx c).epri) (by simpa using h)

/-- A ready context of the priority p is met on the way around from RR. -/
theorem Tile.exists_readyAt {x : Tile} {l : List Nat} {m : Nat} (hm : m ∈ l) (hm12 : m < 12) (hrr : x.rr < 12) :
    ∃ k, (List.range 12).find? (x.readyAt l (x.ctx m).epri) = some k := by
  have hround : (x.rr + (m + 12 - x.rr) % 12) % 12 = m := by omega
  refine Option.isSome_iff_exists.mp (List.find?_isSome.mpr ⟨(m + 12 - x.rr) % 12, List.mem_range.mpr (Nat.mod_lt _ (by decide)), ?_⟩)
  rw [Tile.readyAt_iff, hround]
  exact ⟨hm, rfl⟩

theorem guaranteedTurn : Claims.GuaranteedTurn := by
  intro x l h
  rw [Tile.choose_token h]
  exact ⟨rfl, rfl⟩

theorem priorityTurn : Claims.PriorityTurn := by
  intro x l hne h12 htok hrr
  obtain ⟨m, hm, hmax⟩ := x.exists_highest hne
  obtain ⟨k, hk⟩ := Tile.exists_readyAt hm (h12 m hm) hrr
  obtain ⟨hready, hrange, hfirst⟩ := List.find?_range_eq_some.mp hk
  obtain ⟨hmem, hpri⟩ := Tile.readyAt_iff.mp hready
  refine ⟨(x.rr + k) % 12, k, Tile.choose_priority htok hm hmax hk, hmem, ?_, List.mem_range.mp hrange, rfl, ?_⟩
  · rw [hpri]
    exact hmax
  · intro j hj
    rw [hpri, ← Tile.readyAt_iff]
    simpa using hfirst j hj

/-- Settles O34: the fetch at the pc, the turn of the token, and the search from RR among the contexts of the highest priority. -/
theorem issueOrder : Obligations.IssueOrder := ⟨pickReadsPc, guaranteedTurn, priorityTurn⟩

end Sys2Proof.Machine
end

section
/-! SUPPORT. What the events of sites leave of a site and of the tile that stands on it: the reload of routes, the reports to islands and the writes of
memory touch neither the site nor the tile's place (R93 to R96, R417, R418). -/
namespace Sys2Proof.Machine

/-! ### A site and the place of its tile -/

/-- A site's record, and where and how the tile on it stands. -/
structure Standing where
  site : Site
  region : Nat
  col : Nat
  row : Nat
  held : Bool
  leaving : Option Nat
  ctxs : FMap Ctx

/-- How a tile stands on a site. -/
def Tile.standing (x : Tile) (y : Site) : Standing := ⟨y, x.region, x.col, x.row, x.held, x.leaving, x.ctxs⟩

def State.standing (s : State) (u : Nat) : Standing := (s.tile u).standing (s.site u)

theorem State.standing_foldl {β : Type} {u : Nat} {f : State → β → State} (h : ∀ s b, (f s b).standing u = s.standing u) (l : List β) (s : State) :
    (l.foldl f s).standing u = s.standing u := by
  induction l generalizing s with
  | nil => rfl
  | cons b l ih => rw [List.foldl_cons, ih, h]

theorem State.standing_setTile_same (s : State) (u : Nat) (x : Tile) : (s.setTile u x).standing u = x.standing (s.site u) := by
  unfold State.standing
  rw [State.tile_setTile_same]
  rfl

theorem State.standing_setTile_ne (s : State) {u v : Nat} (x : Tile) (h : u ≠ v) : (s.setTile v x).standing u = s.standing u := by
  unfold State.standing
  rw [State.tile_setTile_ne s x h]
  rfl

theorem State.standing_setSite_same (s : State) (u : Nat) (y : Site) : (s.setSite u y).standing u = (s.tile u).standing y := by
  unfold State.standing
  rw [State.site_setSite_same]
  rfl

/-- A change of a tile that leaves its place and its contexts moves no tile. -/
theorem State.standing_updTile {s : State} {v : Nat} {f : Tile → Tile} (h : (f (s.tile v)).standing (s.site v) = s.standing v) (u : Nat) :
    (s.updTile v f).standing u = s.standing u := by
  by_cases huv : u = v
  · subst huv
    exact (State.standing_setTile_same _ _ _).trans h
  · exact State.standing_setTile_ne s _ huv

/-! ### Operations that leave every tile where it stands -/

@[simp] theorem State.standing_later (s : State) (i : Instr) (e : EvArgs) (u : Nat) : (s.later i e).standing u = s.standing u := rfl
@[simp] theorem State.standing_setRegion (s : State) (r : Nat) (x : Region) (u : Nat) : (s.setRegion r x).standing u = s.standing u := rfl
@[simp] theorem State.standing_updRegion (s : State) (r : Nat) (f : Region → Region) (u : Nat) : (s.updRegion r f).standing u = s.standing u := rfl
@[simp] theorem State.standing_dropSteps (s : State) (v u : Nat) : (s.dropSteps v).standing u = s.standing u := rfl
@[simp] theorem State.standing_dropRegion (s : State) (r u : Nat) : (s.dropRegion r).standing u = s.standing u := rfl

@[simp] theorem State.standing_shareKey (s : State) (r v u : Nat) : (s.shareKey r v).standing u = s.standing u := by
  unfold State.shareKey
  dsimp only
  split <;> rfl

@[simp] theorem State.standing_raise (s : State) (e : EventMsg) (u : Nat) : (s.raise e).standing u = s.standing u := by
  unfold State.raise
  split
  · unfold State.eventWrite
    dsimp only
    split <;> rfl
  · rfl

@[simp] theorem State.standing_memStore (s : State) (key n v u : Nat) : (s.memStore key n v).standing u = s.standing u :=
  State.standing_foldl (fun s k => by split <;> rfl) _ _

@[simp] theorem State.standing_islandStore (s : State) (r : Nat) (l : List Nat × Bool) (n v u : Nat) :
    (s.islandStore r l n v).standing u = s.standing u := by
  refine (State.standing_foldl (fun s pa => State.standing_memStore s (edgeKey pa) n v u) _ _).trans ?_
  split
  · exact State.standing_raise _ _ _
  · rfl

@[simp] theorem State.standing_writeHopTable (s : State) (r u : Nat) : (s.writeHopTable r).standing u = s.standing u :=
  State.standing_foldl (fun s n => by split <;> simp) _ _

@[simp] theorem State.standing_loadNbr (s : State) (v u : Nat) : (s.loadNbr v).standing u = s.standing u :=
  State.standing_updTile rfl u

@[simp] theorem State.standing_reloadRegion (s : State) (r u : Nat) : (s.reloadRegion r).standing u = s.standing u := by
  rw [State.reloadRegion, State.standing_writeHopTable, State.standing_foldl fun s v => State.standing_loadNbr s v u]

@[simp] theorem State.standing_loadAround (s : State) (v u : Nat) : (s.loadAround v).standing u = s.standing u :=
  State.standing_foldl (fun s w => State.standing_loadNbr s w u) _ _

@[simp] theorem State.standing_scrub (s : State) (v u : Nat) : (s.scrub v).standing u = s.standing u :=
  State.standing_updTile rfl u

@[simp] theorem State.standing_loadMonitor (s : State) (v u : Nat) : (s.loadMonitor v).standing u = s.standing u :=
  State.standing_foldl (fun s k => by dsimp only; split <;> rfl) _ _

@[simp] theorem State.standing_reportTile (s : State) (v u : Nat) : (s.reportTile v).standing u = s.standing u := by
  have hcounts : (s.setTile v { s.tile v with counts := [], metered := s.tick }).standing u = s.standing u :=
    State.standing_updTile (f := fun x => { x with counts := [], metered := s.tick }) rfl u
  unfold State.reportTile
  dsimp only
  split <;> exact hcounts

theorem fget_map {α : Type} {d : α} {f : α → α} (h : f d = d) (m : FMap α) (k : Nat) : fget d (m.map (fun e => (e.1, f e.2))) k = f (fget d m k) := by
  induction m with
  | nil => exact h.symm
  | cons e m ih =>
    rw [List.map_cons, fget_cons, ih, ← apply_ite f]
    rfl

@[simp] theorem State.standing_retarget (s : State) (a b u : Nat) : (s.retarget a b).standing u = s.standing u := by
  have htile : (s.retarget a b).tile u = retargetTile a b (s.tile u) := fget_map rfl _ _
  unfold State.standing
  rw [htile]
  rfl

theorem State.region_setRegion (s : State) (r g : Nat) (x : Region) : (s.setRegion r x).region g = if g = r then x else s.region g :=
  fget_fset _ _ _ _ _

@[simp] theorem State.region_setTile (s : State) (t g : Nat) (x : Tile) : (s.setTile t x).region g = s.region g := rfl
@[simp] theorem Region.count_col0 (x : Region) (stamp : Nat) (add : FMap Nat → FMap Nat) : (x.count stamp add).col0 = x.col0 := rfl
@[simp] theorem Region.count_row0 (x : Region) (stamp : Nat) (add : FMap Nat → FMap Nat) : (x.count stamp add).row0 = x.row0 := rfl
@[simp] theorem Region.count_state (x : Region) (stamp : Nat) (add : FMap Nat → FMap Nat) : (x.count stamp add).state = x.state := rfl

/-- A report moves no region (R442). -/
theorem State.region_reportTile (s : State) (t g : Nat) :
    ((s.reportTile t).region g).col0 = (s.region g).col0 ∧ ((s.reportTile t).region g).row0 = (s.region g).row0 ∧
      ((s.reportTile t).region g).state = (s.region g).state := by
  unfold State.reportTile
  dsimp only
  split
  · exact ⟨rfl, rfl, rfl⟩
  · rw [State.region_setRegion]
    split <;> simp [*]

end Sys2Proof.Machine
end

section
/-! SUPPORT. Each event of a site, an island or a system register: what it answers, case by case (R7, R88 to R96, R410, R417, R418, R456). -/
namespace Sys2Proof.Machine

/-! ### Reset, death, heartbeat, fence, retest -/

theorem exec_tileReset_gone {s : State} (h : s.siteState s.ev.a = .dead ∨ s.siteState s.ev.a = .excluded) : exec .tileReset s = .next s :=
  if_pos h

theorem exec_tileReset_standing {s : State} (h : s.siteState s.ev.a ≠ .dead) (h1 : s.siteState s.ev.a ≠ .excluded) :
    exec .tileReset s = .next ((s.tileLost s.ev.a false).loadMonitor s.ev.a) :=
  if_neg (not_or.mpr ⟨h, h1⟩)

theorem State.die_gone {s : State} {t : Nat} (h : s.siteState t = .dead ∨ s.siteState t = .excluded) : s.die t = s := if_pos h

theorem State.die_standing {s : State} {t : Nat} (h : s.siteState t ≠ .dead) (h1 : s.siteState t ≠ .excluded) :
    s.die t = (s.setSite t { s.site t with state := some .dead }).tileLost t true := if_neg (not_or.mpr ⟨h, h1⟩)

/-- An answered heartbeat clears the misses (R93). -/
theorem exec_tileHeartbeat_answered {s : State} (h : s.ev.flag = true) :
    exec .tileHeartbeat s = .next (s.setSite s.ev.a { s.site s.ev.a with missed := 0 }) := if_pos h

/-- A missed one counts, and the second in a row is a death (R93). -/
theorem exec_tileHeartbeat_missed {s : State} (h : s.ev.flag = false) :
    exec .tileHeartbeat s =
      let t := s.setSite s.ev.a { s.site s.ev.a with missed := (s.site s.ev.a).missed + 1 }
      .next (if (s.site s.ev.a).missed = 0 then t else t.die s.ev.a) := by
  show execTileHeartbeat s = _
  unfold execTileHeartbeat
  dsimp only
  rw [if_neg (by simp [h])]
  by_cases h0 : (s.site s.ev.a).missed = 0
  · rw [if_pos h0, if_neg (by omega)]
  · rw [if_neg h0, if_pos (by omega)]

/-- A site without a tile of a region is fenced at once (R90). -/
theorem exec_siteFence_unassigned {s : State} (h : s.siteState s.ev.a = .free ∨ s.siteState s.ev.a = .spare) :
    exec .siteFence s = .next (s.setSite s.ev.a { s.site s.ev.a with state := some .fenced }) := by
  show execSiteFence s = _
  unfold execSiteFence
  rcases h with h | h <;> simp only [h]

/-- A fenced site that tests well returns: free where it backs its name, else a spare (R90). -/
theorem exec_serviceRetest_passed {s : State} (h : s.siteState s.ev.a = .fenced) (h1 : (s.site s.ev.a).withMap.noGrade = false)
    (h2 : marchBankx ((s.site s.ev.a).marchStatus
      ((s.tile s.ev.a).rfbad != 0 || fget 0 (s.tile s.ev.a).reptab 0 != 0 || fget 0 (s.tile s.ev.a).reptab 1 != 0)) = 0) :
    exec .serviceRetest s = .next ((s.setSite s.ev.a { s.site s.ev.a with
      state := some (if (s.logicalOf s.ev.a).isSome ∧ s.rehomedAway s.ev.a = false then .free else .spare), cec := 0, degrade := false,
      missed := 0 }).gradeSite s.ev.a) := by
  show execServiceRetest s = _
  unfold execServiceRetest
  dsimp only
  rw [if_neg (by rw [h1, h2]; simp [h])]
  simp

/-! ### System registers and islands -/

theorem exec_registerWrite_cethr {s : State} (h : s.ev.b = 0) :
    exec .registerWrite s = .next (s.setIsland s.ev.a { s.island s.ev.a with cethr := fld s.ev.w 0 8 }) := if_pos h

theorem exec_registerWrite_waferNo {s : State} (h : s.ev.b = 1) :
    exec .registerWrite s = .next { s with module := { s.module with waferNo := fld s.ev.w 0 4 } } := by
  show execRegisterWrite s = _
  unfold execRegisterWrite
  dsimp only
  rw [if_neg (by omega), if_pos h]

theorem exec_registerWrite_bay {s : State} (h : 64 ≤ s.ev.b) (h1 : s.ev.b < 128) :
    exec .registerWrite s = .next (s.writeBay (s.ev.b - 64) (bit s.ev.w 2) (bit s.ev.w 1)) := by
  show execRegisterWrite s = _
  unfold execRegisterWrite
  dsimp only
  rw [if_neg (by omega), if_neg (by omega), if_neg (by omega), if_pos ⟨h, h1⟩]

/-- A bay whose group has no role takes RELEASE and LED (R456). -/
theorem State.writeBay_noRole {s : State} {b : Nat} (h : (s.bay b).group = 255 ∨ (s.group (s.bay b).group).role = 0) (release led : Bool) :
    s.writeBay b release led = s.setBay b { s.bay b with led := led, release := release, latch := release && !(s.bay b).scrub } := by
  have hoff : ¬((s.bay b).group ≠ 255 ∧ (s.group (s.bay b).group).role ≠ 0) := by tauto
  simp [State.writeBay, hoff]

/-- One whose group has a role takes LED alone (R456). -/
theorem State.writeBay_role {s : State} {b : Nat} (h : (s.bay b).group ≠ 255) (h1 : (s.group (s.bay b).group).role ≠ 0) (release led : Bool) :
    s.writeBay b release led = s.setBay b { s.bay b with led := led, release := false, latch := false } := by
  simp [State.writeBay, h, h1]

/-- A working island that fails passes each of its regions to another (R410). -/
theorem exec_islandFailure_working {s : State} (h : (s.island s.ev.a).failed = false) : exec .islandFailure s =
    .next ((s.regions.filter (fun e => e.2.home == s.ev.a && e.2.state != 0)).foldl (fun t e =>
      let h := t.homeIsland e.2
      ((t.updRegion e.1 (fun x => { x with home := h })).addCause1 e.1 6 0).event e.1 0x49 0 0 0 0 0 (BitVec.ofNat 64 s.ev.a) (BitVec.ofNat 64 h))
      (s.setIsland s.ev.a { s.island s.ev.a with failed := true, pcieUp := false })) :=
  if_neg (by simp [h])

/-! ### Rehoming -/

/-- The mask of a rehome register keeps V (R95). -/
theorem bit_rehomeMask (w : Word) : bit (w &&& rehomeMask) 63 = bit w 63 := by
  simp [bit, rehomeMask]

section
variable {s : State} (hb : s.ev.b < 8) (hx : (s.region s.ev.a).state ≠ 0) (hv : bit s.ev.w 63 = false)
include hb hx hv

/-- A word without V over one without V is stored, and nothing else happens. -/
theorem exec_rehomeWrite_store (h : bit (fget 0 (s.region s.ev.a).rhm s.ev.b) 63 = false) : exec .rehomeWrite s =
    .next (s.setRegion s.ev.a { s.region s.ev.a with rhm := fset 0 (s.region s.ev.a).rhm s.ev.b (s.ev.w &&& rehomeMask) }) := by
  show execRehomeWrite s = _
  unfold execRehomeWrite
  dsimp only
  rw [if_neg (by omega), if_pos (by simp [bit_rehomeMask, hv]), if_pos (by rw [h]; rfl)]

omit hx in
/-- A word without V ends the entry of a stopped region, and the routes are loaded again (R95). -/
theorem exec_rehomeWrite_clear (h : bit (fget 0 (s.region s.ev.a).rhm s.ev.b) 63 = true) (h3 : (s.region s.ev.a).state = 3)
    (hs : (s.region s.ev.a).stopped = true) : exec .rehomeWrite s =
    .next ((s.setRegion s.ev.a { s.region s.ev.a with rhm := fset 0 (s.region s.ev.a).rhm s.ev.b (s.ev.w &&& rehomeMask) }).reloadRegion s.ev.a) := by
  show execRehomeWrite s = _
  unfold execRehomeWrite
  dsimp only
  rw [if_neg (by omega), if_pos (by simp [bit_rehomeMask, hv]), if_neg (by rw [h]; decide), if_neg (by simp [h3, hs])]

/-- A region that is not stopped keeps its entry (log entry 105). -/
theorem exec_rehomeWrite_refused (h : bit (fget 0 (s.region s.ev.a).rhm s.ev.b) 63 = true)
    (h3 : (s.region s.ev.a).state ≠ 3 ∨ (s.region s.ev.a).stopped = false) : exec .rehomeWrite s = .next s := by
  show execRehomeWrite s = _
  unfold execRehomeWrite
  dsimp only
  rw [if_neg (by omega), if_pos (by simp [bit_rehomeMask, hv]), if_neg (by rw [h]; decide), if_pos (by simpa using h3)]

end

/-- The site that a rehome word names (R95). -/
def rehomeSite (v : Word) : Nat := 640 * fld v 18 6 + 32 * fld v 0 5 + fld v 10 5

/-- v is a valid rehome word for the stopped region x: it names a spare site, and a name of the region that no other entry takes and to which no
route is too long (R95). -/
structure RehomeWord (s : State) (x : Region) (v : Word) : Prop where
  entry : s.ev.b < 8
  hacked : x.state = 3
  stopped : x.stopped = true
  valid : bit v 63 = true
  fieldLt : fld v 18 6 < 36
  rowLt : fld v 0 5 < 20
  spare : s.siteState (rehomeSite v) = .spare
  inWidth : fld v 24 8 < x.w
  inHeight : fld v 32 8 < x.h
  free : ({ x with rhm := fset 0 x.rhm s.ev.b 0 } : Region).rehomed (fld v 24 8) (fld v 32 8) = none
  near : (s.setRegion s.ev.a { x with
    rhm := fset 0 x.rhm s.ev.b v
    holes := x.holes.filter (· != fld v 32 8 * x.w + fld v 24 8) }).tooFar s.ev.a (fld v 24 8) (fld v 32 8) = false

/-- Such a word puts the spare site behind the name, held until the resume (R95). -/
theorem exec_rehomeWrite_spare {s : State} (h : RehomeWord s (s.region s.ev.a) (s.ev.w &&& rehomeMask)) :
    ∃ t y l, exec .rehomeWrite s = .next t ∧ y.state = some .assigned ∧ t.standing (rehomeSite (s.ev.w &&& rehomeMask)) =
      ⟨y, s.ev.a, fld (s.ev.w &&& rehomeMask) 24 8, fld (s.ev.w &&& rehomeMask) 32 8, true, l, []⟩ := by
  obtain ⟨hentry, hhacked, hstopped, hvalid, hfield, hsrow, hspare, hw, hh, hfree, hnear⟩ := h
  show ∃ t y l, execRehomeWrite s = .next t ∧ _
  unfold execRehomeWrite
  extract_lets r k v x col row u name others taken lost old s1 site s2 kn tile s3 s4 kk i s5 s6
  rw [if_neg (by have h3 : x.state = 3 := hhacked; omega), if_neg (by simp [v, hvalid]), if_neg]
  · have h4 : s4.standing u = ⟨{ site with state := some .assigned }, r, col, row, true, tile.leaving, []⟩ := by
      have hsite : s2.site u = { site with state := some .assigned } := State.site_setSite_same _ _ _
      calc s4.standing u = s3.standing u := (State.standing_loadMonitor _ _ _).trans (State.standing_scrub _ _ _)
        _ = _ := (State.standing_setTile_same s2 u _).trans (by rw [hsite]; rfl)
    have h5 : s5.standing u = s4.standing u := by
      simp only [s5]
      split <;> rfl
    have h6 : s6.standing u = s5.standing u := by
      simp only [s6]
      clear_value old
      cases old with
      | none => rfl
      | some w =>
        dsimp only
        split
        · rfl
        · rename_i hw
          have hne : u ≠ w := fun h => hw (.inr h.symm)
          have hold : (((s5.retarget w u).dropSteps w).updTile w Tile.emptied).standing u = s5.standing u :=
            (State.standing_setTile_ne _ _ hne).trans (State.standing_retarget _ _ _ _)
          split
          · exact (State.standing_setTile_ne _ _ hne).trans ((State.standing_reportTile _ _ _).trans hold)
          · exact hold
    have hend : (((s6.shareKey r u).reloadRegion r).later .placement { a := r }).standing u =
        ⟨{ site with state := some .assigned }, r, col, row, true, tile.leaving, []⟩ := by
      rw [State.standing_later, State.standing_reloadRegion, State.standing_shareKey, h6, h5, h4]
    exact ⟨_, _, _, rfl, rfl, hend⟩
  · have htaken : taken = false := congrArg Option.isSome hfree
    have hfar : s1.tooFar r col row = false := hnear
    have hs : x.stopped = true := hstopped
    simp only [not_or, not_le, not_not]
    exact ⟨hhacked, by simp [hs], hfield, hsrow, hspare, hw, hh, by simp [htaken], by simp [hfar]⟩

/-! ### Release -/

/-- The tile x stands as one that has gone to the region g, or with g zero to none: where g is another region it has there the place of the wafer
that it had, counted from the new corner, and is held while g is being created (R418). -/
structure GoneTo (s : State) (x : Tile) (g : Nat) (y : Standing) : Prop where
  region : y.region = g
  leaving : y.leaving = none
  ctxs : y.ctxs = []
  col : g ≠ 0 → g ≠ x.region → y.col = (s.region x.region).col0 + x.col - (s.region g).col0
  row : g ≠ 0 → g ≠ x.region → y.row = (s.region x.region).row0 + x.row - (s.region g).row0
  held : g ≠ 0 → g ≠ x.region → y.held = decide ((s.region g).state = 1)

/-- A drained tile leaves its region, for none or for the region that takes it (R418). -/
theorem exec_tileRelease_drained {s : State} {g : Nat} (h : (s.tile s.ev.a).leaving = some g)
    (hdue : Nat.max (s.tile s.ev.a).scrubEnd ((s.tile s.ev.a).dmax + 2 * epsilon) ≤ s.nowAt s.ev.a) :
    ∃ t, exec .tileRelease s = .next t ∧ GoneTo s (s.tile s.ev.a) g (t.standing s.ev.a) := by
  show ∃ t, execTileRelease s = .next t ∧ _
  unfold execTileRelease
  extract_lets t x r s1 src y site
  rw [show x.leaving = some g from h]
  dsimp -zeta only
  rw [if_neg (not_lt.mpr hdue)]
  extract_lets z s2 s3 s4 left
  have h2 : GoneTo s x g (s2.standing t) := by
    obtain ⟨hrcol, hrrow, -⟩ := s.region_reportTile t r
    obtain ⟨hcol, hrow, hstate⟩ := s.region_reportTile t g
    simp only [s2]
    split
    · rename_i hg
      rw [State.standing_loadNbr, State.standing_setTile_same]
      exact ⟨hg.symm, rfl, rfl, fun _ hne => absurd hg hne, fun _ hne => absurd hg hne, fun _ hne => absurd hg hne⟩
    · split
      · rename_i hg
        rw [State.standing_setSite_same, State.tile_setTile_same]
        exact ⟨hg.symm, rfl, rfl, fun hne => absurd hg hne, fun hne => absurd hg hne, fun hne => absurd hg hne⟩
      · rw [State.standing_loadAround, State.standing_setTile_same]
        exact ⟨rfl, rfl, rfl, fun _ _ => congrArg₂ (· + x.col - ·) hrcol hcol, fun _ _ => congrArg₂ (· + x.row - ·) hrrow hrow,
          fun _ _ => congrArg (fun n => decide (n = 1)) hstate⟩
  have h3 : s3.standing t = s2.standing t := by
    simp only [s3]
    split <;> rfl
  have h4 : s4.standing t = s3.standing t := by
    simp only [s4]
    split <;> rfl
  rw [← h3, ← h4] at h2
  split
  · exact ⟨_, rfl, h2⟩
  · split
    · refine ⟨_, rfl, ?_⟩
      rw [State.standing_later, State.standing_updRegion, State.standing_dropRegion]
      exact h2
    · split
      · refine ⟨_, rfl, ?_⟩
        rw [State.standing_later]
        exact h2
      · exact ⟨_, rfl, h2⟩

/-- Settles O21: each clause is what its event answers in that case. -/
theorem siteEvents : Obligations.SiteEvents := by
  refine ⟨?gone, ?reset, ?death, ?answered, ?missed, ?fence, ?retest, ?noV, ?cethr, ?waferNo, ?bay, ?rehome, ?island, ?none, ?other⟩
  case gone => exact fun s h => ⟨exec_tileReset_gone h, congrArg Host.Outcome.next (State.die_gone h)⟩
  case reset => exact fun s h h1 => exec_tileReset_standing h h1
  case death => exact fun s h h1 => congrArg Host.Outcome.next (State.die_standing h h1)
  case answered => exact fun s h => exec_tileHeartbeat_answered h
  case missed => exact fun s h => exec_tileHeartbeat_missed h
  case fence => exact fun s h => exec_siteFence_unassigned h
  case retest => exact fun s h h1 h2 => exec_serviceRetest_passed h h1 h2
  case noV =>
    exact fun s hb hx hv => ⟨exec_rehomeWrite_store hb hx hv, fun h h3 hs => exec_rehomeWrite_clear hb hv h h3 hs,
      fun h h3 => exec_rehomeWrite_refused hb hx hv h h3⟩
  case cethr => exact fun s h => exec_registerWrite_cethr h
  case waferNo => exact fun s h => exec_registerWrite_waferNo h
  case bay =>
    exact fun s h h1 => ⟨fun hr => (exec_registerWrite_bay h h1).trans (congrArg Host.Outcome.next (State.writeBay_noRole hr _ _)),
      fun hg hr => (exec_registerWrite_bay h h1).trans (congrArg Host.Outcome.next (State.writeBay_role hg hr _ _))⟩
  case rehome =>
    intro s x v col row u hb h3 hs hvalid hf hr hspare hw hh hfree hnear
    obtain ⟨t, y, l, hexec, hy, ht⟩ := exec_rehomeWrite_spare ⟨hb, h3, hs, hvalid, hf, hr, hspare, hw, hh, hfree, hnear⟩
    exact ⟨t, hexec, (congrArg (·.site.state) ht).trans hy, congrArg (·.region) ht, congrArg (·.col) ht, congrArg (·.row) ht, congrArg (·.held) ht⟩
  case island => exact fun s h => exec_islandFailure_working h
  case none =>
    intro s h hdue
    obtain ⟨t, hexec, hgone⟩ := exec_tileRelease_drained h hdue
    exact ⟨t, hexec, hgone.region, hgone.leaving, hgone.ctxs⟩
  case other =>
    intro s g x h hg hne _ _ hdue
    obtain ⟨t, hexec, hgone⟩ := exec_tileRelease_drained h hdue
    exact ⟨t, hexec, hgone.region, hgone.leaving, hgone.ctxs, hgone.col hg hne, hgone.row hg hne, hgone.held hg hne⟩

end Sys2Proof.Machine
end

section
/-! SUPPORT. The end of an instruction and its beginning leave the vector registers, the masks and memory as the operation left them: forwarding to followers,
the next pc and the high-water mark touch none of them (R97, R176, R361, R449). -/
namespace Sys2Proof.Machine

/-! ### Forwarding to a train's followers (R361) -/

/-- What forwarding leaves alone: memory, the slot and every context. -/
structure KeepsCtxs (s t : State) : Prop where
  mem : t.mem = s.mem
  slot : t.slot = s.slot
  ctx : ∀ u c, t.ctx u c = s.ctx u c

theorem KeepsCtxs.refl (s : State) : KeepsCtxs s s := ⟨rfl, rfl, fun _ _ => rfl⟩

theorem KeepsCtxs.trans {s t u : State} (h : KeepsCtxs s t) (g : KeepsCtxs t u) : KeepsCtxs s u :=
  ⟨g.mem.trans h.mem, g.slot.trans h.slot, fun v c => (g.ctx v c).trans (h.ctx v c)⟩

theorem keepsCtxs_foldl {β : Type} {f : State → β → State} (h : ∀ s b, KeepsCtxs s (f s b)) (l : List β) (s : State) : KeepsCtxs s (l.foldl f s) := by
  induction l generalizing s with
  | nil => exact .refl s
  | cons b l ih => exact (h s b).trans (ih _)

/-- A change of a tile's train is none of its contexts. -/
theorem keepsCtxs_updTile (s : State) (v : Nat) {f : Tile → Tile} (h : (f (s.tile v)).ctxs = (s.tile v).ctxs) : KeepsCtxs s (s.updTile v f) := by
  refine ⟨rfl, rfl, fun u c => ?_⟩
  by_cases hu : u = v
  · rw [hu, State.ctx, State.tile_updTile_same, Tile.ctx, h]; rfl
  · rw [State.ctx, State.tile_updTile_ne _ _ hu]; rfl

theorem keepsCtxs_forwardWord (s : State) (t : Nat) (a : Word) (w w2 : BitVec 32) : KeepsCtxs s (s.forwardWord t a w w2) := by
  refine (keepsCtxs_updTile s t rfl).trans (keepsCtxs_foldl (fun s d => ?_) _ _)
  split
  · exact .refl s
  · split
    · dsimp only
      split
      · have hlane := fun u => keepsCtxs_updTile s u (f := fun y => { y with train := { y.train with lane := y.train.lane ++ [(a, w, w2)] } }) rfl
        split
        · exact (hlane _).trans ⟨rfl, rfl, fun _ _ => rfl⟩
        · exact (hlane _).trans ⟨rfl, rfl, fun _ _ => rfl⟩
      · exact .refl s
    · exact .refl s

theorem keepsCtxs_forward (s : State) : KeepsCtxs s s.forward := by
  unfold State.forward
  dsimp only
  split
  · exact keepsCtxs_forwardWord _ _ _ _ _
  · exact .refl s

@[simp] theorem State.cur_forward (s : State) : s.forward.cur = s.cur := by
  rw [State.cur, (keepsCtxs_forward s).slot]
  exact (keepsCtxs_forward s).ctx _ _

/-! ### Going on at the next word -/

@[simp] theorem Ctx.readV_step (x : Ctx) (l : Slot) (npc : Word) (v : Nat) : (x.step l npc).readV v = x.readV v := by
  unfold Ctx.step
  dsimp only
  repeat' split
  all_goals rfl

@[simp] theorem State.readV_goOn (s : State) (npc : Word) (v : Nat) : (s.goOn npc).cur.readV v = s.cur.readV v := by
  unfold State.goOn
  dsimp only
  split
  · rw [State.cur_updCur, State.cur_updCur]
    exact Ctx.readV_step _ _ _ _
  · rw [State.cur_updCur, Ctx.readV_step]

@[simp] theorem State.mem_goOn (s : State) (npc : Word) : (s.goOn npc).mem = s.mem := by
  unfold State.goOn
  dsimp only
  split <;> rfl

@[simp] theorem State.readV_retire (s : State) (v : Nat) : s.retire.cur.readV v = s.cur.readV v := by
  rw [State.retire, State.finish, State.readV_goOn, State.cur_forward]

@[simp] theorem State.mem_retire (s : State) : s.retire.mem = s.mem := by
  rw [State.retire, State.finish, State.mem_goOn, (keepsCtxs_forward s).mem]

/-! ### What a word without g sources takes -/

theorem Need.take_noSrcs {n : Need} (h : n.srcs = []) (s : State) : n.take s = s.updCur (fun x => n.named.foldl Ctx.raise x) := by
  rw [Need.take, h]
  rfl

/-- The high-water mark is all that rises (R97). -/
theorem Ctx.foldl_raise (l : List Nat) (x : Ctx) : ∃ h, l.foldl Ctx.raise x = { x with hwm := h } := by
  induction l generalizing x with
  | nil => exact ⟨_, rfl⟩
  | cons r l ih =>
    have hr : ∃ h, x.raise r = { x with hwm := h } := by
      unfold Ctx.raise
      split
      · exact ⟨_, rfl⟩
      · exact ⟨_, rfl⟩
    obtain ⟨h, hr⟩ := hr
    obtain ⟨k, hk⟩ := ih { x with hwm := h }
    exact ⟨k, by rw [List.foldl_cons, hr, hk]⟩

theorem Need.cur_take_noSrcs {n : Need} (h : n.srcs = []) (s : State) : ∃ k, (n.take s).cur = { s.cur with hwm := k } := by
  rw [Need.take_noSrcs h, State.cur_updCur]
  exact Ctx.foldl_raise _ _

theorem Need.readV_take_noSrcs {n : Need} (h : n.srcs = []) (s : State) (v : Nat) : (n.take s).cur.readV v = s.cur.readV v := by
  obtain ⟨k, hk⟩ := Need.cur_take_noSrcs h s
  rw [hk]
  rfl

theorem Need.mask_take_noSrcs {n : Need} (h : n.srcs = []) (s : State) (m : Nat) : (n.take s).cur.mask m = s.cur.mask m := by
  obtain ⟨k, hk⟩ := Need.cur_take_noSrcs h s
  rw [hk]
  rfl

theorem Need.mem_take_noSrcs {n : Need} (h : n.srcs = []) (s : State) : (n.take s).mem = s.mem := by
  rw [Need.take_noSrcs h, State.updCur_mem]

/-! ### The context an operation leaves -/

@[simp] theorem Ctx.readV_orFlags (x : Ctx) (f : BitVec 6) (v : Nat) : (x.orFlags f).readV v = x.readV v := rfl

/-- Two updates that agree on the context at hand are one. -/
theorem State.updCur_congr {s : State} {f g : Ctx → Ctx} (h : f s.cur = g s.cur) : s.updCur f = s.updCur g :=
  congrArg (s.setCtx s.slot.site s.slot.ctx) h

/-- A ready vector operation completes with what it gives of the context at hand. -/
theorem vecOp_ready {i : Instr} {srcs vd : List (BitVec 5)} {readsD : Bool} {m : BitVec 3} {s : State} (f : Ctx → Ctx × BitVec 6)
    (h : (Claims.needV i srcs vd readsD m).ready s = true) : let x := f ((Claims.needV i srcs vd readsD m).take s).cur
    vecOp i srcs vd readsD m f s = .next (((Claims.needV i srcs vd readsD m).take s).updCur (fun _ => x.1.orFlags x.2)).retire :=
  issue_ok h rfl

end Sys2Proof.Machine
end

section
/-! SUPPORT. Lanes put side by side: the number that holds them, and each of them read back (R157). -/
namespace Sys2Proof.Machine

/-- The number whose lane j of width w is `f j`, for n lanes: what the folds over the lanes of a result compute. -/
def joinLanes (w n : Nat) (f : Nat → Nat) : Nat := (List.range n).foldl (fun acc j => acc + f j * 2 ^ (w * j)) 0

theorem joinLanes_succ (w n : Nat) (f : Nat → Nat) : joinLanes w (n + 1) f = joinLanes w n f + f n * 2 ^ (w * n) := by
  simp only [joinLanes, List.range_succ, List.foldl_append, List.foldl_cons, List.foldl_nil]

/-- Values that fit their lanes fill no more than the lanes. -/
theorem joinLanes_lt {w : Nat} {f : Nat → Nat} (hf : ∀ j, f j < 2 ^ w) (n : Nat) : joinLanes w n f < 2 ^ (w * n) := by
  induction n with
  | zero => exact Nat.one_pos
  | succ n ih =>
    calc joinLanes w (n + 1) f = joinLanes w n f + f n * 2 ^ (w * n) := joinLanes_succ w n f
      _ < 2 ^ (w * n) + f n * 2 ^ (w * n) := Nat.add_lt_add_right ih _
      _ = (f n + 1) * 2 ^ (w * n) := by rw [Nat.succ_mul, Nat.add_comm]
      _ ≤ 2 ^ w * 2 ^ (w * n) := Nat.mul_le_mul_right _ (hf n)
      _ = 2 ^ (w * (n + 1)) := by rw [← Nat.pow_add, Nat.mul_succ, Nat.add_comm]

/-- A lane below the topmost part does not see it. -/
theorem lane_add_mul {w j n : Nat} (h : j < n) (a b : Nat) : lane (a + b * 2 ^ (w * n)) w j = lane a w j := by
  obtain ⟨k, rfl⟩ := Nat.exists_eq_add_of_lt h
  have hpow : b * 2 ^ (w * (j + k + 1)) = b * 2 ^ (w * k) * 2 ^ w * 2 ^ (w * j) := by
    rw [Nat.mul_assoc, Nat.mul_assoc, ← Nat.pow_add, ← Nat.pow_add]
    congr 2
    ring
  rw [lane, lane, hpow, Nat.add_mul_div_right _ _ (Nat.two_pow_pos _), Nat.add_mul_mod_self_right]

theorem lane_joinLanes {w : Nat} {f : Nat → Nat} (hf : ∀ j, f j < 2 ^ w) {n j : Nat} (h : j < n) : lane (joinLanes w n f) w j = f j := by
  induction n with
  | zero => exact absurd h (Nat.not_lt_zero j)
  | succ n ih =>
    rw [joinLanes_succ]
    rcases Nat.lt_succ_iff_lt_or_eq.mp h with hlt | rfl
    · rw [lane_add_mul hlt, ih hlt]
    · rw [lane, Nat.add_mul_div_right _ _ (Nat.two_pow_pos _), Nat.div_eq_of_lt (joinLanes_lt hf j), Nat.zero_add, Nat.mod_eq_of_lt (hf j)]

/-- A register as wide as the lanes holds them all. -/
theorem lane_ofNat_joinLanes {w n k j : Nat} {f : Nat → Nat} (hk : w * n = k) (hf : ∀ j, f j < 2 ^ w) (h : j < n) :
    lane (BitVec.ofNat k (joinLanes w n f)).toNat w j = f j := by
  subst hk
  rw [BitVec.toNat_ofNat, Nat.mod_eq_of_lt (joinLanes_lt hf n), lane_joinLanes hf h]

theorem lane_lt (n w j : Nat) : lane n w j < 2 ^ w := Nat.mod_lt _ (Nat.two_pow_pos w)

end Sys2Proof.Machine
end

section
/-! SUPPORT. The reductions and the carry-less product of vectors (R50, R166, R167). -/
namespace Sys2Proof.Machine

/-! ### Reductions -/

/-- The three reductions are one operation, with no modifier word before it (R166). -/
theorem exec_vred {p : (BitVec 5 → BitVec 5 → BitVec 3 → BitVec 4 → Instr) × RedOp}
    (hp : p ∈ [(Instr.vredAdd, RedOp.add), (.vredMax, .max), (.vredMin, .min)]) (vd va : BitVec 5) (m : BitVec 3) (c : BitVec 4) (s : State) :
    exec (p.1 vd va m c) s = vfRed {} (p.1 vd va m c) p.2 vd va m c s := by
  simp only [List.mem_cons, List.not_mem_nil, or_false] at hp
  obtain rfl | rfl | rfl := hp
  · rfl
  · rfl
  · rfl

/-- What the operation takes of the context at hand and what the statement says of it are one and the same: single registers (R166), and FCSR's rounding
mode and flush, as no modifier stands before the word (R36). -/
theorem vectorReductions : Claims.VectorReductions := by
  intro p hp vd va m c i w s h
  rw [exec_vred hp, vfRed, issue_ok h rfl]
  exact congrArg (fun t => Host.Outcome.next (State.retire t)) (State.updCur_congr rfl)

/-! ### The carry-less product -/

/-- Segment g of what vclmul writes, of the values of its registers and its mask (R167). -/
def clmulSegment (mask : BitVec 16) (a b d : VecReg) (g : Nat) : Nat :=
  let part := fun k => clmul128 (BitVec.ofNat 64 (lane a.toNat 64 k)) (BitVec.ofNat 64 (lane b.toNat 64 k))
  if bit mask (4 * g) then (part (2 * g) ^^^ part (2 * g + 1)).toNat else lane d.toNat 128 g

theorem clmulSegment_lt (mask : BitVec 16) (a b d : VecReg) (g : Nat) : clmulSegment mask a b d g < 2 ^ 128 := by
  unfold clmulSegment
  split
  · exact BitVec.isLt _
  · exact lane_lt _ _ _

/-- The register vclmul writes: its four segments side by side. -/
def Ctx.clmulFold (x : Ctx) (vd va vb : BitVec 5) (m : BitVec 3) : VecReg :=
  BitVec.ofNat 512 (joinLanes 128 4 (clmulSegment (x.mask m.toNat) (x.readV va.toNat) (x.readV vb.toNat) (x.readV vd.toNat)))

/-- The segments fit the register, so each stands there as computed. -/
theorem Ctx.lane_clmulFold (x : Ctx) (vd va vb : BitVec 5) (m : BitVec 3) {g : Nat} (hg : g < 4) :
    lane (x.clmulFold vd va vb m).toNat 128 g = clmulSegment (x.mask m.toNat) (x.readV va.toNat) (x.readV vb.toNat) (x.readV vd.toNat) g :=
  lane_ofNat_joinLanes rfl (clmulSegment_lt _ _ _ _) hg

theorem exec_vclmul (vd va vb : BitVec 5) (m : BitVec 3) (s : State) : exec (.vclmul vd va vb m) s =
    vecOp (.vclmul vd va vb m) [va, vb] [vd] false m (fun x => (x.putV vd.toNat (x.clmulFold vd va vb m), 0)) s := rfl

/-- The registers and the mask are those before the instruction: what it takes first changes none of them. -/
theorem vectorCarryless : Claims.VectorCarryless := by
  intro vd va vb m i s h
  refine ⟨_, (exec_vclmul vd va vb m s).trans (vecOp_ready _ h), ?_, fun u hu => ?_, fun g hg => ?_⟩
  · rw [State.mem_retire, State.updCur_mem, Need.mem_take_noSrcs rfl]
  · rw [State.readV_retire, State.cur_updCur, Ctx.readV_orFlags, Ctx.readV_putV_ne _ _ hu, Need.readV_take_noSrcs rfl]
  · rw [State.readV_retire, State.cur_updCur, Ctx.readV_orFlags, Ctx.readV_putV_same, Ctx.lane_clmulFold _ _ _ _ _ hg,
      Need.mask_take_noSrcs rfl, Need.readV_take_noSrcs rfl, Need.readV_take_noSrcs rfl, Need.readV_take_noSrcs rfl]
    rfl

/-- Settles O50: the reductions and the carry-less product, each from the operation it is. -/
theorem vectorFolds : Obligations.VectorFolds := ⟨vectorReductions, vectorCarryless⟩

end Sys2Proof.Machine
end

section
/-! SUPPORT. The encoder and the decoder are each other's inverse: what a word decodes to, the fields of a word written out, and the rows of the table. -/
namespace Sys2Proof

/-! ### What decodes -/

theorem opcodeAssigned_of_decodeRow {w : BitVec 32} {i : Instr} (h : decodeRow w = some i) : opcodeAssigned (cut w 26 6).toNat = true := by
  unfold decodeRow at h
  split at h
  all_goals rename_i ho
  on_goal -1 => cases h
  all_goals rw [ho]; rfl

/-- A word decodes to an instruction where its row gives it and its fields keep their limits (R76). -/
theorem decode_eq_ok_iff {w : BitVec 32} {i : Instr} : decode w = .ok i ↔ decodeRow w = some i ∧ i.wf = true := by
  constructor
  · intro h
    refine ⟨?_, decode_wf h⟩
    unfold decode at h
    split at h
    · split at h
      · cases h
      · rename_i hi
        split at h
        · cases h; exact hi
        · cases h
    · cases h
  · rintro ⟨hi, hw⟩
    rw [decode, if_pos (opcodeAssigned_of_decodeRow hi), hi]
    exact if_pos hw

/-! ### Fields of a word written out

The lemmas below say what is cut out of two words side by side; their premises on places hold no sum, so that `simp` settles them by comparing numerals. -/

theorem extract_eq_iff_halves {n : Nat} (a : BitVec n) (lo k j : Nat) (d : BitVec k) (h : j ≤ k) :
    a.extractLsb' lo k = d ↔ a.extractLsb' (lo + j) (k - j) = d.extractLsb' j (k - j) ∧ a.extractLsb' lo j = d.extractLsb' 0 j := by
  simp only [BitVec.eq_of_getLsbD_eq_iff, BitVec.getLsbD_extractLsb']
  constructor
  · intro hd
    constructor
    · intro i hi
      simpa [hi, show j + i < k by omega, Nat.add_assoc] using hd (j + i) (by omega)
    · intro i hi
      simpa [hi, show i < k by omega] using hd i (by omega)
  · rintro ⟨ha, hb⟩ i hi
    by_cases hj : i < j
    · simpa [hi, hj] using hb i hj
    · simpa [hi, show i - j < k - j by omega, show lo + j + (i - j) = lo + i by omega, show j + (i - j) = i by omega] using ha (i - j) (by omega)

theorem cut_append_hi {n m : Nat} (a : BitVec n) (b : BitVec m) (lo k : Nat) (h : m ≤ lo) :
    (a ++ b).extractLsb' lo k = a.extractLsb' (lo - m) k := extract_append_hi a b lo k h

theorem cut_append_lo {n m : Nat} (a : BitVec n) (b : BitVec m) (lo k : Nat) (h : k ≤ m) (h1 : lo ≤ m - k) :
    (a ++ b).extractLsb' lo k = b.extractLsb' lo k := extract_append_lo a b lo k (by omega)

theorem cut_all {n : Nat} (a : BitVec n) : a.extractLsb' 0 n = a := extract_all a 0 rfl

/-- A selector that lies in both words is compared half by half. -/
theorem cut_span {n m : Nat} (a : BitVec n) (b : BitVec m) (lo k : Nat) (d : BitVec k) (h : lo < m) (h1 : m - lo < k) :
    (a ++ b).extractLsb' lo k = d ↔
      a.extractLsb' 0 (k - (m - lo)) = d.extractLsb' (m - lo) (k - (m - lo)) ∧ b.extractLsb' lo (m - lo) = d.extractLsb' 0 (m - lo) := by
  rw [extract_eq_iff_halves _ lo k (m - lo) d (by omega), cut_append_hi a b _ _ (by omega), cut_append_lo a b lo _ (by omega) (by omega),
    show lo + (m - lo) - m = 0 by omega]

/-! ### From an instruction to its word and back -/

/-- The row of w where its opcode is o: `decodeRow` with the opcode in sight. -/
def decodeAs (o : BitVec 6) (w : BitVec 32) : Option Instr := if cut w 26 6 = o then decodeRow w else none

theorem decodeRow_eq_decodeAs (w : BitVec 32) : decodeRow w = decodeAs (cut w 26 6) w := (if_pos rfl).symm

/-- The rows of each opcode of the table (R76). -/
theorem decodeAs_opcode (w : BitVec 32) :
    (cut w 26 6 = 0x01#6 → decodeAs 0x01#6 w = decodeOp01 w) ∧ (cut w 26 6 = 0x02#6 → decodeAs 0x02#6 w = decodeOp02 w) ∧
    (cut w 26 6 = 0x03#6 → decodeAs 0x03#6 w = decodeOp03 w) ∧ (cut w 26 6 = 0x04#6 → decodeAs 0x04#6 w = decodeOp04 w) ∧
    (cut w 26 6 = 0x05#6 → decodeAs 0x05#6 w = decodeOp05 w) ∧ (cut w 26 6 = 0x06#6 → decodeAs 0x06#6 w = decodeOp06 w) ∧
    (cut w 26 6 = 0x07#6 → decodeAs 0x07#6 w = decodeOp07 w) ∧ (cut w 26 6 = 0x08#6 → decodeAs 0x08#6 w = decodeOp08 w) ∧
    (cut w 26 6 = 0x09#6 → decodeAs 0x09#6 w = decodeOp09 w) ∧ (cut w 26 6 = 0x0A#6 → decodeAs 0x0A#6 w = decodeOp0A w) ∧
    (cut w 26 6 = 0x0B#6 → decodeAs 0x0B#6 w = decodeOp0B w) ∧ (cut w 26 6 = 0x0C#6 → decodeAs 0x0C#6 w = decodeOp0C w) ∧
    (cut w 26 6 = 0x0D#6 → decodeAs 0x0D#6 w = decodeOp0D w) ∧ (cut w 26 6 = 0x0E#6 → decodeAs 0x0E#6 w = decodeOp0E w) ∧
    (cut w 26 6 = 0x0F#6 → decodeAs 0x0F#6 w = decodeOp0F w) ∧ (cut w 26 6 = 0x10#6 → decodeAs 0x10#6 w = decodeOp10 w) ∧
    (cut w 26 6 = 0x11#6 → decodeAs 0x11#6 w = decodeOp11 w) ∧ (cut w 26 6 = 0x12#6 → decodeAs 0x12#6 w = decodeOp12 w) ∧
    (cut w 26 6 = 0x13#6 → decodeAs 0x13#6 w = decodeOp13 w) ∧ (cut w 26 6 = 0x14#6 → decodeAs 0x14#6 w = decodeOp14 w) ∧
    (cut w 26 6 = 0x15#6 → decodeAs 0x15#6 w = decodeOp15 w) ∧ (cut w 26 6 = 0x16#6 → decodeAs 0x16#6 w = decodeOp16 w) ∧
    (cut w 26 6 = 0x17#6 → decodeAs 0x17#6 w = decodeOp17 w) ∧ (cut w 26 6 = 0x18#6 → decodeAs 0x18#6 w = decodeOp18 w) ∧
    (cut w 26 6 = 0x19#6 → decodeAs 0x19#6 w = decodeOp19 w) ∧ (cut w 26 6 = 0x1A#6 → decodeAs 0x1A#6 w = decodeOp1A w) ∧
    (cut w 26 6 = 0x1B#6 → decodeAs 0x1B#6 w = decodeOp1B w) ∧ (cut w 26 6 = 0x1C#6 → decodeAs 0x1C#6 w = decodeOp1C w) ∧
    (cut w 26 6 = 0x1D#6 → decodeAs 0x1D#6 w = decodeOp1D w) ∧ (cut w 26 6 = 0x1E#6 → decodeAs 0x1E#6 w = decodeOp1E w) ∧
    (cut w 26 6 = 0x20#6 → decodeAs 0x20#6 w = decodeOp20 w) ∧ (cut w 26 6 = 0x21#6 → decodeAs 0x21#6 w = decodeOp21 w) ∧
    (cut w 26 6 = 0x22#6 → decodeAs 0x22#6 w = decodeOp22 w) ∧ (cut w 26 6 = 0x23#6 → decodeAs 0x23#6 w = decodeOp23 w) ∧
    (cut w 26 6 = 0x24#6 → decodeAs 0x24#6 w = decodeOp24 w) ∧ (cut w 26 6 = 0x25#6 → decodeAs 0x25#6 w = decodeOp25 w) ∧
    (cut w 26 6 = 0x26#6 → decodeAs 0x26#6 w = decodeOp26 w) ∧ (cut w 26 6 = 0x27#6 → decodeAs 0x27#6 w = decodeOp27 w) ∧
    (cut w 26 6 = 0x28#6 → decodeAs 0x28#6 w = decodeOp28 w) ∧ (cut w 26 6 = 0x29#6 → decodeAs 0x29#6 w = decodeOp29 w) ∧
    (cut w 26 6 = 0x2A#6 → decodeAs 0x2A#6 w = decodeOp2A w) ∧ (cut w 26 6 = 0x2B#6 → decodeAs 0x2B#6 w = decodeOp2B w) ∧
    (cut w 26 6 = 0x3E#6 → decodeAs 0x3E#6 w = decodeOp3E w) := by
  and_intros <;> intro h <;> rw [decodeAs, if_pos h, decodeRow, h] <;> rfl

/-- The word of i decodes to i. -/
def ReadsBack (i : Instr) : Prop := ∀ w, encode i = some w → decodeRow w = some i

theorem ReadsBack.of_none {i : Instr} (h : encode i = none) : ReadsBack i := fun _ hw => nomatch h.symm.trans hw

theorem ReadsBack.of_some {i : Instr} {v : BitVec 32} (h : encode i = some v) (hd : decodeRow v = some i) : ReadsBack i := by
  intro w hw
  obtain rfl := Option.some.inj (h.symm.trans hw)
  exact hd

/-- An event has no word; of every other instruction the opcode written picks its rows, and each row's selector either is the one written or differs
from it in a numeral. -/
theorem readsBack (i : Instr) : ReadsBack i := by
  cases i
  all_goals try exact .of_none rfl
  all_goals refine .of_some rfl ?_
  all_goals simp only [decodeRow_eq_decodeAs, decodeAs_opcode,
    decodeOp01, decodeOp02, decodeOp03, decodeOp04, decodeOp05, decodeOp06, decodeOp07, decodeOp08, decodeOp09, decodeOp0A, decodeOp0B, decodeOp0C,
    decodeOp0D, decodeOp0E, decodeOp0F, decodeOp10, decodeOp11, decodeOp12, decodeOp13, decodeOp14, decodeOp15, decodeOp16, decodeOp17, decodeOp18,
    decodeOp19, decodeOp1A, decodeOp1B, decodeOp1C, decodeOp1D, decodeOp1E, decodeOp20, decodeOp21, decodeOp22, decodeOp23, decodeOp24, decodeOp25,
    decodeOp26, decodeOp27, decodeOp28, decodeOp29, decodeOp2A, decodeOp2B, decodeOp3E,
    cut_eq, cut_append_hi, cut_append_lo, cut_span, cut_all, Nat.reduceSub, Nat.reduceLeDiff, Nat.reduceLT, beq_iff_eq, Bool.and_eq_true,
    BitVec.reduceExtractLsb', BitVec.reduceEq, and_true, true_and, and_false, false_and, ↓reduceIte]

/-- Settles O1: the row of the word written gives the instruction, whose fields keep their limits by premise. -/
theorem decodeEncode : Obligations.DecodeEncode :=
  fun i w hwf h => decode_eq_ok_iff.2 ⟨readsBack i w h, hwf⟩

/-! ### From a word to its instruction and back -/

/-- The bits of w from bit lo up are those of a. -/
def FieldIs (w : BitVec 32) (lo : Nat) {n : Nat} (a : BitVec n) : Prop := cut w lo n = a

theorem fieldIs_iff (w : BitVec 32) (lo : Nat) {n : Nat} (a : BitVec n) : FieldIs w lo a ↔ cut w lo n = a := .rfl

/-- Two words side by side are two fields. -/
theorem fieldIs_append (w : BitVec 32) (lo : Nat) {n m : Nat} (a : BitVec n) (b : BitVec m) :
    FieldIs w lo (a ++ b) ↔ FieldIs w (lo + m) a ∧ FieldIs w lo b := by
  rw [FieldIs, cut_eq, extract_eq_iff_halves w lo (n + m) m _ (by omega), cut_append_hi a b _ _ (by omega), cut_append_lo a b _ _ (by omega) (by omega),
    cut_all, Nat.sub_self, Nat.add_sub_cancel, cut_all]
  rfl

theorem eq_of_fieldIs_zero {w v : BitVec 32} (h : FieldIs w 0 v) : v = w := h.symm.trans (cut_all w)

/-- What o gives, if it gives an instruction, has the word w. -/
def Encodes (w : BitVec 32) (o : Option Instr) : Prop := ∀ i, o = some i → encode i = some w

theorem Encodes.none {w : BitVec 32} : Encodes w none := fun _ h => nomatch h

theorem Encodes.some {w v : BitVec 32} {i : Instr} (h : encode i = some v) (hv : FieldIs w 0 v) : Encodes w (some i) := by
  rintro _ ⟨⟩
  rw [h, eq_of_fieldIs_zero hv]

theorem Encodes.ite {w : BitVec 32} {c : Bool} {a b : Option Instr} (ha : c = true → Encodes w a) (hb : Encodes w b) :
    Encodes w (if c then a else b) := by
  cases c
  · exact hb
  · exact ha rfl

/-- Each row of the table: the opcode and the selectors tested are the numerals the encoder writes, and every other field of the word it writes is
cut out of w where the encoder puts it. -/
theorem encodes_decodeRow (w : BitVec 32) : Encodes w (decodeRow w) := by
  unfold decodeRow
  split
  all_goals rename_i ho
  on_goal -1 => exact .none
  all_goals
    replace ho := congrArg (BitVec.ofNat 6) ho
    rw [BitVec.ofNat_toNat, BitVec.setWidth_eq] at ho
    repeat' first | exact .none | refine Encodes.some rfl ?_ | refine Encodes.ite (fun h => ?_) ?_
  all_goals try simp only [beq_iff_eq, Bool.and_eq_true] at h
  all_goals simp only [fieldIs_append]
  all_goals simp only [fieldIs_iff, Nat.reduceAdd, and_self, *]

/-- Settles O2: by the rows of the table. -/
theorem encodeDecode : Obligations.EncodeDecode :=
  fun w i h => encodes_decodeRow w i (decode_eq_ok_iff.1 h).1

end Sys2Proof
end

section
/-! SUPPORT. The reset state, the privileged forms in user mode, and the transfers of control (R52, R53, R70, R72, R103, R109 to R111, R119, R130). -/
namespace Sys2Proof.Machine

/-! ### Reset (R103) -/

/-- Settles O58: the reset state lists nothing, so each part of it is its default. -/
theorem resetState : Obligations.ResetState :=
  ⟨rfl, rfl, rfl, fun _ _ => ⟨rfl, fun r => by cases r <;> rfl, rfl, rfl⟩, fun _ => ⟨rfl, fun _ => rfl, rfl⟩, fun _ => rfl, fun _ => rfl⟩

/-! ### The shapes of the statements, for an instruction that `issue` answers -/

section
variable {n : Need} {i : Instr} {body : List Word → State → Act} (e : State → Out) (he : ∀ s, exec i s = e s) (h : ∀ s, e s = issue n s body)
include he h

theorem exec_eq_trap_of_privileged {s : State} (hw : n.wf = true) (hv : n.vec = false) (hp : n.priv = true) (hm : s.cur.mon = false) :
    exec i s = .next (s.takeTrap 0x02 0) :=
  ((he s).trans (h s)).trans (issue_gate_fault body (gate_priv (by rw [Need.illegal, hw, hv]; rfl) hp hm))

theorem completesIf_of_issue {p : List Word → State → Prop} {f : List Word → State → State} (hb : ∀ v s, p v s → body v s = .ok (f v s)) :
    Claims.CompletesIf n i p f :=
  fun s hr hp => ((he s).trans (h s)).trans (issue_ok hr (hb _ _ hp))

theorem completes_of_issue {f : List Word → State → State} (hb : ∀ v s, body v s = .ok (f v s)) : Claims.Completes n i f :=
  fun s hr => ((he s).trans (h s)).trans (issue_ok hr (hb _ _))

theorem trapsIf_of_issue {p : List Word → State → Prop} {code : Nat} {tval : List Word → State → Word}
    (hb : ∀ v s, p v s → body v s = .fault code (tval v s)) : Claims.TrapsIf n i p code tval :=
  fun s hr hp => ((he s).trans (h s)).trans (issue_fault hr (hb _ _ hp))

end

/-! ### Privileged forms (R70, R130) -/

/-- The registers listed are those whose number `sysMon` reserves to monitor mode (R130). -/
theorem sysMon_of_mem_sysPriv : ∀ n ∈ Claims.sysPriv, sysMon (BitVec.ofNat 12 n).toNat = true := by decide

/-- Settles O10: each form needs monitor mode, which is asked for before any register. -/
theorem privilegedTraps : Obligations.PrivilegedTraps := by
  intro i s hm hw h
  have hsys {n : Nat} (hn : n ∈ Claims.sysPriv) : sysMon (BitVec.ofNat 12 n).toNat = true := sysMon_of_mem_sysPriv n hn
  obtain rfl | ⟨ra, rb, wa, wb, rfl⟩ | ⟨rd, ra, wa, rfl⟩ | ⟨r, n, hn, rfl | rfl⟩ := h
  · exact exec_eq_trap_of_privileged execMret (fun _ => rfl) (fun _ => rfl) hw rfl rfl hm
  · exact exec_eq_trap_of_privileged (execRtwr ra rb wa wb) (fun _ => rfl) (fun _ => rfl) hw rfl rfl hm
  · exact exec_eq_trap_of_privileged (execRtrd rd ra wa) (fun _ => rfl) (fun _ => rfl) hw rfl rfl hm
  · exact exec_eq_trap_of_privileged (execRdsys r _) (fun _ => rfl) (fun _ => rfl) hw rfl (hsys hn) hm
  · exact exec_eq_trap_of_privileged (execWrsys r _) (fun _ => rfl) (fun _ => rfl) hw rfl (hsys hn) hm

/-! ### Targets and conditions (R52, R53, R72) -/

/-- A displacement counts words (R53). -/
theorem State.target_signExtend (s : State) {k : Nat} (d : BitVec k) :
    s.target (d.signExtend 64) = s.slot.addr + BitVec.ofInt 64 (4 * d.toInt) := by
  have hd : d.signExtend 64 = BitVec.ofInt 64 d.toInt := rfl
  rw [State.target, hd, BitVec.shiftLeft_eq_mul_twoPow, show BitVec.twoPow 64 2 = BitVec.ofInt 64 4 from rfl, ← BitVec.ofInt_mul, Int.mul_comm]

/-- An address is a word's where its two low bits are zero (R52). -/
theorem fld_low_two (a : Word) : fld a 0 2 = a.toNat % 4 := by
  simp [fld, natBits]

theorem State.goTo_word {s : State} {a : Word} (h : a.toNat % 4 = 0) : s.goTo a = .ok (s.finish a) :=
  if_neg (not_not.mpr ((fld_low_two a).trans h))

theorem State.goTo_misaligned {s : State} {a : Word} (h : a.toNat % 4 ≠ 0) : s.goTo a = .fault 0x03 a :=
  if_pos (fun h0 => h ((fld_low_two a).symm.trans h0))

/-- Each row of the conditions is a pair of branches on one condition of the model (R72). -/
theorem exec_branchRow {p : (BitVec 6 → BitVec 6 → BitVec 11 → Instr) × (BitVec 6 → BitVec 6 → BitVec 2 → Instr) × (Word → Word → Bool)}
    (hp : p ∈ Claims.branchRows) : ∃ c : Cond, (∀ a b, c.holds a b = p.2.2 a b) ∧
      (∀ ra rb disp s, exec (p.1 ra rb disp) s = branchDisp (p.1 ra rb disp) c ra rb disp s) ∧
      (∀ ra rb t s, exec (p.2.1 ra rb t) s = branchReg (p.2.1 ra rb t) c ra rb t s) := by
  simp only [Claims.branchRows, List.mem_cons, List.not_mem_nil, or_false] at hp
  obtain rfl | rfl | rfl | rfl | rfl | rfl := hp
  · exact ⟨.eq, fun a b => rfl, fun _ _ _ _ => rfl, fun _ _ _ _ => rfl⟩
  · exact ⟨.ne, fun a b => by simp [Cond.holds, bne, BEq.beq], fun _ _ _ _ => rfl, fun _ _ _ _ => rfl⟩
  · exact ⟨.lt, fun a b => rfl, fun _ _ _ _ => rfl, fun _ _ _ _ => rfl⟩
  · exact ⟨.ge, fun a b => by simp [Cond.holds, BitVec.slt, ← decide_not], fun _ _ _ _ => rfl, fun _ _ _ _ => rfl⟩
  · exact ⟨.ltu, fun a b => rfl, fun _ _ _ _ => rfl, fun _ _ _ _ => rfl⟩
  · exact ⟨.geu, fun a b => by simp [Cond.holds, BitVec.ult, ← decide_not], fun _ _ _ _ => rfl, fun _ _ _ _ => rfl⟩

theorem branchDisplacement : Claims.BranchDisplacement := by
  refine ⟨fun p hp ra rb disp => ?_, fun disp => completes_of_issue (execBAl disp) (fun _ => rfl) (fun _ => rfl) fun v s => ?_⟩
  · obtain ⟨c, hc, hexec, -⟩ := exec_branchRow hp
    refine completes_of_issue _ (hexec ra rb disp) (fun _ => rfl) fun v s => ?_
    rw [hc, State.target_signExtend]
  · rw [State.target_signExtend]

theorem branchTarget : Claims.BranchTarget := by
  intro p hp ra rb t
  obtain ⟨c, hc, -, hexec⟩ := exec_branchRow hp
  refine ⟨completesIf_of_issue _ (hexec ra rb t) (fun _ => rfl) fun v s h => ?_, trapsIf_of_issue _ (hexec ra rb t) (fun _ => rfl) fun v s h => ?_⟩
  · rw [hc]
    cases hx : p.2.2 (v0 v) (v1 v) with
    | false => rfl
    | true => exact State.goTo_word (h.resolve_left (by simp [hx]))
  · rw [hc, if_pos h.1, State.goTo_misaligned h.2]

theorem jumps : Claims.Jumps := by
  refine ⟨fun disp => ?j, fun disp => ?jal, fun t imm => ?pbr, fun t => ⟨?br, ?brOdd⟩, fun ra => ⟨?ret, ?retOdd⟩⟩
  case j =>
    refine completes_of_issue (execJ disp) (fun _ => rfl) (fun _ => rfl) fun v s => ?_
    rw [State.target_signExtend]
  case jal =>
    refine completes_of_issue (execJal disp) (fun _ => rfl) (fun _ => rfl) fun v s => ?_
    rw [State.target_signExtend]
  case pbr =>
    refine completes_of_issue (execPbr t imm) (fun _ => rfl) (fun _ => rfl) fun v s => ?_
    rw [State.target_signExtend]
  case br => exact completesIf_of_issue (execBr t) (fun _ => rfl) (fun _ => rfl) fun v s h => State.goTo_word h
  case brOdd => exact trapsIf_of_issue (execBr t) (fun _ => rfl) (fun _ => rfl) fun v s h => State.goTo_misaligned h
  case ret => exact completesIf_of_issue (execRet ra) (fun _ => rfl) (fun _ => rfl) fun v s h => State.goTo_word h
  case retOdd => exact trapsIf_of_issue (execRet ra) (fun _ => rfl) (fun _ => rfl) fun v s h => State.goTo_misaligned h

/-- Settles O37: a taken branch goes to its target, and a target register names a word or the fault. -/
theorem branches : Obligations.Branches := ⟨branchDisplacement, branchTarget, jumps⟩
end Sys2Proof.Machine
end

section
/-! SUPPORT. Sources and destinations: what a write to a register leaves, where a context goes on, when an instruction is ready, the values it reads and the
traps of its selection (R52, R57, R58, R61, R62, R77). -/
namespace Sys2Proof.Machine

/-! ### Writing a register (R57, R61) -/

/-- A destination that is no output port is a register of the context (R136). -/
theorem State.writeG_reg (s : State) {rd : BitVec 6} (v : Word) (h : rd.toNat < 60) :
    s.writeG rd v = s.updCur (fun x => x.putG x.mon rd.toNat v) := if_neg (by omega)

theorem registerWrite : Claims.RegisterWrite := by
  refine ⟨fun s v => ⟨?_, rfl, rfl⟩, fun s rd v h0 h60 => ?_⟩
  · rw [State.writeG_reg s v (by decide), State.cur_updCur]
    exact Ctx.putG_zero _ _ _
  · have hne : rd.toNat ≠ 0 := fun h => h0 (BitVec.eq_of_toNat_eq h)
    rw [State.writeG_reg s v h60, State.cur_updCur]
    exact ⟨Ctx.readG_putG_same _ _ hne, Ctx.stateG_putG_same _ _ _, fun r hr => Ctx.readG_putG_ne _ _ _ hr⟩

/-! ### Going on (R52, R67, R176) -/

/-- All that going on touches of a context: where it goes on, what was held for the one instruction, and the bits of single-stepping, of which SKIP alone
is one of DBGCTL (R176, R221, R256, R447, R449). -/
theorem Ctx.step_eq (x : Ctx) (l : Slot) (npc : Word) : ∃ p f k d b,
    x.step l npc = { x with pc := p, frame := f, once := [], xlate := .none, probed := none, waitAt := none, fence := 0, skip := k, dbgctl := d, stepDue := b } ∧
      (l.framed = false → p = npc) ∧ (d = x.dbgctl ∨ d = x.dbgctl &&& ~~~0x40#64) := by
  unfold Ctx.step
  extract_lets fr y z
  have hy : ∃ p f, y = { x with pc := p, frame := f } ∧ (l.framed = false → p = npc) := by
    cases hl : l.framed with
    | false => exact ⟨npc, x.frame, by simp only [y, hl]; rfl, fun _ => rfl⟩
    | true => exact ⟨_, _, if_pos hl, nofun⟩
  obtain ⟨p, f, hy, hp⟩ := hy
  have hz : z = { x with pc := p, frame := f, once := [], xlate := .none, probed := none, waitAt := none, fence := 0 } := by simp only [z, hy]
  rw [hz]
  split
  · exact ⟨p, f, _, _, _, rfl, hp, .inl rfl⟩
  · split
    · exact ⟨p, f, _, _, _, rfl, hp, .inr rfl⟩
    · split
      · exact ⟨p, f, _, _, _, rfl, hp, .inl rfl⟩
      · exact ⟨p, f, _, _, _, rfl, hp, .inl rfl⟩

/-- The context after an instruction is the stepped one, a single-step of the train's leader noted (R449). -/
theorem State.cur_goOn (s : State) (npc : Word) : ∃ b, (s.goOn npc).cur = { s.cur.step s.slot npc with stepDue := b } := by
  unfold State.goOn
  dsimp only
  split
  · rw [State.cur_updCur, State.cur_updCur]
    exact ⟨true, rfl⟩
  · rw [State.cur_updCur]
    exact ⟨_, rfl⟩

theorem State.cur_finish (s : State) (npc : Word) : ∃ p f k d b, (s.finish npc).cur = { s.cur with
      pc := p, frame := f, once := [], xlate := .none, probed := none, waitAt := none, fence := 0, skip := k, dbgctl := d, stepDue := b } ∧
    (s.slot.framed = false → p = npc) ∧ (d = s.cur.dbgctl ∨ d = s.cur.dbgctl &&& ~~~0x40#64) := by
  obtain ⟨b, h⟩ := s.forward.cur_goOn npc
  rw [State.cur_forward, (keepsCtxs_forward s).slot] at h
  obtain ⟨p, f, k, d, c, hstep, hp, hd⟩ := s.cur.step_eq s.slot npc
  rw [hstep] at h
  exact ⟨p, f, k, d, b, h, hp, hd⟩

/-- Outside a frame the next pc is the one asked for (R176). -/
theorem State.pc_finish {s : State} (h : s.slot.framed = false) (npc : Word) : (s.finish npc).cur.pc = npc := by
  obtain ⟨p, f, k, d, b, hcur, hp, -⟩ := s.cur_finish npc
  rw [hcur]
  exact hp h

theorem programCounter : Claims.ProgramCounter := by
  intro s a h
  refine ⟨State.pc_finish h a, (State.pc_finish h _).trans ?_⟩
  rw [State.nextAddr, Slot.size]
  split <;> rfl

/-! ### The conditions of an instruction (R77) -/

/-- A word that is legal, permitted and not stopped by an empty source or by waiting: the later conditions of R77 decide. -/
theorem Need.gate_of_selected {n : Need} {s : State} (hw : n.illegal s = false) (hp : n.priv = true → s.cur.mon = true) (hb : n.blocked s = false)
    (he : ∀ p ∈ n.srcs, p.2 = true → s.emptySrc p.1 = false) :
    n.gate s = if n.absent s then .fault 0x05 0 else if n.unbound s then .fault 0x22 0 else match n.ended s with
      | some e => .fault 0x26 e.status
      | none => if n.rowFails s then .fault 0x16 0 else match n.marked s with
        | some m => .fault m.1.toNat m.2
        | none => .go := by
  have hpriv : (n.priv && !s.cur.mon) = false := by simpa using hp
  have hempty : n.srcs.any (fun p => p.2 && s.emptySrc p.1) = false := by simpa using he
  rw [Need.gate, hw, hpriv, hempty, hb]
  rfl

theorem Need.absent_eq_false_iff {n : Need} {s : State} :
    n.absent s = false ↔ (s.isReduced s.slot.site = true → ∀ r ∈ n.named, ¬(40 ≤ r ∧ r ≤ 55)) := by
  simp [Need.absent, highReg]

theorem Need.rowFails_eq_false_iff {n : Need} {s : State} : n.rowFails s = false ↔
    ∀ p ∈ n.srcs, 1 ≤ p.1.toNat → p.1.toNat ≤ 55 → monName s.cur.mon p.1.toNat = false → s.regFails s.slot.site p.1.toNat = false := by
  simp [Need.rowFails]

/-- Where nothing is asked of the words before, the later conditions of a selected word decide between the traps of R77. -/
theorem selectionTraps : Claims.SelectionTraps := by
  intro n s body
  refine ⟨fun hw => ?illegal, fun hw hv hc => ?vector, fun hw hp he => ?empty, fun hw hp hb he hr ha => ?absent, fun hw hp hb he ha hu hs hr => ?row,
    fun hw hp hb he ha hu => ?unbound, fun e hw hp hb he ha hu hs => ?ended, fun m hw hp hb he ha hu hs hr hm => ?marked⟩
  case illegal => exact issue_gate_fault _ (by simp [Need.gate, Need.illegal, hw])
  case vector => exact issue_gate_fault _ (by simp [Need.gate, Need.illegal, hw, hv, hc])
  case empty =>
    obtain ⟨p, hmem, hwait, hport, hst⟩ := he
    have hpriv : (n.priv && !s.cur.mon) = false := by simpa using hp
    have hempty : n.srcs.any (fun p => p.2 && s.emptySrc p.1) = true :=
      List.any_eq_true.mpr ⟨p, hmem, by simp [hwait, State.emptySrc, hport, hst, RegState.isEmpty]⟩
    exact issue_gate_fault _ (by simp [Need.gate, hw, hpriv, hempty])
  case absent =>
    have hlacks : n.absent s = true := by simpa [Need.absent, highReg, hr] using ha
    exact issue_gate_fault _ (by simp [Need.gate_of_selected hw hp hb he, hlacks])
  case row =>
    have hfails : n.rowFails s = true := by simpa [Need.rowFails, and_assoc] using hr
    exact issue_gate_fault _ (by simp [Need.gate_of_selected hw hp hb he, Need.absent_eq_false_iff.2 ha, hu, hs, hfails])
  case unbound =>
    have hopen : n.unbound s = true := by simpa [Need.unbound, outPort] using hu
    exact issue_gate_fault _ (by simp [Need.gate_of_selected hw hp hb he, Need.absent_eq_false_iff.2 ha, hopen])
  case ended => exact issue_gate_fault _ (by simp [Need.gate_of_selected hw hp hb he, Need.absent_eq_false_iff.2 ha, hu, hs])
  case marked => exact issue_gate_fault _ (by simp [Need.gate_of_selected hw hp hb he, Need.absent_eq_false_iff.2 ha, hu, hs, hr, hm])

/-! ### The values of sources (R57, R58) -/

/-- A source read after others gives its register, or the element of its port that those leave for it. -/
theorem State.peekFrom_cons (s : State) (seen : List (BitVec 6)) (r : BitVec 6) (rs : List (BitVec 6)) : s.peekFrom seen (r :: rs) =
    (if inPort r then (((s.curTile.q.inq? (r.toNat - 56))[(seen.filter (· == r)).length]?).map (·.val)).getD 0 else s.cur.readG r.toNat) ::
      s.peekFrom (r :: seen) rs := rfl

theorem sourceValues : Claims.SourceValues := by
  intro s n a b hn
  have hvals : n.vals s = s.peekFrom [] [a.1, b.1] := by rw [Need.vals, hn]; rfl
  simp only [hvals, State.peekFrom_cons]
  refine ⟨fun h => ?_, fun h => ?_, fun e l h hq => ?_, fun e l h hne hq => ?_, fun e f l h heq hq => ?_⟩
  · simp [h]
  · simp [h]
  · simp [h, hq]
  · simp [h, hne, hq]
  · simp [h, ← heq, hq]

/-! ### Readiness (R58, R62, R77) -/

/-- A register without a value to wait for and without an error mark is full. -/
theorem RegState.eq_full_iff (r : RegState) : r = .full ↔ r.isEmpty = false ∧ r.mark = none := by
  cases r <;> simp [RegState.isEmpty, RegState.mark]

/-- The conditions of R77, all of them met. -/
theorem Need.ready_iff_conditions {n : Need} {s : State} : n.ready s = true ↔
    n.illegal s = false ∧ (n.priv = true → s.cur.mon = true) ∧ (∀ p ∈ n.srcs, p.2 = true → s.emptySrc p.1 = false) ∧ n.blocked s = false ∧
      n.absent s = false ∧ n.unbound s = false ∧ n.ended s = none ∧ n.rowFails s = false ∧ n.marked s = none := by
  rw [Need.ready_iff]
  constructor
  · intro h
    unfold Need.gate at h
    repeat' split at h
    all_goals cases h
    simp_all
  · rintro ⟨hw, hp, he, hb, ha, hu, hs, hr, hm⟩
    rw [Need.gate_of_selected hw hp hb he, ha, hu, hs, hr, hm]
    rfl

theorem Need.blocked_eq_false_iff {n : Need} {s : State} : n.blocked s = false ↔
    (∀ p ∈ n.srcs, s.blockedSrc n p.1 = false) ∧ (∀ v ∈ n.vsrcs, (s.cur.stateV v.toNat).isEmpty = false) ∧
      (∀ r ∈ n.dsts, s.blockedDst r = false) ∧ ∀ v ∈ n.vdsts, (s.cur.stateV v.toNat).isPending = false := by
  simp [Need.blocked, and_assoc]

theorem Need.unbound_eq_false_iff {n : Need} {s : State} :
    n.unbound s = false ↔ ∀ r ∈ n.dsts, outPort r = true → cfgV (s.curTile.q.cfg (r.toNat - 56)) = true := by
  simp [Need.unbound]

theorem Need.ended_eq_none_iff {n : Need} {s : State} :
    n.ended s = none ↔ ∀ p ∈ n.srcs, inPort p.1 = true → s.curTile.endedStream (p.1.toNat - 56) = none := by
  simp [Need.ended]

theorem Need.marked_eq_none_iff {n : Need} {s : State} : n.marked s = none ↔
    (∀ p ∈ n.srcs, inPort p.1 = false → (s.cur.stateG p.1.toNat).mark = none) ∧ ∀ v ∈ n.vsrcs, (s.cur.stateV v.toNat).mark = none := by
  have hsrcs : n.srcs.findSome? (fun p => if inPort p.1 then none else (s.cur.stateG p.1.toNat).mark) = none ↔
      ∀ p ∈ n.srcs, inPort p.1 = false → (s.cur.stateG p.1.toNat).mark = none := by
    simp
  rw [← hsrcs, Need.marked]
  cases n.srcs.findSome? _ <;> simp

/-- A port among the sources gives at least one element. -/
theorem Need.popsOf_pos {n : Need} {p : BitVec 6 × Bool} (h : p ∈ n.srcs) : 0 < n.popsOf p.1 :=
  List.length_pos_of_mem (List.mem_filter.mpr ⟨h, beq_self_eq_true _⟩)

theorem State.blockedSrc_reg {s : State} {r : BitVec 6} (h : inPort r = false) (n : Need) : s.blockedSrc n r = (s.cur.stateG r.toNat).isEmpty := by
  rw [State.blockedSrc, h]
  rfl

/-- A port whose stream has not ended is ready with the elements asked for, where no other context's frame holds it (R58, R178). -/
theorem State.blockedSrc_port {s : State} {r : BitVec 6} (h : inPort r = true) (he : s.curTile.endedStream (r.toNat - 56) = none) (n : Need) :
    s.blockedSrc n r = false ↔
      n.popsOf r ≤ (s.curTile.q.inq? (r.toNat - 56)).length ∧ s.curTile.portReserved (r.toNat - 56) s.slot.ctx = false := by
  simp [State.blockedSrc, h, he]

theorem State.blockedDst_eq_false_iff {s : State} {r : BitVec 6} : s.blockedDst r = false ↔
    (outPort r = true → cfgV (s.curTile.q.cfg (r.toNat - 56)) = true → s.pushReady s.slot.site (r.toNat - 56) = true) ∧
      (outPort r = false → s.cur.stateG r.toNat ≠ .pending) := by
  rw [State.blockedDst]
  cases outPort r
  · cases s.cur.stateG r.toNat <;> simp [RegState.isPending]
  · simp

/-- A source for which the context need not wait is not empty. -/
theorem State.emptySrc_of_not_blocked {s : State} {n : Need} {p : BitVec 6 × Bool} (hp : p ∈ n.srcs) (h : s.blockedSrc n p.1 = false) :
    s.emptySrc p.1 = false := by
  cases hport : inPort p.1 with
  | false => rwa [State.emptySrc, hport, ← State.blockedSrc_reg hport n]
  | true =>
    rw [State.emptySrc, hport, if_pos rfl]
    by_contra hempty
    obtain ⟨hnil, hlive⟩ := Bool.and_eq_true_iff.mp (Bool.not_eq_false _ ▸ hempty)
    have hpops := ((State.blockedSrc_port hport (Option.isNone_iff_eq_none.mp hlive) n).mp h).1
    rw [List.isEmpty_iff.mp hnil] at hpops
    exact absurd (Need.popsOf_pos hp) (Nat.not_lt.mpr hpops)

theorem RegState.isPending_eq_false_iff (r : RegState) : r.isPending = false ↔ r ≠ .pending := by
  cases r <;> simp [RegState.isPending]

/-- Each of the conditions of R77 is one on the sources, the destinations or the place of the word. -/
theorem readyMeans : Claims.ReadyMeans := by
  intro n s
  rw [Need.ready_iff_conditions, Need.absent_eq_false_iff, Need.rowFails_eq_false_iff, Need.blocked_eq_false_iff, Need.unbound_eq_false_iff,
    Need.ended_eq_none_iff, Need.marked_eq_none_iff]
  have hlegal : n.illegal s = false ↔ n.wf = true ∧ (n.vec = true → s.slot.ctx < 4) := by simp [Need.illegal]
  rw [hlegal]
  constructor
  · rintro ⟨⟨hw, hv⟩, hp, -, ⟨hsrc, hvsrc, hdst, hvdst⟩, ha, hu, hs, hr, hm, hvm⟩
    refine ⟨hw, hv, hp, fun p hmem hport => ?_, fun p hmem hport => ?_, hr, fun v hmem => ?_, fun r hmem => ?_, fun v hmem => ?_, fun r hmem hport => ?_, ha⟩
    · exact (RegState.eq_full_iff _).mpr ⟨(State.blockedSrc_reg hport n).symm.trans (hsrc p hmem), hm p hmem hport⟩
    · obtain ⟨hpops, hfree⟩ := (State.blockedSrc_port hport (hs p hmem hport) n).mp (hsrc p hmem)
      exact ⟨hs p hmem hport, List.ne_nil_of_length_pos ((Need.popsOf_pos hmem).trans_le hpops), hpops, hfree⟩
    · exact (RegState.eq_full_iff _).mpr ⟨hvsrc v hmem, hvm v hmem⟩
    · exact (State.blockedDst_eq_false_iff.mp (hdst r hmem)).2
    · exact (RegState.isPending_eq_false_iff _).mp (hvdst v hmem)
    · exact ⟨hu r hmem hport, (State.blockedDst_eq_false_iff.mp (hdst r hmem)).1 hport (hu r hmem hport)⟩
  · rintro ⟨hw, hv, hp, hreg, hport, hr, hvreg, hdst, hvdst, hout, ha⟩
    have hsrc : ∀ p ∈ n.srcs, s.blockedSrc n p.1 = false := by
      intro p hmem
      cases hpt : inPort p.1 with
      | false => rw [State.blockedSrc_reg hpt, hreg p hmem hpt]; rfl
      | true =>
        obtain ⟨hend, -, hpops, hfree⟩ := hport p hmem hpt
        exact (State.blockedSrc_port hpt hend n).mpr ⟨hpops, hfree⟩
    refine ⟨⟨hw, hv⟩, hp, fun p hmem _ => State.emptySrc_of_not_blocked hmem (hsrc p hmem),
      ⟨hsrc, fun v hmem => ((RegState.eq_full_iff _).mp (hvreg v hmem)).1, fun r hmem => ?_,
        fun v hmem => (RegState.isPending_eq_false_iff _).mpr (hvdst v hmem)⟩,
      ha, fun r hmem hpt => (hout r hmem hpt).1, fun p hmem hpt => (hport p hmem hpt).1, hr,
      fun p hmem hpt => ((RegState.eq_full_iff _).mp (hreg p hmem hpt)).2, fun v hmem => ((RegState.eq_full_iff _).mp (hvreg v hmem)).2⟩
    exact State.blockedDst_eq_false_iff.mpr ⟨fun hpt _ => (hout r hmem hpt).2, hdst r hmem⟩

/-- Settles O41: what a write leaves and where the context goes on, and the conditions of R77 read one by one. -/
theorem registerUse : Obligations.RegisterUse := ⟨registerWrite, programCounter, readyMeans, sourceValues, selectionTraps⟩

end Sys2Proof.Machine
end

section
/-! SUPPORT. The special registers, the states of registers, time and the tile's own registers (R64, R98 to R100, R130 to R135, R281). -/
namespace Sys2Proof.Machine

/-! ### Fields of words -/

/-- A field of a word is the number its bits are. -/
theorem fld_eq_toNat_extract {k : Nat} (w : BitVec k) (lo n : Nat) : fld w lo n = (w.extractLsb' lo n).toNat := by
  rw [fld, natBits, BitVec.extractLsb'_toNat, Nat.shiftRight_eq_div_pow]

theorem bit_and {k : Nat} (w m : BitVec k) (i : Nat) : bit (w &&& m) i = (bit w i && bit m i) := BitVec.getLsbD_and

/-- A field that a mask keeps whole. -/
theorem fld_and_of_ones {k : Nat} {w m : BitVec k} {lo n : Nat} (h : m.extractLsb' lo n = BitVec.allOnes n) : fld (w &&& m) lo n = fld w lo n := by
  rw [fld_eq_toNat_extract, fld_eq_toNat_extract, BitVec.extractLsb'_and, h, BitVec.and_allOnes]

/-- The low half of a word has its fields. -/
theorem fld_setWidth {k j : Nat} (w : BitVec k) {lo n : Nat} (h : lo + n ≤ j) : fld (w.setWidth j) lo n = fld w lo n := by
  rw [fld_eq_toNat_extract, fld_eq_toNat_extract]
  congr 1
  apply BitVec.eq_of_getLsbD_eq
  intro i hi
  simp only [BitVec.getLsbD_extractLsb', BitVec.getLsbD_setWidth, hi, show lo + i < j by omega, decide_true, Bool.true_and]

/-! ### System registers (R130, R131) -/

/-- FRM stands in bits 10 to 8 of FCSR (R44). -/
theorem ofNat_fld_shiftLeft_frm (v : Word) : (BitVec.ofNat 64 (fld v 8 3)) <<< 8 = v &&& 0x700#64 := by
  have hmask : ∀ i < 64, (0x700#64 : Word).getLsbD i = decide (8 ≤ i ∧ i < 11) := by decide
  rw [fld_eq_toNat_extract, BitVec.ofNat_toNat]
  apply BitVec.eq_of_getLsbD_eq
  intro i hi
  rw [BitVec.getLsbD_and, hmask i hi]
  by_cases h8 : i < 8
  · simp [h8]
  · by_cases h11 : i < 11
    · simp [hi, h8, h11, show i - 8 < 3 by omega, show 8 + (i - 8) = i by omega, show 8 ≤ i by omega]
    · simp [h11, show ¬i - 8 < 3 by omega]

/-- A write of FCSR keeps FRM where the new one is reserved (R45). -/
theorem fcsrWrite_eq (old v : Word) :
    fcsrWrite old v = (v &&& 0x803F#64) ||| (if (v.toNat / 256) % 8 ≤ 4 then v &&& 0x700#64 else old &&& 0x700#64) := by
  have hfrm : (v.toNat / 256) % 8 = fld v 8 3 := rfl
  rw [fcsrWrite, hfrm]
  split
  · rw [if_neg (by omega), ofNat_fld_shiftLeft_frm]
  · rw [if_pos (by omega), ofNat_fld_shiftLeft_frm]

theorem sysMon_sysReads : ∀ n ∈ Claims.sysReads.map (·.1), (BitVec.ofNat 12 n).toNat = n ∧ sysMon n = Claims.sysPriv.contains n := by decide

theorem sysMon_sysWrites : ∀ n ∈ Claims.sysWrites.map (·.1), (BitVec.ofNat 12 n).toNat = n ∧ sysMon n = Claims.sysPriv.contains n := by decide

theorem sysRead_of_mem : ∀ p ∈ Claims.sysReads, ∀ s : State, s.sysRead p.1 = p.2 s := by
  simp only [Claims.sysReads, BitVec.ofNat_toNat, List.forall_mem_cons, List.not_mem_nil, false_imp_iff, implies_true, and_true]
  and_intros <;> intro s <;> rfl

theorem sysWrite_of_mem : ∀ p ∈ Claims.sysWrites, ∀ (v : Word) (s : State), s.sysWrite p.1 v = p.2 v s := by
  rw [Claims.sysWrites, List.forall_mem_append]
  constructor
  · simp only [List.forall_mem_cons, List.not_mem_nil, false_imp_iff, implies_true, and_true]
    refine ⟨fun v s => congrArg s.updCur (funext fun c => by rw [fcsrWrite_eq]), ?_⟩
    and_intros <;> intro v s <;> rfl
  · simp only [List.forall_mem_map, List.mem_range]
    intro k hk v s
    interval_cases k <;> rfl

theorem State.fcsrBusy_eq_false {s : State} {n : Nat} (h : n = 0x001 → s.curTile.q.flagsOwed s.slot.ctx = false) : s.fcsrBusy n = false := by
  rw [State.fcsrBusy]
  by_cases hn : n = 1
  · simp [h hn]
  · simp [hn]

theorem systemRegisters : Claims.SystemRegisters := by
  constructor
  · intro p hp rd
    obtain ⟨hn, hmon⟩ := sysMon_sysReads p.1 (List.mem_map_of_mem hp)
    rw [← hmon]
    refine completesIf_of_issue (execRdsys rd (BitVec.ofNat 12 p.1)) (fun _ => rfl) (fun s => by rw [execRdsys, hn]) fun v s h => ?_
    rw [State.fcsrBusy_eq_false h, sysRead_of_mem p hp]
    rfl
  · intro p hp rs
    obtain ⟨hn, hmon⟩ := sysMon_sysWrites p.1 (List.mem_map_of_mem hp)
    rw [← hmon]
    refine completesIf_of_issue (execWrsys rs (BitVec.ofNat 12 p.1)) (fun _ => rfl) (fun s => by rw [execWrsys, hn]) fun v s h => ?_
    rw [State.fcsrBusy_eq_false h, sysWrite_of_mem p hp]
    rfl

/-! ### States of registers (R64, R133 to R135, R217) -/

/-- An entry taken out twice. -/
theorem fset_fset_default {α : Type} [DecidableEq α] (d : α) (m : FMap α) (k : Nat) : fset d (fset d m k d) k d = fset d m k d := by
  simp [fset, ferase]

/-- A write leaves its register full, so that setting it full changes nothing. -/
theorem Ctx.putState_full_putG (x : Ctx) (r : Nat) (v : Word) : (x.putG x.mon r v).putState (x.putG x.mon r v).mon r .full = x.putG x.mon r v := by
  rw [Ctx.putG_mon]
  unfold Ctx.putG Ctx.putState
  split
  · rfl
  · split <;> simp only [fset_fset_default]

theorem Ctx.putVState_full_putV (x : Ctx) (v : Nat) (w : VecReg) : (x.putV v w).putVState v .full = x.putV v w := by
  simp only [Ctx.putV, Ctx.putVState, fset_fset_default]

theorem bit_mirrMask : ∀ k < 4, bit (0xBFBFBFBF#64 : Word) (8 * k + 7) = true := by decide

theorem extract_mirrMask : ∀ k < 4, (0xBFBFBFBF#64 : Word).extractLsb' (8 * k) 6 = BitVec.allOnes 6 := by decide

/-- A valid entry of a MIRR value that names a register of g40 to g55 (R64). -/
theorem any_highReg_mirrRegs (v : Word) : (mirrRegs (v &&& 0xBFBFBFBF#64)).any highReg = true ↔
    ∃ k < 4, bit v (8 * k + 7) = true ∧ 40 ≤ fld v (8 * k) 6 ∧ fld v (8 * k) 6 ≤ 55 := by
  have hmem (r : Nat) : r ∈ mirrRegs (v &&& 0xBFBFBFBF#64) ↔ ∃ k < 4, bit v (8 * k + 7) = true ∧ fld v (8 * k) 6 = r := by
    rw [mirrRegs, List.mem_filterMap]
    refine exists_congr fun k => ?_
    rw [List.mem_range]
    refine and_congr_right fun hk => ?_
    rw [bit_and, bit_mirrMask k hk, fld_and_of_ones (extract_mirrMask k hk)]
    cases bit v (8 * k + 7) <;> simp
  simp only [List.any_eq_true, hmem, highReg, decide_eq_true_eq]
  constructor
  · rintro ⟨_, ⟨k, hk, hbit, rfl⟩, h⟩
    exact ⟨k, hk, hbit, h⟩
  · rintro ⟨k, hk, hbit, h⟩
    exact ⟨_, ⟨k, hk, hbit, rfl⟩, h⟩

/-- The status word of a context that is not free, whose monitor registers are all full, is a sum of fields (R125). -/
theorem Ctx.toNat_status {x : Ctx} (hst : x.state ≠ .free) (hg : x.mgs = []) (hh : x.hwm < 64) :
    x.status.toNat = x.state.code + (if x.mon then 16 else 0) + 32 * x.pri.toNat + 256 * x.hwm := by
  have hcode : x.state.code < 8 := by cases x.state <;> decide
  have hsum : ((List.range 7).map (fun i => (fget .full x.mgs (i + 1)).code * 4 ^ i)).sum = 0 := by rw [hg]; rfl
  have hpri := x.pri.isLt
  rw [Ctx.status, if_neg hst, hsum, BitVec.toNat_ofNat, Nat.mod_eq_of_lt]
  · omega
  · split <;> omega

theorem registerStates : Claims.RegisterStates := by
  refine ⟨fun rd => ?emptyG, fun rd => ?fullG, fun rd => ?emptyV, fun rd => ?fullV, fun ra wa => ⟨?mirr, ?mirrTrap⟩, fun rd ra wa => ?rdctx,
    fun x h => if_pos h, fun x hst hg hh => ?status⟩
  case emptyG =>
    refine completes_of_issue (execMkempty rd 0) (fun _ => rfl) (fun _ => by rw [execMkempty, setRegState, if_neg (by decide)]; rfl) fun v s => ?_
    refine congrArg (fun t => Act.ok (State.retire t)) (State.updCur_congr ?_)
    cases s.cur.stateG rd.toNat <;> rfl
  case fullG =>
    refine completes_of_issue (execMkfull rd 0) (fun _ => rfl) (fun _ => by rw [execMkfull, setRegState, if_neg (by decide)]; rfl) fun v s => ?_
    refine congrArg (fun t => Act.ok (State.retire t)) (State.updCur_congr ?_)
    cases s.cur.stateG rd.toNat with
    | marked c a => exact Ctx.putState_full_putG _ _ _
    | full => rfl
    | empty => rfl
    | pending => rfl
  case emptyV =>
    refine completes_of_issue (execMkempty rd 1) (fun _ => rfl) (fun _ => by rw [execMkempty, setRegState, if_pos (by decide)]) fun v s => ?_
    refine congrArg (fun t => Act.ok (State.retire t)) (State.updCur_congr ?_)
    cases s.cur.stateV (rd.toNat % 32) <;> rfl
  case fullV =>
    refine completes_of_issue (execMkfull rd 1) (fun _ => rfl) (fun _ => by rw [execMkfull, setRegState, if_pos (by decide)]) fun v s => ?_
    refine congrArg (fun t => Act.ok (State.retire t)) (State.updCur_congr ?_)
    cases s.cur.stateV (rd.toNat % 32) with
    | marked c a => exact Ctx.putVState_full_putV _ _ _
    | full => rfl
    | empty => rfl
    | pending => rfl
  case mirr =>
    refine completesIf_of_issue (execMirr ra wa) (fun _ => rfl) (fun _ => rfl) fun v s h => if_neg ?_
    rw [Bool.and_eq_true, any_highReg_mirrRegs]
    rintro ⟨hred, k, hk, hbit, h40, h55⟩
    rcases h with h | h
    · simp [h] at hred
    · have := h k hk hbit
      omega
  case mirrTrap =>
    refine trapsIf_of_issue (execMirr ra wa) (fun _ => rfl) (fun _ => rfl) fun v s h => if_pos ?_
    rw [Bool.and_eq_true, any_highReg_mirrRegs]
    exact h
  case rdctx =>
    refine completes_of_issue (execRdctx rd ra wa) (fun _ => rfl) (fun _ => rfl) fun v s => ?_
    refine congrArg (s.result rd) ?_
    dsimp only
    by_cases h : (v0 v).toNat ≤ 11
    · rw [if_pos h, if_neg (by omega)]
    · rw [if_neg h, if_pos (by omega)]
  case status =>
    have hcode : x.state.code < 8 := by cases x.state <;> decide
    have hpri := x.pri.isLt
    have hword := Ctx.toNat_status hst hg hh
    have hbit : bit x.status 4 = decide (x.status.toNat / 16 % 2 = 1) := by
      rw [bit, BitVec.getLsbD, Nat.testBit_eq_decide_div_mod_eq]
    rw [hbit]
    simp only [fld, natBits]
    cases hm : x.mon <;> simp only [hm, Bool.false_eq_true, if_false, if_true] at hword
    · refine ⟨by omega, ?_, by omega, by omega⟩
      simp only [decide_eq_false_iff_not]; omega
    · refine ⟨by omega, ?_, by omega, by omega⟩
      simp only [decide_eq_true_eq]; omega

/-! ### Time and the tile's own registers (R98 to R100, R281) -/

theorem timeAndTile : Claims.TimeAndTile := by
  refine ⟨fun rd => ?rdtime, fun rd => ?rdtsr, fun ra wa => ?twait, fun rd e => ?rdnbr, fun rd e => ?rdhop, fun rd ra wa => ?rdmap,
    fun rd ra wa => ⟨?rtrd, ?rtrdTrap⟩, fun ra rb wa wb => ⟨?rtwr, ?rtwrTrap⟩⟩
  case rdtime => exact completes_of_issue (execRdtime rd) (fun _ => rfl) (fun _ => rfl) fun _ _ => rfl
  case rdtsr => exact completes_of_issue (execRdtsr rd) (fun _ => rfl) (fun _ => rfl) fun _ _ => rfl
  case twait =>
    refine completesIf_of_issue (execTwait ra wa) (fun _ => rfl) (fun _ => rfl) fun v s h => if_neg ?_
    exact not_or.mpr ⟨h.1, Nat.not_lt.mpr h.2⟩
  case rdnbr => exact completes_of_issue (execRdnbr rd e) (fun _ => rfl) (fun _ => rfl) fun _ _ => rfl
  case rdhop => exact completes_of_issue (execRdhop rd e) (fun _ => rfl) (fun _ => rfl) fun _ _ => rfl
  case rdmap => exact completes_of_issue (execRdmap rd ra wa) (fun _ => rfl) (fun _ => rfl) fun _ _ => rfl
  case rtrd =>
    refine completesIf_of_issue (execRtrd rd ra wa) (fun _ => rfl) (fun _ => rfl) fun v s h => ?_
    rw [if_neg (Nat.not_lt.mpr h), BitVec.ofNat_toNat]
    rfl
  case rtrdTrap => exact trapsIf_of_issue (execRtrd rd ra wa) (fun _ => rfl) (fun _ => rfl) fun v s h => if_pos h
  case rtwr =>
    refine completesIf_of_issue (execRtwr ra rb wa wb) (fun _ => rfl) (fun _ => rfl) fun v s h => ?_
    obtain ⟨h97, hres, hrow, hlive, hfifo, hxfer⟩ := h
    dsimp only
    rw [fld_setWidth _ (by decide), fld_setWidth _ (by decide), if_neg (by omega), if_neg]
    simp only [hfifo, hxfer, List.isEmpty_nil, Bool.not_true, Bool.or_false, List.any_eq_true, List.mem_range, Bool.and_eq_true, bne_iff_ne,
      decide_eq_true_eq]
    rintro ⟨c, hc, hne, hst⟩
    exact hlive c hc hne hst
  case rtwrTrap =>
    refine trapsIf_of_issue (execRtwr ra rb wa wb) (fun _ => rfl) (fun _ => rfl) fun v s h => if_pos ?_
    rwa [fld_setWidth _ (by decide), fld_setWidth _ (by decide)]

/-- Settles O40: each number of a special register by its row, and each instruction by what it does of its operands. -/
theorem specialRegisters : Obligations.SpecialRegisters := ⟨systemRegisters, registerStates, timeAndTile⟩

end Sys2Proof.Machine
end

section
/-! SUPPORT. Modifier pairs: which words a modifier may stand in front of, and the integer arithmetic under one (R65 to R67, R151, R152). -/
namespace Sys2Proof.Machine

/-! ### The integer arithmetic of a pair (R152) -/

theorem modOperand_eq_pairOperand (signed abs neg : Bool) (a : Word) :
    modOperand 64 signed abs neg (if signed then a.toInt else a.toNat) = Claims.pairOperand signed abs neg a := by
  cases signed
  · rfl
  · simp only [modOperand, Claims.pairOperand, if_true, Int.natCast_natAbs]

/-- Clamped from above and then from below, or the other way round (R32). -/
theorem clampInt_eq {lo hi : Int} (h : lo ≤ hi) (x : Int) :
    clampInt x lo hi = (min (max x lo) hi, if decide (min (max x lo) hi ≠ x) then 0x20#6 else 0) := by
  have hy : max lo (min x hi) = min (max x lo) hi := by omega
  simp only [clampInt, hy, flagIf, flagSA, bne_iff_ne, decide_eq_true_eq]
  rfl

/-- The operation of a pair gives the result of R152, and SA where it saturates. -/
theorem intMod_eq_pairResult {o : IntOp} {signed : Bool} {op : Int → Int → Int} (hs : o.signed = signed) (ho : ∀ x y, o.exact 64 x y = op x y)
    (m : Modifier) (a b : Word) :
    intMod m o 64 a b = ((Claims.pairResult m signed op a b).1, if (Claims.pairResult m signed op a b).2 then 0x20#6 else 0) := by
  have hexact : intMod m o 64 a b = intModExact m o 64 (if signed then a.toInt else a.toNat) (if signed then b.toInt else b.toNat) := by
    rw [intMod, hs]
    cases signed <;> rfl
  have hrange : intLo 64 signed ≤ intHi 64 signed := by cases signed <;> decide
  rw [hexact, intModExact, hs, modOperand_eq_pairOperand, modOperand_eq_pairOperand, ho, clampInt_eq hrange]
  unfold Claims.pairResult scaleInt intLo intHi
  cases m.sat <;> rfl

/-! ### The words a modifier accepts (R66) -/

theorem pairInstr_of_accepts {m : Modifier} {w : BitVec 32} {i : Instr} {c : Accepts} (hw : decode w = .ok i) (hc : acceptsOf i = some c)
    (hm : m.fits c = true) : pairInstr m w = some i := by
  simp only [pairInstr, hw, hc, hm, if_true]

theorem pairInstr_of_refused {m : Modifier} {w : BitVec 32}
    (h : ∀ i, decode w = .ok i → acceptsOf i = none ∨ ∃ c, acceptsOf i = some c ∧ m.fits c = false) : pairInstr m w = none := by
  unfold pairInstr
  split
  · rename_i i hw
    obtain hc | ⟨c, hc, hm⟩ := h i hw
    · rw [hc]
    · simp only [hc, hm, Bool.false_eq_true, if_false]
  · rfl

section
variable {rnd : BitVec 3} {scale : BitVec 6} {absb absa negb nega clamp sat : BitVec 1} {s : State}

theorem exec_pfx_pair {i : Instr} (hw : (Instr.pfx rnd scale absb absa negb nega clamp sat).wf = true)
    (h : pairInstr (modifierOf rnd scale absb absa negb nega clamp sat) s.slot.word2 = some i) :
    exec (.pfx rnd scale absb absa negb nega clamp sat) s = runPair (modifierOf rnd scale absb absa negb nega clamp sat) i s := by
  show execPfx rnd scale absb absa negb nega clamp sat s = _
  simp only [execPfx, hw, h, Bool.not_true, Bool.false_eq_true, if_false]

/-- Legal or not, a modifier without a word to go with traps (R66). -/
theorem exec_pfx_refused (h : pairInstr (modifierOf rnd scale absb absa negb nega clamp sat) s.slot.word2 = none) :
    exec (.pfx rnd scale absb absa negb nega clamp sat) s = .next (s.takeTrap 0x01 0) := by
  show execPfx rnd scale absb absa negb nega clamp sat s = _
  simp only [execPfx, h, ite_self]
  rfl

end

theorem fits_scalarInt {m : Modifier} (hr : m.rnd = 0) (hc : m.clamp = false) : m.fits scalarInt = true := by
  simp [Modifier.fits, scalarInt, hr, hc]

theorem fits_scalarImm {m : Modifier} (hr : m.rnd = 0) (hc : m.clamp = false) (ha : m.absb = false) (hn : m.negb = false) :
    m.fits scalarImm = true := by
  simp [Modifier.fits, scalarImm, hr, hc, ha, hn]

/-! ### Pairs on scalar arithmetic -/

/-- Each row of R152 is one operation of the model, on integers as wide as a register. -/
theorem runPair_row {p : Claims.RForm × Bool × (Int → Int → Int)} (hp : p ∈ Claims.pairRows) :
    ∃ o : IntOp, o.signed = p.2.1 ∧ (∀ x y, o.exact 64 x y = p.2.2 x y) ∧ (∀ rd ra rb wa wb, acceptsOf (p.1 rd ra rb wa wb) = some scalarInt) ∧
      ∀ m rd ra rb wa wb s, runPair m (p.1 rd ra rb wa wb) s = aluMod m (p.1 rd ra rb wa wb) o rd ra rb wa wb s := by
  simp only [Claims.pairRows, List.mem_cons, List.not_mem_nil, or_false] at hp
  obtain rfl | rfl | rfl | rfl | rfl | rfl | rfl | rfl | rfl := hp
  · exact ⟨.add, rfl, fun _ _ => rfl, fun _ _ _ _ _ => rfl, fun _ _ _ _ _ _ _ => rfl⟩
  · exact ⟨.sub, rfl, fun _ _ => rfl, fun _ _ _ _ _ => rfl, fun _ _ _ _ _ _ _ => rfl⟩
  · exact ⟨.mul, rfl, fun _ _ => rfl, fun _ _ _ _ _ => rfl, fun _ _ _ _ _ _ _ => rfl⟩
  · exact ⟨.mulh, rfl, fun _ _ => rfl, fun _ _ _ _ _ => rfl, fun _ _ _ _ _ _ _ => rfl⟩
  · exact ⟨.mulhu, rfl, fun _ _ => rfl, fun _ _ _ _ _ => rfl, fun _ _ _ _ _ _ _ => rfl⟩
  · exact ⟨.min, rfl, fun _ _ => rfl, fun _ _ _ _ _ => rfl, fun _ _ _ _ _ _ _ => rfl⟩
  · exact ⟨.max, rfl, fun _ _ => rfl, fun _ _ _ _ _ => rfl, fun _ _ _ _ _ _ _ => rfl⟩
  · exact ⟨.minu, rfl, fun _ _ => rfl, fun _ _ _ _ _ => rfl, fun _ _ _ _ _ _ _ => rfl⟩
  · exact ⟨.maxu, rfl, fun _ _ => rfl, fun _ _ _ _ _ => rfl, fun _ _ _ _ _ _ _ => rfl⟩

/-- A prefixed operation that is ready writes its result and merges its flag. -/
theorem aluMod_ready {m : Modifier} {i : Instr} {o : IntOp} {rd ra rb : BitVec 6} {wa wb : BitVec 1} {s : State} {r : Word × Bool}
    (h : (Claims.needRR i rd ra rb wa wb).ready s = true)
    (hr : intMod m o 64 (v0 ((Claims.needRR i rd ra rb wa wb).vals s)) (v1 ((Claims.needRR i rd ra rb wa wb).vals s)) = (r.1, if r.2 then 0x20#6 else 0)) :
    aluMod m i o rd ra rb wa wb s =
      .next (((((Claims.needRR i rd ra rb wa wb).take s).updCur (fun x => x.orFlags (if r.2 then 0x20#6 else 0))).writeG rd r.1).retire) := by
  rw [Claims.needRR] at h hr ⊢
  refine issue_ok h ?_
  dsimp only
  rw [hr]
  rfl

theorem addiMod_ready {m : Modifier} {i : Instr} {rd ra : BitVec 6} {wa : BitVec 1} {imm : BitVec 13} {s : State} {r : Word × Bool}
    (h : (Claims.needR i rd ra wa).ready s = true)
    (hr : intMod m .add 64 (v0 ((Claims.needR i rd ra wa).vals s)) (imm.signExtend 64) = (r.1, if r.2 then 0x20#6 else 0)) :
    addiMod m i rd ra wa imm s =
      .next (((((Claims.needR i rd ra wa).take s).updCur (fun x => x.orFlags (if r.2 then 0x20#6 else 0))).writeG rd r.1).retire) := by
  rw [Claims.needR] at h hr ⊢
  refine issue_ok h ?_
  dsimp only
  rw [hr]
  rfl

theorem scalarPairs : Claims.ScalarPairs := by
  intro rnd scale absb absa negb nega clamp sat i m hw hrnd hclamp
  have hr : m.rnd = 0 := congrArg BitVec.toNat hrnd
  have hc : m.clamp = false := by simp only [m, modifierOf, hclamp]; rfl
  constructor
  · intro p hp rd ra rb wa wb s n hword hready
    obtain ⟨o, hs, ho, hacc, hrun⟩ := runPair_row hp
    have hpair := pairInstr_of_accepts hword (hacc rd ra rb wa wb) (fits_scalarInt hr hc)
    exact (exec_pfx_pair hw hpair).trans ((hrun _ _ _ _ _ _ _).trans (aluMod_ready hready (intMod_eq_pairResult hs ho _ _ _)))
  · intro rd ra wa imm s n ha hn hword hready
    have hfits : m.fits scalarImm = true := fits_scalarImm hr hc (by simp only [m, modifierOf, ha]; rfl) (by simp only [m, modifierOf, hn]; rfl)
    have hpair := pairInstr_of_accepts hword rfl hfits
    exact (exec_pfx_pair hw hpair).trans (addiMod_ready hready (intMod_eq_pairResult rfl (fun _ _ => rfl) _ _ _))

theorem illegalPairs : Claims.IllegalPairs :=
  fun _ _ _ _ _ _ _ _ _ h => exec_pfx_refused (pairInstr_of_refused h)

/-- Settles O52: an accepted pair computes what R152 says, and any other modifier is an illegal instruction. -/
theorem modifierPairs : Obligations.ModifierPairs := ⟨scalarPairs, illegalPairs⟩

end Sys2Proof.Machine
end

section
/-! SUPPORT. What an instruction may do outside its context: pops and pushes of ports, acknowledgements, forwarding to followers. Slices, edge memory and
the parts of the state that no tile owns stay, and unless a site takes its last seal number the islands stay too (R58, R293, R361, R430). -/
namespace Sys2Proof.Machine

open Claims (CountersLow SameBytes)

/-! ### What stays outside the contexts -/

/-- The parts of a state that no port, message or seal number touches. -/
structure Steady where
  slot : Slot
  ecc : FMap Nat
  tick : Nat
  clusters : FMap Cluster
  fields : FMap Field
  tags : FMap FrameTag
  regions : FMap Region

def State.steady (s : State) : Steady := ⟨s.slot, s.ecc, s.tick, s.clusters, s.fields, s.tags, s.regions⟩

/-- The parts that the event of a site's last seal number may touch (R430). -/
structure Calm where
  mem : Memory
  islands : FMap Island
  ports : FMap Port
  groups : FMap Group
  bays : FMap Bay
  rings : FMap Ring
  sec : Sec
  module : Module
  events : List EventMsg
  posted : List Posted

def State.calm (s : State) : Calm := ⟨s.mem, s.islands, s.ports, s.groups, s.bays, s.rings, s.sec, s.module, s.events, s.posted⟩

/-- From s to t the machine outside the contexts changes at most by queues, agenda and names, and by at most n seal numbers. -/
structure Aside (n : Nat) (s t : State) : Prop where
  steady : t.steady = s.steady
  bytes : SameBytes s t
  calm : ∀ m, CountersLow s (n + m) → CountersLow t m ∧ t.calm = s.calm

theorem countersLow_mono {s : State} {m n : Nat} (h : m ≤ n) (hs : CountersLow s n) : CountersLow s m :=
  fun u => (Nat.add_le_add_left h _).trans_lt (hs u)

theorem Aside.refl (s : State) : Aside 0 s s := ⟨rfl, fun _ _ => rfl, fun m h => ⟨Nat.zero_add m ▸ h, rfl⟩⟩

theorem Aside.trans {a b : Nat} {s t u : State} (h : Aside a s t) (g : Aside b t u) : Aside (a + b) s u := by
  refine ⟨g.steady.trans h.steady, fun k hk => (g.bytes k hk).trans (h.bytes k hk), fun m hm => ?_⟩
  obtain ⟨hlow, ht⟩ := h.calm (b + m) (Nat.add_assoc a b m ▸ hm)
  obtain ⟨hlow, hu⟩ := g.calm m hlow
  exact ⟨hlow, hu.trans ht⟩

theorem Aside.mono {a b : Nat} {s t : State} (hab : a ≤ b) (h : Aside a s t) : Aside b s t :=
  ⟨h.steady, h.bytes, fun m hm => h.calm m (countersLow_mono (Nat.add_le_add_right hab m) hm)⟩

theorem Aside.slot {n : Nat} {s t : State} (h : Aside n s t) : t.slot = s.slot := congrArg Steady.slot h.steady

/-- From s to t every context stays as well. -/
structure Beside (n : Nat) (s t : State) : Prop extends Aside n s t where
  ctx : ∀ u c, t.ctx u c = s.ctx u c

theorem Beside.refl (s : State) : Beside 0 s s := ⟨.refl s, fun _ _ => rfl⟩

theorem Beside.trans {a b : Nat} {s t u : State} (h : Beside a s t) (g : Beside b t u) : Beside (a + b) s u :=
  ⟨h.toAside.trans g.toAside, fun v c => (g.ctx v c).trans (h.ctx v c)⟩

theorem Beside.mono {a b : Nat} {s t : State} (hab : a ≤ b) (h : Beside a s t) : Beside b s t := ⟨h.toAside.mono hab, h.ctx⟩

theorem Beside.cur {n : Nat} {s t : State} (h : Beside n s t) : t.cur = s.cur := by
  rw [State.cur, h.slot]
  exact h.ctx _ _

theorem beside_foldl {β : Type} {f : State → β → State} (h : ∀ s b, Beside 0 s (f s b)) (l : List β) (s : State) : Beside 0 s (l.foldl f s) := by
  induction l generalizing s with
  | nil => exact .refl s
  | cons b l ih => exact (h s b).trans (ih _)

/-! ### Tiles, agenda, names -/

theorem aside_setTile (s : State) (t : Nat) (x : Tile) : Aside 0 s (s.setTile t x) := ⟨rfl, fun _ _ => rfl, fun m h => ⟨Nat.zero_add m ▸ h, rfl⟩⟩

theorem beside_updTile (s : State) (t : Nat) {f : Tile → Tile} (h : (f (s.tile t)).ctxs = (s.tile t).ctxs) : Beside 0 s (s.updTile t f) :=
  ⟨aside_setTile s t _, (keepsCtxs_updTile s t h).ctx⟩

theorem beside_updQ (s : State) (t : Nat) (f : Queues → Queues) : Beside 0 s (s.updTile t (fun x => x.updQ f)) := beside_updTile s t rfl

theorem beside_later (s : State) (i : Instr) (e : EvArgs) : Beside 0 s (s.later i e) :=
  ⟨⟨rfl, fun _ _ => rfl, fun m h => ⟨Nat.zero_add m ▸ h, rfl⟩⟩, fun _ _ => rfl⟩

theorem beside_fresh (s : State) : Beside 0 s s.fresh.2 :=
  ⟨⟨rfl, fun _ _ => rfl, fun m h => ⟨Nat.zero_add m ▸ h, rfl⟩⟩, fun _ _ => rfl⟩

/-! ### Seal numbers (R430) -/

theorem State.site_setSite (s : State) (u v : Nat) (x : Site) : (s.setSite u x).site v = if v = u then x else s.site v := fget_fset _ _ _ _ _

/-- A counter that is not near its end takes its next number, and nothing is reported. -/
theorem State.takeSeq_low {s : State} {u : Nat} (h : (s.site u).sealCtr.toNat + 1 < 2 ^ 64 - 1) :
    s.takeSeq u = s.setSite u { s.site u with sealCtr := (s.site u).sealCtr + 1 } ∧
      ((s.site u).sealCtr + 1).toNat = (s.site u).sealCtr.toNat + 1 := by
  have hnext : ((s.site u).sealCtr + 1).toNat = (s.site u).sealCtr.toNat + 1 := by
    rw [BitVec.toNat_add]
    exact Nat.mod_eq_of_lt (by rw [show (1 : BitVec 64).toNat = 1 from rfl]; omega)
  have hones : (BitVec.allOnes 64).toNat = 2 ^ 64 - 1 := BitVec.toNat_allOnes
  unfold State.takeSeq
  dsimp only
  rw [if_neg (fun he => by rw [he] at h; omega), if_neg (fun he => by rw [he] at hnext; omega)]
  exact ⟨rfl, hnext⟩

theorem beside_takeSeq (s : State) (u : Nat) : Beside 1 s (s.takeSeq u) := by
  have hq := quiet_takeSeq s u
  refine ⟨⟨?_, hq.low, fun m h => ?_⟩, fun v c => ?_⟩
  · simp only [State.steady, hq.slot, hq.ecc, hq.tick, hq.clusters, hq.fields, hq.tags, hq.regions]
  · obtain ⟨heq, hnext⟩ := State.takeSeq_low (s := s) (u := u) (by have := h u; omega)
    rw [heq]
    refine ⟨fun v => ?_, rfl⟩
    rw [State.site_setSite]
    split
    · have := h u
      dsimp only
      omega
    · have := h v
      omega
  · rw [State.ctx, State.ctx, State.tile, State.tile, hq.tiles]

theorem beside_ite_takeSeq (s : State) (c : Bool) (u : Nat) : Beside 1 s (if c then s.takeSeq u else s) := by
  cases c
  · exact (Beside.refl s).mono (Nat.zero_le 1)
  · exact beside_takeSeq s u

theorem beside_sendBack (s : State) (t : Nat) (d : Dst) (i : Instr) (a : EvArgs) : Beside 1 s (s.sendBack t d i a) := by
  unfold State.sendBack
  split
  · exact (Beside.refl s).mono (Nat.zero_le 1)
  · exact (beside_ite_takeSeq s _ _).trans (beside_later _ _ _)

/-! ### Messages (R287 to R293) -/

theorem beside_setEntry (s : State) (t : Nat) (e : Ret) : Beside 0 s (s.setEntry t e) := beside_updQ _ _ _

theorem beside_keep (s : State) (t : Nat) (e : Ret) : Beside 0 s (s.keep t e) := beside_updQ _ _ _

theorem beside_launch (s : State) (t : Nat) (e : Ret) : Beside 1 s (s.launch t e) := by
  unfold State.launch
  extract_lets e0 stamp body e1 n s1
  split
  · exact (beside_setEntry s t _).mono (Nat.zero_le 1)
  · exact ((beside_setEntry s t e1).trans (beside_updTile _ t rfl)).trans ((beside_ite_takeSeq s1 _ _).trans (beside_later _ _ _))

theorem beside_inject (s : State) (t : Nat) (e : Ret) : Beside 1 s (s.inject t e) := by
  unfold State.inject
  split
  · exact (beside_keep s t _).mono (Nat.zero_le 1)
  · exact (beside_keep s t e).trans (beside_launch _ t e)

theorem beside_formMsg (s : State) (t c : Nat) (h : Word) (payload : List Word) (dst : Dst) (drow dcol : Nat) :
    Beside 1 s (s.formMsg t c h payload dst drow dcol) := by
  unfold State.formMsg
  dsimp only
  split
  · exact ((((beside_fresh s).trans (beside_keep _ t _)).trans (beside_updQ _ t _)).trans (beside_later _ _ _)).mono (Nat.zero_le 1)
  · exact (beside_fresh s).trans (beside_inject _ t _)

/-! ### Pushes (R58, R293, R364) -/

theorem beside_send7 (s : State) (t : Nat) (v : Word) : Beside 0 s (s.send7 t v) := by
  unfold State.send7
  split
  · exact (beside_updTile s _ rfl).trans (beside_later _ _ _)
  · exact beside_updTile s t rfl

theorem beside_flushPort (s : State) (t c p n : Nat) : Beside 1 s (s.flushPort t c p n) := by
  unfold State.flushPort
  extract_lets x w l s1
  split
  · exact (beside_updQ s t _).trans (beside_formMsg s1 t c _ _ _ _ _)
  · exact (beside_updQ s t _).mono (Nat.zero_le 1)

theorem beside_formPort (s : State) (t c p : Nat) : Beside 1 s (s.formPort t c p) := by
  unfold State.formPort
  dsimp only
  split
  · exact ((beside_updQ s t _).trans (beside_foldl (fun s (e : Nat × Word) => beside_send7 s t e.2) _ _)).mono (Nat.zero_le 1)
  · split
    · exact beside_flushPort s t c p _
    · exact (Beside.refl s).mono (Nat.zero_le 1)

/-- A push changes no context, and forms at most one message. -/
theorem beside_push (s : State) (t c p : Nat) (v : Word) : Beside 1 s (s.push t c p v) := by
  unfold State.push
  dsimp only
  split
  · exact (beside_send7 s t v).mono (Nat.zero_le 1)
  · exact (beside_updQ s t _).trans (beside_formPort _ t c p)

/-! ### Forwarding to a train's followers (R361) -/

theorem beside_forwardWord (s : State) (t : Nat) (a : Word) (w w2 : BitVec 32) : Beside 0 s (s.forwardWord t a w w2) := by
  refine (beside_updTile s t rfl).trans (beside_foldl (fun s d => ?_) _ _)
  split
  · exact .refl s
  · split
    · dsimp only
      split
      · have hlane := fun u => beside_updTile s u (f := fun y => { y with train := { y.train with lane := y.train.lane ++ [(a, w, w2)] } }) rfl
        split
        · exact (hlane _).trans (beside_later _ _ _)
        · exact (hlane _).trans (beside_later _ _ _)
      · exact .refl s
    · exact .refl s

theorem beside_forward (s : State) : Beside 0 s s.forward := by
  unfold State.forward
  dsimp only
  split
  · exact beside_forwardWord _ _ _ _ _
  · exact .refl s

end Sys2Proof.Machine
end

section
/-! SUPPORT. The frame of the scalar instructions: what their beginning and their end leave of the context and of the machine (R58, R61, R97, R136, R278). -/
namespace Sys2Proof.Machine

open Claims (SameBut SameElsewhere CountersLow)

/-! ### Scalar instructions write one register -/

/-- The instruction i names n, at most three sources, and writes one value to rd. -/
structure WritesOne (i : Instr) (rd : BitVec 6) (n : Need) : Prop where
  few : n.srcs.length ≤ 3
  exec : ∀ s, ∃ f : List Word → State → Word, exec i s = issue n s (fun v t => t.result rd (f v t))

section
variable {i : Instr} {rd ra rb : BitVec 6} {wa wb : BitVec 1}

theorem WritesOne.of_aluR {op : Word → Word → Word} (h : ∀ s, Machine.exec i s = aluR i rd ra rb wa wb op s) :
    WritesOne i rd (Claims.needRR i rd ra rb wa wb) :=
  ⟨Nat.le_succ 2, fun s => ⟨fun v _ => op (v0 v) (v1 v), h s⟩⟩

theorem WritesOne.of_aluR3 {op : Word → Word → Word → Word} (h : ∀ s, Machine.exec i s = aluR3 i rd ra rb wa wb op s) :
    WritesOne i rd { wf := i.wf, srcs := [blk rd, (ra, wt wa), (rb, wt wb)], dsts := [rd] } :=
  ⟨Nat.le_refl 3, fun s => ⟨fun v _ => op (v0 v) (v1 v) (v2 v), h s⟩⟩

theorem WritesOne.of_aluI {op : Word → Word} (h : ∀ s, Machine.exec i s = aluI i rd ra wa op s) : WritesOne i rd (Claims.needR i rd ra wa) :=
  ⟨Nat.le_add_left 1 2, fun s => ⟨fun v _ => op (v0 v), h s⟩⟩

theorem WritesOne.of_aluU {x : State → Word} (h : ∀ s, Machine.exec i s = aluU i rd (x s) s) : WritesOne i rd (Claims.needD i rd) :=
  ⟨Nat.zero_le 3, fun s => ⟨fun _ _ => x s, h s⟩⟩

end

/-- Each row of the scalar tables writes one register. -/
theorem writesOne_of_scalarNeed {i : Instr} {rd : BitVec 6} {n : Need} (h : Claims.scalarNeed i = some (rd, n)) : WritesOne i rd n := by
  unfold Claims.scalarNeed at h
  split at h
  all_goals cases h
  iterate 27 exact .of_aluR fun _ => by delta exec; exact rfl
  iterate 2 exact .of_aluR3 fun _ => by delta exec; exact rfl
  iterate 14 exact .of_aluI fun _ => by delta exec; exact rfl
  iterate 2 exact ⟨Nat.le_add_left 1 2, fun _ => ⟨_, by delta exec; exact rfl⟩⟩
  iterate 2 exact .of_aluU fun _ => by delta exec; exact rfl
  iterate 4 exact ⟨Nat.zero_le 3, fun _ => ⟨_, by delta exec; exact rfl⟩⟩

/-! ### What stays while an instruction changes its own context -/

/-- From s to t the machine stays but for the context at the slot, for queues, agenda and names, and for at most n seal numbers. -/
structure Own (n : Nat) (s t : State) : Prop extends Aside n s t where
  others : ∀ u c, ¬(u = s.slot.site ∧ c = s.slot.ctx) → t.ctx u c = s.ctx u c

theorem Beside.own {n : Nat} {s t : State} (h : Beside n s t) : Own n s t := ⟨h.toAside, fun u c _ => h.ctx u c⟩

theorem Own.trans {a b : Nat} {s t u : State} (h : Own a s t) (g : Own b t u) : Own (a + b) s u :=
  ⟨h.toAside.trans g.toAside, fun v c hne => (g.others v c (h.slot ▸ hne)).trans (h.others v c hne)⟩

theorem Own.mono {a b : Nat} {s t : State} (hab : a ≤ b) (h : Own a s t) : Own b s t := ⟨h.toAside.mono hab, h.others⟩

theorem own_updCur (s : State) (f : Ctx → Ctx) : Own 0 s (s.updCur f) :=
  ⟨aside_setTile s _ _, fun _ _ h => State.ctx_updCtx_ne s f h⟩

/-- Eight seal numbers are more than an instruction takes. -/
theorem Own.sameElsewhere {n : Nat} {s t : State} (h : Own n s t) (hn : n ≤ 8) : SameElsewhere s t := by
  have hs := h.steady
  refine ⟨h.others, h.bytes, congrArg Steady.ecc hs, congrArg Steady.tick hs, congrArg Steady.clusters hs, congrArg Steady.fields hs,
    congrArg Steady.tags hs, congrArg Steady.regions hs, fun hlow => ?_⟩
  have hc := (h.calm (8 - n) (countersLow_mono (by omega) hlow)).2
  exact ⟨congrArg Calm.mem hc, congrArg Calm.islands hc, congrArg Calm.ports hc, congrArg Calm.groups hc, congrArg Calm.bays hc,
    congrArg Calm.rings hc, congrArg Calm.sec hc, congrArg Calm.module hc, congrArg Calm.events hc, congrArg Calm.posted hc⟩

/-! ### Taking the operands (R58, R97, R278) -/

/-- What a pop changes of a context: the stamp of its last receipt, and how far its receipts reach (R236, R278). -/
def Ctx.received (x : Ctx) (stamp : Word) (mark : Nat) : Ctx := { x with rstamp := stamp, acquired := mark }

theorem beside_receive (s : State) (t : Nat) (ss : Word) : Beside 0 s (s.receive t ss).2 := beside_updQ s t _

theorem beside_popAck (s : State) (t : Nat) (e : PElem) : Beside 1 s (s.popAck t e) := by
  unfold State.popAck
  split
  · exact (beside_updTile s t rfl).trans (beside_sendBack _ _ _ _ _)
  · exact (Beside.refl s).mono (Nat.zero_le 1)

/-- A receipt is stamped in the context and acknowledged. -/
theorem own_receipt (s : State) (r : Word) (e : PElem) :
    let t := ((s.updCtx s.slot.site s.slot.ctx (fun x => { x with rstamp := r })).acquire s.slot.site s.slot.ctx).popAck s.slot.site e
    Own 1 s t ∧ ∃ k, t.cur = s.cur.received r k := by
  let s1 := s.updCur (fun x => { x with rstamp := r })
  let s2 := s1.updCur (fun x => { x with acquired := s1.nextId })
  have hack := beside_popAck s2 s.slot.site e
  refine ⟨((own_updCur s _).trans (own_updCur s1 _)).trans hack.own, s1.nextId, ?_⟩
  refine hack.cur.trans ?_
  rw [State.cur_updCur, State.cur_updCur]
  rfl

theorem own_pop (s : State) (p : Nat) :
    Own 1 s (s.pop s.slot.site s.slot.ctx p) ∧ ∃ r k, (s.pop s.slot.site s.slot.ctx p).cur = s.cur.received r k := by
  unfold State.pop
  split
  · exact ⟨(Beside.refl s).own.mono (Nat.zero_le 1), _, _, rfl⟩
  · rename_i e l hq
    extract_lets s1
    have h1 : Beside 0 s s1 := beside_updQ s _ _
    split
    · have h2 := h1.trans (beside_receive s1 s.slot.site e.stamp)
      obtain ⟨h3, k, hk⟩ := own_receipt (s1.receive s.slot.site e.stamp).2 (s1.receive s.slot.site e.stamp).1 e
      exact ⟨h2.own.trans h3, _, k, hk.trans (by rw [h2.cur])⟩
    · exact ⟨h1.own.mono (Nat.zero_le 1), _, _, h1.cur⟩

/-- Taking the elements of the ports among some sources. -/
def State.popSources (s : State) (l : List (BitVec 6 × Bool)) : State :=
  l.foldl (fun s p => if inPort p.1 then s.pop s.slot.site s.slot.ctx (p.1.toNat - 56) else s) s

/-- Each port among the sources takes at most one seal number, and without a port the context stays. -/
theorem own_popSources (l : List (BitVec 6 × Bool)) (s : State) : Own l.length s (s.popSources l) ∧
    ∃ r k, (s.popSources l).cur = s.cur.received r k ∧ (l.all (fun p => !inPort p.1) = true → r = s.cur.rstamp) := by
  induction l generalizing s with
  | nil => exact ⟨(Beside.refl s).own, _, _, rfl, fun _ => rfl⟩
  | cons p l ih =>
    rw [State.popSources, List.foldl_cons, ← State.popSources, List.length_cons, Nat.add_comm]
    cases hp : inPort p.1 with
    | false =>
      obtain ⟨hown, r, k, hcur, hr⟩ := ih s
      exact ⟨hown.mono (Nat.le_add_left _ _), r, k, hcur, fun hall => hr (by simpa [hp] using hall)⟩
    | true =>
      obtain ⟨hpop, r, k, hcur⟩ := own_pop s (p.1.toNat - 56)
      obtain ⟨hown, r', k', hcur', -⟩ := ih (s.pop s.slot.site s.slot.ctx (p.1.toNat - 56))
      refine ⟨hpop.trans hown, r', k', ?_, fun hall => absurd hall (by simp [hp])⟩
      rw [if_pos rfl, hcur', hcur]
      rfl

/-- The high-water mark only rises (R97). -/
theorem Ctx.hwm_le_foldl_raise (l : List Nat) (x : Ctx) : x.hwm ≤ (l.foldl Ctx.raise x).hwm := by
  induction l generalizing x with
  | nil => exact Nat.le_refl _
  | cons r l ih =>
    refine Nat.le_trans ?_ (ih _)
    unfold Ctx.raise
    split
    · exact Nat.le_max_left _ _
    · exact Nat.le_refl _

/-- What is left of a context when its operands are taken. -/
theorem Need.own_take (n : Need) (s : State) : Own n.srcs.length s (n.take s) ∧
    ∃ h r k, (n.take s).cur = { s.cur with hwm := h, rstamp := r, acquired := k } ∧ s.cur.hwm ≤ h ∧
      (n.srcs.all (fun p => !inPort p.1) = true → r = s.cur.rstamp) := by
  obtain ⟨h, hraise⟩ := Ctx.foldl_raise n.named s.cur
  have hle := Ctx.hwm_le_foldl_raise n.named s.cur
  rw [hraise] at hle
  obtain ⟨hown, r, k, hcur, hr⟩ := own_popSources n.srcs (s.updCur (fun x => n.named.foldl Ctx.raise x))
  rw [State.cur_updCur, hraise] at hcur hr
  refine ⟨Nat.zero_add n.srcs.length ▸ (own_updCur s _).trans hown, h, r, k, hcur, hle, hr⟩

/-! ### Writing the result (R57, R58, R61) -/

/-- A write to a register changes registers alone. -/
theorem Ctx.putG_eq (x : Ctx) (m : Bool) (r : Nat) (v : Word) : ∃ g gs mg mgs, x.putG m r v = { x with g := g, gs := gs, mg := mg, mgs := mgs } := by
  unfold Ctx.putG
  split
  · exact ⟨_, _, _, _, rfl⟩
  · split
    · exact ⟨_, _, _, _, rfl⟩
    · exact ⟨_, _, _, _, rfl⟩

theorem Ctx.stateG_putG_ne (x : Ctx) {r q : Nat} (m : Bool) (v : Word) (h : q ≠ r) : (x.putG m r v).stateG q = x.stateG q := by
  unfold Ctx.stateG
  rw [Ctx.putG_mon]
  unfold Ctx.putG
  repeat' split
  all_goals simp only [fget_fset_ne _ _ _ h]

/-- In monitor mode the user's g1 to g7 stay (R116). -/
theorem Ctx.fget_g_putG_of_mon {x : Ctx} (h : x.mon = true) (r : Nat) (v : Word) {q : Nat} (h1 : 1 ≤ q) (h7 : q ≤ 7) :
    fget 0 (x.putG x.mon r v).g q = fget 0 x.g q := by
  unfold Ctx.putG monName
  rw [h]
  split
  · rfl
  · split
    · rfl
    · rename_i hr
      exact fget_fset_ne _ _ _ (fun he => hr (by simp [← he, h1, h7]))

/-- In user mode the monitor's registers stay (R116). -/
theorem Ctx.mg_putG_of_user {x : Ctx} (h : x.mon = false) (r : Nat) (v : Word) :
    (x.putG x.mon r v).mg = x.mg ∧ (x.putG x.mon r v).mgs = x.mgs := by
  unfold Ctx.putG monName
  rw [h]
  split
  · exact ⟨rfl, rfl⟩
  · exact ⟨rfl, rfl⟩

theorem sameBut_putG (x : Ctx) (rd : BitVec 6) (v : Word) : SameBut x (x.putG x.mon rd.toNat v) rd := by
  refine ⟨fun r hr => ⟨Ctx.readG_putG_ne _ _ _ hr, Ctx.stateG_putG_ne _ _ _ hr⟩, fun h r h1 h7 => Ctx.fget_g_putG_of_mon h _ _ h1 h7,
    fun h => Ctx.mg_putG_of_user h _ _, ?_⟩
  obtain ⟨g, gs, mg, mgs, h⟩ := x.putG_eq x.mon rd.toNat v
  rw [h]
  exact ⟨rfl, rfl, rfl, rfl, rfl, rfl, rfl, rfl, rfl, rfl, rfl, rfl, rfl, rfl, rfl, fun _ _ => rfl, rfl, rfl, rfl, rfl, rfl, rfl⟩

theorem sameBut_refl (x : Ctx) (rd : BitVec 6) : SameBut x x rd :=
  ⟨fun _ _ => ⟨rfl, rfl⟩, fun _ _ _ _ => rfl, fun _ => ⟨rfl, rfl⟩, rfl, rfl, rfl, rfl, rfl, rfl, rfl, rfl, rfl, rfl, rfl, rfl, rfl, rfl, rfl,
    fun _ _ => rfl, rfl, rfl, rfl, rfl, rfl, rfl⟩

/-- A value written to gd goes into the register, or through the port and leaves every register. -/
theorem State.own_writeG (s : State) (rd : BitVec 6) (v : Word) : Own 1 s (s.writeG rd v) ∧ SameBut s.cur (s.writeG rd v).cur rd ∧
    (s.writeG rd v).cur.rstamp = s.cur.rstamp ∧ (s.writeG rd v).cur.hwm = s.cur.hwm ∧
    (60 ≤ rd.toNat → ∀ r, (s.writeG rd v).cur.readG r = s.cur.readG r) := by
  by_cases h : 60 ≤ rd.toNat
  · have hpush := beside_push s s.slot.site s.slot.ctx (rd.toNat - 56) v
    have hw : s.writeG rd v = s.push s.slot.site s.slot.ctx (rd.toNat - 56) v := if_pos h
    rw [hw, hpush.cur]
    exact ⟨hpush.own, sameBut_refl _ _, rfl, rfl, fun _ _ => rfl⟩
  · rw [State.writeG_reg s v (by omega), State.cur_updCur]
    obtain ⟨g, gs, mg, mgs, hput⟩ := s.cur.putG_eq s.cur.mon rd.toNat v
    exact ⟨(own_updCur s _).mono (Nat.zero_le 1), sameBut_putG _ _ _, by rw [hput], by rw [hput], fun h60 => absurd h60 h⟩

/-! ### Going on -/

theorem own_retire (s : State) : Own 0 s s.retire := by
  refine (beside_forward s).own.trans (u := s.retire) (b := 0) ?_
  unfold State.retire State.finish State.goOn
  dsimp only
  split
  · exact (own_updCur _ _).trans (own_updCur _ _)
  · exact own_updCur _ _

/-- SKIP is the one bit of DBGCTL that going on clears (R447). -/
theorem bit_clear_skip (w : Word) {k : Nat} (h : k ≠ 6) : bit (w &&& ~~~0x40#64) k = bit w k := by
  have hmask : ∀ j < 64, j ≠ 6 → bit (~~~0x40#64 : Word) j = true := by decide
  rw [bit_and]
  by_cases hk : k < 64
  · rw [hmask k hk h, Bool.and_true]
  · rw [show bit w k = false from BitVec.getLsbD_of_ge _ _ (Nat.not_lt.mp hk), Bool.false_and]

/-- Going on leaves every register and every flag (R176, R447). -/
theorem State.sameBut_retire (s : State) {x : Ctx} {rd : BitVec 6} (h : SameBut x s.cur rd) : SameBut x s.retire.cur rd ∧
    s.retire.cur.rstamp = s.cur.rstamp ∧ s.retire.cur.hwm = s.cur.hwm ∧ ∀ r, s.retire.cur.readG r = s.cur.readG r := by
  obtain ⟨p, f, k, d, b, hcur, -, hd⟩ := s.cur_finish s.nextAddr
  rw [State.retire, hcur]
  refine ⟨?_, rfl, rfl, fun _ => rfl⟩
  have hbit : ∀ k, k ≠ 6 → bit d k = bit s.cur.dbgctl k := by
    intro k hk
    rcases hd with rfl | rfl
    · rfl
    · exact bit_clear_skip _ hk
  obtain ⟨hreg, hmon, huser, hv, hvs, hmasks, ht, hfcsr, hmirr, hmode, hpri, hstate, htepc, htcause, htval, htword, htstat, hmscr, hdbg, hrest⟩ := h
  exact ⟨hreg, hmon, huser, hv, hvs, hmasks, ht, hfcsr, hmirr, hmode, hpri, hstate, htepc, htcause, htval, htword, htstat, hmscr,
    fun k hk => (hbit k hk).trans (hdbg k hk), hrest⟩

/-- Settles O11: the operands are taken, the result is written and the context goes on; each of the three leaves what the frame names. -/
theorem scalarFrame : Obligations.ScalarFrame := by
  intro i rd n s hneed hready
  obtain ⟨hfew, hexec⟩ := writesOne_of_scalarNeed hneed
  obtain ⟨f, hf⟩ := hexec s
  obtain ⟨htake, h, r, k, hcur, hhwm, hr⟩ := n.own_take s
  obtain ⟨hwrite, hsame, hstamp, hmark, hport⟩ := (n.take s).own_writeG rd (f (n.vals s) (n.take s))
  rw [hcur] at hsame hstamp hmark hport
  have hsame' : SameBut s.cur ((n.take s).writeG rd (f (n.vals s) (n.take s))).cur rd := hsame
  obtain ⟨hfin, hstamp', hmark', hread⟩ := State.sameBut_retire _ hsame'
  refine ⟨((n.take s).writeG rd (f (n.vals s) (n.take s))).retire, hf.trans (issue_ok hready rfl), hfin, ?_, fun hall => ?_, ?_, fun h60 q => ?_⟩
  · exact ((htake.trans hwrite).trans (own_retire _)).sameElsewhere (by omega)
  · exact hstamp'.trans (hstamp.trans (hr hall))
  · rw [hmark', hmark]
    exact hhwm
  · exact (hread q).trans (hport h60 q)

end Sys2Proof.Machine
end

section
/-! SUPPORT. The canonical form of memory carried through what an operation can answer: for each carrier of a state, that every state it carries is in
form, and that a fold of operations that keep the form keeps it (R86, R208). A lemma `formed_f` below says that the operation `f` of the model keeps
the form. -/
namespace Sys2Proof.Machine

/-- What a meaning answers leaves memory in its form: the next state, where there is one. -/
inductive OutFormed : Out → Prop
  | next {t : State} (h : t.memWf) : OutFormed (.next t)
  | fault {r : Fault} : OutFormed (.fault r)
  | refused {r : Refusal} : OutFormed (.refused r)

theorem OutFormed.of_next {o : Out} {t : State} (h : OutFormed o) (e : o = .next t) : t.memWf := by
  cases h <;> cases e
  assumption

/-- The same of an operation that has its operands; what one that waits records keeps the form in every state. -/
inductive ActFormed : Act → Prop
  | fault {c : Nat} {v : Word} : ActFormed (.fault c v)
  | wait {f : State → State} (h : ∀ t, t.memWf → (f t).memWf) : ActFormed (.wait f)
  | ok {t : State} (h : t.memWf) : ActFormed (.ok t)

theorem ActFormed.of_wait {o : Act} {f : State → State} (h : ActFormed o) (e : o = .wait f) : ∀ t, t.memWf → (f t).memWf := by
  cases h <;> cases e
  assumption

theorem ActFormed.of_ok {o : Act} {t : State} (h : ActFormed o) (e : o = .ok t) : t.memWf := by
  cases h <;> cases e
  assumption

/-- The same of a state or none. -/
inductive OptFormed : Option State → Prop
  | some {t : State} (h : t.memWf) : OptFormed (Option.some t)
  | none : OptFormed Option.none

theorem OptFormed.of_some {o : Option State} {t : State} (h : OptFormed o) (e : o = Option.some t) : t.memWf := by
  cases h <;> cases e
  assumption

/-- The same of either answer. -/
inductive ExceptFormed : Except State State → Prop
  | error {t : State} (h : t.memWf) : ExceptFormed (.error t)
  | ok {t : State} (h : t.memWf) : ExceptFormed (.ok t)

theorem ExceptFormed.of_error {o : Except State State} {t : State} (h : ExceptFormed o) (e : o = .error t) : t.memWf := by
  cases h <;> cases e
  assumption

theorem ExceptFormed.of_ok {o : Except State State} {t : State} (h : ExceptFormed o) (e : o = .ok t) : t.memWf := by
  cases h <;> cases e
  assumption

/-- The same of a value with a state, or none. -/
inductive PairFormed : Option (Nat × State) → Prop
  | some {p : Nat × State} (h : p.2.memWf) : PairFormed (Option.some p)
  | none : PairFormed Option.none

theorem PairFormed.of_some {o : Option (Nat × State)} {p : Nat × State} (h : PairFormed o) (e : o = Option.some p) : p.2.memWf := by
  cases h <;> cases e
  assumption

/-- The same of a fetch. -/
inductive FetchedFormed : Fetched → Prop
  | word {w : BitVec 32} {t : State} (h : t.memWf) : FetchedFormed (.word w t)
  | wait {t : State} (h : t.memWf) : FetchedFormed (.wait t)
  | fault {c : Nat} {v : Word} : FetchedFormed (.fault c v)

theorem FetchedFormed.of_word {o : Fetched} {w : BitVec 32} {t : State} (h : FetchedFormed o) (e : o = .word w t) : t.memWf := by
  cases h <;> cases e
  assumption

theorem FetchedFormed.of_wait {o : Fetched} {t : State} (h : FetchedFormed o) (e : o = .wait t) : t.memWf := by
  cases h <;> cases e
  assumption

/-- The same of a word picked for issue. -/
inductive PickedFormed : Picked → Prop
  | word {t : State} (h : t.memWf) : PickedFormed (.word t)
  | wait {t : State} (h : t.memWf) : PickedFormed (.wait t)
  | fault {t : State} {c : Nat} {v : Word} (h : t.memWf) : PickedFormed (.fault t c v)

theorem PickedFormed.of_word {o : Picked} {t : State} (h : PickedFormed o) (e : o = .word t) : t.memWf := by
  cases h <;> cases e
  assumption

theorem PickedFormed.of_wait {o : Picked} {t : State} (h : PickedFormed o) (e : o = .wait t) : t.memWf := by
  cases h <;> cases e
  assumption

theorem PickedFormed.of_fault {o : Picked} {t : State} {c : Nat} {v : Word} (h : PickedFormed o) (e : o = .fault t c v) : t.memWf := by
  cases h <;> cases e
  assumption

/-- The same of the fill of a body. -/
inductive FilledFormed : Filled → Prop
  | pass {l : List (BitVec 32)} {t : State} (h : t.memWf) : FilledFormed (.pass l t)
  | fail {t : State} (h : t.memWf) : FilledFormed (.fail t)
  | wait {l : List (BitVec 32)} {t : State} (h : t.memWf) : FilledFormed (.wait l t)
  | fault {a : Word} {c : Nat} {v : Word} : FilledFormed (.fault a c v)

theorem FilledFormed.of_pass {o : Filled} {l : List (BitVec 32)} {t : State} (h : FilledFormed o) (e : o = .pass l t) : t.memWf := by
  cases h <;> cases e
  assumption

theorem FilledFormed.of_fail {o : Filled} {t : State} (h : FilledFormed o) (e : o = .fail t) : t.memWf := by
  cases h <;> cases e
  assumption

theorem FilledFormed.of_wait {o : Filled} {l : List (BitVec 32)} {t : State} (h : FilledFormed o) (e : o = .wait l t) : t.memWf := by
  cases h <;> cases e
  assumption

/-- The same of a unit of the matrix unit's work. -/
inductive WorkFormed : Work → Prop
  | done {e : MCmd} {t : State} (h : t.memWf) : WorkFormed (.done e t)
  | wait : WorkFormed .wait
  | fail {c : Nat} {t : State} (h : t.memWf) : WorkFormed (.fail c t)

theorem WorkFormed.of_done {o : Work} {e : MCmd} {t : State} (h : WorkFormed o) (e : o = .done e t) : t.memWf := by
  cases h <;> cases e
  assumption

theorem WorkFormed.of_fail {o : Work} {c : Nat} {t : State} (h : WorkFormed o) (e : o = .fail c t) : t.memWf := by
  cases h <;> cases e
  assumption

/-- The same of a transfer's next unit. -/
inductive SentFormed : Sent → Prop
  | go {t : State} (h : t.memWf) : SentFormed (.go t)
  | wait {t : State} (h : t.memWf) : SentFormed (.wait t)

theorem SentFormed.of_go {o : Sent} {t : State} (h : SentFormed o) (e : o = .go t) : t.memWf := by
  cases h <;> cases e
  assumption

theorem SentFormed.of_wait {o : Sent} {t : State} (h : SentFormed o) (e : o = .wait t) : t.memWf := by
  cases h <;> cases e
  assumption

/-- The same of a walker's read. -/
inductive ReadingFormed : Reading → Prop
  | wait : ReadingFormed .wait
  | again {w : Walker} {t : State} (h : t.memWf) : ReadingFormed (.again w t)
  | stale : ReadingFormed .stale
  | error : ReadingFormed .error
  | got {e d : Nat} {w : Walker} {t : State} (h : t.memWf) : ReadingFormed (.got e d w t)

theorem ReadingFormed.of_again {o : Reading} {w : Walker} {t : State} (h : ReadingFormed o) (e : o = .again w t) : t.memWf := by
  cases h <;> cases e
  assumption

theorem ReadingFormed.of_got {o : Reading} {e d : Nat} {w : Walker} {t : State} (h : ReadingFormed o) (e : o = .got e d w t) : t.memWf := by
  cases h <;> cases e
  assumption

/-- The same of a command of a ring. -/
inductive RanFormed : Ran → Prop
  | done {st : Status} {w : Nat} {t : State} (h : t.memWf) : RanFormed (.done st w t)
  | later {t : State} (h : t.memWf) : RanFormed (.later t)

theorem RanFormed.of_done {o : Ran} {st : Status} {w : Nat} {t : State} (h : RanFormed o) (e : o = .done st w t) : t.memWf := by
  cases h <;> cases e
  assumption

theorem RanFormed.of_later {o : Ran} {t : State} (h : RanFormed o) (e : o = .later t) : t.memWf := by
  cases h <;> cases e
  assumption

theorem memWf_of_snd {α : Type} {p : α × State} {a : α} {t : State} (h : p.2.memWf) (e : p = (a, t)) : t.memWf := by rw [e] at h; exact h

theorem formed_getD {o : Option State} {s : State} (ho : OptFormed o) (h : s.memWf) : (o.getD s).memWf := by
  cases ho with
  | some h1 => exact h1
  | none => exact h

theorem formed_foldl {β : Type} {f : State → β → State} (hf : ∀ s b, s.memWf → (f s b).memWf) {l : List β} {s : State} (h : s.memWf) :
    (l.foldl f s).memWf := by
  induction l generalizing s with
  | nil => exact h
  | cons b l ih => exact ih (hf s b h)

theorem formed_foldl_snd {α β : Type} {f : α × State → β → α × State} (hf : ∀ p b, p.2.memWf → (f p b).2.memWf) {l : List β} {p : α × State}
    (h : p.2.memWf) :
    (l.foldl f p).2.memWf := by
  induction l generalizing p with
  | nil => exact h
  | cons b l ih => exact ih (hf p b h)

theorem formed_foldl_snd_snd {α γ β : Type} {f : α × γ × State → β → α × γ × State} (hf : ∀ p b, p.2.2.memWf → (f p b).2.2.memWf) {l : List β}
    {p : α × γ × State} (h : p.2.2.memWf) : (l.foldl f p).2.2.memWf := by
  induction l generalizing p with
  | nil => exact h
  | cons b l ih => exact ih (hf p b h)

theorem formed_foldl_fst {α β : Type} {f : State × α → β → State × α} (hf : ∀ p b, p.1.memWf → (f p b).1.memWf) {l : List β} {p : State × α}
    (h : p.1.memWf) :
    (l.foldl f p).1.memWf := by
  induction l generalizing p with
  | nil => exact h
  | cons b l ih => exact ih (hf p b h)

/-- A state takes the memory of the one it is made of. -/
theorem memWf_of_mem_eq {s t : State} (h : s.memWf) (e : t.mem = s.mem) : t.memWf := by
  unfold State.memWf at *
  rw [e]
  exact h

theorem memWf_snd_ite {α : Type} {c : Prop} [Decidable c] {p q : α × State} (hp : p.2.memWf) (hq : q.2.memWf) : (if c then p else q).2.memWf := by
  split
  · exact hp
  · exact hq

end Sys2Proof.Machine
end

section
/-! SUPPORT. The form of memory under the named operations: the parts of the state, messages and events, routes, the addresses of a tile and the issue
of an instruction. -/
namespace Sys2Proof.Machine

theorem formed_setTile {s : State} {t : Nat} {x : Tile} (h : s.memWf) : (s.setTile t x).memWf := h

theorem formed_updTile {s : State} {t : Nat} {f : Tile → Tile} (h : s.memWf) : (s.updTile t f).memWf := h

theorem formed_updCtx {s : State} {t c : Nat} {f : Ctx → Ctx} (h : s.memWf) : (s.updCtx t c f).memWf := h

theorem formed_setSite {s : State} {t : Nat} {x : Site} (h : s.memWf) : (s.setSite t x).memWf := h

theorem formed_setField {s : State} {f : Nat} {x : Field} (h : s.memWf) : (s.setField f x).memWf := h

theorem formed_setCluster {s : State} {k : Nat} {x : Cluster} (h : s.memWf) : (s.setCluster k x).memWf := h

theorem formed_setIsland {s : State} {i : Nat} {x : Island} (h : s.memWf) : (s.setIsland i x).memWf := h

theorem formed_setPort {s : State} {p : Nat} {x : Port} (h : s.memWf) : (s.setPort p x).memWf := h

theorem formed_setGroup {s : State} {g : Nat} {x : Group} (h : s.memWf) : (s.setGroup g x).memWf := h

theorem formed_setBay {s : State} {b : Nat} {x : Bay} (h : s.memWf) : (s.setBay b x).memWf := h

theorem formed_setTag {s : State} {f : Nat} {x : FrameTag} (h : s.memWf) : (s.setTag f x).memWf := h

theorem formed_setRegion {s : State} {r : Nat} {x : Region} (h : s.memWf) : (s.setRegion r x).memWf := h

theorem formed_updRegion {s : State} {r : Nat} {f : Region → Region} (h : s.memWf) : (s.updRegion r f).memWf := h

theorem formed_setRing {s : State} {k : Nat} {x : Ring} (h : s.memWf) : (s.setRing k x).memWf := h

theorem formed_setCmdRing {s : State} {k : Nat} {x : CmdRing} (h : s.memWf) : (s.setCmdRing k x).memWf := h

theorem formed_updCurTile {s : State} {f : Tile → Tile} (h : s.memWf) : (s.updCurTile f).memWf := h

theorem formed_updCur {s : State} {f : Ctx → Ctx} (h : s.memWf) : (s.updCur f).memWf := h

theorem formed_later {s : State} {i : Instr} {e : EvArgs} (h : s.memWf) : (s.later i e).memWf := h

theorem formed_loadNbr {s : State} {t : Nat} (h : s.memWf) : (s.loadNbr t).memWf := h

theorem formed_spmWrite {s : State} {t off n v : Nat} (h : s.memWf) : (s.spmWrite t off n v).memWf := State.spmWrite_wf n t off v h

theorem formed_memWrite {s : State} {key n v : Nat} (h : s.memWf) : (s.memWrite key n v).memWf := Memory.writeLE_wf _ _ _ h

theorem formed_ringWrite {s : State} {k v : Nat} (h : s.memWf) : (s.ringWrite k v).memWf :=
  formed_setRing (formed_memWrite (formed_memWrite h))

theorem formed_interruptRegion {s : State} {r k : Nat} (h : s.memWf) : (s.interruptRegion r k).memWf := h

theorem formed_interruptHyp {s : State} {isl : Nat} (h : s.memWf) : (s.interruptHyp isl).memWf := h

theorem formed_eventWrite {s : State} {e : EventMsg} (h : s.memWf) : (s.eventWrite e).memWf := by
  unfold State.eventWrite
  split
  · exact formed_interruptHyp (formed_ringWrite h)
  · exact formed_interruptRegion (formed_ringWrite h)

theorem formed_raise {s : State} {e : EventMsg} (h : s.memWf) : (s.raise e).memWf := by
  unfold State.raise
  split
  · exact formed_eventWrite h
  · exact h

theorem formed_event {s : State} {r code flags col row scol srow : Nat} {a0 a1 : Word} (h : s.memWf) :
    (s.event r code flags col row scol srow a0 a1).memWf :=
  formed_raise h

theorem formed_tileEvent {s : State} {t code flags scol srow : Nat} {a0 a1 : Word} (h : s.memWf) :
    (s.tileEvent t code flags scol srow a0 a1).memWf := by
  unfold State.tileEvent
  dsimp only
  split <;> exact h

theorem formed_siteEvent {s : State} {f code : Nat} {a0 a1 : Word} (h : s.memWf) : (s.siteEvent f code a0 a1).memWf :=
  formed_raise h

theorem formed_degrade {s : State} {t : Nat} (h : s.memWf) : (s.degrade t).memWf :=
  formed_siteEvent h

theorem formed_countCec {s : State} {t n : Nat} (h : s.memWf) : (s.countCec t n).memWf := by
  unfold State.countCec
  split
  · exact h
  · dsimp only
    split
    · exact formed_degrade h
    · exact h

theorem formed_storeEcc {s : State} {t off n : Nat} (h : s.memWf) : (s.storeEcc t off n).memWf := by
  unfold State.storeEcc
  refine formed_foldl (fun _ _ h1 => ?_) h
  split <;> exact h1

theorem formed_spmPut {s : State} {t off n v : Nat} (h : s.memWf) : (s.spmPut t off n v).memWf :=
  formed_storeEcc (formed_spmWrite h)

theorem formed_spmStore {s : State} {t off n v : Nat} (h : s.memWf) : (s.spmStore t off n v).memWf :=
  formed_countCec (formed_spmPut h)

theorem formed_streamEvent {s : State} {t n : Nat} {e : StreamEnd} {a0 : Word} {digest : BitVec 32} (h : s.memWf) :
    (s.streamEvent t n e a0 digest).memWf :=
  formed_tileEvent h

theorem formed_streamEnded {s : State} {t n : Nat} (h : s.memWf) : (s.streamEnded t n).memWf :=
  formed_streamEvent h

theorem formed_notice {s : State} {code : Nat} {tval : Word} (h : s.memWf) : (s.notice code tval).memWf := by
  unfold State.notice
  split
  · split
    · exact formed_streamEnded h
    · exact h
  · split
    · split
      · exact formed_tileEvent h
      · exact h
    · exact h

theorem formed_addCause1 {s : State} {r c status : Nat} (h : s.memWf) : (s.addCause1 r c status).memWf := by
  unfold State.addCause1
  dsimp only
  split
  · split
    · exact h
    · exact formed_event h
  · exact h

theorem formed_faultDomain {s : State} {r : Nat} (h : s.memWf) : (s.faultDomain r).memWf := by
  unfold State.faultDomain
  dsimp only
  split
  · exact h
  · refine formed_foldl (fun _ _ h1 => ?_) h
    split
    · exact formed_addCause1 h1
    · exact h1

theorem formed_addCause {s : State} {r c : Nat} (h : s.memWf) : (s.addCause r c).memWf := by
  unfold State.addCause
  dsimp only
  split
  · exact formed_faultDomain (formed_addCause1 h)
  · exact formed_addCause1 h

theorem formed_removeCause {s : State} {r c : Nat} (h : s.memWf) : (s.removeCause r c).memWf := by
  unfold State.removeCause
  dsimp only
  repeat' split
  all_goals exact h

theorem formed_takeTrapAt {s : State} {epc : Word} {code : Nat} {tval : Word} (h : s.memWf) : (s.takeTrapAt epc code tval).memWf := by
  unfold State.takeTrapAt
  dsimp only
  split
  · exact formed_addCause (formed_tileEvent h)
  · exact h

theorem formed_takeTrap {s : State} {code : Nat} {tval : Word} (h : s.memWf) : (s.takeTrap code tval).memWf :=
  formed_takeTrapAt (formed_notice h)

theorem formed_trap {s : State} {code : Nat} {tval : Word} (h : s.memWf) : OutFormed (trap s code tval) :=
  .next (formed_takeTrap h)

theorem formed_stall {s : State} (h : s.memWf) : OutFormed (stall s) := .next h

theorem formed_atSlot {s : State} {t c : Nat} {a : Word} {w : BitVec 32} (h : s.memWf) : (s.atSlot t c a w).memWf := h

theorem formed_notYet {s : State} (h : s.memWf) : OutFormed (notYet s) := .next h

theorem formed_forwardWord {s : State} {t : Nat} {a : Word} {w w2 : BitVec 32} (h : s.memWf) : (s.forwardWord t a w w2).memWf := by
  unfold State.forwardWord
  dsimp only
  refine formed_foldl (fun _ _ h1 => ?_) h
  repeat' split
  all_goals exact h1

theorem formed_forward {s : State} (h : s.memWf) : s.forward.memWf := by
  unfold State.forward
  dsimp only
  split
  · exact formed_forwardWord h
  · exact h

theorem formed_goOn {s : State} {npc : Word} (h : s.memWf) : (s.goOn npc).memWf := by
  unfold State.goOn
  dsimp only
  split <;> exact h

theorem formed_finish {s : State} {npc : Word} (h : s.memWf) : (s.finish npc).memWf :=
  formed_goOn (formed_forward h)

theorem formed_retire {s : State} (h : s.memWf) : s.retire.memWf :=
  formed_finish h

theorem formed_takeSeq {s : State} {u : Nat} (h : s.memWf) : (s.takeSeq u).memWf := by
  unfold State.takeSeq
  dsimp only
  split
  · exact h
  · split
    · exact formed_degrade h
    · exact h

theorem formed_numberOut {s : State} {t : Nat} {d : Dst} (h : s.memWf) : (s.numberOut t d).memWf := by
  unfold State.numberOut
  split
  · exact formed_takeSeq h
  · exact h

theorem formed_numberBack {s : State} {t : Nat} {d : Dst} (h : s.memWf) : (s.numberBack t d).memWf := by
  unfold State.numberBack
  split
  · exact formed_takeSeq h
  · exact h

theorem formed_askXlate {s : State} {t c va kind : Nat} (h : s.memWf) : (s.askXlate t c va kind).memWf := by
  unfold State.askXlate
  split <;> exact h

theorem formed_setEntry {s : State} {t : Nat} {e : Ret} (h : s.memWf) : (s.setEntry t e).memWf := h

theorem formed_freeEntry {s : State} {t id : Nat} (h : s.memWf) : (s.freeEntry t id).memWf := h

theorem formed_acquire {s : State} {t c : Nat} (h : s.memWf) : (s.acquire t c).memWf := h

theorem formed_sendBack {s : State} {t : Nat} {d : Dst} {i : Instr} {a : EvArgs} (h : s.memWf) : (s.sendBack t d i a).memWf := by
  unfold State.sendBack
  split
  · exact h
  · exact formed_later (formed_numberBack h)

theorem formed_answer {s : State} {t : Nat} {e : Ret} (h : s.memWf) : (s.answer t e).memWf := by
  unfold State.answer
  refine formed_sendBack ?_
  split <;> exact h

theorem formed_launch {s : State} {t : Nat} {e : Ret} (h : s.memWf) : (s.launch t e).memWf := by
  unfold State.launch
  dsimp only
  split
  · split
    · exact h
    · exact formed_later (formed_numberOut h)
  · split
    · exact h
    · exact formed_later (formed_numberOut h)

theorem formed_keep {s : State} {t : Nat} {e : Ret} (h : s.memWf) : (s.keep t e).memWf := h

theorem formed_inject {s : State} {t : Nat} {e : Ret} (h : s.memWf) : (s.inject t e).memWf := by
  unfold State.inject
  split
  · exact h
  · exact formed_launch h

theorem formed_releaseHeld {s : State} {t vc : Nat} {d : Dst} (h : s.memWf) : (s.releaseHeld t vc d).memWf := by
  unfold State.releaseHeld
  refine formed_foldl (fun _ _ h1 => ?_) h
  split
  · exact formed_launch h1
  · exact h1

theorem formed_release {s : State} {t : Nat} {e : Ret} (h : s.memWf) : (s.release t e).memWf :=
  formed_releaseHeld (formed_launch h)

theorem formed_fresh {s : State} (h : s.memWf) : (s.fresh).2.memWf := h

theorem formed_sendMsg {s : State} {t c : Nat} {w : Word} {payload : List Word} {dst : Dst} {drow dcol : Nat} (h : s.memWf) :
    (s.sendMsg t c w payload dst drow dcol).memWf :=
  formed_inject h

theorem formed_noteDeadline {s : State} {t d : Nat} (h : s.memWf) : (s.noteDeadline t d).memWf := h

theorem formed_request {s : State} {t c : Nat} {b : Body} {k : Sink} {d : Dst} {x : Option Tlb} (h : s.memWf) : (s.request t c b k d x).2.memWf := by
  unfold State.request
  dsimp only
  split
  · dsimp only
    exact formed_inject h
  · dsimp only
    exact formed_noteDeadline (formed_inject h)

theorem formed_formMsg {s : State} {t c : Nat} {w : Word} {payload : List Word} {dst : Dst} {drow dcol : Nat} (h : s.memWf) :
    (s.formMsg t c w payload dst drow dcol).memWf := by
  unfold State.formMsg
  dsimp only
  split
  · exact h
  · exact formed_sendMsg h

theorem formed_flushPort {s : State} {t c p n : Nat} (h : s.memWf) : (s.flushPort t c p n).memWf := by
  unfold State.flushPort
  dsimp only
  split
  · exact formed_formMsg h
  · exact h

theorem formed_send7 {s : State} {t : Nat} {v : Word} (h : s.memWf) : (s.send7 t v).memWf := by
  unfold State.send7
  split
  · dsimp only
    exact h
  · exact h

theorem formed_formPort {s : State} {t c p : Nat} (h : s.memWf) : (s.formPort t c p).memWf := by
  unfold State.formPort
  dsimp only
  split
  · exact formed_foldl (fun _ _ h1 => formed_send7 h1) h
  · split
    · exact formed_flushPort h
    · exact h

theorem formed_push {s : State} {t c p : Nat} {v : Word} (h : s.memWf) : (s.push t c p v).memWf := by
  unfold State.push
  dsimp only
  split
  · exact formed_send7 h
  · exact formed_formPort h

theorem formed_fillPush {s : State} {t c p id : Nat} {v : Word} (h : s.memWf) : (s.fillPush t c p id v).memWf :=
  formed_formPort h

theorem formed_receive {s : State} {t : Nat} {ss : Word} (h : s.memWf) : (s.receive t ss).2.memWf := h

theorem formed_popAck {s : State} {t : Nat} {e : PElem} (h : s.memWf) : (s.popAck t e).memWf := by
  unfold State.popAck
  split
  · exact formed_sendBack h
  · exact h

theorem formed_pop {s : State} {t c p : Nat} (h : s.memWf) : (s.pop t c p).memWf := by
  unfold State.pop
  split
  · exact h
  · dsimp only
    split
    · exact formed_popAck (formed_acquire (formed_updCtx (formed_receive (formed_updTile h))))
    · exact formed_updTile h

theorem formed_popUnit {s : State} {t p : Nat} (h : s.memWf) : (s.popUnit t p).memWf := by
  unfold State.popUnit
  split
  · exact h
  · dsimp only
    split
    · exact formed_popAck h
    · exact h

theorem formed_writeG {s : State} {r : BitVec 6} {v : Word} (h : s.memWf) : (s.writeG r v).memWf := by
  unfold State.writeG
  split
  · exact formed_push h
  · exact h

theorem formed_emptyG {s : State} {r : BitVec 6} {id : Nat} (h : s.memWf) : (s.emptyG r id).memWf := by
  unfold State.emptyG
  split <;> exact h

theorem formed_arriveG {s : State} {t c r : Nat} {mon : Bool} {id : Nat} {v : Word} (h : s.memWf) : (s.arriveG t c r mon id v).memWf := by
  unfold State.arriveG
  refine formed_updCtx ?_
  split
  · exact formed_fillPush h
  · exact h

theorem formed_markG {s : State} {t c r : Nat} {mon : Bool} {id : Nat} {code : BitVec 8} {a : Word} (h : s.memWf) :
    (s.markG t c r mon id code a).memWf := by
  unfold State.markG
  split
  · dsimp only
    exact formed_updCtx (formed_formPort h)
  · exact h

theorem formed_take {n : Need} {s : State} (h : s.memWf) : (n.take s).memWf := by
  unfold Need.take
  refine formed_foldl (fun _ _ h1 => ?_) h
  split
  · exact formed_pop h1
  · exact h1

/-- An operation that keeps the form keeps it when it issues: its operands are taken first, and a trap or a wait leaves memory to the rules above. -/
theorem formed_issue {n : Need} {s : State} {body : List Word → State → Act} (hb : ∀ v t, t.memWf → ActFormed (body v t)) (h : s.memWf) :
    OutFormed (issue n s body) := by
  have hbody := hb (n.vals s) (n.take s) (formed_take h)
  unfold issue
  split
  · exact formed_trap h
  · exact formed_stall h
  · split
    · exact formed_trap h
    · rename_i hf
      exact formed_stall (hbody.of_wait hf s h)
    · rename_i hs
      exact .next (hbody.of_ok hs)

theorem formed_result {s : State} {rd : BitVec 6} {v : Word} (h : s.memWf) : ActFormed (s.result rd v) :=
  .ok (formed_retire (formed_writeG h))

end Sys2Proof.Machine
end

section
/-! SUPPORT. The form of memory under the scalar words, the transfers of control, the system words, the floating point of vectors and the accesses to
memory. -/
namespace Sys2Proof.Machine

theorem formed_aluR {i : Instr} {rd ra rb : BitVec 6} {wa wb : BitVec 1} {f : Word → Word → Word} {s : State} (h : s.memWf) :
    OutFormed (aluR i rd ra rb wa wb f s) :=
  formed_issue (fun _ _ h1 => formed_result h1) h

theorem formed_aluR3 {i : Instr} {rd ra rb : BitVec 6} {wa wb : BitVec 1} {f : Word → Word → Word → Word} {s : State} (h : s.memWf) :
    OutFormed (aluR3 i rd ra rb wa wb f s) :=
  formed_issue (fun _ _ h1 => formed_result h1) h

theorem formed_aluI {i : Instr} {rd ra : BitVec 6} {wa : BitVec 1} {f : Word → Word} {s : State} (h : s.memWf) : OutFormed (aluI i rd ra wa f s) :=
  formed_issue (fun _ _ h1 => formed_result h1) h

theorem formed_aluU {i : Instr} {rd : BitVec 6} {x : Word} {s : State} (h : s.memWf) : OutFormed (aluU i rd x s) :=
  formed_issue (fun _ _ h1 => formed_result h1) h

theorem formed_aluMod {m : Modifier} {i : Instr} {o : IntOp} {rd ra rb : BitVec 6} {wa wb : BitVec 1} {s : State} (h : s.memWf) :
    OutFormed (aluMod m i o rd ra rb wa wb s) :=
  formed_issue (fun _ _ h1 => formed_result (formed_updCur h1)) h

theorem formed_addiMod {m : Modifier} {i : Instr} {rd ra : BitVec 6} {wa : BitVec 1} {imm : BitVec 13} {s : State} (h : s.memWf) :
    OutFormed (addiMod m i rd ra wa imm s) :=
  formed_issue (fun _ _ h1 => formed_result (formed_updCur h1)) h

theorem formed_goTo {s : State} {a : Word} (h : s.memWf) : ActFormed (s.goTo a) := by
  unfold State.goTo
  split
  · exact .fault
  · exact .ok (formed_finish h)

theorem formed_branchDisp {i : Instr} {c : Cond} {ra rb : BitVec 6} {disp : BitVec 11} {s : State} (h : s.memWf) :
    OutFormed (branchDisp i c ra rb disp s) :=
  formed_issue (fun _ _ h1 => .ok (formed_finish h1)) h

theorem formed_branchReg {i : Instr} {c : Cond} {ra rb : BitVec 6} {t : BitVec 2} {s : State} (h : s.memWf) :
    OutFormed (branchReg i c ra rb t s) := by
  unfold branchReg
  refine formed_issue (fun _ _ h1 => ?_) h
  split
  · exact formed_goTo h1
  · exact .ok (formed_retire h1)

theorem formed_execStartCtx {rd ra rb : BitVec 6} {wa wb : BitVec 1} {s : State} (h : s.memWf) : OutFormed (execStartCtx rd ra rb wa wb s) := by
  unfold execStartCtx
  refine formed_issue (fun _ _ h1 => ?_) h
  split
  · exact .fault
  · split <;> exact formed_result h1

theorem formed_execEndCtx {s : State} (h : s.memWf) : OutFormed (execEndCtx s) := by
  unfold execEndCtx
  refine formed_issue (fun _ _ h1 => ?_) h
  split
  · exact .fault
  · exact .ok (formed_updCur (formed_retire h1))

theorem formed_raiseTrap {i : Instr} {code : Nat} {n : BitVec 6} {s : State} (h : s.memWf) : OutFormed (raiseTrap i code n s) :=
  formed_issue (fun _ _ h1 => .ok (formed_takeTrapAt h1)) h

theorem formed_execMret {s : State} (h : s.memWf) : OutFormed (execMret s) := by
  unfold execMret
  refine formed_issue (fun _ _ h1 => ?_) h
  split
  · exact .wait (fun _ h2 => h2)
  · split
    · exact .fault
    · exact .ok h1

theorem formed_sysWrite {s : State} {n : Nat} {v : Word} (h : s.memWf) : (s.sysWrite n v).memWf := by
  unfold State.sysWrite
  repeat' split
  all_goals exact h

theorem formed_execRdsys {rd : BitVec 6} {n : BitVec 12} {s : State} (h : s.memWf) : OutFormed (execRdsys rd n s) := by
  unfold execRdsys
  refine formed_issue (fun _ _ h1 => ?_) h
  split
  · exact .wait (fun _ h2 => h2)
  · exact formed_result h1

theorem formed_execWrsys {rs : BitVec 6} {n : BitVec 12} {s : State} (h : s.memWf) : OutFormed (execWrsys rs n s) := by
  unfold execWrsys
  refine formed_issue (fun _ _ h1 => ?_) h
  split
  · exact .wait (fun _ h2 => h2)
  · exact .ok (formed_retire (formed_sysWrite h1))

theorem formed_setRegState {i : Instr} {rd k : BitVec 6} {st : RegState} {s : State} (h : s.memWf) : OutFormed (setRegState i rd k st s) := by
  unfold setRegState
  split <;> exact formed_issue (fun _ _ h1 => .ok (formed_retire (formed_updCur h1))) h

theorem formed_execMirr {ra : BitVec 6} {wa : BitVec 1} {s : State} (h : s.memWf) : OutFormed (execMirr ra wa s) := by
  unfold execMirr
  dsimp only
  refine formed_issue (fun _ _ h1 => ?_) h
  split
  · exact .fault
  · exact .ok (formed_retire h1)

theorem formed_execTwait {ra : BitVec 6} {wa : BitVec 1} {s : State} (h : s.memWf) : OutFormed (execTwait ra wa s) := by
  unfold execTwait
  refine formed_issue (fun _ _ h1 => ?_) h
  split
  · exact .wait (fun _ h2 => h2)
  · exact .ok (formed_retire h1)

theorem formed_setReptab {s : State} {t e : Nat} {v : BitVec 32} (h : s.memWf) : (s.setReptab t e v).memWf := by
  unfold State.setReptab
  dsimp only
  split
  · exact h
  · split
    · dsimp only [State.memWf]
      exact Memory.wf_foldl _ (fun _ _ hm => Memory.put_wf _ _ hm) _ _ (formed_updTile h)
    · exact h

theorem formed_execRtwr {ra rb : BitVec 6} {wa wb : BitVec 1} {s : State} (h : s.memWf) : OutFormed (execRtwr ra rb wa wb s) := by
  unfold execRtwr
  dsimp only
  refine formed_issue (fun _ _ h1 => ?_) h
  split
  · split
    · exact .fault
    · split
      · exact .fault
      · exact .ok (formed_retire (formed_setReptab h1))
  · split
    · exact .fault
    · split
      · exact .fault
      · exact .ok (formed_retire (formed_setReptab h1))

theorem formed_execRtrd {rd ra : BitVec 6} {wa : BitVec 1} {s : State} (h : s.memWf) : OutFormed (execRtrd rd ra wa s) := by
  unfold execRtrd
  refine formed_issue (fun _ _ h1 => ?_) h
  split
  · exact .fault
  · exact formed_result h1

theorem formed_vecOp {i : Instr} {srcs vd : List (BitVec 5)} {readsD : Bool} {m : BitVec 3} {f : Ctx → Ctx × BitVec 6} {s : State} (h : s.memWf) :
    OutFormed (vecOp i srcs vd readsD m f s) :=
  formed_issue (fun _ _ h1 => .ok (formed_retire (formed_updCur h1))) h

theorem formed_vecCmp {i : Instr} {srcs : List (BitVec 5)} {md : BitVec 5} {f : Ctx → BitVec 16 × BitVec 6} {s : State} (h : s.memWf) :
    OutFormed (vecCmp i srcs md f s) :=
  formed_issue (fun _ _ h1 => .ok (formed_retire (formed_updCur h1))) h

theorem formed_vfBin {md : Modifier} {i : Instr} {o : FpOp} {vd va vb : BitVec 5} {m : BitVec 3} {t : BitVec 2} {s : State} (h : s.memWf) :
    OutFormed (vfBin md i o vd va vb m t s) := by
  unfold vfBin
  exact formed_vecOp h

theorem formed_vfFma {md : Modifier} {i : Instr} {o : FmaOp} {vd va vb : BitVec 5} {m : BitVec 3} {t : BitVec 2} {s : State} (h : s.memWf) :
    OutFormed (vfFma md i o vd va vb m t s) := by
  unfold vfFma
  exact formed_vecOp h

theorem formed_vfSpec {md : Modifier} {i : Instr} {o : SpecOp} {vd va : BitVec 5} {m : BitVec 3} {t : BitVec 2} {s : State} (h : s.memWf) :
    OutFormed (vfSpec md i o vd va m t s) := by
  unfold vfSpec
  exact formed_vecOp h

theorem formed_vfCmp {i : Instr} {c : FCond} {md va vb : BitVec 5} {m : BitVec 3} {t : BitVec 2} {s : State} (h : s.memWf) :
    OutFormed (vfCmp i c md va vb m t s) := by
  unfold vfCmp
  exact formed_vecCmp h

theorem formed_vfCvt {md : Modifier} {i : Instr} {vd va : BitVec 5} {nb : BitVec 1} {m : BitVec 3} {d c : BitVec 4} {s : State} (h : s.memWf) :
    OutFormed (vfCvt md i vd va nb m d c s) := by
  unfold vfCvt
  exact formed_vecOp h

theorem formed_waitXlate {va kind : Nat} : ActFormed (waitXlate va kind) :=
  .wait (fun _ h1 => formed_askXlate h1)

theorem formed_touch {s : State} {x : Option Tlb} (h : s.memWf) : (s.touch x).memWf := by
  unfold State.touch
  split <;> exact h

theorem formed_loadOwn {s : State} {off size : Nat} (h : s.memWf) : PairFormed (s.loadOwn off size) := by
  unfold State.loadOwn
  dsimp only
  split
  · exact .some h
  · split
    · exact .none
    · refine .some ?_
      dsimp only
      exact formed_countCec h

theorem formed_invParity {s : State} {a : Word} (h : s.memWf) : (s.invParity a).memWf := by
  unfold State.invParity
  dsimp only
  split
  · exact formed_countCec h
  · exact h

theorem formed_askInv {s : State} {a : Word} {k : Sink} {d : Dst} {x : Option Tlb} (h : s.memWf) : (s.askInv a k d x).2.memWf := by
  unfold State.askInv
  dsimp only
  split
  · dsimp only
    exact h
  · exact formed_request (formed_touch h)

theorem formed_invTouch {s : State} {l : InvLine} (h : s.memWf) : (s.invTouch l).memWf := h

theorem formed_sendLoad {s : State} {rd : BitVec 6} {b : Body} {k : Sink} {d : Dst} {x : Option Tlb} (h : s.memWf) :
    ActFormed (s.sendLoad rd b k d x) :=
  .ok (formed_retire (formed_emptyG (formed_request (formed_touch h))))

theorem formed_loadOp {i : Instr} {rd ra : BitVec 6} {wa n : BitVec 1} {off : BitVec 9} {size : Nat} {signed : Bool} {s : State} (h : s.memWf) :
    OutFormed (loadOp i rd ra wa n off size signed s) := by
  unfold loadOp
  dsimp only
  refine formed_issue (fun _ _ h1 => ?_) h
  split
  · exact .wait (fun _ h2 => h2)
  · split
    · exact .fault
    · split
      · exact .fault
      · rename_i e2
        have h2 := PairFormed.of_some (formed_loadOwn h1) e2
        exact formed_result h2
    · split
      · exact formed_result h1
      · split
        · exact .wait (fun _ h2 => h2)
        · refine .wait fun _ h2 => ?_
          refine formed_askXlate ?_
          split
          · exact formed_invParity h2
          · exact h2
        · split
          · split
            · split
              · exact .ok (formed_retire (formed_emptyG (formed_askInv (formed_invParity h1))))
              · exact formed_sendLoad (formed_invParity h1)
            · split
              · exact .ok (formed_retire (formed_emptyG (formed_askInv h1)))
              · exact formed_sendLoad h1
          · split
            · refine .ok ?_
              refine formed_retire (formed_emptyG (formed_askInv ?_))
              split
              · exact formed_invParity h1
              · exact h1
            · refine formed_sendLoad ?_
              split
              · exact formed_invParity h1
              · exact h1

theorem formed_storeOp {i : Instr} {rs ra : BitVec 6} {wa : BitVec 1} {off : BitVec 11} {size : Nat} {s : State} (h : s.memWf) :
    OutFormed (storeOp i rs ra wa off size s) := by
  unfold storeOp
  dsimp only
  refine formed_issue (fun _ _ h1 => ?_) h
  split
  · exact .wait (fun _ h2 => h2)
  · split
    · exact .fault
    · split
      · split
        · exact .fault
        · exact .ok (formed_retire (formed_spmStore h1))
      · exact formed_waitXlate
      · split
        · exact .wait (fun _ h2 => h2)
        · exact .ok (formed_retire (formed_request (formed_touch h1)))

theorem formed_atomicOp {i : Instr} {op : Nat} {rd ra rb : BitVec 6} {wa wb z : BitVec 1} {s : State} (h : s.memWf) :
    OutFormed (atomicOp i op rd ra rb wa wb z s) := by
  unfold atomicOp
  dsimp only
  refine formed_issue (fun _ _ h1 => ?_) h
  split
  · exact .wait (fun _ h2 => h2)
  · split
    · exact .fault
    · split
      · split
        · split
          · exact .fault
          · refine formed_result (formed_updCur ?_)
            split
            · exact formed_spmPut (formed_countCec h1)
            · exact formed_countCec h1
        · split
          · exact .fault
          · refine formed_result (formed_updCur ?_)
            split
            · exact formed_spmPut (formed_countCec h1)
            · exact formed_countCec h1
      · exact formed_waitXlate
      · split
        · exact .wait (fun _ h2 => h2)
        · exact formed_sendLoad h1

theorem formed_fenceOp {i : Instr} {sc : BitVec 3} {kind : BitVec 2} {s : State} (h : s.memWf) : OutFormed (fenceOp i sc kind s) :=
  formed_issue (fun _ _ h1 => .ok (formed_updCur (formed_retire h1))) h

theorem formed_lateResult {s : State} {rd : BitVec 6} {v : Word} (h : s.memWf) : ActFormed (s.lateResult rd v) :=
  .ok (formed_retire (formed_later (formed_emptyG h)))

theorem formed_askProbe {s : State} {va kind : Nat} {fresh : Bool} (h : s.memWf) : (s.askProbe va kind fresh).memWf := by
  unfold State.askProbe
  dsimp only
  repeat' split
  all_goals exact h

theorem formed_execTprobe {rd ra rb : BitVec 6} {wa wb : BitVec 1} {s : State} (h : s.memWf) : OutFormed (execTprobe rd ra rb wa wb s) := by
  unfold execTprobe
  dsimp only
  refine formed_issue (fun _ _ h1 => ?_) h
  split
  · exact .fault
  · split
    · exact formed_result h1
    · split
      · exact formed_lateResult h1
      · exact .wait (fun _ h2 => formed_askProbe h2)

theorem formed_execLrenew {rd ra rb : BitVec 6} {wa wb : BitVec 1} {s : State} (h : s.memWf) : OutFormed (execLrenew rd ra rb wa wb s) := by
  unfold execLrenew
  dsimp only
  refine formed_issue (fun _ _ h1 => ?_) h
  split
  · exact .fault
  · split
    · exact formed_lateResult h1
    · exact .wait (fun _ h2 => formed_askProbe h2)

theorem formed_execTdrop {ra rb : BitVec 6} {wa wb : BitVec 1} {s : State} (h : s.memWf) : OutFormed (execTdrop ra rb wa wb s) := by
  unfold execTdrop
  dsimp only
  refine formed_issue (fun _ _ h1 => ?_) h
  split
  · exact .fault
  · exact .ok (formed_retire h1)

end Sys2Proof.Machine
end

section
/-! SUPPORT. The form of memory under messages and their handlers, the integer words of vectors, barriers, collectives and fetches. -/
namespace Sys2Proof.Machine

theorem formed_sendAll {s : State} {t c : Nat} {w p : Word} {dst : Dst} {col row : Nat} (h : s.memWf) : (s.sendAll t c w p dst col row).memWf :=
  formed_foldl (fun _ _ h1 => formed_sendMsg h1) h

theorem formed_fire {s : State} {t : Nat} {f : Trigger} (h : s.memWf) : (s.fire t f).memWf := by
  unfold State.fire
  dsimp only
  split
  · exact formed_tileEvent h
  · split
    · exact h
    · exact formed_later (formed_updTile (formed_foldl (fun _ _ h1 => formed_keep (formed_fresh h1)) h))

theorem formed_fireCounter {s : State} {t n : Nat} (h : s.memWf) : (s.fireCounter t n).memWf := by
  unfold State.fireCounter
  refine formed_foldl (fun _ _ h1 => formed_fire h1) ?_
  split <;> exact h

theorem formed_countMsg {s : State} {t n len : Nat} {ss : Word} (h : s.memWf) : (s.countMsg t n len ss).memWf := by
  unfold State.countMsg
  dsimp only
  split
  · split
    · exact formed_fireCounter h
    · exact h
  · split
    · exact formed_fireCounter h
    · exact h

theorem formed_sendNow {s : State} {w p : Word} {dest : Except (Nat × Word) (Dst × Nat × Nat)} (h : s.memWf) : ActFormed (s.sendNow w p dest) := by
  unfold State.sendNow
  dsimp only
  split
  · exact .fault
  · split
    · exact .fault
    · split
      · exact .wait (fun _ h1 => h1)
      · split
        · exact .wait (fun _ h1 => h1)
        · split
          · exact .fault
          · exact .ok (formed_retire (formed_sendAll h))

theorem formed_sendTo {i : Instr} {kinds : List Nat} {maxLen : Nat} {ra rb : BitVec 6} {wa wb : BitVec 1} {s : State} (h : s.memWf) :
    OutFormed (sendTo i kinds maxLen ra rb wa wb s) := by
  unfold sendTo
  dsimp only
  refine formed_issue (fun _ _ h1 => ?_) h
  split
  · exact .fault
  · exact formed_sendNow h1

theorem formed_sendNear {i : Instr} {dir : Nat} {ra rb : BitVec 6} {wa wb : BitVec 1} {s : State} (h : s.memWf) :
    OutFormed (sendNear i dir ra rb wa wb s) := by
  unfold sendNear
  dsimp only
  refine formed_issue (fun _ _ h1 => ?_) h
  split
  · exact .fault
  · split
    · exact .fault
    · split
      · exact .fault
      · exact formed_sendNow h1

theorem formed_execHmsg {ra rb : BitVec 6} {wa wb : BitVec 1} {s : State} (h : s.memWf) : OutFormed (execHmsg ra rb wa wb s) := by
  unfold execHmsg
  refine formed_issue (fun _ _ h1 => ?_) h
  split
  · exact .fault
  · exact formed_sendNow h1

theorem formed_execTsend {n : BitVec 4} {ra rb : BitVec 6} {wa wb : BitVec 1} {s : State} (h : s.memWf) : OutFormed (execTsend n ra rb wa wb s) := by
  unfold execTsend
  dsimp only
  refine formed_issue (fun _ _ h1 => ?_) h
  split
  · split
    · exact .fault
    · split
      · exact .fault
      · split
        · exact .fault
        · split
          · exact .fault
          · split
            · exact .wait (fun _ h2 => h2)
            · split
              · exact .ok (formed_retire (formed_fire h1))
              · exact .ok (formed_retire h1)
  · split
    · exact .fault
    · split
      · exact .fault
      · split
        · exact .fault
        · split
          · exact .fault
          · split
            · exact .wait (fun _ h2 => h2)
            · split
              · exact .ok (formed_retire (formed_fire h1))
              · exact .ok (formed_retire h1)

theorem formed_execQcfg {ra : BitVec 6} {n : BitVec 3} {wa : BitVec 1} {s : State} (h : s.memWf) : OutFormed (execQcfg ra n wa s) := by
  unfold execQcfg
  dsimp only
  refine formed_issue (fun _ _ h1 => ?_) h
  split
  · exact .fault
  · split
    · exact .fault
    · split
      · exact .wait (fun _ h2 => h2)
      · refine .ok ?_
        refine formed_retire (formed_updCurTile ?_)
        split
        · exact h1
        · exact formed_flushPort h1

theorem formed_execHset {ra n : BitVec 6} {wa : BitVec 1} {s : State} (h : s.memWf) : OutFormed (execHset ra n wa s) := by
  unfold execHset
  dsimp only
  refine formed_issue (fun _ _ h1 => ?_) h
  split
  · exact .fault
  · exact .ok (formed_retire (formed_foldl (fun _ _ h2 => formed_later h2) h1))

theorem formed_park {s : State} {t : Nat} {i : QItem} (h : s.memWf) : (s.park t i).memWf :=
  formed_tileEvent h

theorem formed_execRcarm {ra : BitVec 6} {n : BitVec 4} {wa : BitVec 1} {s : State} (h : s.memWf) : OutFormed (execRcarm ra n wa s) := by
  unfold execRcarm
  dsimp only
  refine formed_issue (fun _ _ h1 => ?_) h
  split
  · exact .fault
  · refine .ok ?_
    refine formed_retire ?_
    split
    · split
      · exact formed_fireCounter h1
      · exact h1
    · split
      · split
        · split
          · exact formed_fireCounter h1
          · exact h1
        · split
          · exact formed_fireCounter h1
          · exact h1
      · split
        · split
          · exact formed_fireCounter h1
          · exact h1
        · split
          · exact formed_fireCounter h1
          · exact h1

theorem formed_backFlit {s : State} {e : Ret} (h : s.memWf) : (s.backFlit e).memWf := by
  unfold State.backFlit
  split <;> exact h

theorem formed_noteRefusing {s : State} {t : Nat} {e : Ret} {on : Bool} (h : s.memWf) : (s.noteRefusing t e on).memWf := by
  unfold State.noteRefusing
  split
  · dsimp only
    exact h
  · dsimp only
    exact h
  · exact h

theorem formed_refuse {s : State} {t : Nat} {e : Ret} (h : s.memWf) : (s.refuse t e).memWf :=
  formed_sendBack (formed_backFlit (formed_noteRefusing h))

theorem formed_accept {s : State} {t : Nat} {e : Ret} (h : s.memWf) : (s.accept t e).memWf :=
  formed_sendBack (formed_setEntry (formed_backFlit (formed_noteRefusing h)))

theorem formed_sealNotice {s : State} {t : Nat} {e : Ret} {vc kind : Nat} (h : s.memWf) : (s.sealNotice t e vc kind).memWf :=
  formed_tileEvent h

theorem formed_sealError {s : State} {t : Nat} {e : Ret} {vc kind : Nat} (h : s.memWf) : (s.sealError t e vc kind).memWf :=
  formed_answer (formed_sealNotice h)

theorem formed_sealFail {s : State} {t g : Nat} {e : Ret} (h : s.memWf) : OutFormed (s.sealFail t g e) := by
  unfold State.sealFail
  dsimp only
  split
  · exact .next (formed_sealError (formed_countCec h))
  · split
    · exact .next (formed_refuse (formed_setEntry (formed_countCec h)))
    · exact formed_notYet (formed_setEntry (formed_countCec h))

theorem formed_atHome {s : State} {k : Ret → Out} (hk : ∀ e, OutFormed (k e)) (h : s.memWf) : OutFormed (atHome s k) := by
  unfold atHome
  split
  · exact .next h
  · split
    · exact formed_sealFail h
    · exact hk _

theorem formed_backHome {s : State} {e : Ret} {kind : Nat} {k : State → Ret → Out} (hk : ∀ t e, t.memWf → OutFormed (k t e)) (h : s.memWf) :
    OutFormed (backHome s e kind k) := by
  unfold backHome
  split
  · dsimp only
    split
    · exact hk _ _ (formed_sealNotice (formed_countCec h))
    · exact formed_notYet (formed_setEntry (formed_countCec h))
  · exact hk _ _ h

theorem formed_countIf {s : State} {u : Nat} {w : BitVec 128} {ss : Word} (h : s.memWf) : (s.countIf u w ss).memWf := by
  unfold State.countIf
  dsimp only
  split
  · exact formed_countMsg h
  · split
    · exact formed_countMsg h
    · exact h

theorem formed_execPortMessage {s : State} (h : s.memWf) : OutFormed (execPortMessage s) := by
  unfold execPortMessage
  refine formed_atHome (fun _ => ?_) h
  split
  · split
    · exact .next (formed_refuse h)
    · refine .next ?_
      refine formed_accept (formed_countIf ?_)
      split
      · exact h
      · split
        · exact h
        · exact formed_park h
  · exact .next h

theorem formed_execPutMessage {s : State} (h : s.memWf) : OutFormed (execPutMessage s) := by
  unfold execPutMessage
  refine formed_atHome (fun _ => ?_) h
  split
  · split
    · exact .next (formed_refuse h)
    · exact .next (formed_accept (formed_countIf (formed_foldl (fun _ _ h1 => formed_spmStore h1) h)))
  · exact .next h

theorem formed_execAmMessage {s : State} (h : s.memWf) : OutFormed (execAmMessage s) := by
  unfold execAmMessage
  refine formed_atHome (fun _ => ?_) h
  split
  · split
    · exact .next (formed_refuse h)
    · exact .next (formed_accept h)
  · exact .next h

theorem formed_gradeMarch {s : State} {t : Nat} {w : Word} (h : s.memWf) : (s.gradeMarch t w).memWf := by
  unfold State.gradeMarch
  dsimp only
  repeat' split
  all_goals exact h

theorem formed_bootMessage {s : State} {isl t : Nat} {w : BitVec 128} {p : List Word} (h : s.memWf) : (s.bootMessage isl t w p).memWf := by
  unfold State.bootMessage
  split
  · exact formed_gradeMarch h
  · exact h

theorem formed_execHostMessage {s : State} (h : s.memWf) : OutFormed (execHostMessage s) := by
  unfold execHostMessage
  dsimp only
  refine formed_atHome (fun _ => ?_) h
  split
  · split
    · exact .next (formed_refuse h)
    · split
      · exact .next (formed_accept (formed_bootMessage h))
      · exact .next (formed_accept (formed_interruptRegion (formed_ringWrite h)))
  · exact .next h

theorem formed_execMessageRefusal {s : State} (h : s.memWf) : OutFormed (execMessageRefusal s) := by
  unfold execMessageRefusal
  dsimp only
  split
  · refine formed_backHome (fun _ _ h1 => ?_) h
    split
    · exact .next (formed_answer h1)
    · split <;> exact .next h1
  · exact .next h

theorem formed_execRefusedReinject {s : State} (h : s.memWf) : OutFormed (execRefusedReinject s) := by
  unfold execRefusedReinject
  dsimp only
  split
  · split
    · exact .next h
    · split
      · exact formed_notYet h
      · split
        · exact .next (formed_launch h)
        · exact .next h
  · exact .next h

theorem formed_execDispatch {s : State} (h : s.memWf) : OutFormed (execDispatch s) := by
  unfold execDispatch
  dsimp only
  split
  · exact .next h
  · split
    · exact formed_notYet h
    · split
      · exact formed_notYet h
      · split
        · exact .next (formed_park h)
        · refine .next ?_
          refine formed_updTile ?_
          split
          · dsimp only
            exact h
          · exact h

theorem formed_execTriggeredSendInject {s : State} (h : s.memWf) : OutFormed (execTriggeredSendInject s) := by
  unfold execTriggeredSendInject
  dsimp only
  split
  · exact .next h
  · split
    · exact formed_notYet h
    · refine .next ?_
      refine formed_foldl (fun _ _ h1 => ?_) h
      split
      · split
        · exact formed_release h1
        · exact h1
      · exact h1

theorem formed_viLanes {i : Instr} {readsD : Bool} {vd va vb : BitVec 5} {m : BitVec 3} {w : Nat} {f : Nat → Nat → Nat × BitVec 6} {s : State}
    (h : s.memWf) :
    OutFormed (viLanes i readsD vd va vb m w f s) :=
  formed_vecOp h

theorem formed_viArith {md : Modifier} {i : Instr} {o : IntOp} {vd va vb : BitVec 5} {m : BitVec 3} {w : BitVec 2} {s : State} (h : s.memWf) :
    OutFormed (viArith md i o vd va vb m w s) :=
  formed_viLanes h

theorem formed_viCmp {i : Instr} {f : (w : Nat) → BitVec w → BitVec w → Bool} {md va vb : BitVec 5} {m : BitVec 3} {w : BitVec 2} {s : State}
    (h : s.memWf) :
    OutFormed (viCmp i f md va vb m w s) := by
  unfold viCmp
  exact formed_vecCmp h

theorem formed_viLogic {i : Instr} {f : (w : Nat) → BitVec w → BitVec w → BitVec w} {vd va vb : BitVec 5} {m : BitVec 3} {w : BitVec 2} {s : State}
    (h : s.memWf) :
    OutFormed (viLogic i f vd va vb m w s) := by
  unfold viLogic
  exact formed_viLanes h

theorem formed_vfRed {md : Modifier} {i : Instr} {o : RedOp} {vd va : BitVec 5} {m : BitVec 3} {c : BitVec 4} {s : State} (h : s.memWf) :
    OutFormed (vfRed md i o vd va m c s) := by
  unfold vfRed
  exact formed_issue (fun _ _ h1 => .ok (formed_retire (formed_updCur h1))) h

theorem formed_arrive {s : State} {t n bytes arrs : Nat} {tag : Option Nat} {err : Bool} (h : s.memWf) : (s.arrive t n bytes arrs tag err).memWf := h

theorem formed_binitOp {i : Instr} {forced : Bool} {rd ra n : BitVec 6} {wa : BitVec 1} {s : State} (h : s.memWf) :
    OutFormed (binitOp i forced rd ra n wa s) := by
  unfold binitOp
  dsimp only
  refine formed_issue (fun _ _ h1 => ?_) h
  split
  · exact .fault
  · split
    · exact .fault
    · exact formed_result h1

theorem formed_execBexp {ra n : BitVec 6} {wa : BitVec 1} {s : State} (h : s.memWf) : OutFormed (execBexp ra n wa s) := by
  unfold execBexp
  dsimp only
  refine formed_issue (fun _ _ h1 => ?_) h
  split
  · exact .fault
  · split
    · exact .fault
    · split
      · exact .fault
      · exact .ok (formed_retire h1)

theorem formed_execBinv {n : BitVec 6} {s : State} (h : s.memWf) : OutFormed (execBinv n s) := by
  unfold execBinv
  dsimp only
  refine formed_issue (fun _ _ h1 => ?_) h
  split
  · exact .fault
  · exact .ok (formed_retire h1)

theorem formed_execBtest {rd n : BitVec 6} {s : State} (h : s.memWf) : OutFormed (execBtest rd n s) := by
  unfold execBtest
  refine formed_issue (fun _ _ h1 => (formed_result ?_)) h
  split <;> exact h1

theorem formed_execBwait {rd n : BitVec 6} {s : State} (h : s.memWf) : OutFormed (execBwait rd n s) := by
  unfold execBwait
  dsimp only
  refine formed_issue (fun _ _ h1 => ?_) h
  split
  · exact .fault
  · split
    · exact formed_result h1
    · refine .wait fun _ h2 => ?_
      repeat' split
      all_goals exact h2

theorem formed_sendMarked {s : State} {t c mark : Nat} {b : Body} {u : Nat} (h : s.memWf) : (s.sendMarked t c mark b u).memWf := by
  unfold State.sendMarked
  dsimp only
  split
  · exact formed_launch h
  · exact h

theorem formed_vc5Step {s : State} {own : Ret → State → State} {k : Ret → Out} (hown : ∀ e t, t.memWf → (own e t).memWf) (hk : ∀ e, OutFormed (k e))
    (h : s.memWf) : OutFormed (vc5Step s own k) := by
  unfold vc5Step
  dsimp only
  split
  · exact .next h
  · split
    · exact formed_atHome (fun _ => hk _) h
    · split
      · split
        · exact formed_notYet h
        · exact .next (hown _ _ h)
      · split
        · exact .next (formed_release h)
        · exact formed_notYet h

theorem formed_execBarv {ra rb : BitVec 6} {wa wb : BitVec 1} {s : State} (h : s.memWf) : OutFormed (execBarv ra rb wa wb s) := by
  unfold execBarv
  dsimp only
  refine formed_issue (fun _ _ h1 => ?_) h
  split
  · exact .fault
  · split
    · exact .fault
    · split
      · exact .ok (formed_retire h1)
      · split
        · exact .wait (fun _ h2 => h2)
        · exact .ok (formed_retire (formed_sendMarked h1))

theorem formed_execBarvMessage {s : State} (h : s.memWf) : OutFormed (execBarvMessage s) := by
  unfold execBarvMessage
  refine formed_vc5Step (fun _ _ h1 => ?_) (fun _ => ?_) h
  · split <;> exact h1
  · split
    · split
      · exact .next (formed_refuse h)
      · exact .next (formed_accept h)
    · exact .next h

theorem formed_collFinish {s : State} {t : Nat} {v : Word} {fl : BitVec 6} {err : Bool} (h : s.memWf) : (s.collFinish t v fl err).memWf := by
  unfold State.collFinish
  refine formed_foldl (fun _ _ h1 => ?_) ?_
  · split
    · exact formed_sendMarked h1
    · exact h1
  · refine formed_updTile ?_
    split
    · exact formed_markG h
    · exact formed_arriveG h

theorem formed_collClimb {s : State} {t n : Nat} (h : s.memWf) : (s.collClimb t n).memWf := by
  induction n generalizing s with
  | zero => exact h
  | succ n ih =>
    unfold State.collClimb
    dsimp only
    split
    · exact h
    · split
      · split
        · exact h
        · exact ih (formed_updTile h)
      · split
        · split
          · exact h
          · split
            · exact formed_collFinish h
            · exact formed_sendMarked h
        · split
          · split
            · exact h
            · split
              · exact formed_sendMarked h
              · exact h
          · exact h

theorem formed_execColl {rd ra rb : BitVec 6} {wa wb : BitVec 1} {s : State} (h : s.memWf) : OutFormed (execColl rd ra rb wa wb s) := by
  unfold execColl
  dsimp only
  refine formed_issue (fun _ _ h1 => ?_) h
  split
  · split
    · exact .fault
    · split
      · exact .fault
      · split
        · exact .fault
        · split
          · exact .wait (fun _ h2 => h2)
          · split
            · exact .fault
            · exact .ok (formed_collClimb (formed_retire (formed_emptyG h1)))
  · split
    · exact .fault
    · split
      · exact .fault
      · split
        · exact .fault
        · split
          · exact .wait (fun _ h2 => h2)
          · split
            · exact .fault
            · exact .ok (formed_collClimb (formed_retire (formed_emptyG h1)))

theorem formed_execCollContribution {s : State} (h : s.memWf) : OutFormed (execCollContribution s) := by
  unfold execCollContribution
  refine formed_vc5Step (fun _ _ h1 => h1) (fun _ => ?_) h
  split
  · split
    · exact .next (formed_refuse h)
    · exact .next (formed_collClimb (formed_accept h))
  · exact .next h

theorem formed_execCollResult {s : State} (h : s.memWf) : OutFormed (execCollResult s) := by
  unfold execCollResult
  dsimp only
  refine formed_vc5Step (fun _ _ h1 => ?_) (fun _ => ?_) h
  · split
    · split
      · exact formed_collFinish h1
      · exact h1
    · exact h1
  · split
    · split
      · exact .next (formed_refuse h)
      · refine .next ?_
        split
        · split
          · exact formed_collFinish (formed_accept h)
          · exact formed_accept h
        · exact formed_accept h
    · exact .next h

theorem formed_askFetch {s : State} {t c va : Nat} (h : s.memWf) : (s.askFetch t c va).memWf := by
  unfold State.askFetch
  split <;> exact h

theorem formed_askLine {s : State} {t c : Nat} {line : Word} {d : Dst} {x : Option Tlb} (h : s.memWf) : (s.askLine t c line d x).memWf :=
  formed_request h

theorem formed_fetch {s : State} {t c : Nat} {a : Word} (h : s.memWf) : FetchedFormed (s.fetch t c a) := by
  unfold State.fetch
  dsimp only
  split
  · exact .fault
  · split
    · exact .fault
    · split
      · split
        · split
          · exact .word h
          · exact .fault
        · split
          · exact .fault
          · exact .word h
      · split
        · exact .fault
        · exact .word h
    · split
      · exact .word h
      · split
        · exact .wait h
        · split
          · exact .wait (formed_askLine h)
          · split
            · exact .wait (formed_askLine h)
            · split
              · exact .wait (formed_askLine h)
              · exact .wait (formed_askFetch h)
          · exact .wait h

theorem formed_countWord {s : State} {t c : Nat} {a : Word} (h : s.memWf) : (s.countWord t c a).memWf := by
  unfold State.countWord
  split
  · exact formed_countCec h
  · exact h

theorem formed_countFetch {s : State} {t c : Nat} (h : s.memWf) : (s.countFetch t c).memWf := by
  unfold State.countFetch
  dsimp only
  split
  · exact h
  · split
    · rename_i e1
      have h1 := FetchedFormed.of_word (formed_fetch h) e1
      split
      · exact formed_countWord (formed_countWord h)
      · exact formed_countWord h
    · exact formed_countWord h

theorem formed_noteStale {s old : State} {t : Nat} (h : s.memWf) : (s.noteStale old t).memWf := h

end Sys2Proof.Machine
end

section
/-! SUPPORT. The form of memory under the matrix unit and the accesses of vectors. -/
namespace Sys2Proof.Machine

theorem formed_fifoOp {i : Instr} {srcs : List (BitVec 6)} {check : State → List Word → Option (Nat × Word)} {args : List Word → Word × Word}
    {s : State}
    (h : s.memWf) : OutFormed (fifoOp i srcs check args s) := by
  unfold fifoOp
  refine formed_issue (fun _ _ h1 => ?_) h
  split
  · exact .wait (fun _ h2 => h2)
  · split
    · exact .fault
    · split
      · exact .wait (fun _ h2 => h2)
      · exact .ok (formed_retire h1)

theorem formed_execMrd {acc : BitVec 2} {ga gb : BitVec 6} {s : State} (h : s.memWf) : OutFormed (execMrd acc ga gb s) := by
  unfold execMrd
  dsimp only
  refine formed_issue (fun _ _ h1 => ?_) h
  split
  · exact .wait (fun _ h2 => h2)
  · split
    · exact .fault
    · exact formed_result h1

theorem formed_execMwr {acc : BitVec 2} {ga gb : BitVec 6} {s : State} (h : s.memWf) : OutFormed (execMwr acc ga gb s) := by
  unfold execMwr
  dsimp only
  refine formed_issue (fun _ _ h1 => ?_) h
  split
  · exact .wait (fun _ h2 => h2)
  · split
    · exact .fault
    · exact .ok (formed_retire h1)

theorem formed_execMpop {ga : BitVec 6} {s : State} (h : s.memWf) : OutFormed (execMpop ga s) := by
  unfold execMpop
  refine formed_issue (fun _ _ h1 => ?_) h
  split
  · exact formed_lateResult h1
  · split
    · exact formed_lateResult h1
    · exact .ok (formed_retire (formed_emptyG h1))

theorem formed_putFields {s : State} {t off : Nat} {l : List (Nat × Nat)} (h : s.memWf) : (s.putFields t off l).memWf := by
  induction l generalizing s off with
  | nil => exact h
  | cons p l ih => exact ih (formed_spmStore h)

theorem formed_wakeUnit {s : State} {t : Nat} (h : s.memWf) : (s.wakeUnit t).memWf :=
  formed_foldl (fun _ _ h1 => formed_later h1) (formed_foldl (fun _ _ h1 => formed_later h1) h)

theorem formed_execMsave {ga gb : BitVec 6} {s : State} (h : s.memWf) : OutFormed (execMsave ga gb s) := by
  unfold execMsave
  refine formed_issue (fun _ _ h1 => ?_) h
  split
  · exact .fault
  · split
    · exact .wait (fun _ h2 => h2)
    · exact .ok (formed_retire (formed_putFields h1))

theorem formed_execMrest {ga gb : BitVec 6} {s : State} (h : s.memWf) : OutFormed (execMrest ga gb s) := by
  unfold execMrest
  dsimp only
  refine formed_issue (fun _ _ h1 => ?_) h
  split
  · exact .fault
  · split
    · exact .wait (fun _ h2 => h2)
    · split
      · exact .fault
      · split
        · exact .fault
        · refine .ok ?_
          refine formed_retire ?_
          split
          · exact formed_wakeUnit h1
          · exact h1

theorem formed_takeUnits {s : State} {t p n : Nat} (h : s.memWf) : (s.takeUnits t p n).2.memWf :=
  formed_foldl (fun _ _ h1 => formed_popUnit h1) h

theorem formed_starve {s : State} {t p : Nat} (h : s.memWf) : WorkFormed (s.starve t p) := by
  unfold State.starve
  dsimp only
  split
  · split
    · exact .fail (formed_streamEnded (formed_takeUnits h))
    · exact .wait
  · exact .wait

theorem formed_macWork {s : State} {t : Nat} {e : MCmd} (h : s.memWf) : WorkFormed (s.macWork t e) := by
  unfold State.macWork
  dsimp only
  split
  · exact .fail h
  · split
    · split
      · exact .fail h
      · exact .done (formed_updTile (formed_countCec h))
    · split
      · exact .fail h
      · exact .done (formed_updTile (formed_countCec h))
    · split
      · split
        · exact formed_starve h
        · exact .done (formed_updTile (formed_updTile (formed_takeUnits h)))
      · split
        · exact formed_starve h
        · exact .done (formed_updTile (formed_updTile (formed_takeUnits h)))

theorem formed_loadRow {s : State} {t : Nat} {e : MCmd} (h : s.memWf) : WorkFormed (s.loadRow t e) := by
  unfold State.loadRow
  dsimp only
  split
  · split
    · exact formed_starve h
    · exact .done (formed_updTile (formed_takeUnits h))
  · split
    · exact .fail h
    · exact .done (formed_updTile (formed_countCec h))

theorem formed_storeRow {s : State} {t : Nat} {e : MCmd} (h : s.memWf) : WorkFormed (s.storeRow t e) := by
  unfold State.storeRow
  dsimp only
  split
  · exact .fail h
  · exact .done (formed_foldl (fun _ _ h1 => formed_spmStore h1) h)

theorem formed_work {s : State} {t : Nat} {e : MCmd} (h : s.memWf) : WorkFormed (s.work t e) := by
  unfold State.work
  split
  · exact formed_loadRow h
  · exact formed_storeRow h
  · exact formed_macWork h

theorem formed_endCmd {s : State} {t : Nat} {e : MCmd} (h : s.memWf) : (s.endCmd t e).memWf := by
  unfold State.endCmd
  refine formed_later (formed_updTile ?_)
  split
  · refine formed_arriveG ?_
    split <;> exact h
  · split <;> exact h

theorem formed_execMatrixCommandComplete {s : State} (h : s.memWf) : OutFormed (execMatrixCommandComplete s) := by
  unfold execMatrixCommandComplete
  dsimp only
  split
  · exact .next h
  · split
    · split
      · exact formed_notYet h
      · exact .next (formed_endCmd h)
    · split
      · exact formed_notYet h
      · split
        · exact formed_notYet h
        · rename_i e1
          have h1 := WorkFormed.of_fail (formed_work h) e1
          exact .next h1
        · rename_i e1
          have h1 := WorkFormed.of_done (formed_work h) e1
          exact .next h1

theorem formed_beginCmd {s : State} {t : Nat} {e : MCmd} (h : s.memWf) : (s.beginCmd t e).2.memWf := by
  unfold State.beginCmd
  dsimp only
  split
  · dsimp only
    exact h
  · dsimp only
    exact h
  · split
    · exact h
    · split
      · dsimp only
        exact formed_updTile (formed_countCec h)
      · dsimp only
        exact formed_updTile (formed_countCec h)
  · exact h
  · exact h
  · exact h

theorem formed_execMatrixCommandStart {s : State} (h : s.memWf) : OutFormed (execMatrixCommandStart s) := by
  unfold execMatrixCommandStart
  dsimp only
  split
  · exact .next h
  · split
    · exact formed_notYet h
    · exact .next (formed_later (formed_updTile (formed_beginCmd h)))

theorem formed_needCount {s : State} {t : Nat} {l : List (Nat × Nat)} (h : s.memWf) : (s.needCount t l).memWf :=
  formed_countCec h

theorem formed_partRead {s : State} {x : VecLoad} {off size : Nat} (h : s.memWf) : (s.partRead x off size).2.memWf := by
  unfold State.partRead
  dsimp only
  split
  · exact h
  · dsimp only
    exact formed_needCount h

theorem formed_runParts {s : State} {inv : Bool} {serial : Nat} {x : VecLoad} {l : List (Part × Loc)} (h : s.memWf) :
    (s.runParts inv serial x l).2.memWf := by
  induction l generalizing s x with
  | nil => exact h
  | cons p l ih =>
    obtain ⟨p, o⟩ := p
    unfold State.runParts
    split
    · exact ih (formed_partRead h)
    · split
      · exact ih (formed_invTouch h)
      · extract_lets s1
        have h1 : s1.memWf := by
          unfold s1
          split
          · exact formed_invParity h
          · exact h
        split
        · exact ih (memWf_snd_ite (formed_askInv h1) (formed_request (formed_touch h1)))
        · exact ih h1

theorem formed_vecLoad {s : State} {inv : Bool} {x : VecLoad} {parts : List Part} (h : s.memWf) : ActFormed (s.vecLoad inv x parts) := by
  unfold State.vecLoad
  split
  · exact .wait (fun _ h1 => h1)
  · split
    · exact .fault
    · split
      · exact formed_waitXlate
      · split
        · exact .fault
        · dsimp only
          split
          · exact .ok (formed_retire (formed_updCur (formed_runParts h)))
          · exact .ok (formed_retire (formed_updCurTile (formed_updCur (formed_runParts h))))

theorem formed_execVld {vd va vb : BitVec 5} {m : BitVec 3} {w : BitVec 2} {n : BitVec 1} {s : State} (h : s.memWf) :
    OutFormed (execVld vd va vb m w n s) := by
  unfold execVld
  dsimp only
  refine formed_issue (fun _ _ h1 => ?_) h
  split
  · split
    · exact .fault
    · split
      · exact formed_waitXlate
      · exact .ok (formed_retire h1)
  · exact formed_vecLoad h1

theorem formed_rowStore {s : State} {t off : Nat} {mask : BitVec 64} {data : BitVec 512} (h : s.memWf) : (s.rowStore t off mask data).memWf := by
  unfold State.rowStore
  dsimp only
  refine formed_foldl (fun _ _ h1 => ?_) h
  split
  · exact h1
  · split
    · exact formed_spmStore h1
    · refine formed_storeEcc (formed_foldl (fun _ _ h2 => ?_) (formed_countCec h1))
      split
      · exact formed_spmWrite h2
      · exact h2

theorem formed_execVst {vd va vb : BitVec 5} {m : BitVec 3} {w : BitVec 2} {s : State} (h : s.memWf) : OutFormed (execVst vd va vb m w s) := by
  unfold execVst
  dsimp only
  refine formed_issue (fun _ _ h1 => ?_) h
  split
  · exact .wait (fun _ h2 => h2)
  · split
    · exact .fault
    · split
      · split
        · exact .fault
        · exact .ok (formed_retire (formed_rowStore h1))
      · exact formed_waitXlate
      · split
        · exact .ok (formed_retire h1)
        · split
          · exact .wait (fun _ h2 => h2)
          · exact .ok (formed_retire (formed_request (formed_touch h1)))

theorem formed_runScatter {s : State} {data : Nat} {l : List (Part × Loc)} (h : s.memWf) : (s.runScatter data l).memWf := by
  induction l generalizing s with
  | nil => exact h
  | cons p l ih =>
    obtain ⟨p, o⟩ := p
    unfold State.runScatter
    dsimp only
    split
    · exact ih (formed_spmStore h)
    · exact ih (formed_request (formed_touch h))
    · exact ih h

theorem formed_execVscatter {vd va vb : BitVec 5} {m : BitVec 3} {w : BitVec 1} {s : State} (h : s.memWf) :
    OutFormed (execVscatter vd va vb m w s) := by
  unfold execVscatter
  dsimp only
  refine formed_issue (fun _ _ h1 => ?_) h
  split
  · exact .wait (fun _ h2 => h2)
  · split
    · exact .fault
    · split
      · exact formed_waitXlate
      · split
        · exact .fault
        · split
          · exact .wait (fun _ h2 => h2)
          · exact .ok (formed_retire (formed_runScatter h1))

end Sys2Proof.Machine
end

section
/-! SUPPORT. The form of memory under remote requests and their replies, lookups, walks and posted faults. -/
namespace Sys2Proof.Machine

theorem formed_memStore {s : State} {key n v : Nat} (h : s.memWf) : (s.memStore key n v).memWf := by
  unfold State.memStore
  refine formed_foldl (fun _ _ h1 => ?_) (formed_memWrite h)
  split <;> exact h1

theorem formed_memRow {s : State} {key : Nat} {mask : BitVec 64} {data : BitVec 512} (h : s.memWf) : (s.memRow key mask data).memWf := by
  unfold State.memRow
  refine formed_foldl (fun _ _ h1 => ?_) h
  split
  · exact formed_memStore h1
  · exact h1

theorem formed_storeError {s : State} {at_ t : Nat} {e : Ret} {code : Nat} (h : s.memWf) : (s.storeError at_ t e code).memWf :=
  formed_tileEvent h

theorem formed_performTile {s : State} {t u : Nat} {e : Ret} (h : s.memWf) : (s.performTile t u e).2.memWf := by
  unfold State.performTile
  split
  · dsimp only
    split
    · exact h
    · dsimp only
      exact formed_needCount h
  · dsimp only
    split
    · dsimp only
      exact formed_storeError h
    · dsimp only
      exact formed_spmStore h
  · dsimp only
    split
    · dsimp only
      exact formed_storeError h
    · dsimp only
      exact formed_rowStore h
  · dsimp only
    split
    · exact h
    · dsimp only
      split
      · exact formed_spmPut (formed_countCec h)
      · exact formed_countCec h
  · exact h

theorem formed_countWords {s : State} {copies ks : List Nat} (h : s.memWf) : (s.countWords copies ks).memWf := by
  unfold State.countWords
  refine formed_foldl (fun _ _ h1 => ?_) h
  split
  · exact h1
  · exact formed_countCec h1

theorem formed_healWords {s : State} {copies ks : List Nat} (h : s.memWf) : (s.healWords copies ks).memWf := by
  unfold State.healWords
  refine formed_foldl (fun _ _ h1 => ?_) (formed_countWords h)
  split
  · exact h1
  · refine formed_foldl (fun _ _ h2 => ?_) h1
    split
    · exact formed_memStore h2
    · exact h2

theorem formed_performMem {s : State} {t : Nat} {e : Ret} {copies : List Nat} (h : s.memWf) : (s.performMem t e copies).2.memWf := by
  unfold State.performMem
  dsimp only
  split
  · split
    · exact h
    · dsimp only
      exact formed_countWords h
  · split
    · dsimp only
      exact formed_storeError h
    · dsimp only
      exact formed_foldl (fun _ _ h1 => formed_memStore h1) (formed_healWords h)
  · split
    · dsimp only
      exact formed_storeError h
    · dsimp only
      exact formed_foldl (fun _ _ h1 => formed_memRow h1) (formed_healWords h)
  · split
    · exact h
    · dsimp only
      split
      · exact formed_foldl (fun _ _ h1 => formed_memStore h1) (formed_healWords h)
      · exact formed_countWords h
  · exact h

theorem formed_answered {s : State} {t : Nat} {e : Ret} {a : Answer} (h : s.memWf) : (s.answered t e a).memWf :=
  formed_answer h

theorem formed_execRemoteRequest {s : State} (h : s.memWf) : OutFormed (execRemoteRequest s) := by
  unfold execRemoteRequest
  refine formed_atHome (fun _ => ?_) h
  split
  · split
    · exact formed_notYet h
    · exact .next (formed_answered (formed_performTile h))
  · exact .next h

theorem formed_vecReply {s : State} {t serial j size : Nat} {a : Word} {data : Nat} {code : BitVec 8} (h : s.memWf) :
    (s.vecReply t serial j size a data code).memWf := by
  unfold State.vecReply
  split
  · exact h
  · dsimp only
    split
    · split
      · split
        · split
          · exact formed_updTile h
          · exact formed_updCtx (formed_updTile h)
        · split
          · exact formed_updTile h
          · exact formed_updCtx (formed_updTile h)
      · split
        · split
          · exact formed_updTile h
          · exact formed_updCtx (formed_updTile h)
        · split
          · exact formed_updTile h
          · exact formed_updCtx (formed_updTile h)
    · split
      · exact formed_updTile h
      · exact formed_updCtx (formed_updTile h)

theorem formed_deliverTo {s : State} {t : Nat} {e : Ret} (h : s.memWf) : (s.deliverTo t e).memWf := by
  unfold State.deliverTo
  dsimp only
  split
  · split
    · exact formed_arriveG h
    · exact formed_markG h
  · exact formed_vecReply h
  · exact h
  · split
    · exact formed_arriveG h
    · exact formed_markG h
  · exact h

theorem formed_deliver {s : State} {t : Nat} {e : Ret} (h : s.memWf) : (s.deliver t e).memWf := by
  unfold State.deliver
  split
  · exact formed_deliverTo h
  · dsimp only
    refine formed_foldl (fun _ _ h1 => formed_deliverTo h1) (formed_deliverTo (formed_updTile ?_))
    split <;> exact h

theorem formed_execRemoteReply {s : State} (h : s.memWf) : OutFormed (execRemoteReply s) := by
  unfold execRemoteReply
  dsimp only
  split
  · exact .next h
  · split
    · split
      · exact formed_notYet h
      · exact formed_backHome (fun _ _ h1 => .next (formed_deliver (formed_freeEntry h1))) h
    · split
      · exact formed_notYet h
      · exact formed_backHome (fun _ _ h1 => .next (formed_deliver (formed_freeEntry h1))) h

theorem formed_setXfer {s : State} {t : Nat} {e : XCmd} (h : s.memWf) : (s.setXfer t e).memWf := h

theorem formed_xferSettled {s : State} {t cmd : Nat} (h : s.memWf) : (s.xferSettled t cmd).memWf := by
  unfold State.xferSettled
  repeat' split
  all_goals exact h

theorem formed_xferFail {s : State} {t cmd off : Nat} {code : BitVec 8} (h : s.memWf) : (s.xferFail t cmd off code).memWf := by
  unfold State.xferFail
  split
  · refine formed_xferSettled ?_
    split <;> exact h
  · exact h

theorem formed_unitDone {s : State} {t cmd n : Nat} {here : Bool} (h : s.memWf) : (s.unitDone t cmd n here).memWf := by
  unfold State.unitDone
  split
  · dsimp only
    refine formed_xferSettled ?_
    split <;> exact h
  · exact h

theorem formed_streamSettled {s : State} {t tag : Nat} (h : s.memWf) : (s.streamSettled t tag).memWf := by
  unfold State.streamSettled
  split
  · dsimp only
    split <;> exact h
  · exact h

theorem formed_execAcknowledgement {s : State} (h : s.memWf) : OutFormed (execAcknowledgement s) := by
  unfold execAcknowledgement
  dsimp only
  split
  · exact .next h
  · split
    · split
      · refine formed_notYet ?_
        split
        · exact formed_sealNotice (formed_setEntry (formed_countCec h))
        · exact formed_setEntry (formed_countCec h)
      · split
        · exact .next (formed_streamSettled h)
        · exact .next h
    · split
      · exact .next h
      · split
        · exact formed_notYet h
        · refine formed_backHome (fun _ _ h1 => (.next ?_)) h
          refine formed_releaseHeld ?_
          split
          · split
            · exact formed_unitDone h1
            · dsimp only
              exact formed_xferFail h1
          · split
            · exact h1
            · split
              · exact h1
              · exact formed_storeError h1

theorem formed_edgeError {s : State} {t : Nat} {e : Ret} {code : BitVec 8} (h : s.memWf) : (s.edgeError t e code).memWf :=
  formed_answered h

theorem formed_edgeRefuse {s : State} {t : Nat} {e : Ret} (h : s.memWf) : (s.edgeRefuse t e).memWf :=
  formed_sendBack h

theorem formed_execEdgePortArrival {s : State} (h : s.memWf) : OutFormed (execEdgePortArrival s) := by
  unfold execEdgePortArrival
  refine formed_atHome (fun _ => ?_) h
  split
  · split
    · exact .next (formed_edgeError h)
    · split
      · exact .next (formed_edgeRefuse h)
      · split
        · exact formed_notYet h
        · exact .next h
  · exact .next h

theorem formed_execEdgeSlotSend {s : State} (h : s.memWf) : OutFormed (execEdgeSlotSend s) := by
  unfold execEdgeSlotSend
  dsimp only
  split
  · split
    · split
      · exact .next (formed_edgeError h)
      · split
        · exact .next (formed_edgeError h)
        · split
          · exact .next (formed_edgeRefuse h)
          · split
            · exact formed_notYet h
            · split
              · exact formed_notYet h
              · exact .next h
    · exact .next h
  · exact .next h

theorem formed_mirrorLost {s : State} {r pa : Nat} (h : s.memWf) : (s.mirrorLost r pa).memWf :=
  formed_event h

theorem formed_execModuleAccess {s : State} (h : s.memWf) : OutFormed (execModuleAccess s) := by
  unfold execModuleAccess
  dsimp only
  split
  · split
    · split
      · exact .next (formed_edgeRefuse h)
      · split
        · exact .next (formed_edgeError h)
        · split
          · split
            · exact .next (formed_edgeError h)
            · split
              · refine .next ?_
                refine formed_edgeError ?_
                split
                · split
                  · exact h
                  · exact formed_tileEvent h
                · split
                  · exact h
                  · exact formed_tileEvent h
                · split
                  · exact h
                  · exact formed_tileEvent h
              · refine .next ?_
                refine formed_answered (formed_performMem ?_)
                split
                · exact formed_mirrorLost h
                · exact h
          · split
            · exact .next (formed_edgeError h)
            · split
              · refine .next ?_
                refine formed_edgeError ?_
                split
                · split
                  · exact h
                  · exact formed_tileEvent h
                · split
                  · exact h
                  · exact formed_tileEvent h
                · split
                  · exact h
                  · exact formed_tileEvent h
              · refine .next ?_
                refine formed_answered (formed_performMem ?_)
                split
                · exact formed_mirrorLost h
                · exact h
    · exact .next h
  · exact .next h

theorem formed_execEdgeRefusal {s : State} (h : s.memWf) : OutFormed (execEdgeRefusal s) := by
  unfold execEdgeRefusal
  dsimp only
  split
  · split
    · exact .next h
    · split
      · exact formed_notYet h
      · refine formed_backHome (fun _ _ h1 => ?_) h
        split
        · exact .next (formed_answer h1)
        · exact .next h1
  · exact .next h

theorem formed_giveXlate {s : State} {t who : Nat} {e : Tlb} {held : Bool} (h : s.memWf) : (s.giveXlate t who e held).memWf := by
  unfold State.giveXlate
  dsimp only
  split
  · split
    · exact formed_updCtx (formed_updTile h)
    · exact formed_updCtx h
  · split
    · exact formed_updTile h
    · split
      · refine formed_updCtx ?_
        split
        · exact formed_updTile h
        · exact formed_updCtx h
      · split
        · refine formed_updCtx ?_
          split
          · exact formed_updTile h
          · exact h
        · split
          · exact formed_updTile h
          · split
            · exact h
            · split
              · exact formed_later h
              · refine formed_launch (formed_noteDeadline ?_)
                split
                · exact formed_updTile h
                · split
                  · exact formed_updTile h
                  · exact h

theorem formed_execL2TlbLookup {s : State} (h : s.memWf) : OutFormed (execL2TlbLookup s) := by
  unfold execL2TlbLookup
  dsimp only
  split
  · exact .next h
  · split
    · exact formed_notYet h
    · split
      · exact .next (formed_giveXlate h)
      · exact .next h

theorem formed_execWalk {s : State} (h : s.memWf) : OutFormed (execWalk s) := by
  unfold execWalk
  dsimp only
  split
  · exact .next h
  · split
    · split
      · exact formed_notYet h
      · split
        · exact formed_notYet h
        · exact .next h
    · split
      · exact formed_notYet h
      · split
        · exact formed_notYet h
        · exact .next h

theorem formed_postFault {s : State} {t who va kind cause stage level addr ipa : Nat} (h : s.memWf) :
    (s.postFault t who va kind cause stage level addr ipa).2.memWf := h

theorem formed_freeWalker {s : State} {k n : Nat} (h : s.memWf) : (s.freeWalker k n).memWf := h

theorem formed_faultWait {s : State} {t c seq va : Nat} (h : s.memWf) : (s.faultWait t c seq va).memWf := by
  unfold State.faultWait
  dsimp only
  split
  · exact formed_updCtx h
  · split
    · exact formed_updCtx h
    · exact formed_updTile (formed_updCtx h)

theorem formed_walkStop {s : State} {w : Walker} {cause stage level addr : Nat} {e : Option Tlb} (h : s.memWf) :
    (s.walkStop w cause stage level addr e).memWf := by
  unfold State.walkStop
  dsimp only
  split
  · exact h
  · split
    · exact formed_updCtx h
    · split
      · exact formed_faultWait (formed_postFault h)
      · split
        · exact formed_updTile (formed_postFault h)
        · split
          · exact formed_faultWait (formed_postFault h)
          · split
            · exact formed_faultWait (formed_postFault h)
            · split
              · exact formed_updTile (formed_postFault h)
              · split
                · exact formed_setEntry (formed_postFault h)
                · exact formed_postFault h

theorem formed_retainedError {s : State} {t : Nat} {e : Ret} {code : BitVec 8} (h : s.memWf) : (s.retainedError t e code).memWf :=
  formed_answered h

theorem formed_keyConflict {s : State} {w : Walker} {e : Tlb} {tag : Nat} (h : s.memWf) : (s.keyConflict w e tag).memWf := by
  unfold State.keyConflict
  dsimp only
  split
  · exact h
  · split
    · exact formed_updCtx h
    · split
      · exact formed_updCtx (formed_tileEvent h)
      · split
        · split
          · exact formed_xferFail (formed_setXfer (formed_tileEvent h))
          · exact formed_tileEvent h
        · split
          · exact formed_updCtx (formed_tileEvent h)
          · split
            · exact formed_updCtx (formed_tileEvent h)
            · split
              · exact formed_updTile (formed_tileEvent h)
              · split
                · exact formed_retainedError (formed_tileEvent h)
                · exact formed_tileEvent h

theorem formed_walkNumber {s : State} {k r pa : Nat} (h : s.memWf) : (s.walkNumber k r pa).memWf := by
  unfold State.walkNumber
  dsimp only
  split
  · exact formed_takeSeq (formed_takeSeq h)
  · exact h

theorem formed_readEntry {s : State} {k : Nat} {w : Walker} {stage addr pa : Nat} {mir : Bool} {keep : Nat → Bool} (h : s.memWf) :
    ReadingFormed (s.readEntry k w stage addr pa mir keep) := by
  unfold State.readEntry
  dsimp only
  split
  · exact .got h
  · split
    · exact .got h
    · split
      · exact .error
      · exact .wait
      · split
        · exact .stale
        · split
          · split
            · exact .error
            · split
              · split
                · exact .error
                · exact .again (formed_countCec h)
              · exact .got (formed_walkNumber (formed_countWords h))
          · split
            · exact .error
            · split
              · split
                · exact .error
                · exact .again (formed_countCec h)
              · exact .got (formed_walkNumber (formed_countWords h))

theorem formed_fillWc {s : State} {k : Nat} {w : Walker} (h : s.memWf) : (s.fillWc k w).memWf := h

theorem formed_walkOn {s : State} {k n : Nat} {w : Walker} (h : s.memWf) : OutFormed (s.walkOn k n w) :=
  .next h

theorem formed_replaceHeld {s : State} {k : Nat} {w : Walker} {e : Tlb} (h : s.memWf) : (s.replaceHeld k w e).memWf := by
  unfold State.replaceHeld
  split
  · exact h
  · dsimp only
    refine formed_updTile ?_
    split <;> exact h

theorem formed_dropHeld {s : State} {k : Nat} {w : Walker} (h : s.memWf) : (s.dropHeld k w).memWf := by
  unfold State.dropHeld
  split
  · dsimp only
    exact h
  · exact h

theorem formed_walkEnd {s : State} {k n : Nat} {w : Walker} {cause stage level addr : Nat} {e : Option Tlb} (h : s.memWf) :
    OutFormed (s.walkEnd k n w cause stage level addr e) :=
  .next (formed_walkStop h)

theorem formed_walkProbe {s : State} {k n : Nat} {w : Walker} (h : s.memWf) : OutFormed (s.walkProbe k n w) := by
  unfold State.walkProbe
  dsimp only
  split
  · exact formed_notYet h
  · split
    · split
      · exact formed_walkEnd (formed_countCec h)
      · exact formed_notYet (formed_setCluster (formed_countCec h))
    · split
      · split
        · split
          · exact .next (formed_keyConflict (formed_freeWalker (formed_walkNumber h)))
          · split
            · split
              · exact formed_walkEnd (formed_walkNumber h)
              · exact formed_walkOn (formed_walkNumber h)
            · split
              · split
                · exact .next (formed_dropHeld (formed_fillWc (formed_freeWalker (formed_walkNumber h))))
                · exact .next (formed_giveXlate (formed_dropHeld (formed_fillWc (formed_freeWalker (formed_walkNumber h)))))
              · split
                · exact .next (formed_setCluster (formed_dropHeld (formed_fillWc (formed_freeWalker (formed_walkNumber h)))))
                · exact .next (formed_giveXlate (formed_setCluster (formed_dropHeld (formed_fillWc (formed_freeWalker (formed_walkNumber h))))))
        · split
          · exact .next (formed_keyConflict (formed_freeWalker h))
          · split
            · split
              · exact formed_walkEnd h
              · exact formed_walkOn h
            · split
              · split
                · exact .next (formed_dropHeld (formed_fillWc (formed_freeWalker h)))
                · exact .next (formed_giveXlate (formed_dropHeld (formed_fillWc (formed_freeWalker h))))
              · split
                · exact .next (formed_setCluster (formed_dropHeld (formed_fillWc (formed_freeWalker h))))
                · exact .next (formed_giveXlate (formed_setCluster (formed_dropHeld (formed_fillWc (formed_freeWalker h)))))
      · split
        · split
          · exact .next (formed_keyConflict (formed_freeWalker (formed_walkNumber h)))
          · split
            · split
              · exact formed_walkEnd (formed_walkNumber h)
              · exact formed_walkOn (formed_walkNumber h)
            · split
              · split
                · exact .next (formed_dropHeld (formed_fillWc (formed_freeWalker (formed_walkNumber h))))
                · exact .next (formed_giveXlate (formed_dropHeld (formed_fillWc (formed_freeWalker (formed_walkNumber h)))))
              · split
                · exact .next (formed_setCluster (formed_dropHeld (formed_fillWc (formed_freeWalker (formed_walkNumber h)))))
                · exact .next (formed_giveXlate (formed_setCluster (formed_dropHeld (formed_fillWc (formed_freeWalker (formed_walkNumber h))))))
        · split
          · exact .next (formed_keyConflict (formed_freeWalker h))
          · split
            · split
              · exact formed_walkEnd h
              · exact formed_walkOn h
            · split
              · split
                · exact .next (formed_dropHeld (formed_fillWc (formed_freeWalker h)))
                · exact .next (formed_giveXlate (formed_dropHeld (formed_fillWc (formed_freeWalker h))))
              · split
                · exact .next (formed_setCluster (formed_dropHeld (formed_fillWc (formed_freeWalker h))))
                · exact .next (formed_giveXlate (formed_setCluster (formed_dropHeld (formed_fillWc (formed_freeWalker h)))))

theorem formed_execWalkerRead {s : State} (h : s.memWf) : OutFormed (execWalkerRead s) := by
  unfold execWalkerRead
  dsimp only
  split
  · exact .next h
  · split
    · exact formed_walkProbe h
    · split
      · split
        · exact formed_notYet h
        · rename_i e1
          have h1 := ReadingFormed.of_again (formed_readEntry h) e1
          exact formed_notYet (formed_setCluster h1)
        · exact formed_walkOn h
        · exact formed_walkEnd h
        · rename_i e1
          have h1 := ReadingFormed.of_got (formed_readEntry h) e1
          split
          · exact formed_walkEnd h1
          · exact formed_walkEnd h1
          · exact formed_walkOn h1
          · exact formed_walkOn h1
      · split
        · exact formed_notYet h
        · rename_i e1
          have h1 := ReadingFormed.of_again (formed_readEntry h) e1
          exact formed_notYet (formed_setCluster h1)
        · exact formed_notYet h
        · exact formed_walkEnd h
        · rename_i e1
          have h1 := ReadingFormed.of_got (formed_readEntry h) e1
          split
          · exact formed_walkEnd h1
          · exact formed_walkEnd h1
          · exact formed_walkOn h1
          · split
            · split
              · exact formed_walkEnd h1
              · exact formed_walkOn h1
            · split
              · exact formed_walkEnd (formed_replaceHeld h1)
              · split
                · exact formed_walkEnd (formed_replaceHeld h1)
                · exact formed_walkOn h1

theorem formed_vc6Enter {s : State} {t isl : Nat} (h : s.memWf) : ExceptFormed (s.vc6Enter t isl) := by
  unfold State.vc6Enter
  split
  · exact .error h
  · split
    · exact .error (formed_countCec h)
    · exact .ok (formed_numberOut h)

theorem formed_execPostedFaultMessage {s : State} (h : s.memWf) : OutFormed (execPostedFaultMessage s) := by
  unfold execPostedFaultMessage
  split
  · exact .next h
  · split
    · exact formed_notYet h
    · dsimp only
      split
      · rename_i e1
        have h1 := ExceptFormed.of_error (formed_vc6Enter h) e1
        exact formed_notYet h1
      · rename_i e1
        have h1 := ExceptFormed.of_ok (formed_vc6Enter h) e1
        split
        · exact .next (formed_interruptRegion (formed_ringWrite h1))
        · exact .next h1

theorem formed_faultReply {s : State} {k : State → Out} (hk : ∀ t, t.memWf → OutFormed (k t)) (h : s.memWf) : OutFormed (faultReply s k) := by
  unfold faultReply
  dsimp only
  split
  · exact formed_notYet (formed_countCec h)
  · exact hk _ (formed_numberBack h)

theorem formed_execRetryReply {s : State} (h : s.memWf) : OutFormed (execRetryReply s) := by
  unfold execRetryReply
  dsimp only
  refine formed_faultReply (fun _ h1 => ?_) h
  repeat' split
  all_goals exact .next h1

theorem formed_execFailReply {s : State} (h : s.memWf) : OutFormed (execFailReply s) := by
  unfold execFailReply
  dsimp only
  refine formed_faultReply (fun _ h1 => ?_) h
  split
  · exact .next h1
  · split
    · exact .next h1
    · split
      · refine .next ?_
        refine formed_retainedError (formed_updTile ?_)
        split
        · exact formed_xferFail h1
        · exact h1
      · refine .next ?_
        refine formed_updTile ?_
        split
        · exact formed_xferFail h1
        · exact h1

end Sys2Proof.Machine
end

section
/-! SUPPORT. The form of memory under the transfer engine, streams and trains. -/
namespace Sys2Proof.Machine

theorem formed_execXcopy {rd ra rb : BitVec 6} {wa wb : BitVec 1} {s : State} (h : s.memWf) : OutFormed (execXcopy rd ra rb wa wb s) := by
  unfold execXcopy
  dsimp only
  refine formed_issue (fun _ _ h1 => ?_) h
  split
  · exact .fault
  · split
    · exact .wait (fun _ h2 => h2)
    · exact .ok (formed_retire h1)

theorem formed_execXpop {rd : BitVec 6} {s : State} (h : s.memWf) : OutFormed (execXpop rd s) := by
  unfold execXpop
  refine formed_issue (fun _ _ h1 => ?_) h
  split
  · exact formed_lateResult h1
  · split
    · exact formed_lateResult h1
    · exact .ok (formed_retire (formed_emptyG h1))

theorem formed_sendUnit {s : State} {t : Nat} {e : XCmd} (h : s.memWf) : SentFormed (s.sendUnit t e) := by
  unfold State.sendUnit
  dsimp only
  split
  · exact .wait h
  · split
    · exact .wait h
    · split
      · exact .go (formed_xferFail h)
      · split
        · exact .go (formed_xferFail h)
        · exact .go (formed_inject (formed_setXfer (formed_fresh (formed_countCec h))))
    · split
      · exact .go (formed_xferFail h)
      · exact .go (formed_inject h)
    · split
      · exact .go (formed_xferFail h)
      · split
        · exact .go (formed_request h)
        · split <;> exact .wait h
    · split
      · exact .go (formed_request h)
      · split <;> exact .wait h

theorem formed_execTransferStart {s : State} (h : s.memWf) : OutFormed (execTransferStart s) := by
  unfold execTransferStart
  dsimp only
  split
  · split
    · exact formed_notYet h
    · split
      · rename_i e1
        have h1 := SentFormed.of_go (formed_sendUnit h) e1
        exact .next h1
      · rename_i e1
        have h1 := SentFormed.of_wait (formed_sendUnit h) e1
        exact formed_notYet h1
  · split
    · exact .next h
    · split
      · exact formed_notYet h
      · split <;> exact .next h

theorem formed_execTransferReadRequest {s : State} (h : s.memWf) : OutFormed (execTransferReadRequest s) := by
  unfold execTransferReadRequest
  dsimp only
  split
  · exact .next h
  · split
    · exact formed_sealFail h
    · split
      · split
        · exact .next (formed_answered h)
        · exact .next (formed_answered (formed_countCec h))
      · exact .next h

theorem formed_writeUnit {s : State} {t off n data : Nat} (h : s.memWf) : (s.writeUnit t off n data).memWf :=
  formed_foldl (fun _ _ h1 => formed_spmStore h1) h

theorem formed_copySegment {s : State} {t : Nat} {e : XCmd} (h : s.memWf) : OutFormed (s.copySegment t e) := by
  unfold State.copySegment
  dsimp only
  split
  · exact formed_notYet h
  · split
    · exact .next (formed_xferFail h)
    · refine .next ?_
      split
      · exact formed_later (formed_unitDone (formed_setXfer (formed_writeUnit (formed_countCec h))))
      · exact formed_unitDone (formed_setXfer (formed_writeUnit (formed_countCec h)))

theorem formed_execTransferSegment {s : State} (h : s.memWf) : OutFormed (execTransferSegment s) := by
  unfold execTransferSegment
  dsimp only
  split
  · split
    · split
      · exact formed_sealFail h
      · refine .next ?_
        refine formed_answered ?_
        split
        · split
          · exact formed_arrive (formed_writeUnit h)
          · exact formed_writeUnit h
        · exact formed_writeUnit h
    · split
      · split
        · exact formed_notYet h
        · refine formed_backHome (fun _ _ h1 => ?_) h
          split
          · exact .next (formed_xferFail h1)
          · split
            · split
              · exact .next (formed_xferSettled h1)
              · exact .next (formed_unitDone (formed_writeUnit h1))
            · exact .next h1
      · split
        · exact formed_notYet h
        · refine formed_backHome (fun _ _ h1 => ?_) h
          split
          · exact .next (formed_xferFail h1)
          · split
            · split
              · exact .next (formed_xferSettled h1)
              · exact .next (formed_unitDone (formed_writeUnit h1))
            · exact .next h1
    · exact .next h
  · split
    · exact formed_copySegment h
    · exact .next h

theorem formed_execTransferComplete {s : State} (h : s.memWf) : OutFormed (execTransferComplete s) := by
  unfold execTransferComplete
  dsimp only
  split
  · exact .next h
  · refine .next ?_
    refine formed_later ?_
    split
    · refine formed_updTile ?_
      split
      · refine formed_arriveG ?_
        repeat' split
        all_goals exact h
      · repeat' split
        all_goals exact h
    · refine formed_updTile (formed_setXfer ?_)
      split
      · refine formed_arriveG ?_
        repeat' split
        all_goals exact h
      · repeat' split
        all_goals exact h

theorem formed_execSopen {ra : BitVec 6} {n : BitVec 2} {wa : BitVec 1} {s : State} (h : s.memWf) : OutFormed (execSopen ra n wa s) := by
  unfold execSopen
  dsimp only
  refine formed_issue (fun _ _ h1 => ?_) h
  split
  · exact .fault
  · split
    · exact .wait (fun _ h2 => h2)
    · split
      · exact .fault
      · split
        · exact .fault
        · split
          · exact .fault
          · split
            · exact .fault
            · split
              · exact .fault
              · split
                · split
                  · exact .wait (fun _ h2 => h2)
                  · exact .ok (formed_retire (formed_updCurTile (formed_countCec h1)))
                · split
                  · exact .wait (fun _ h2 => h2)
                  · split
                    · exact .ok (formed_retire (formed_inject (formed_fresh (formed_updCurTile (formed_countCec h1)))))
                    · exact .ok (formed_retire (formed_updCurTile (formed_countCec h1)))
  · exact .fault

theorem formed_tell {s : State} {t u c : Nat} {b : Body} (h : s.memWf) : (s.tell t u c b).memWf := by
  unfold State.tell
  dsimp only
  split
  · exact h
  · exact formed_launch h

theorem formed_signalHome {s : State} {k : Ret → Out} (hk : ∀ e, OutFormed (k e)) (h : s.memWf) : OutFormed (signalHome s k) := by
  unfold signalHome
  dsimp only
  split
  · exact .next h
  · split
    · split
      · exact formed_notYet h
      · exact .next (formed_launch h)
    · split
      · exact formed_notYet h
      · exact formed_atHome (fun _ => hk _) h

theorem formed_sendAbort {s : State} {t : Nat} {e : StreamEnd} {code : BitVec 8} {closed : Bool} {u : Nat} (h : s.memWf) :
    (s.sendAbort t e code closed u).memWf :=
  formed_tell h

theorem formed_dropStream {s : State} {t : Nat} {e : StreamEnd} (h : s.memWf) : (s.dropStream t e).memWf :=
  formed_foldl (fun _ _ h1 => formed_popAck h1) h

theorem formed_execSclose {rd : BitVec 6} {n : BitVec 2} {s : State} (h : s.memWf) : OutFormed (execSclose rd n s) := by
  unfold execSclose
  dsimp only
  refine formed_issue (fun _ _ h1 => ?_) h
  split
  · exact formed_result h1
  · split
    · refine formed_result (formed_updCurTile ?_)
      split
      · exact formed_dropStream h1
      · exact h1
    · refine formed_result (formed_foldl (fun _ _ h2 => formed_sendAbort h2) (formed_updCurTile ?_))
      split
      · exact formed_dropStream h1
      · exact h1

theorem formed_failSource {s : State} {t n : Nat} {code : BitVec 8} (h : s.memWf) : (s.failSource t n code).memWf :=
  formed_foldl (fun _ _ h1 => formed_sendAbort h1) h

theorem formed_failLine {s : State} {t n : Nat} {code : BitVec 8} {a : Word} (h : s.memWf) : (s.failLine t n code a).memWf := by
  unfold State.failLine
  refine formed_failSource ?_
  split
  · exact h
  · exact formed_streamEvent h

theorem formed_execStreamDigest {s : State} (h : s.memWf) : OutFormed (execStreamDigest s) := by
  unfold execStreamDigest
  dsimp only
  refine formed_atHome (fun _ => ?_) h
  split
  · split
    · exact .next (formed_refuse h)
    · split
      · exact .next (formed_refuse h)
      · split
        · exact .next (formed_sendAbort (formed_accept h))
        · split
          · exact .next (formed_refuse h)
          · split
            · exact .next (formed_failSource (formed_streamEvent (formed_accept h)))
            · split
              · split
                · exact .next (formed_later (formed_foldl (fun _ _ h1 => formed_tell h1) (formed_updTile (formed_accept h))))
                · exact .next (formed_updTile (formed_accept h))
              · split
                · exact .next (formed_later (formed_foldl (fun _ _ h1 => formed_tell h1) (formed_updTile (formed_accept h))))
                · exact .next (formed_updTile (formed_accept h))
  · exact .next h

theorem formed_execStreamGo {s : State} (h : s.memWf) : OutFormed (execStreamGo s) := by
  unfold execStreamGo
  dsimp only
  refine formed_signalHome (fun _ => ?_) h
  split
  · split
    · exact .next h
    · split
      · exact .next h
      · split
        · exact .next h
        · exact .next (formed_streamEvent h)
  · exact .next h

theorem formed_execStreamAbort {s : State} (h : s.memWf) : OutFormed (execStreamAbort s) := by
  unfold execStreamAbort
  dsimp only
  refine formed_signalHome (fun _ => ?_) h
  repeat' split
  all_goals exact .next h

theorem formed_injectElems {s : State} {t n : Nat} {e : StreamEnd} (h : s.memWf) : (s.injectElems t n e).memWf := by
  unfold State.injectElems
  refine formed_foldl (fun _ _ h1 => formed_later h1) ?_
  split
  · exact formed_takeSeq (formed_updTile (formed_keep (formed_updTile (formed_fresh h))))
  · exact formed_updTile (formed_keep (formed_updTile (formed_fresh h)))

theorem formed_execStreamMessageInject {s : State} (h : s.memWf) : OutFormed (execStreamMessageInject s) := by
  unfold execStreamMessageInject
  dsimp only
  split
  · exact .next h
  · split
    · exact .next (formed_failLine h)
    · split
      · exact formed_notYet h
      · split
        · exact .next (formed_streamSettled h)
        · split
          · split
            · exact formed_notYet h
            · exact .next (formed_later (formed_injectElems h))
          · split
            · exact formed_notYet h
            · split
              · exact .next (formed_later (formed_updTile (formed_request h)))
              · split
                · exact formed_notYet h
                · exact formed_notYet (formed_later (formed_updTile h))

theorem formed_execStreamLineReply {s : State} (h : s.memWf) : OutFormed (execStreamLineReply s) := by
  unfold execStreamLineReply
  dsimp only
  split
  · exact .next h
  · refine formed_backHome (fun _ _ h1 => ?_) h
    split
    · exact .next h1
    · split
      · split
        · exact .next (formed_failLine h1)
        · exact .next h1
      · exact .next h1

theorem formed_execStreamMessage {s : State} (h : s.memWf) : OutFormed (execStreamMessage s) := by
  unfold execStreamMessage
  dsimp only
  split
  · exact .next h
  · split
    · split
      · exact .next h
      · split
        · exact formed_notYet h
        · split
          · split
            · exact .next (formed_storeError (formed_sealNotice (formed_setEntry (formed_countCec h))))
            · exact formed_notYet (formed_setEntry (formed_countCec h))
          · split
            · split
              · exact formed_notYet h
              · split
                · exact .next h
                · split
                  · exact formed_notYet h
                  · exact .next h
            · exact .next h
    · exact .next h

theorem formed_lateG {s : State} {t r : Nat} {v : Word} (h : s.memWf) : (s.lateG t r v).memWf := by
  unfold State.lateG
  split
  · exact formed_push h
  · exact h

theorem formed_trainGate {n : Need} {bad : Train → Bool} {s : State} {body : List Word → State → Act} (hb : ∀ v t, t.memWf → ActFormed (body v t))
    (h : s.memWf) : OutFormed (trainGate n bad s body) := by
  unfold trainGate
  refine formed_issue (fun _ _ h1 => ?_) h
  split
  · exact .fault
  · exact hb _ _ h1

theorem formed_execTform {rd ra : BitVec 6} {wa : BitVec 1} {s : State} (h : s.memWf) : OutFormed (execTform rd ra wa s) := by
  unfold execTform
  dsimp only
  refine formed_trainGate (fun _ _ h1 => ?_) h
  split
  · exact .fault
  · split
    · exact .fault
    · refine .ok ?_
      refine formed_foldl (fun _ _ h2 => ?_) (formed_updCurTile (formed_retire h1))
      split <;> exact h2

theorem formed_execTjoin {rd ra : BitVec 6} {wa : BitVec 1} {s : State} (h : s.memWf) : OutFormed (execTjoin rd ra wa s) := by
  unfold execTjoin
  dsimp only
  refine formed_trainGate (fun _ _ h1 => ?_) h
  split
  · exact .wait (fun _ h2 => h2)
  · split
    · exact .fault
    · split
      · exact .ok (formed_later (formed_updCurTile (formed_retire h1)))
      · exact .ok (formed_updCurTile (formed_retire h1))

theorem formed_execTleave {ra : BitVec 6} {k : BitVec 2} {wa : BitVec 1} {s : State} (h : s.memWf) : OutFormed (execTleave ra k wa s) := by
  unfold execTleave
  dsimp only
  refine formed_trainGate (fun _ _ h1 => ?_) h
  split
  · split
    · exact .fault
    · exact .ok (formed_updCurTile (formed_finish h1))
  · exact .ok (formed_retire h1)

theorem formed_startLines {s : State} {kind : Nat} (h : s.memWf) : (s.startLines kind).memWf := by
  unfold State.startLines
  split
  · exact formed_updCurTile (formed_foldl (fun _ _ h1 => formed_updTile h1) h)
  · exact h

theorem formed_dueLine {s : State} {kind : Nat} (h : s.memWf) : (s.dueLine kind).memWf := h

theorem formed_execTsyncLine {s : State} (h : s.memWf) : OutFormed (execTsyncLine s) := by
  unfold execTsyncLine
  dsimp only
  split
  · exact .next h
  · split
    · split
      · exact formed_notYet h
      · exact .next h
    · split
      · exact formed_notYet h
      · exact .next h
    · split
      · exact formed_notYet h
      · exact .next h

theorem formed_execVc7Element {s : State} (h : s.memWf) : OutFormed (execVc7Element s) := by
  unfold execVc7Element
  dsimp only
  split
  · exact .next h
  · split
    · split
      · exact formed_notYet h
      · split <;> exact .next h
    · split
      · exact formed_notYet h
      · split <;> exact .next h

theorem formed_execTrainFormationRequest {s : State} (h : s.memWf) : OutFormed (execTrainFormationRequest s) := by
  unfold execTrainFormationRequest
  dsimp only
  split
  · exact .next h
  · split
    · split
      · exact formed_notYet h
      · exact .next h
    · exact .next h

theorem formed_execTrainFormed {s : State} (h : s.memWf) : OutFormed (execTrainFormed s) := by
  unfold execTrainFormed
  dsimp only
  split
  · exact .next (formed_foldl (fun _ _ h1 => formed_lateG h1) (formed_foldl (fun _ _ h1 => formed_updTile h1) h))
  · exact .next h

end Sys2Proof.Machine
end

section
/-! SUPPORT. The form of memory under kernels, gangs, the events of islands and the repeater frame. -/
namespace Sys2Proof.Machine

theorem formed_islandStore {s : State} {r : Nat} {l : List Nat × Bool} {n v : Nat} (h : s.memWf) : (s.islandStore r l n v).memWf := by
  unfold State.islandStore
  refine formed_foldl (fun _ _ h1 => formed_memStore h1) ?_
  split
  · exact formed_mirrorLost h
  · exact h

theorem formed_submit {s : State} {r : Nat} {desc : BitVec 512} {submitter deadline : Nat} (h : s.memWf) :
    (s.submit r desc submitter deadline).2.memWf := by
  unfold State.submit
  dsimp only
  split
  · split
    · exact h
    · split
      · exact h
      · split
        · exact h
        · dsimp only
          exact h
  · split
    · exact h
    · split
      · exact h
      · dsimp only
        exact h

theorem formed_execLaunchRegisterWrite {s : State} (h : s.memWf) : OutFormed (execLaunchRegisterWrite s) := by
  unfold execLaunchRegisterWrite
  dsimp only
  split
  · exact .next h
  · exact .next (formed_submit h)

theorem formed_execKq {rd ra : BitVec 6} {wa : BitVec 1} {s : State} (h : s.memWf) : OutFormed (execKq rd ra wa s) := by
  unfold execKq
  dsimp only
  refine formed_issue (fun _ _ h1 => ?_) h
  split
  · exact .fault
  · split
    · exact .wait (fun _ h2 => h2)
    · split
      · exact .fault
      · split
        · exact .wait (fun _ h2 => h2)
        · exact formed_sendLoad (formed_countCec h1)
  · exact .fault

theorem formed_execKqRequest {s : State} (h : s.memWf) : OutFormed (execKqRequest s) := by
  unfold execKqRequest
  dsimp only
  refine formed_atHome (fun _ => ?_) h
  split
  · split
    · exact formed_notYet h
    · split
      · exact .next (formed_answered h)
      · exact .next (formed_answered (formed_submit h))
  · exact .next h

theorem formed_closeStreams {s : State} {t : Nat} (h : s.memWf) : (s.closeStreams t).memWf := by
  unfold State.closeStreams
  dsimp only
  refine formed_updTile (formed_foldl (fun _ _ h1 => ?_) h)
  split
  · refine formed_foldl (fun _ _ h2 => formed_sendAbort h2) ?_
    split
    · exact formed_dropStream h1
    · exact h1
  · split
    · exact formed_dropStream h1
    · exact h1

theorem formed_leaveKernel {s : State} {r n t : Nat} (h : s.memWf) : (s.leaveKernel r n t).memWf := by
  unfold State.leaveKernel
  exact formed_updRegion (formed_setTile (formed_closeStreams h))

theorem formed_writeRecord {s : State} {r n rrec tick status reason : Nat} (h : s.memWf) : (s.writeRecord r n rrec tick status reason).memWf := by
  unfold State.writeRecord
  split
  · exact h
  · split
    · exact formed_islandStore h
    · split <;> exact h

theorem formed_retireKernel {s : State} {r n status reason : Nat} (h : s.memWf) : (s.retireKernel r n status reason).memWf :=
  formed_later (formed_event (formed_writeRecord (formed_updRegion (formed_updRegion (formed_foldl (fun _ _ h1 => formed_leaveKernel h1) h)))))

theorem formed_endKernel {s : State} {r n status : Nat} (h : s.memWf) : (s.endKernel r n status).memWf := by
  unfold State.endKernel
  split
  · exact formed_retireKernel h
  · exact h

theorem formed_stopTile {s : State} {r n t : Nat} (h : s.memWf) : (s.stopTile r n t).memWf := by
  unfold State.stopTile
  exact formed_updRegion (formed_setTile (formed_closeStreams h))

theorem formed_dissolve {s : State} (h : s.memWf) : s.dissolve.memWf := by
  unfold State.dissolve
  dsimp only
  split
  · exact formed_forwardWord h
  · exact h

theorem formed_execKexit {ra : BitVec 6} {wa : BitVec 1} {s : State} (h : s.memWf) : OutFormed (execKexit ra wa s) := by
  unfold execKexit
  dsimp only
  refine formed_issue (fun _ _ h1 => ?_) h
  split
  · exact .wait (fun _ h2 => h2)
  · split
    · exact .ok (formed_setTile (formed_closeStreams (formed_retire (formed_dissolve h1))))
    · split
      · exact .ok (formed_endKernel (formed_updRegion (formed_setTile (formed_closeStreams (formed_retire (formed_dissolve h1))))))
      · exact .ok (formed_updRegion (formed_setTile (formed_closeStreams (formed_retire (formed_dissolve h1)))))

theorem formed_claim {s : State} {r n : Nat} {im : Image} {x0 y0 : Nat} (h : s.memWf) : (s.claim r n im x0 y0).memWf :=
  formed_foldl (fun _ _ h1 => formed_updTile h1) h

theorem formed_placeAll {s : State} {r : Nat} {l : List Nat} (h : s.memWf) : OptFormed (s.placeAll r l) := by
  induction l generalizing s with
  | nil => exact .some h
  | cons n l ih =>
    unfold State.placeAll
    dsimp only
    split
    · exact ih (formed_updRegion h)
    · split
      · exact ih (formed_retireKernel h)
      · split
        · exact ih (formed_retireKernel h)
        · exact .none
        · exact ih (formed_claim h)

theorem formed_execPlacement {s : State} (h : s.memWf) : OutFormed (execPlacement s) := by
  unfold execPlacement
  dsimp only
  split
  · exact .next h
  · split
    · exact .next h
    · split
      · exact formed_notYet h
      · split
        · exact .next h
        · split
          · exact formed_notYet h
          · split
            · exact .next h
            · rename_i e1
              have h1 := OptFormed.of_some (formed_placeAll h) e1
              exact .next h1

theorem formed_copyIn {s : State} {r va t off n : Nat} (h : s.memWf) : (s.copyIn r va t off n).1.memWf := by
  induction n generalizing s va off with
  | zero => exact h
  | succ n ih =>
    unfold State.copyIn
    split
    · exact h
    · exact ih (formed_storeEcc (formed_spmWrite h))

theorem formed_loadTile {s : State} {r img : Nat} {im : Image} {i t : Nat} (h : s.memWf) : (s.loadTile r img im i t).1.memWf := by
  unfold State.loadTile
  split
  · exact h
  · dsimp only
    split
    · exact formed_copyIn h
    · exact formed_copyIn (formed_copyIn h)

theorem formed_loadKernel {s : State} {r n : Nat} (h : s.memWf) : (s.loadKernel r n).1.memWf := by
  unfold State.loadKernel
  dsimp only
  split
  · exact h
  · split
    · exact h
    · split
      · exact h
      · refine formed_foldl_fst (fun _ _ h1 => ?_) h
        split
        · exact formed_loadTile h1
        · exact h1

theorem formed_makeReady {s : State} {r tgo : Nat} {ns : List Nat} (h : s.memWf) : (s.makeReady r tgo ns).memWf := by
  unfold State.makeReady
  dsimp only
  refine formed_foldl (fun _ _ h1 => ?_) h
  split <;> exact h1

theorem formed_execLoadingDone {s : State} (h : s.memWf) : OutFormed (execLoadingDone s) := by
  unfold execLoadingDone
  dsimp only
  split
  · exact formed_notYet h
  · split
    · refine .next ?_
      refine formed_foldl (fun _ _ h1 => ?_) ?_
      · split
        · exact formed_retireKernel h1
        · exact h1
      · refine formed_foldl (fun _ _ h1 => ?_) h
        split
        · exact formed_loadKernel h1
        · exact formed_retireKernel h1
    · split
      · refine .next ?_
        refine formed_makeReady (formed_foldl (fun _ _ h1 => ?_) ?_)
        · split
          · exact formed_retireKernel h1
          · exact h1
        · refine formed_foldl (fun _ _ h1 => ?_) h
          split
          · exact formed_loadKernel h1
          · exact formed_retireKernel h1
      · split
        · refine .next ?_
          refine formed_foldl (fun _ _ h1 => formed_retireKernel (formed_updRegion h1)) (formed_foldl (fun _ _ h1 => ?_) ?_)
          · split
            · exact formed_retireKernel h1
            · exact h1
          · refine formed_foldl (fun _ _ h1 => ?_) h
            split
            · exact formed_loadKernel h1
            · exact formed_retireKernel h1
        · refine .next ?_
          refine formed_makeReady (formed_foldl (fun _ _ h1 => ?_) ?_)
          · split
            · exact formed_retireKernel h1
            · exact h1
          · refine formed_foldl (fun _ _ h1 => ?_) h
            split
            · exact formed_loadKernel h1
            · exact formed_retireKernel h1

theorem formed_startTile {s : State} {t n : Nat} {arg : Word} {p : Nat × FMap Word} {again : Bool} (h : s.memWf) :
    (s.startTile t n arg p again).memWf := h

theorem formed_startTiles {s : State} {r n : Nat} {go : Nat → Bool} (h : s.memWf) : (s.startTiles r n go).memWf := by
  unfold State.startTiles
  dsimp only
  split
  · exact h
  · exact formed_foldl (fun _ _ h1 => formed_startTile h1) h

theorem formed_execTimedStart {s : State} (h : s.memWf) : OutFormed (execTimedStart s) := by
  unfold execTimedStart
  dsimp only
  split
  · exact .next h
  · split
    · exact formed_notYet h
    · split
      · exact formed_notYet h
      · refine .next ?_
        split
        · exact formed_startTiles h
        · exact formed_later (formed_startTiles h)

theorem formed_execKernelKill {s : State} (h : s.memWf) : OutFormed (execKernelKill s) := by
  unfold execKernelKill
  dsimp only
  split
  · exact .next (formed_writeRecord h)
  · split
    · split
      · exact .next h
      · split
        · exact .next (formed_retireKernel h)
        · exact formed_notYet h
    · split
      · exact .next h
      · split
        · exact .next (formed_retireKernel h)
        · split
          · exact .next (formed_endKernel (formed_foldl (fun _ _ h1 => formed_stopTile h1) h))
          · exact .next h

theorem formed_execGangPrepare {s : State} (h : s.memWf) : OutFormed (execGangPrepare s) := by
  unfold execGangPrepare
  dsimp only
  split
  · exact .next h
  · split
    · exact .next (formed_later (formed_submit h))
    · exact .next (formed_submit h)

theorem formed_execGangAck {s : State} (h : s.memWf) : OutFormed (execGangAck s) := by
  unfold execGangAck
  dsimp only
  split <;> exact .next h

theorem formed_gangFault {s : State} {r n b : Nat} (h : s.memWf) : (s.gangFault r n b).memWf := by
  unfold State.gangFault
  dsimp only [State.memWf]
  exact formed_updRegion (formed_addCause (formed_event h))

theorem formed_execGangAbort {s : State} (h : s.memWf) : OutFormed (execGangAbort s) := by
  unfold execGangAbort
  dsimp only
  split
  · exact .next h
  · split
    · exact .next (formed_retireKernel h)
    · split
      · exact .next (formed_gangFault h)
      · exact .next h

theorem formed_execGangDeadline {s : State} (h : s.memWf) : OutFormed (execGangDeadline s) := by
  unfold execGangDeadline
  dsimp only
  split
  · exact .next h
  · split
    · exact formed_notYet h
    · exact .next (formed_retireKernel h)

theorem formed_execGangTimeout {s : State} (h : s.memWf) : OutFormed (execGangTimeout s) := by
  unfold execGangTimeout
  dsimp only
  split
  · exact .next h
  · split
    · rename_i e1 _
      have h1 := FetchedFormed.of_word (formed_fetch h) e1
      split
      · split
        · exact .next h
        · split
          · exact formed_notYet h
          · exact .next (formed_gangFault h)
      · exact .next h
    · exact formed_notYet h
    · exact .next h

theorem formed_execEventMessage {s : State} (h : s.memWf) : OutFormed (execEventMessage s) := by
  have henter (e : EventMsg) : ExceptFormed (match e.src with | some t => s.vc6Enter t (s.eventIsland e) | none => .ok s) := by
    split
    · exact formed_vc6Enter h
    · exact .ok h
  unfold execEventMessage
  split
  · exact .next h
  · dsimp only
    split
    · exact formed_notYet h
    · split
      · rename_i e1
        exact formed_notYet ((henter _).of_error e1)
      · rename_i e1
        have h1 := (henter _).of_ok e1
        exact .next (formed_eventWrite h1)

theorem formed_nameRing {s : State} {k base n size : Nat} (h : s.memWf) : (s.nameRing k base n size).memWf :=
  formed_setRing (formed_memWrite h)

theorem formed_execSevaddrWrite {s : State} (h : s.memWf) : OutFormed (execSevaddrWrite s) := by
  unfold execSevaddrWrite
  refine .next ?_
  split
  · exact formed_nameRing h
  · exact h

theorem formed_execRegisterWrite {s : State} (h : s.memWf) : OutFormed (execRegisterWrite s) := by
  unfold execRegisterWrite
  dsimp only
  repeat' split
  all_goals exact .next h

theorem formed_execIslandFailure {s : State} (h : s.memWf) : OutFormed (execIslandFailure s) := by
  unfold execIslandFailure
  dsimp only
  split
  · exact .next h
  · exact .next (formed_foldl (fun _ _ h1 => formed_event (formed_addCause1 (formed_updRegion h1))) h)

theorem formed_beginFrame {s : State} {f : Frame} (h : s.memWf) : (s.beginFrame f).memWf := by
  unfold State.beginFrame
  dsimp only
  split
  · split
    · split
      · exact formed_updCur (formed_goOn h)
      · exact formed_updCur (formed_retire h)
    · exact formed_retire h
  · exact formed_later (formed_updCur (formed_goOn h))

theorem formed_frameOp {i : Instr} {srcs : List (BitVec 6 × Bool)} {l st : BitVec 4} {f : Word → Option (Nat × BitVec 16)} {s0 : State}
    (h : s0.memWf) :
    OutFormed (frameOp i srcs l st f s0) := by
  unfold frameOp
  dsimp only
  refine formed_issue (fun _ _ h1 => ?_) h
  split
  · exact .fault
  · split
    · exact .fault
    · split
      · exact .ok (formed_beginFrame h)
      · exact .ok (formed_beginFrame h1)

theorem formed_fillBody {s : State} {t c : Nat} {f : Frame} {words : List (BitVec 32)} {n : Nat} (h : s.memWf) :
    FilledFormed (s.fillBody t c f words n) := by
  induction n generalizing s words with
  | zero => exact .pass h
  | succ n ih =>
    unfold State.fillBody
    dsimp only
    split
    · exact .fault
    · rename_i e1
      exact .wait ((formed_fetch h).of_wait e1)
    · rename_i e1
      have h1 := formed_countWord (t := t) (c := c) (a := f.base + BitVec.ofNat 64 (4 * words.length)) ((formed_fetch h).of_word e1)
      split
      · exact .fail h1
      · exact ih h1

theorem formed_fillPassed {s : State} {t c : Nat} {f : Frame} {words : List (BitVec 32)} (h : s.memWf) : (s.fillPassed t c f words).memWf := by
  unfold State.fillPassed
  refine formed_updCtx ?_
  split
  · split
    · refine formed_foldl (fun _ _ h1 => ?_) (formed_forward (formed_atSlot (formed_pop h)))
      repeat' split
      all_goals exact h1
    · exact formed_atSlot (formed_pop h)
  · split
    · refine formed_foldl (fun _ _ h1 => ?_) (formed_forward h)
      repeat' split
      all_goals exact h1
    · exact h

theorem formed_frameWord {s : State} {t c : Nat} {f : Frame} (h : s.memWf) : FetchedFormed (s.frameWord t c f) := by
  unfold State.frameWord
  split
  · exact .word h
  · split
    · exact .word h
    · exact formed_fetch h

theorem formed_execRepeaterFill {s : State} (h : s.memWf) : OutFormed (execRepeaterFill s) := by
  unfold execRepeaterFill
  dsimp only
  split
  · exact .next h
  · split
    · exact formed_notYet h
    · split
      · exact .next h
      · rename_i e1
        have h1 := FetchedFormed.of_wait (formed_frameWord h) e1
        exact formed_notYet h1
      · rename_i e1
        have h1 := FetchedFormed.of_word (formed_frameWord h) e1
        split
        · exact .next (formed_takeTrap h1)
        · split
          · rename_i e2
            have h2 := FilledFormed.of_pass (formed_fillBody h1) e2
            refine .next ?_
            split
            · exact formed_fillPassed h2
            · exact h2
          · rename_i e2
            have h2 := FilledFormed.of_wait (formed_fillBody h1) e2
            exact formed_notYet h2
          · rename_i e2
            have h2 := FilledFormed.of_fail (formed_fillBody h1) e2
            exact .next (formed_takeTrap h2)
          · exact .next (formed_takeTrap h1)

end Sys2Proof.Machine
end

section
/-! SUPPORT. The form of memory under saves, restores and metering. -/
namespace Sys2Proof.Machine

theorem formed_putSys {s : State} {a : Nat} {l : List (Nat × Nat)} (h : s.memWf) : (s.putSys a l).memWf := by
  induction l generalizing s a with
  | nil => exact h
  | cons p l ih => exact ih (formed_memWrite h)

theorem formed_dumpContexts {s : State} {t : Nat} (h : s.memWf) : (s.dumpContexts t).memWf :=
  formed_putFields h

theorem formed_saveTile {s : State} {t base : Nat} {spm : Bool} (h : s.memWf) : (s.saveTile t base spm).memWf := by
  unfold State.saveTile
  dsimp only [State.memWf]
  split
  · exact formed_foldl (fun _ _ h1 => formed_memWrite h1) (formed_foldl (fun _ _ h1 => formed_putSys h1) (formed_putSys h))
  · exact formed_foldl (fun _ _ h1 => formed_putSys h1) (formed_putSys h)

theorem formed_askRetained {s : State} {t : Nat} (h : s.memWf) : (s.askRetained t).memWf :=
  formed_foldl (fun _ _ h1 => formed_later h1) h

theorem formed_refill {s : State} {t : Nat} (h : s.memWf) : (s.refill t).memWf := by
  unfold State.refill
  refine formed_foldl (fun _ _ h1 => ?_) h
  split <;> exact h1

theorem formed_sendResponses {s : State} {t : Nat} (h : s.memWf) : (s.sendResponses t).memWf := by
  unfold State.sendResponses
  refine formed_foldl (fun _ _ h1 => ?_) h
  repeat' split
  all_goals exact h1

theorem formed_resumeTile {s : State} {t : Nat} (h : s.memWf) : (s.resumeTile t).memWf :=
  formed_sendResponses (formed_refill (formed_askRetained h))

theorem formed_dropSteps {s : State} {t : Nat} (h : s.memWf) : (s.dropSteps t).memWf := h

theorem formed_wakeEntry {s : State} {t : Nat} {e : Ret} (h : s.memWf) : (s.wakeEntry t e).memWf := by
  unfold State.wakeEntry
  split
  · split <;> exact h
  · dsimp only
    exact h
  · split <;> exact h
  · exact formed_foldl (fun _ _ h1 => formed_later h1) h
  · exact h
  · exact h

theorem formed_wakeTile {s : State} {t : Nat} (h : s.memWf) : (s.wakeTile t).memWf := by
  unfold State.wakeTile
  dsimp only
  split
  · split
    · refine formed_foldl (fun _ _ h1 => ?_) ?_
      · split <;> exact h1
      · refine formed_foldl (fun _ _ h1 => ?_) (formed_foldl (fun _ _ h1 => formed_later h1) (formed_foldl (fun _ _ h1 => formed_later h1)
          (formed_foldl (fun _ _ h1 => formed_wakeEntry h1) (formed_wakeUnit h))))
        split
        · exact h1
        · split
          · exact h1
          · exact formed_xferSettled h1
    · refine formed_later (formed_foldl (fun _ _ h1 => ?_) ?_)
      · split <;> exact h1
      · refine formed_foldl (fun _ _ h1 => ?_) (formed_foldl (fun _ _ h1 => formed_later h1) (formed_foldl (fun _ _ h1 => formed_later h1)
          (formed_foldl (fun _ _ h1 => formed_wakeEntry h1) (formed_wakeUnit h))))
        split
        · exact h1
        · split
          · exact h1
          · exact formed_xferSettled h1
  · split
    · split
      · refine formed_later ?_
        split
        · refine formed_foldl (fun _ _ h1 => ?_) ?_
          · split <;> exact h1
          · refine formed_foldl (fun _ _ h1 => ?_) (formed_foldl (fun _ _ h1 => formed_later h1) (formed_foldl (fun _ _ h1 => formed_later h1)
              (formed_foldl (fun _ _ h1 => formed_wakeEntry h1) (formed_wakeUnit h))))
            split
            · exact h1
            · split
              · exact h1
              · exact formed_xferSettled h1
        · refine formed_later (formed_foldl (fun _ _ h1 => ?_) ?_)
          · split <;> exact h1
          · refine formed_foldl (fun _ _ h1 => ?_) (formed_foldl (fun _ _ h1 => formed_later h1) (formed_foldl (fun _ _ h1 => formed_later h1)
              (formed_foldl (fun _ _ h1 => formed_wakeEntry h1) (formed_wakeUnit h))))
            split
            · exact h1
            · split
              · exact h1
              · exact formed_xferSettled h1
      · split
        · refine formed_foldl (fun _ _ h1 => ?_) ?_
          · split <;> exact h1
          · refine formed_foldl (fun _ _ h1 => ?_) (formed_foldl (fun _ _ h1 => formed_later h1) (formed_foldl (fun _ _ h1 => formed_later h1)
              (formed_foldl (fun _ _ h1 => formed_wakeEntry h1) (formed_wakeUnit h))))
            split
            · exact h1
            · split
              · exact h1
              · exact formed_xferSettled h1
        · refine formed_later (formed_foldl (fun _ _ h1 => ?_) ?_)
          · split <;> exact h1
          · refine formed_foldl (fun _ _ h1 => ?_) (formed_foldl (fun _ _ h1 => formed_later h1) (formed_foldl (fun _ _ h1 => formed_later h1)
              (formed_foldl (fun _ _ h1 => formed_wakeEntry h1) (formed_wakeUnit h))))
            split
            · exact h1
            · split
              · exact h1
              · exact formed_xferSettled h1
    · refine formed_foldl (fun _ _ h1 => ?_) ?_
      · repeat' split
        all_goals exact h1
      · refine formed_later ?_
        split
        · refine formed_foldl (fun _ _ h1 => ?_) ?_
          · split <;> exact h1
          · refine formed_foldl (fun _ _ h1 => ?_) (formed_foldl (fun _ _ h1 => formed_later h1) (formed_foldl (fun _ _ h1 => formed_later h1)
              (formed_foldl (fun _ _ h1 => formed_wakeEntry h1) (formed_wakeUnit h))))
            split
            · exact h1
            · split
              · exact h1
              · exact formed_xferSettled h1
        · refine formed_later (formed_foldl (fun _ _ h1 => ?_) ?_)
          · split <;> exact h1
          · refine formed_foldl (fun _ _ h1 => ?_) (formed_foldl (fun _ _ h1 => formed_later h1) (formed_foldl (fun _ _ h1 => formed_later h1)
              (formed_foldl (fun _ _ h1 => formed_wakeEntry h1) (formed_wakeUnit h))))
            split
            · exact h1
            · split
              · exact h1
              · exact formed_xferSettled h1

theorem formed_loadImage {s : State} {t base : Nat} (h : s.memWf) : (s.loadImage t base).memWf := by
  unfold State.loadImage
  dsimp only
  split
  · exact formed_foldl (fun _ _ h1 => formed_spmPut h1) (formed_wakeTile h)
  · split
    · exact formed_updTile (formed_foldl (fun _ _ h1 => formed_spmPut h1) (formed_wakeTile h))
    · exact formed_resumeTile (formed_foldl (fun _ _ h1 => formed_spmPut h1) (formed_wakeTile h))

theorem formed_noteRestored {s : State} {t : Nat} (h : s.memWf) : (s.noteRestored t).memWf := by
  unfold State.noteRestored
  dsimp only
  refine formed_foldl (fun _ _ h1 => ?_) h
  split
  · exact h1
  · split
    · exact h1
    · split
      · exact h1
      · exact formed_foldl (fun _ _ h2 => formed_resumeTile h2) h1

theorem formed_dropSaved {s : State} {t : Nat} (h : s.memWf) : (s.dropSaved t).memWf := h

theorem formed_restoreFault {s : State} {t base c : Nat} (h : s.memWf) : (s.restoreFault t base c).memWf :=
  formed_tileEvent h

theorem formed_execRestore {s : State} (h : s.memWf) : OutFormed (execRestore s) := by
  unfold execRestore
  dsimp only
  split
  · exact .next (formed_restoreFault h)
  · exact .next (formed_dropSaved (formed_noteRestored (formed_loadImage h)))

theorem formed_reportTile {s : State} {t : Nat} (h : s.memWf) : (s.reportTile t).memWf := by
  unfold State.reportTile
  dsimp only
  split <;> exact h

theorem formed_writeHeld {s : State} {l : List Nat} (h : s.memWf) : (s.writeHeld l).memWf := by
  induction l generalizing s with
  | nil => exact h
  | cons r l ih =>
    unfold State.writeHeld
    split
    · exact h
    · split
      · exact ih h
      · exact ih (formed_ringWrite h)

theorem formed_flushUsage {s : State} (h : s.memWf) : s.flushUsage.memWf :=
  formed_writeHeld h

theorem formed_holdRecord {s : State} {r : Nat} (h : s.memWf) : (s.holdRecord r).memWf := h

theorem formed_execUsageRecord {s : State} (h : s.memWf) : OutFormed (execUsageRecord s) := by
  unfold execUsageRecord
  dsimp only
  split
  · exact .next (formed_flushUsage (formed_holdRecord (formed_setRegion h)))
  · split
    · exact .next h
    · split
      · exact formed_notYet h
      · refine .next ?_
        refine formed_later (formed_flushUsage ?_)
        split
        · exact formed_setRegion h
        · exact formed_holdRecord (formed_setRegion h)

theorem formed_execRingRidxWrite {s : State} (h : s.memWf) : OutFormed (execRingRidxWrite s) := by
  unfold execRingRidxWrite
  dsimp only
  split
  · exact .next h
  · split
    · exact .next (formed_setRing (formed_memWrite h))
    · refine .next ?_
      split
      · exact formed_flushUsage (formed_setRing (formed_memWrite h))
      · exact formed_setRing (formed_memWrite h)

end Sys2Proof.Machine
end

section
/-! SUPPORT. The form of memory under the events of sites, hacks, resumes, evacuation and inspection. -/
namespace Sys2Proof.Machine

theorem formed_scrub {s : State} {t : Nat} (h : s.memWf) : (s.scrub t).memWf := Memory.clear_wf _ _ h

/-- Outside the rows that the repair table moves the monitor is one image; each moved row is written where it stands (R417, R424). -/
theorem formed_loadMonitor {s : State} {t : Nat} (h : s.memWf) : (s.loadMonitor t).memWf := by
  unfold State.loadMonitor
  refine formed_foldl (fun _ _ h1 => ?_) (Memory.fill_wf _ _ _ h)
  dsimp only
  split
  · exact h1
  · exact Memory.fill_wf _ _ _ h1

theorem formed_writeHopTable {s : State} {r : Nat} (h : s.memWf) : (s.writeHopTable r).memWf := by
  unfold State.writeHopTable
  refine formed_foldl (fun _ _ h1 => ?_) h
  split
  · exact formed_islandStore h1
  · exact h1

theorem formed_reloadRegion {s : State} {r : Nat} (h : s.memWf) : (s.reloadRegion r).memWf :=
  formed_writeHopTable (formed_foldl (fun _ _ h1 => formed_loadNbr h1) h)

theorem formed_loseEntry {s : State} {u lost : Nat} {e : Ret} (h : s.memWf) : (s.loseEntry u lost e).2.memWf := by
  unfold State.loseEntry
  split
  · split
    · dsimp only
      split
      · exact formed_streamSettled h
      · exact h
    · exact h
  · split
    · exact h
    · split
      · dsimp only
        exact formed_xferFail h
      · dsimp only
        exact formed_xferFail h
      · dsimp only
        exact formed_deliver h
      · dsimp only
        exact formed_deliver h
      · dsimp only
        exact h

theorem formed_loseAt {s : State} {lost u : Nat} (h : s.memWf) : (s.loseAt lost u).2.memWf := by
  unfold State.loseAt
  refine formed_foldl_snd (fun _ _ h1 => ?_) h
  exact formed_loseEntry h1

theorem formed_loseStreams {s : State} {u col row : Nat} (h : s.memWf) : (s.loseStreams u col row).memWf := by
  unfold State.loseStreams
  dsimp only
  refine formed_foldl (fun _ _ h1 => ?_) h
  split
  · exact formed_failLine h1
  · exact h1

theorem formed_loseTile {s : State} {r t : Nat} (h : s.memWf) : (s.loseTile r t).memWf := by
  unfold State.loseTile
  dsimp only
  refine formed_event (formed_foldl_snd_snd (fun _ _ h1 => ?_) (formed_setRegion h))
  dsimp only
  exact formed_loseStreams (formed_loseAt h1)

theorem formed_tileLost {s : State} {t : Nat} {dead : Bool} (h : s.memWf) : (s.tileLost t dead).memWf := by
  unfold State.tileLost
  dsimp only
  split
  · exact formed_setTile (formed_setTile (formed_reportTile h))
  · split
    · exact formed_addCause (formed_updRegion (formed_setTile (formed_reportTile h)))
    · exact formed_loseTile (formed_addCause (formed_updRegion (formed_setTile (formed_reportTile h))))

theorem formed_execTileReset {s : State} (h : s.memWf) : OutFormed (execTileReset s) := by
  unfold execTileReset
  dsimp only
  split
  · exact .next h
  · exact .next (formed_loadMonitor (formed_tileLost h))

theorem formed_die {s : State} {t : Nat} (h : s.memWf) : (s.die t).memWf := by
  unfold State.die
  split
  · exact h
  · exact formed_tileLost h

theorem formed_execTileHeartbeat {s : State} (h : s.memWf) : OutFormed (execTileHeartbeat s) := by
  unfold execTileHeartbeat
  split
  · exact .next h
  · refine .next ?_
    split
    · exact formed_die h
    · exact h

theorem formed_execSiteFence {s : State} (h : s.memWf) : OutFormed (execSiteFence s) := by
  unfold execSiteFence
  dsimp only
  split
  · exact .next h
  · exact .next h
  · exact .next h
  · split
    · exact .next (formed_tileLost h)
    · exact .next (formed_setTile (formed_reportTile h))
  · exact .next h

theorem formed_gradeSite {s : State} {t : Nat} (h : s.memWf) : (s.gradeSite t).memWf := h

theorem formed_execServiceRetest {s : State} (h : s.memWf) : OutFormed (execServiceRetest s) := by
  unfold execServiceRetest
  dsimp only
  split <;> exact .next h

theorem formed_retarget {s : State} {a b : Nat} (h : s.memWf) : (s.retarget a b).memWf := h

theorem formed_shareKey {s : State} {r t : Nat} (h : s.memWf) : (s.shareKey r t).memWf := by
  unfold State.shareKey
  dsimp only
  split <;> exact h

theorem formed_execRehomeWrite {s : State} (h : s.memWf) : OutFormed (execRehomeWrite s) := by
  unfold execRehomeWrite
  dsimp only
  split
  · exact .next h
  · split
    · split
      · exact .next (formed_setRegion h)
      · split
        · exact .next h
        · exact .next (formed_reloadRegion (formed_setRegion h))
    · split
      · exact .next h
      · refine .next ?_
        refine formed_later (formed_reloadRegion (formed_shareKey ?_))
        split
        · split
          · split
            · exact formed_updRegion (formed_loadMonitor (formed_scrub (formed_setTile (formed_setSite (formed_setRegion h)))))
            · exact formed_loadMonitor (formed_scrub (formed_setTile (formed_setSite (formed_setRegion h))))
          · split
            · split
              · exact formed_setTile (formed_reportTile (formed_updTile (formed_dropSteps (formed_retarget (formed_updRegion (formed_loadMonitor
                  (formed_scrub (formed_setTile (formed_setSite (formed_setRegion h))))))))))
              · exact formed_updTile (formed_dropSteps (formed_retarget (formed_updRegion (formed_loadMonitor (formed_scrub (formed_setTile
                  (formed_setSite (formed_setRegion h))))))))
            · split
              · exact formed_setTile (formed_reportTile (formed_updTile (formed_dropSteps (formed_retarget (formed_loadMonitor (formed_scrub
                  (formed_setTile (formed_setSite (formed_setRegion h)))))))))
              · exact formed_updTile (formed_dropSteps (formed_retarget (formed_loadMonitor (formed_scrub (formed_setTile (formed_setSite
                  (formed_setRegion h)))))))
        · split
          · exact formed_updRegion (formed_loadMonitor (formed_scrub (formed_setTile (formed_setSite (formed_setRegion h)))))
          · exact formed_loadMonitor (formed_scrub (formed_setTile (formed_setSite (formed_setRegion h))))

theorem formed_beginRelease {s : State} {t to_ : Nat} (h : s.memWf) : (s.beginRelease t to_).memWf :=
  formed_later (formed_scrub (formed_setTile (formed_reportTile h)))

theorem formed_dropRegion {s : State} {r : Nat} (h : s.memWf) : (s.dropRegion r).memWf := h

theorem formed_adoptRoots {s : State} {r : Nat} (h : s.memWf) : (s.adoptRoots r).memWf := by
  unfold State.adoptRoots
  dsimp only
  split <;> exact h

theorem formed_loadAround {s : State} {t : Nat} (h : s.memWf) : (s.loadAround t).memWf :=
  formed_foldl (fun _ _ h1 => formed_loadNbr h1) h

theorem formed_execTileRelease {s : State} (h : s.memWf) : OutFormed (execTileRelease s) := by
  unfold execTileRelease
  extract_lets t x r s1 src y src'
  have h1 : s1.memWf := formed_reportTile h
  split
  · exact .next h
  · split
    · exact formed_notYet h
    · extract_lets z s2 s3 s4 left
      have h2 : s2.memWf := by
        unfold s2
        split
        · exact formed_loadNbr (formed_setTile h1)
        · split
          · exact formed_setSite (formed_setTile h1)
          · exact formed_loadAround (formed_setTile h1)
      have h3 : s3.memWf := by
        unfold s3
        split <;> exact h2
      have h4 : s4.memWf := by
        unfold s4
        split <;> exact h3
      split
      · exact .next h4
      · split
        · exact .next (formed_later (formed_updRegion (formed_dropRegion h4)))
        · split <;> exact .next h4

theorem formed_hackTile {s : State} {t : Nat} (h : s.memWf) : (s.hackTile t).memWf := by
  unfold State.hackTile
  split <;> exact h

theorem formed_settleTile {s : State} {t : Nat} (h : s.memWf) : (s.settleTile t).memWf := by
  unfold State.settleTile
  refine formed_foldl (fun _ _ h1 => ?_) h
  split <;> exact h1

theorem formed_saveGang {s : State} {r : Nat} {ts : List Nat} (h : s.memWf) : (s.saveGang r ts).memWf := by
  unfold State.saveGang
  split
  · exact formed_foldl (fun _ _ h1 => formed_saveTile h1) h
  · exact h

theorem formed_execHackBroadcast {s : State} (h : s.memWf) : OutFormed (execHackBroadcast s) := by
  unfold execHackBroadcast
  dsimp only
  split
  · exact .next h
  · split
    · exact .next h
    · split
      · exact formed_notYet h
      · split
        · exact formed_notYet (formed_foldl (fun _ _ h1 => formed_hackTile h1) h)
        · exact .next (formed_updRegion (formed_adoptRoots (formed_saveGang (formed_foldl (fun _ _ h1 => formed_dumpContexts h1) (formed_foldl
            (fun _ _ h1 => formed_settleTile h1) (formed_foldl (fun _ _ h1 => formed_loseTile h1) (formed_foldl
              (fun _ _ h1 => formed_hackTile h1) h)))))))

theorem formed_loadInspected {s : State} {t : Nat} (h : s.memWf) : (s.loadInspected t).memWf := by
  unfold State.loadInspected
  dsimp only
  split
  · exact formed_loadImage h
  · exact formed_restoreFault h

theorem formed_restartTile {s : State} {r n i : Nat} (h : s.memWf) : (s.restartTile r n i).memWf := by
  unfold State.restartTile
  dsimp only
  split
  · split
    · refine formed_startTile (formed_updRegion ?_)
      split
      · exact formed_loadTile h
      · exact h
    · split
      · exact formed_loadTile h
      · exact h
  · exact h

theorem formed_restartKernels {s : State} {r tr : Nat} (h : s.memWf) : (s.restartKernels r tr).memWf := by
  unfold State.restartKernels
  dsimp only
  refine formed_foldl (fun _ _ h1 => ?_) h
  split
  · refine formed_startTiles ?_
    split
    · exact formed_foldl (fun _ _ h2 => formed_restartTile h2) h1
    · exact h1
  · split
    · exact formed_foldl (fun _ _ h2 => formed_restartTile h2) h1
    · exact h1

theorem formed_execResumeTick {s : State} (h : s.memWf) : OutFormed (execResumeTick s) := by
  unfold execResumeTick
  dsimp only
  split
  · exact .next h
  · split
    · exact .next h
    · split
      · exact formed_notYet h
      · exact .next (formed_event (formed_restartKernels (formed_updRegion (formed_foldl (fun _ _ h1 => formed_resumeTile h1) (formed_foldl
          (fun _ _ h1 => formed_loadInspected h1) h)))))

theorem formed_emptyTile {s : State} {t : Nat} (h : s.memWf) : (s.emptyTile t).memWf := by
  unfold State.emptyTile
  dsimp only
  split <;> exact h

theorem formed_evacuate {s : State} {t base : Nat} (h : s.memWf) : (s.evacuate t base).memWf :=
  formed_emptyTile (formed_saveTile h)

theorem formed_execEvacuation {s : State} (h : s.memWf) : OutFormed (execEvacuation s) := by
  unfold execEvacuation
  dsimp only
  split
  · exact .next h
  · split
    · exact .next (formed_evacuate h)
    · split
      · exact .next h
      · exact .next (formed_updRegion (formed_foldl (fun _ _ h1 => formed_emptyTile h1) (formed_foldl (fun _ _ h1 => formed_saveTile h1) h)))

theorem formed_execInspectionRequest {s : State} (h : s.memWf) : OutFormed (execInspectionRequest s) := by
  unfold execInspectionRequest
  dsimp only
  split
  · exact .next h
  · split
    · exact .next h
    · exact .next (formed_later (formed_addCause1 h))

theorem formed_execInspectionReady {s : State} (h : s.memWf) : OutFormed (execInspectionReady s) := by
  unfold execInspectionReady
  dsimp only
  split
  · exact .next h
  · split
    · exact formed_notYet h
    · exact .next (formed_event (formed_updRegion (formed_foldl (fun _ _ h1 => formed_saveTile h1) h)))

end Sys2Proof.Machine
end

section
/-! SUPPORT. The form of memory under the command rings, the commands of regions and the regulator. -/
namespace Sys2Proof.Machine

theorem formed_respond {s : State} {k : Nat} {e : Cmd} {st : Status} {word : Nat} (h : s.memWf) : (s.respond k e st word).memWf :=
  formed_setCmdRing (formed_memWrite (formed_memWrite h))

theorem formed_haltRing {s : State} {k : Nat} (h : s.memWf) : (s.haltRing k).memWf := by
  unfold State.haltRing
  refine formed_setCmdRing ?_
  dsimp only [State.memWf]
  exact formed_memWrite (formed_memWrite h)

theorem formed_takeTurn {s : State} {k : Nat} (h : s.memWf) : (s.takeTurn k).memWf := h

theorem formed_serve {s : State} {k code : Nat} {run : Cmd → State → Ran} (hrun : ∀ e t, t.memWf → RanFormed (run e t)) (h : s.memWf) :
    OutFormed (s.serve k code run) := by
  unfold State.serve
  dsimp only
  have h1 : (s.takeTurn k).memWf := formed_takeTurn h
  split
  · exact .next h
  · rename_i e _
    split
    · exact .next h
    · split
      · exact formed_notYet h
      · split
        · split
          · exact .next (formed_respond h1)
          · have hr := hrun e _ (formed_setCmdRing (k := k) (x := { s.cmdRing k with acc := e.seq }) h1)
            split
            · rename_i e1
              have h2 := hr.of_done e1
              refine .next ?_
              split <;> exact formed_respond h2
            · rename_i e1
              exact .next (formed_setCmdRing (hr.of_later e1))
        · exact .next (formed_respond (formed_haltRing h1))
        · exact .next (formed_respond h1)

theorem formed_drawKey {s : State} (h : s.memWf) : (s.drawKey).2.memWf := h

theorem formed_interruptRing {s : State} {k done : Nat} (h : s.memWf) : (s.interruptRing k done).memWf := by
  unfold State.interruptRing
  split
  · split
    · exact formed_respond h
    · exact h
  · exact h

theorem formed_extend {s : State} {i len v : Nat} (h : s.memWf) : (s.extend i len v).memWf := h

theorem formed_execRekey {s : State} (h : s.memWf) : OutFormed (execRekey s) := by
  unfold execRekey
  dsimp only
  refine formed_serve (fun _ _ h1 => ?_) h
  repeat' split
  all_goals exact .done h1

theorem formed_execResync {s : State} (h : s.memWf) : OutFormed (execResync s) := by
  unfold execResync
  dsimp only
  refine formed_serve (fun _ _ h1 => ?_) h
  split
  · exact .done h1
  · exact .done (formed_setCmdRing (formed_memWrite h1))

theorem formed_loadGateKeys {s : State} {n : Nat} (h : s.memWf) : (s.loadGateKeys n).memWf := by
  unfold State.loadGateKeys
  dsimp only
  split
  · exact h
  · exact formed_foldl (fun _ _ h1 => formed_setIsland h1) (formed_foldl (fun _ _ h1 => formed_setPort h1) (formed_foldl
      (fun _ _ h1 => formed_setCluster h1) h))

theorem formed_stateEvent {s : State} {r code : Nat} {st : Status} (h : s.memWf) : (s.stateEvent r code st).memWf :=
  formed_event h

theorem formed_noteRcb {s : State} {r : Nat} {x : Region} (h : s.memWf) : (s.noteRcb r x).memWf := by
  unfold State.noteRcb
  dsimp only
  split
  · exact formed_adoptRoots h
  · exact h

theorem formed_execHackRegion {s : State} (h : s.memWf) : OutFormed (execHackRegion s) := by
  unfold execHackRegion
  dsimp only
  refine formed_serve (fun _ _ h1 => ?_) h
  split
  · exact .done h1
  · split
    · exact .done h1
    · exact .done (formed_addCause1 h1)

theorem formed_execResumeRegion {s : State} (h : s.memWf) : OutFormed (execResumeRegion s) := by
  unfold execResumeRegion
  dsimp only
  refine formed_serve (fun _ _ h1 => ?_) h
  split
  · exact .done h1
  · split
    · exact .done h1
    · exact .done (formed_foldl (fun _ _ h2 => formed_removeCause h2) h1)

theorem formed_claimTiles {s : State} {r : Nat} {l : List (Nat × Nat × Nat)} (h : s.memWf) : (s.claimTiles r l).memWf := by
  unfold State.claimTiles
  dsimp only
  refine formed_foldl (fun _ _ h1 => ?_) h
  split
  · exact formed_beginRelease h1
  · exact formed_scrub h1

theorem formed_nameRings {s : State} {r : Nat} (h : s.memWf) : (s.nameRings r).memWf :=
  formed_nameRing (formed_nameRing (formed_nameRing h))

theorem formed_copyTables {s : State} {src dst n : Nat} (h : s.memWf) : (s.copyTables src dst n).memWf := by
  induction n generalizing s src dst with
  | zero => exact h
  | succ n ih => exact ih (formed_memStore h)

theorem formed_abandon {s : State} {r : Nat} {st : Status} (h : s.memWf) : (s.abandon r st).memWf := by
  unfold State.abandon
  dsimp only
  split
  · refine formed_later (formed_updRegion (formed_foldl (fun _ _ h1 => formed_beginRelease h1) ?_))
    split
    · refine formed_setCmdRing ?_
      dsimp only [State.memWf]
      exact formed_stateEvent h
    · dsimp only [State.memWf]
      exact formed_stateEvent h
  · refine formed_foldl (fun _ _ h1 => formed_beginRelease h1) ?_
    split
    · refine formed_setCmdRing ?_
      dsimp only [State.memWf]
      exact formed_stateEvent h
    · dsimp only [State.memWf]
      exact formed_stateEvent h

theorem formed_gateKeyStep {s : State} {k r : Nat} (h : s.memWf) : (s.gateKeyStep k r).memWf := by
  unfold State.gateKeyStep
  dsimp only
  split
  · exact formed_later h
  · split
    · rename_i e1
      have h1 := memWf_of_snd (formed_drawKey h) e1
      exact formed_later h1
    · rename_i e1
      have h1 := memWf_of_snd (formed_drawKey h) e1
      exact formed_later h1

theorem formed_execCreateRegion {s : State} (h : s.memWf) : OutFormed (execCreateRegion s) := by
  unfold execCreateRegion
  dsimp only
  refine formed_serve (fun _ _ h1 => ?_) h
  split
  · split
    · exact .done h1
    · split
      · exact .done h1
      · split
        · exact .done h1
        · exact .later (formed_gateKeyStep (formed_setCmdRing (formed_setCmdRing (formed_memWrite (formed_claimTiles (formed_stateEvent
            (formed_nameRings h1)))))))
  · split
    · exact .done h1
    · split
      · exact .done h1
      · split
        · exact .done h1
        · exact .later (formed_gateKeyStep (formed_setCmdRing (formed_claimTiles (formed_stateEvent (formed_nameRings h1)))))

theorem formed_answerCreate {s : State} {r : Nat} {st : Status} (h : s.memWf) : (s.answerCreate r st).memWf := by
  unfold State.answerCreate
  split
  · split
    · exact formed_respond h
    · exact h
  · exact h

theorem formed_execRegionCreated {s : State} (h : s.memWf) : OutFormed (execRegionCreated s) := by
  unfold execRegionCreated
  dsimp only
  split
  · exact .next h
  · split
    · exact formed_notYet h
    · refine .next ?_
      split
      · exact formed_addCause1 (formed_later (formed_answerCreate (formed_stateEvent (formed_updRegion (formed_foldl
          (fun _ _ h1 => formed_updTile h1) (formed_reloadRegion (formed_copyTables (formed_extend (formed_foldl
            (fun _ _ h1 => formed_loadMonitor h1) (formed_loadGateKeys h))))))))))
      · exact formed_later (formed_answerCreate (formed_stateEvent (formed_updRegion (formed_foldl (fun _ _ h1 => formed_updTile h1)
          (formed_reloadRegion (formed_copyTables (formed_extend (formed_foldl (fun _ _ h1 => formed_loadMonitor h1) (formed_loadGateKeys h)))))))))

theorem formed_killAll {s : State} {r : Nat} (h : s.memWf) : (s.killAll r).memWf := by
  unfold State.killAll
  dsimp only
  refine formed_foldl (fun _ _ h1 => ?_) h
  split
  · exact formed_retireKernel h1
  · exact h1

theorem formed_endMove {s : State} {r : Nat} (h : s.memWf) : (s.endMove r).memWf := by
  unfold State.endMove
  refine formed_foldl (fun _ _ h1 => formed_removeCause (formed_updRegion h1)) ?_
  split
  · exact h
  · exact formed_removeCause h

theorem formed_execDestroyRegion {s : State} (h : s.memWf) : OutFormed (execDestroyRegion s) := by
  unfold execDestroyRegion
  dsimp only
  refine formed_serve (fun _ _ h1 => ?_) h
  split
  · exact .done h1
  · split
    · exact .done h1
    · exact .done (formed_dropRegion (formed_abandon (formed_endMove (formed_killAll (formed_noteRcb h1)))))

theorem formed_execRegionReset {s : State} (h : s.memWf) : OutFormed (execRegionReset s) := by
  unfold execRegionReset
  dsimp only
  refine formed_serve (fun _ _ h1 => ?_) h
  split
  · exact .done h1
  · split
    · exact .done h1
    · refine .done ?_
      split
      · exact formed_later (formed_foldl (fun _ _ h2 => formed_beginRelease h2) (formed_adoptRoots (formed_stateEvent (formed_updRegion
          (formed_foldl (fun _ _ h2 => formed_loseTile h2) (formed_endMove (formed_killAll (formed_noteRcb h1))))))))
      · exact formed_foldl (fun _ _ h2 => formed_beginRelease h2) (formed_adoptRoots (formed_stateEvent (formed_updRegion (formed_foldl
          (fun _ _ h2 => formed_loseTile h2) (formed_endMove (formed_killAll (formed_noteRcb h1)))))))

theorem formed_execRegionResetDone {s : State} (h : s.memWf) : OutFormed (execRegionResetDone s) := by
  unfold execRegionResetDone
  dsimp only
  split
  · exact .next h
  · split
    · exact formed_notYet h
    · exact .next (formed_stateEvent (formed_reloadRegion (formed_updRegion (formed_foldl (fun _ _ h1 => formed_loadMonitor (formed_updTile h1)) h))))

theorem formed_execShareRegion {s : State} (h : s.memWf) : OutFormed (execShareRegion s) := by
  unfold execShareRegion
  refine formed_serve (fun _ _ h1 => ?_) h
  split
  · exact .done h1
  · split
    · exact .done h1
    · split
      · exact .done h1
      · exact .done (formed_updRegion (formed_noteRcb h1))

theorem formed_applyShare {s : State} {r : Nat} (h : s.memWf) : (s.applyShare r).memWf := h

theorem formed_applyShares {s : State} (h : s.memWf) : s.applyShares.memWf :=
  formed_foldl (fun _ _ h1 => formed_foldl (fun _ _ h2 => formed_applyShare h2) h1) h

theorem formed_dealAll {s : State} (h : s.memWf) : s.dealAll.memWf := by
  unfold State.dealAll
  refine formed_foldl (fun _ _ h1 => ?_) h
  split
  · exact formed_foldl (fun _ _ h2 => formed_setPort h2) h1
  · exact h1

theorem formed_beginMove {s : State} {a n side : Nat} {l : List Nat} (h : s.memWf) : (s.beginMove a n side l).memWf := by
  unfold State.beginMove
  refine formed_later ?_
  split
  · exact formed_addCause1 h
  · exact formed_addCause1 (formed_addCause1 h)

theorem formed_execMoveBorder {s : State} (h : s.memWf) : OutFormed (execMoveBorder s) := by
  unfold execMoveBorder
  dsimp only
  refine formed_serve (fun _ _ h1 => ?_) h
  split
  · exact .done h1
  · split
    · exact .done h1
    · split
      · exact .done (formed_noteRcb h1)
      · exact .done (formed_beginMove (formed_noteRcb h1))

theorem formed_reshape {s : State} {r : Nat} {y : Region} (h : s.memWf) : (s.reshape r y).memWf :=
  formed_loadGateKeys (formed_foldl (fun _ _ h1 => formed_updTile h1) h)

theorem formed_execBorderMoveDone {s : State} (h : s.memWf) : OutFormed (execBorderMoveDone s) := by
  unfold execBorderMoveDone
  dsimp only
  split
  · exact .next h
  · split
    · exact formed_notYet h
    · split
      · exact .next (formed_later (formed_foldl (fun _ _ h1 => formed_scrub h1) h))
      · split
        · exact formed_notYet h
        · refine .next ?_
          split
          · exact formed_later (formed_removeCause (formed_reloadRegion (formed_updRegion (formed_foldl (fun _ _ h1 => formed_loadMonitor
              (formed_updTile (formed_setSite h1))) (formed_reshape (formed_foldl (fun _ _ h1 => formed_updTile (formed_reportTile h1)) h))))))
          · exact formed_later (formed_removeCause (formed_later (formed_removeCause (formed_reloadRegion (formed_reloadRegion (formed_updRegion
              (formed_foldl (fun _ _ h1 => formed_loadMonitor (formed_updTile (formed_setSite h1))) (formed_reshape (formed_reshape (formed_foldl
                (fun _ _ h1 => formed_updTile (formed_reportTile h1)) h))))))))))

theorem formed_tryMoves {s : State} {a : Nat} {l : List Nat} (h : s.memWf) : OptFormed (s.tryMoves a l) := by
  induction l with
  | nil => exact .none
  | cons n l ih =>
    unfold State.tryMoves
    dsimp only
    split
    · split
      · split
        · exact ih
        · exact .some (formed_beginMove h)
      · split
        · exact ih
        · exact .some (formed_beginMove h)
    · exact ih

theorem formed_mapRegions {s : State} {f : Region → Region} (h : s.memWf) : (s.mapRegions f).memWf := h

theorem formed_execRegulatorPeriod {s : State} (h : s.memWf) : OutFormed (execRegulatorPeriod s) := by
  unfold execRegulatorPeriod
  dsimp only
  split
  · exact formed_notYet h
  · exact .next (formed_later (formed_mapRegions (formed_foldl (fun _ _ h1 => formed_getD (formed_tryMoves h1) h1) (formed_mapRegions
      (formed_dealAll (formed_applyShares (formed_foldl (fun _ _ h1 => formed_reportTile h1) h)))))))

end Sys2Proof.Machine
end

section
/-! SUPPORT. The form of memory under keys, late launch, attestation, chronometers and modifier pairs. -/
namespace Sys2Proof.Machine

theorem formed_bindKey {s : State} {kid r : Nat} {key : BitVec 512} (h : s.memWf) : (s.bindKey kid r key).memWf := h

theorem formed_makeKey {s : State} {k : Nat} {e : Cmd} (h : s.memWf) : RanFormed (s.makeKey k e) := by
  unfold State.makeKey
  split
  · rename_i e1
    have h1 := memWf_of_snd (formed_drawKey h) e1
    exact .done h1
  · rename_i e1
    have h1 := memWf_of_snd (formed_drawKey h) e1
    exact .later h1

theorem formed_execKeynew {s : State} (h : s.memWf) : OutFormed (execKeynew s) := by
  unfold execKeynew
  refine formed_serve (fun _ _ h1 => ?_) h
  split
  · exact .done h1
  · exact formed_makeKey h1

theorem formed_execKeydel {s : State} (h : s.memWf) : OutFormed (execKeydel s) := by
  unfold execKeydel
  dsimp only
  refine formed_serve (fun _ _ h1 => ?_) h
  repeat' split
  all_goals exact .done h1

theorem formed_execEntropyRetry {s : State} (h : s.memWf) : OutFormed (execEntropyRetry s) := by
  unfold execEntropyRetry
  dsimp only
  split
  · exact .next h
  · split
    · exact .next h
    · split
      · exact formed_notYet h
      · split
        · split
          · exact .next (formed_respond (formed_bindKey (formed_drawKey (formed_setCmdRing h))))
          · refine .next ?_
            refine formed_later ?_
            dsimp only [State.memWf]
            exact formed_drawKey (formed_setCmdRing h)
        · split
          · exact .next (formed_later (formed_drawKey (formed_setCmdRing h)))
          · split
            · exact .next (formed_respond (formed_drawKey (formed_setCmdRing h)))
            · exact .next (formed_respond (formed_abandon (formed_drawKey (formed_setCmdRing h))))

theorem formed_zeroKeys {s : State} {lo hi : Nat} (h : s.memWf) : (s.zeroKeys lo hi).memWf := State.zeroKeys_wf lo hi h

theorem formed_lockFrame {s : State} {f : Nat} (h : s.memWf) : (s.lockFrame f).memWf := h

theorem formed_meterFrames {s : State} {r : Nat} (h : s.memWf) : (s.meterFrames r).memWf := by
  unfold State.meterFrames
  split <;> exact h

theorem formed_retagFrame {s : State} {f kid owner : Nat} (h : s.memWf) : (s.retagFrame f kid owner).memWf :=
  formed_zeroKeys (formed_setTag (formed_meterFrames (formed_meterFrames h)))

theorem formed_execRetag {s : State} (h : s.memWf) : OutFormed (execRetag s) := by
  unfold execRetag
  dsimp only
  split
  · split
    · exact .next h
    · split
      · exact .next h
      · split
        · exact .next (formed_later (formed_lockFrame (formed_retagFrame h)))
        · exact .next (formed_respond (formed_retagFrame h))
  · refine formed_serve (fun _ _ h1 => ?_) h
    split
    · exact .done h1
    · exact .later h1

theorem formed_mapIslands {s : State} {f : Island → Island} (h : s.memWf) : (s.mapIslands f).memWf :=
  formed_foldl (fun _ _ h1 => formed_setIsland h1) h

theorem formed_execLatelaunch {s : State} (h : s.memWf) : OutFormed (execLatelaunch s) := by
  unfold execLatelaunch
  dsimp only
  refine formed_serve (fun _ _ h1 => ?_) h
  split
  · exact .done h1
  · exact .done (formed_later (formed_mapIslands h1))

theorem formed_execAttest {s : State} (h : s.memWf) : OutFormed (execAttest s) := by
  unfold execAttest
  dsimp only
  refine formed_serve (fun _ _ h1 => ?_) h
  split
  · exact .done h1
  · exact .done (formed_memWrite h1)

theorem formed_execUsagering {s : State} (h : s.memWf) : OutFormed (execUsagering s) := by
  unfold execUsagering
  dsimp only
  refine formed_serve (fun _ _ h1 => ?_) h
  split
  · exact .done h1
  · exact .done (formed_flushUsage (formed_nameRing h1))

theorem formed_cutOff {s : State} {k : Nat} (h : s.memWf) : (s.cutOff k).memWf := by
  unfold State.cutOff
  dsimp only
  split
  · exact h
  · split
    · exact h
    · split
      · split
        · refine formed_interruptRing (formed_retagFrame ?_)
          split
          · exact formed_abandon h
          · exact h
        · refine formed_interruptRing ?_
          split
          · exact formed_abandon h
          · exact h
      · refine formed_interruptRing ?_
        split
        · exact formed_abandon h
        · exact h

theorem formed_cutBegun {s : State} {k : Nat} (h : s.memWf) : (s.cutBegun k).memWf := by
  unfold State.cutBegun
  dsimp only
  split
  · exact h
  · split
    · exact h
    · split
      · exact formed_respond h
      · exact h

theorem formed_takeover {s : State} (h : s.memWf) : s.takeover.memWf := by
  unfold State.takeover
  split
  · dsimp only
    refine formed_foldl (fun _ _ h1 => ?_) h
    split
    · exact formed_cutOff h1
    · exact formed_cutBegun h1
  · split <;> exact h

theorem formed_execSecHeartbeat {s : State} (h : s.memWf) : OutFormed (execSecHeartbeat s) := by
  unfold execSecHeartbeat
  split
  · exact .next h
  · split
    · exact .next h
    · split
      · exact .next (formed_takeover h)
      · exact .next h

theorem formed_regulated {s : State} (h : s.memWf) : s.regulated.memWf := by
  unfold State.regulated
  split <;> exact h

theorem formed_execChronometerSet {s : State} (h : s.memWf) : OutFormed (execChronometerSet s) := by
  unfold execChronometerSet
  dsimp only
  split
  · exact .next h
  · exact .next (formed_regulated h)

theorem formed_dropField {s : State} {f : Nat} (h : s.memWf) : (s.dropField f).memWf := h

theorem formed_steer {s : State} {f : Nat} {err : ℤ} (h : s.memWf) : (s.steer f err).memWf := by
  unfold State.steer
  repeat' split
  all_goals exact h

theorem formed_execChronometerDiscipline {s : State} (h : s.memWf) : OutFormed (execChronometerDiscipline s) := by
  unfold execChronometerDiscipline
  dsimp only
  split
  · exact .next h
  · split
    · exact .next (formed_setField (formed_steer h))
    · split
      · exact .next (formed_dropField (formed_setField (formed_steer h)))
      · exact .next (formed_later (formed_siteEvent (formed_dropField (formed_setField (formed_steer h)))))

theorem formed_execClockRestored {s : State} (h : s.memWf) : OutFormed (execClockRestored s) := by
  unfold execClockRestored
  dsimp only
  split
  · exact .next h
  · split
    · exact formed_notYet h
    · exact .next (formed_siteEvent h)

theorem formed_runPair {m : Modifier} {i : Instr} {s : State} (h : s.memWf) : OutFormed (runPair m i s) := by
  unfold runPair
  split
  · exact formed_aluMod h
  · exact formed_aluMod h
  · exact formed_aluMod h
  · exact formed_aluMod h
  · exact formed_aluMod h
  · exact formed_aluMod h
  · exact formed_aluMod h
  · exact formed_aluMod h
  · exact formed_aluMod h
  · exact formed_addiMod h
  · exact formed_vfBin h
  · exact formed_vfBin h
  · exact formed_vfBin h
  · exact formed_vfBin h
  · exact formed_vfBin h
  · exact formed_vfFma h
  · exact formed_vfFma h
  · exact formed_vfFma h
  · exact formed_vfFma h
  · exact formed_vfSpec h
  · exact formed_vfSpec h
  · exact formed_vfSpec h
  · exact formed_vfSpec h
  · exact formed_vfSpec h
  · exact formed_vfSpec h
  · exact formed_viArith h
  · exact formed_viArith h
  · exact formed_viArith h
  · exact formed_viArith h
  · exact formed_viArith h
  · exact formed_viArith h
  · exact formed_viArith h
  · exact formed_viArith h
  · exact formed_viArith h
  · exact formed_vfCvt h
  · exact formed_vfRed h
  · exact formed_vfRed h
  · exact formed_vfRed h
  · exact formed_trap h

theorem formed_execPfx {rnd : BitVec 3} {scale : BitVec 6} {absb absa negb nega clamp sat : BitVec 1} {s : State} (h : s.memWf) :
    OutFormed (execPfx rnd scale absb absa negb nega clamp sat s) := by
  unfold execPfx
  dsimp only
  split
  · exact formed_trap h
  · split
    · exact formed_runPair h
    · exact formed_trap h

end Sys2Proof.Machine
end

section
/-! SUPPORT. The form of memory under issue and under what a follower of a train does. -/
namespace Sys2Proof.Machine

theorem formed_issueWord {i : Instr} {s : State} (h : s.memWf) : OutFormed (issueWord i s) := by
  cases i
  all_goals dsimp only [issueWord, execAdd, execSub, execAndG, execOrG, execXorG, execAndn, execShl, execShr, execSar, execRot, execSlt,
    execSltu, execSeq, execSel, execMin, execMax, execMinu, execMaxu, execAddi, execAndi, execOri, execXori, execShli, execShri, execSari,
    execRoti, execSlti, execSltiu, execLih, execAdr, execMul, execMulh, execMulhu, execDiv, execDivu, execRem, execRemu, execClz, execCtz,
    execPopc, execExt, execIns, execBswap, execClmul, execClmulh, execJ, execJal, execPbr, execBr, execRet, execBcEq, execBcNe, execBcLt,
    execBcGe, execBcLtu, execBcGeu, execBEq, execBNe, execBLt, execBGe, execBLtu, execBGeu, execBAl, execYield, execTrapN, execSysc,
    execBrk, execMkfull, execMkempty, execRdctx, execLb, execLbu, execLh, execLhu, execLw, execLwu, execLd, execSb, execSh, execSw, execSd,
    execAmoadd, execAmoand, execAmoor, execAmoxor, execAmomin, execAmomax, execAmominu, execAmomaxu, execAmoswap, execAmocas, execAmoaddf,
    execFenceRel, execFenceAcq, execFenceFull, execRdtime, execRdtsr, execRdnbr, execRdhop, execRdmap, execSend, execSendh, execSendN,
    execSendE, execSendS, execSendW, execHclr, execHseal, execHopen, execRcrd, execTcancel, execBinit, execBinitF, execTmark, execTrejoin,
    execTsync, execTgang, execTend, execRdskew, execRpt, execRptR, execRptx, execVaddF, execVsubF, execVmulF, execVminF, execVmaxF,
    execVcmpEqF, execVcmpLtF, execVcmpLe, execVcmpUn, execVfma, execVfms, execVfnma, execVfnms, execVaddI, execVsubI, execVmulI, execVmulh,
    execVmulhu, execVminI, execVmaxI, execVminu, execVmaxu, execVcmpEqI, execVcmpLtI, execVcmpLtu, execVand, execVor, execVxor, execVandn,
    execVsel, execVshl, execVshr, execVsar, execVrcp, execVrsq, execVsqrt, execVexp2, execVlog2, execVtanh, execVcvt, execVperm,
    execVbcast, execVext, execVins, execVredAdd, execVredMax, execVredMin, execVclmul, execVldt, execVgather, execMcfg, execMunf, execMldb,
    execMzero, execMstr, execMmac, execMmacu, execMmacs]
  case add | sub | andG | orG | xorG | andn | shl | shr | sar | rot | slt | sltu | seq | min | max | minu | maxu | mul | mulh | mulhu | div | divu |
      rem | remu | ext | clmul | clmulh => exact formed_aluR h
  case sel | ins => exact formed_aluR3 h
  case addi | andi | ori | xori | shli | shri | sari | roti | slti | sltiu | clz | ctz | popc | bswap => exact formed_aluI h
  case lih | adr => exact formed_aluU h
  case j | bAl => exact formed_issue (fun _ _ h1 => .ok (formed_finish h1)) h
  case jal => exact formed_issue (fun _ _ h1 => .ok (formed_finish (formed_writeG h1))) h
  case pbr | vsel | vbcast | vins => exact formed_issue (fun _ _ h1 => .ok (formed_retire (formed_updCur h1))) h
  case br | ret => exact formed_issue (fun _ _ h1 => formed_goTo h1) h
  case bcEq | bcNe | bcLt | bcGe | bcLtu | bcGeu => exact formed_branchReg h
  case bEq | bNe | bLt | bGe | bLtu | bGeu => exact formed_branchDisp h
  case startCtx => exact formed_execStartCtx h
  case endCtx => exact formed_execEndCtx h
  case yield => exact formed_issue (fun _ _ h1 => .ok (formed_updCur (formed_retire (formed_updCurTile h1)))) h
  case trapN | sysc | brk => exact formed_raiseTrap h
  case mret => exact formed_execMret h
  case rdsys => exact formed_execRdsys h
  case wrsys => exact formed_execWrsys h
  case mkfull | mkempty => exact formed_setRegState h
  case mirr => exact formed_execMirr h
  case rdctx | rdtime | rdtsr | rdnbr | rdhop | rdmap | rcrd | vext => exact formed_issue (fun _ _ h1 => formed_result h1) h
  case lb | lbu | lh | lhu | lw | lwu | ld => exact formed_loadOp h
  case sb | sh | sw | sd => exact formed_storeOp h
  case amoadd | amoand | amoor | amoxor | amomin | amomax | amominu | amomaxu | amoswap | amocas | amoaddf => exact formed_atomicOp h
  case fenceRel | fenceAcq | fenceFull => exact formed_fenceOp h
  case tprobe => exact formed_execTprobe h
  case lrenew => exact formed_execLrenew h
  case tdrop => exact formed_execTdrop h
  case twait => exact formed_execTwait h
  case rtwr => exact formed_execRtwr h
  case rtrd => exact formed_execRtrd h
  case send | sendh => exact formed_sendTo h
  case sendN | sendE | sendS | sendW => exact formed_sendNear h
  case qcfg => exact formed_execQcfg h
  case hset => exact formed_execHset h
  case hclr | hseal => exact formed_issue (fun _ _ h1 => .ok (formed_retire (formed_updCurTile h1))) h
  case hopen => exact formed_issue (fun _ _ h1 => .ok (formed_retire (formed_foldl (fun _ _ h2 => formed_later h2) (formed_foldl
      (fun _ _ h2 => formed_park h2) (formed_updCurTile h1))))) h
  case rcarm => exact formed_execRcarm h
  case tsend => exact formed_execTsend h
  case tcancel => exact formed_issue (fun _ _ h1 => formed_result (formed_updCurTile h1)) h
  case hmsg => exact formed_execHmsg h
  case sopen => exact formed_execSopen h
  case sclose => exact formed_execSclose h
  case xcopy => exact formed_execXcopy h
  case xpop => exact formed_execXpop h
  case binit | binitF => exact formed_binitOp h
  case bexp => exact formed_execBexp h
  case barv => exact formed_execBarv h
  case bwait => exact formed_execBwait h
  case btest => exact formed_execBtest h
  case binv => exact formed_execBinv h
  case coll => exact formed_execColl h
  case tform => exact formed_execTform h
  case tjoin => exact formed_execTjoin h
  case tleave => exact formed_execTleave h
  case tmark => exact formed_trainGate (fun _ _ h1 => .ok (formed_retire h1)) h
  case trejoin | tend => exact formed_trainGate (fun _ _ h1 => .ok (formed_updCurTile (formed_retire h1))) h
  case tsync => exact formed_trainGate (fun _ _ h1 => formed_result (formed_dueLine (formed_startLines h1))) h
  case tgang => exact formed_trainGate (fun _ _ h1 => .ok (formed_retire (formed_dueLine (formed_startLines h1)))) h
  case rdskew => exact formed_trainGate (fun _ _ h1 => formed_result h1) h
  case kq => exact formed_execKq h
  case kexit => exact formed_execKexit h
  case rpt | rptR | rptx => exact formed_frameOp h
  case vaddF | vsubF | vmulF | vminF | vmaxF => exact formed_vfBin h
  case vcmpEqF | vcmpLtF | vcmpLe | vcmpUn => exact formed_vfCmp h
  case vfma | vfms | vfnma | vfnms => exact formed_vfFma h
  case vaddI | vsubI | vmulI | vmulh | vmulhu | vminI | vmaxI | vminu | vmaxu => exact formed_viArith h
  case vcmpEqI | vcmpLtI | vcmpLtu => exact formed_viCmp h
  case vand | vor | vxor | vandn | vshl | vshr | vsar => exact formed_viLogic h
  case vrcp | vrsq | vsqrt | vexp2 | vlog2 | vtanh => exact formed_vfSpec h
  case vcvt => exact formed_vfCvt h
  case vperm | vclmul => exact formed_vecOp h
  case vredAdd | vredMax | vredMin => exact formed_vfRed h
  case vld => exact formed_execVld h
  case vst => exact formed_execVst h
  case vldt | vgather => exact formed_issue (fun _ _ h1 => formed_vecLoad h1) h
  case vscatter => exact formed_execVscatter h
  case mcfg | munf | mldb | mzero | mstr | mmac | mmacu | mmacs => exact formed_fifoOp h
  case mrd => exact formed_execMrd h
  case mwr => exact formed_execMwr h
  case mpop => exact formed_execMpop h
  case msave => exact formed_execMsave h
  case mrest => exact formed_execMrest h
  case pfx => exact formed_execPfx h
  all_goals exact formed_stall h

theorem formed_pickWord {s : State} {t c : Nat} (h : s.memWf) : PickedFormed (s.pickWord t c) := by
  unfold State.pickWord
  dsimp only
  split
  · exact .word h
  · split
    · exact .fault h
    · rename_i e1
      have h1 := FetchedFormed.of_wait (formed_fetch (formed_atSlot h)) e1
      exact .wait h1
    · rename_i e1
      have h1 := FetchedFormed.of_word (formed_fetch (formed_atSlot h)) e1
      split
      · split
        · exact .fault h1
        · rename_i e2
          have h2 := FetchedFormed.of_wait (formed_fetch h1) e2
          exact .wait h2
        · rename_i e2
          have h2 := FetchedFormed.of_word (formed_fetch h1) e2
          exact .word h2
      · exact .word h1

theorem formed_runSlot {s : State} (h : s.memWf) : OutFormed (s.runSlot) := by
  unfold State.runSlot
  split
  · exact formed_issueWord h
  · exact formed_trap h

theorem formed_attempt {s : State} {t c : Nat} (h : s.memWf) : OutFormed (s.attempt t c) := by
  unfold State.attempt
  dsimp only
  split
  · split
    · rename_i e1 _
      have h1 := PickedFormed.of_wait (formed_pickWord h) e1
      exact formed_stall h1
    · refine formed_trap (formed_updCtx ?_)
      split
      · rename_i e1
        exact PickedFormed.of_word (formed_pickWord h) e1
      · exact h
      · rename_i e1
        exact PickedFormed.of_fault (formed_pickWord h) e1
  · split
    · refine formed_trap (formed_updCtx ?_)
      split
      · rename_i e1
        exact PickedFormed.of_word (formed_pickWord h) e1
      · exact h
      · rename_i e1
        exact PickedFormed.of_fault (formed_pickWord h) e1
    · split
      · rename_i e1
        have h1 := PickedFormed.of_wait (formed_pickWord h) e1
        exact formed_stall h1
      · rename_i e1
        have h1 := PickedFormed.of_fault (formed_pickWord h) e1
        exact formed_trap h1
      · rename_i e1
        have h1 := PickedFormed.of_word (formed_pickWord h) e1
        split
        · exact formed_trap h1
        · exact formed_runSlot h1

theorem formed_stalledOut {o : Out} (h : OutFormed o) : OptFormed (stalledOut o) := by
  cases h with
  | next h =>
    unfold stalledOut
    dsimp only
    split
    · exact .some h
    · exact .none
  | fault => exact .none
  | refused => exact .none

theorem formed_poll {s : State} {t : Nat} {l : List Nat} (h : s.memWf) : (s.poll t l).2.memWf := by
  induction l generalizing s with
  | nil => exact h
  | cons c l ih =>
    unfold State.poll
    split
    · split
      · rename_i e1
        exact ih ((formed_stalledOut (formed_attempt h)).of_some e1)
      · exact ih h
    · exact ih h

theorem formed_issueAt {s : State} {t c : Nat} (h : s.memWf) : OutFormed (s.issueAt t c) := by
  unfold State.issueAt
  split
  · rename_i e1
    have h1 := OutFormed.of_next (formed_attempt (formed_countFetch h)) e1
    exact .next (formed_noteStale h1)
  · exact formed_attempt (formed_countFetch h)

theorem formed_issueSlot {s : State} {t : Nat} (h : s.memWf) : OutFormed (s.issueSlot t) := by
  unfold State.issueSlot
  dsimp only
  split
  · exact .next h
  · split
    · exact formed_issueAt (formed_poll h)
    · split
      · exact formed_issueAt (formed_updTile (formed_poll h))
      · exact .next (formed_updTile (formed_updTile (formed_poll h)))

theorem formed_followTransfer {i : Instr} {s : State} (h : s.memWf) : OptFormed (followTransfer i s) := by
  unfold followTransfer
  split
  · exact .some h
  · exact .some h
  · exact .some h
  · exact .some h
  · exact .some h
  · exact .some h
  · exact .some h
  · exact .some h
  · exact .some h
  · exact .some h
  · exact .some h
  · exact .some h
  · exact .some h
  · exact .some h
  · exact .some h
  · exact .some h
  · exact .some h
  · exact .some h
  · exact .some h
  · exact .none

theorem formed_passBy {s : State} {t : Nat} {w : BitVec 32} (h : s.memWf) : (s.passBy t w).memWf := by
  unfold State.passBy
  dsimp only
  split
  · split
    · refine formed_lateG (formed_updTile ?_)
      split
      · refine formed_updTile ?_
        split <;> exact h
      · split <;> exact h
    · refine formed_updTile ?_
      split
      · refine formed_updTile ?_
        split <;> exact h
      · split <;> exact h
  · split
    · refine formed_updTile ?_
      split <;> exact h
    · split <;> exact h

theorem formed_followWord {s : State} (h : s.memWf) : OutFormed (s.followWord) := by
  unfold State.followWord
  dsimp only
  split
  · exact formed_trap h
  · split
    · exact formed_trap h
    · split
      · exact formed_trap h
      · split
        · exact formed_trap h
        · exact .next (formed_updCurTile (formed_goOn h))
        · split
          · rename_i e1
            have h1 := OptFormed.of_some (formed_followTransfer h) e1
            exact .next (formed_goOn h1)
          · exact formed_issueWord h

theorem formed_laneWord {s : State} {a : Word} {w w2 : BitVec 32} {r : List (Word × BitVec 32 × BitVec 32)} (h : s.memWf) :
    OutFormed (s.laneWord a w w2 r) := by
  unfold State.laneWord
  extract_lets t x count y l src s1
  split
  · exact formed_notYet h
  · have hsrc : src.memWf := formed_updTile h
    have hword : OutFormed s1.followWord := formed_followWord h
    split
    · rename_i s2 hs
      have h2 := hword.of_next hs
      split
      · exact .next (formed_noteStale (formed_updTile h2))
      · split
        · exact formed_notYet (formed_updTile h2)
        · exact formed_trap (formed_updTile h)
    · exact hword

theorem formed_execTrainStreamWord {s : State} (h : s.memWf) : OutFormed (execTrainStreamWord s) := by
  unfold execTrainStreamWord
  dsimp only
  split
  · exact .next h
  · split
    · exact formed_notYet h
    · split
      · exact .next (formed_passBy h)
      · exact formed_laneWord h

theorem formed_execTrainMarker {s : State} (h : s.memWf) : OutFormed (execTrainMarker s) := by
  unfold execTrainMarker
  dsimp only
  split
  · exact .next h
  · split
    · exact formed_notYet h
    · split
      · exact formed_laneWord h
      · split
        · exact .next (formed_lateG h)
        · exact .next h

end Sys2Proof.Machine
end

section
/-! SUPPORT. The form of memory under ports, bays, power and the boot. -/
namespace Sys2Proof.Machine

theorem formed_execLinkReplay {s : State} (h : s.memWf) : OutFormed (execLinkReplay s) := by
  unfold execLinkReplay
  dsimp only
  split <;> exact .next h

theorem formed_eraseGroup {s : State} {g : Nat} (h : s.memWf) : (s.eraseGroup g).memWf :=
  formed_setGroup (formed_zeroKeys (formed_foldl (fun _ _ h1 => formed_setTag (formed_meterFrames h1)) h))

theorem formed_attach {s : State} {g : Nat} (h : s.memWf) : (s.attach g).memWf := by
  unfold State.attach
  dsimp only
  split
  · exact formed_setGroup (formed_eraseGroup h)
  · exact h

theorem formed_execPortTraining {s : State} (h : s.memWf) : OutFormed (execPortTraining s) := by
  unfold execPortTraining
  dsimp only
  split
  · exact .next h
  · exact .next (formed_attach h)

theorem formed_retrain {s : State} {g role : Nat} {partner : Bool} (h : s.memWf) : (s.retrain g role partner).memWf := by
  unfold State.retrain
  refine formed_foldl (fun _ _ h1 => ?_) h
  split <;> exact h1

theorem formed_writeRole {s : State} {g role : Nat} {partner : Bool} (h : s.memWf) : (s.writeRole g role partner).memWf := by
  unfold State.writeRole
  dsimp only
  split
  · exact h
  · split
    · exact formed_retrain h
    · split
      · exact h
      · split
        · split
          · exact formed_eraseGroup (formed_retrain h)
          · exact formed_attach (formed_retrain h)
        · split
          · split
            · exact formed_later (formed_setBay (formed_eraseGroup (formed_setBay (formed_retrain h))))
            · exact formed_attach (formed_setBay (formed_retrain h))
          · split
            · exact formed_later (formed_setBay (formed_eraseGroup (formed_retrain h)))
            · exact formed_attach (formed_retrain h)

theorem formed_loseReplies {s : State} {g : Nat} (h : s.memWf) : (s.loseReplies g).memWf := by
  unfold State.loseReplies
  refine formed_foldl (fun _ _ h1 => (formed_foldl (fun _ _ h2 => ?_) h1)) h
  repeat' split
  all_goals exact h2

theorem formed_execModuleRemoved {s : State} (h : s.memWf) : OutFormed (execModuleRemoved s) := by
  unfold execModuleRemoved
  dsimp only
  split
  · exact .next h
  · split
    · exact .next h
    · refine .next ?_
      refine formed_foldl (fun _ _ h1 => ?_) (formed_loseReplies h)
      split <;> exact h1

theorem formed_execModuleScrubDone {s : State} (h : s.memWf) : OutFormed (execModuleScrubDone s) := by
  unfold execModuleScrubDone
  dsimp only
  split <;> exact .next h

theorem formed_setTherm {s : State} {v : Nat} (h : s.memWf) : (s.setTherm v).memWf := by
  unfold State.setTherm
  refine formed_foldl (fun _ _ h1 => ?_) h
  split <;> exact h1

theorem formed_report {s : State} (h : s.memWf) : s.report.memWf := by
  unfold State.report
  split <;> exact h

theorem formed_execThermalAlert {s : State} (h : s.memWf) : OutFormed (execThermalAlert s) := by
  unfold execThermalAlert
  refine .next ?_
  split
  · exact formed_setTherm (formed_report h)
  · exact formed_report h

theorem formed_execThermalNormal {s : State} (h : s.memWf) : OutFormed (execThermalNormal s) := by
  unfold execThermalNormal
  dsimp only
  split
  · exact .next (formed_report h)
  · split
    · exact .next (formed_setTherm (formed_report h))
    · split
      · exact formed_notYet (formed_report h)
      · exact .next (formed_later (formed_report h))

theorem formed_haltAll {s : State} (h : s.memWf) : s.haltAll.memWf := by
  unfold State.haltAll
  refine formed_foldl (fun _ _ h1 => ?_) h
  split
  · exact h1
  · exact formed_addCause1 h1

theorem formed_execThermalShutdown {s : State} (h : s.memWf) : OutFormed (execThermalShutdown s) := by
  unfold execThermalShutdown
  dsimp only
  split
  · exact .next (formed_report h)
  · split
    · exact .next (formed_later (formed_haltAll (formed_setTherm (formed_report h))))
    · split
      · exact .next (formed_report h)
      · split
        · exact formed_notYet (formed_report h)
        · exact .next (formed_later (formed_report h))

theorem formed_mapSites {s : State} {f : Site → Site} (h : s.memWf) : (s.mapSites f).memWf := h

theorem formed_unpowered {s : State} (h : s.memWf) : s.unpowered.memWf := Memory.filter_wf _ h

theorem formed_execPowerRemoval {s : State} (h : s.memWf) : OutFormed (execPowerRemoval s) := by
  unfold execPowerRemoval
  split
  · exact formed_notYet h
  · exact .next (formed_unpowered h)

theorem formed_loadAll {s : State} (h : s.memWf) : s.loadAll.memWf := by
  unfold State.loadAll
  refine formed_foldl (fun _ _ h1 => ?_) h
  split
  · exact h1
  · exact formed_loadMonitor h1

theorem formed_bootRemap {s : State} (h : s.memWf) : s.bootRemap.memWf :=
  formed_foldl (fun _ _ h1 => formed_gradeSite (formed_setSite h1)) (formed_foldl (fun _ _ h1 => formed_setSite h1) h)

theorem formed_waferReset {s : State} (h : s.memWf) : s.waferReset.memWf := by
  have hcut : (s.sec.rings.foldl (fun s e => s.cutOff e.1) s).memWf := formed_foldl (fun _ _ h1 => formed_cutOff h1) h
  unfold State.waferReset
  generalize s.sec.rings.foldl (fun s e => s.cutOff e.1) s = t at hcut
  exact formed_loadAll (formed_bootRemap (formed_mapSites (memWf_of_mem_eq hcut rfl)))

theorem formed_measureMap {s : State} (h : s.memWf) : s.measureMap.memWf := by
  unfold State.measureMap
  split
  · dsimp only
    exact h
  · dsimp only
    exact h

theorem formed_bootImage {s : State} {i reg : Nat} (h : s.memWf) : OptFormed (s.bootImage i reg) := by
  unfold State.bootImage
  dsimp only
  split
  · split
    · exact .some h
    · exact .none
  · split
    · exact .some h
    · exact .none

theorem formed_bootIslands {s : State} {l : List Nat} (h : s.memWf) : OptFormed (s.bootIslands l) := by
  induction l generalizing s with
  | nil => exact .some h
  | cons i l ih =>
    unfold State.bootIslands
    split
    · rename_i e1
      exact ih ((formed_bootImage h).of_some e1)
    · exact .none

theorem formed_drawKeys {s : State} {n : Nat} (h : s.memWf) : (s.drawKeys n).2.memWf := by
  induction n generalizing s with
  | zero => exact h
  | succ n ih =>
    unfold State.drawKeys
    split
    · rename_i e1
      exact memWf_of_snd (formed_drawKey h) e1
    · rename_i e1
      have h1 := memWf_of_snd (formed_drawKey h) e1
      exact ih h1

theorem formed_openRing0 {s : State} {base n : Nat} (h : s.memWf) : (s.openRing0 base n).memWf := by
  unfold State.openRing0
  split
  · rename_i e1
    exact memWf_of_snd (formed_drawKeys h) e1
  · rename_i e1
    have h1 := memWf_of_snd (formed_drawKeys h) e1
    split
    · exact h1
    · exact formed_setCmdRing (formed_memWrite h1)

theorem formed_boot {s : State} {base n : Nat} (h : s.memWf) : (s.boot base n).memWf := by
  unfold State.boot
  split
  · exact h
  · rename_i e1
    have h1 := OptFormed.of_some (formed_bootImage h) e1
    dsimp only
    split
    · exact formed_bootRemap (formed_measureMap h1)
    · rename_i e2
      have h2 := OptFormed.of_some (formed_bootIslands (formed_bootRemap (formed_measureMap h1))) e2
      split
      · exact h2
      · rename_i e3
        have h3 := OptFormed.of_some (formed_bootImage h2) e3
        split
        · exact h3
        · rename_i e4
          have h4 := OptFormed.of_some (formed_bootImage (formed_loadAll h3)) e4
          exact formed_openRing0 h4

theorem formed_lockFields {s : State} (h : s.memWf) : s.lockFields.memWf :=
  formed_regulated (formed_foldl (fun _ _ h1 => formed_setField h1) h)

theorem formed_execPowerOn {s : State} (h : s.memWf) : OutFormed (execPowerOn s) := by
  unfold execPowerOn
  dsimp only
  refine .next ?_
  refine formed_foldl (fun _ _ h1 => ?_) ?_
  · split
    · exact h1
    · exact formed_retrain h1
  · refine formed_lockFields (formed_boot ?_)
    dsimp only [State.memWf]
    exact formed_mapSites (formed_unpowered h)

end Sys2Proof.Machine
end

section
/-! SUPPORT. The form of memory under every step (R86, R208): each row of the table, each issue opportunity and each step of the agenda. -/
namespace Sys2Proof.Machine

/-- Every event keeps the form; a word is no step of the agenda. -/
theorem formed_exec {i : Instr} {s : State} (hi : ¬(encode i).isSome) (h : s.memWf) : OutFormed (exec i s) := by
  cases i
  iterate 221 exact absurd rfl hi
  all_goals dsimp only [exec]
  case powerOn => exact formed_execPowerOn h
  case waferReset => exact .next (formed_waferReset h)
  case tileReset => exact formed_execTileReset h
  case tileHeartbeat => exact formed_execTileHeartbeat h
  case tileDeath => exact .next (formed_die h)
  case siteFence => exact formed_execSiteFence h
  case serviceRetest => exact formed_execServiceRetest h
  case rehomeWrite => exact formed_execRehomeWrite h
  case registerWrite => exact formed_execRegisterWrite h
  case hackBroadcast => exact formed_execHackBroadcast h
  case resumeTick => exact formed_execResumeTick h
  case restore => exact formed_execRestore h
  case evacuation => exact formed_execEvacuation h
  case repeaterFill => exact formed_execRepeaterFill h
  case dispatch => exact formed_execDispatch h
  case matrixCommandStart => exact formed_execMatrixCommandStart h
  case matrixCommandComplete => exact formed_execMatrixCommandComplete h
  case remoteRequest => exact formed_execRemoteRequest h
  case remoteReply => exact formed_execRemoteReply h
  case acknowledgement => exact formed_execAcknowledgement h
  case moduleAccess => exact formed_execModuleAccess h
  case edgePortArrival => exact formed_execEdgePortArrival h
  case edgeSlotSend => exact formed_execEdgeSlotSend h
  case edgeRefusal => exact formed_execEdgeRefusal h
  case l2TlbLookup => exact formed_execL2TlbLookup h
  case walk => exact formed_execWalk h
  case walkerRead => exact formed_execWalkerRead h
  case retryReply => exact formed_execRetryReply h
  case failReply => exact formed_execFailReply h
  case translationExpiry | laneFailure | moduleSeated | bayRelease => exact .next h
  case chronometerSet => exact formed_execChronometerSet h
  case chronometerDiscipline => exact formed_execChronometerDiscipline h
  case clockRestored => exact formed_execClockRestored h
  case portMessage => exact formed_execPortMessage h
  case putMessage => exact formed_execPutMessage h
  case amMessage => exact formed_execAmMessage h
  case hostMessage => exact formed_execHostMessage h
  case eventMessage => exact formed_execEventMessage h
  case triggeredSendInject => exact formed_execTriggeredSendInject h
  case messageRefusal => exact formed_execMessageRefusal h
  case refusedReinject => exact formed_execRefusedReinject h
  case linkReplay => exact formed_execLinkReplay h
  case portTraining => exact formed_execPortTraining h
  case roleUnused | roleMemory | roleLink => exact .next (formed_writeRole h)
  case moduleRemoved => exact formed_execModuleRemoved h
  case moduleScrubDone => exact formed_execModuleScrubDone h
  case transferStart => exact formed_execTransferStart h
  case transferReadRequest => exact formed_execTransferReadRequest h
  case transferSegment => exact formed_execTransferSegment h
  case transferComplete => exact formed_execTransferComplete h
  case streamDigest => exact formed_execStreamDigest h
  case streamGo => exact formed_execStreamGo h
  case streamAbort => exact formed_execStreamAbort h
  case streamLineReply => exact formed_execStreamLineReply h
  case streamMessageInject => exact formed_execStreamMessageInject h
  case streamMessage => exact formed_execStreamMessage h
  case barvMessage => exact formed_execBarvMessage h
  case collContribution => exact formed_execCollContribution h
  case collResult => exact formed_execCollResult h
  case vc7Element => exact formed_execVc7Element h
  case trainFormationRequest => exact formed_execTrainFormationRequest h
  case trainFormed => exact formed_execTrainFormed h
  case trainStreamWord => exact formed_execTrainStreamWord h
  case trainMarker => exact formed_execTrainMarker h
  case tsyncLine => exact formed_execTsyncLine h
  case launchRegisterWrite => exact formed_execLaunchRegisterWrite h
  case kqRequest => exact formed_execKqRequest h
  case placement => exact formed_execPlacement h
  case loadingDone => exact formed_execLoadingDone h
  case timedStart => exact formed_execTimedStart h
  case kernelKill => exact formed_execKernelKill h
  case gangPrepare => exact formed_execGangPrepare h
  case gangAck => exact formed_execGangAck h
  case gangAbort => exact formed_execGangAbort h
  case gangTimeout => exact formed_execGangTimeout h
  case createRegion => exact formed_execCreateRegion h
  case regionCreated => exact formed_execRegionCreated h
  case destroyRegion => exact formed_execDestroyRegion h
  case hackRegion => exact formed_execHackRegion h
  case resumeRegion => exact formed_execResumeRegion h
  case regionReset => exact formed_execRegionReset h
  case regionResetDone => exact formed_execRegionResetDone h
  case moveBorder => exact formed_execMoveBorder h
  case shareRegion => exact formed_execShareRegion h
  case regulatorPeriod => exact formed_execRegulatorPeriod h
  case borderMoveDone => exact formed_execBorderMoveDone h
  case tileRelease => exact formed_execTileRelease h
  case islandFailure => exact formed_execIslandFailure h
  case sevaddrWrite => exact formed_execSevaddrWrite h
  case inspectionRequest => exact formed_execInspectionRequest h
  case inspectionReady => exact formed_execInspectionReady h
  case keynew => exact formed_execKeynew h
  case keydel => exact formed_execKeydel h
  case retag => exact formed_execRetag h
  case latelaunch => exact formed_execLatelaunch h
  case attest => exact formed_execAttest h
  case rekey => exact formed_execRekey h
  case resync => exact formed_execResync h
  case usagering => exact formed_execUsagering h
  case secHeartbeat => exact formed_execSecHeartbeat h
  case secTakeover => exact .next (formed_takeover h)
  case entropyRetry => exact formed_execEntropyRetry h
  case meteringReport => exact .next (formed_reportTile h)
  case usageRecord => exact formed_execUsageRecord h
  case thermalAlert => exact formed_execThermalAlert h
  case thermalNormal => exact formed_execThermalNormal h
  case thermalShutdown => exact formed_execThermalShutdown h
  case powerRemoval => exact formed_execPowerRemoval h
  case postedFaultMessage => exact formed_execPostedFaultMessage h
  case ringRidxWrite => exact formed_execRingRidxWrite h
  case gangDeadline => exact formed_execGangDeadline h
  case runtimeRestartDone => exact .next (formed_mapIslands h)

theorem formed_runEvent {s : State} {k : Nat} (h : s.memWf) : OutFormed (s.runEvent k) := by
  unfold State.runEvent
  split
  · exact .next h
  · rename_i x _
    extract_lets r
    split
    · exact .next h
    · rename_i hi
      have hx : OutFormed (exec x.1 r) := formed_exec hi h
      split
      · rename_i hq
        have h1 := hx.of_next hq
        exact .next h1
      · exact hx

theorem formed_runIssue {s : State} {t : Nat} (h : s.memWf) : OutFormed (s.runIssue t) := by
  unfold State.runIssue
  split
  · rename_i e1
    have h1 := OutFormed.of_next (formed_issueSlot h) e1
    exact .next h1
  · exact formed_issueSlot h

/-- What a step answers: time passes without touching memory, and the step that is due is an issue or an event. -/
theorem formed_step {s : State} (h : s.memWf) : OutFormed (step s) := by
  have he : s.elapse.memWf := h
  unfold step
  split
  · split
    · exact .next he
    · exact .fault
  · exact formed_runIssue he
  · exact formed_runEvent he

/-- Settles O57: a step is a composition of operations each of which keeps memory canonical. -/
theorem memoryFormKept : Obligations.MemoryFormKept := by
  intro s t h hstep
  exact (formed_step h).of_next hstep

end Sys2Proof.Machine
end

section
/-! SUPPORT. The resume of a region where a tile is listed twice: the statement counts the tiles of a region by the entries of the list, the model reads a
tile's region and kernel in the first entry for its site (R384, R485). -/
namespace Sys2Proof.Machine

/-- A stopped region 1 at its resume tick, without kernels. Site 1 has two entries: the first says that it stands in region 2 with its saved kernel 7, the
second that it stands in region 1. A list in canonical form has one entry for a site. -/
def listedTwice : State :=
  { State.reset with
    tiles := [(1, { region := 2, kernel := 7, held := true }), (1, { region := 1 })]
    regions := [(1, { state := 3, stopped := true, resumeTick := some 0 }), (2, { state := 2, kernels := [(7, { state := 6 })] })]
    ev := { a := 1 } }

/-- Whether a tile is held after a step. -/
def heldAfter (o : Out) (t : Nat) : Bool :=
  match o with
  | .next s => (s.tile t).held
  | _ => false

/-- By the first entry the tile is a saved kernel's, and stays held for the restore (R384). -/
theorem resumeTick_holds_listedTwice : heldAfter (exec .resumeTick listedTwice) 1 = true := by decide +kernel

/-- Refutes O56: the clause of RESUME_TICK has every listed tile of a region without kernels go on. Of all states it does not hold: in `listedTwice` the
tile goes on by the clause, and the model keeps it held, as a tile of a saved kernel of the region that its first entry names. -/
theorem not_regionAndHackEvents : ¬ Obligations.RegionAndHackEvents := by
  intro h
  obtain ⟨-, -, -, hresume, -⟩ := h
  have hgo := hresume listedTwice 0 rfl rfl rfl rfl (by decide +kernel) rfl rfl
  have hheld := resumeTick_holds_listedTwice
  rw [hgo] at hheld
  exact absurd hheld (by decide +kernel)

end Sys2Proof.Machine
end

section
/-! SUPPORT. An issue opportunity from the choice of its context to the row of the table that runs (R76, R105, R212, R362). -/
namespace Sys2Proof.Machine

/-- An instruction that has a word means at the slot what its row of the table says; an event of the table has none. -/
theorem exec_eq_issueWord {i : Instr} {w : BitVec 32} (h : encode i = some w) (s : State) : exec i s = issueWord i s := by
  cases i <;> cases h <;> rfl

/-- A word in the slot that decodes runs its row of the table (R76). -/
theorem State.runSlot_eq_exec {s : State} {i : Instr} (h : decode s.slot.word = .ok i) : s.runSlot = exec i s := by
  rw [State.runSlot, h, exec_eq_issueWord (encodeDecode _ _ h)]

/-- Where no trap stands before it, a context's next word is run (R77, R447, R449). -/
theorem State.attempt_word {s q : State} {t c : Nat} (hpick : s.pickWord t c = .word q) (hdue : (s.ctx t c).dueFault = none)
    (hstep : (s.ctx t c).stepDue = false) (hbreak : (s.ctx t c).breaks q.slot.addr = false) : s.attempt t c = q.runSlot := by
  simp only [State.attempt, hpick, hdue, hstep, hbreak, Bool.false_eq_true, if_false]

/-- Settles O4: the opportunity goes to the leader or to the context chosen, whose word is decoded and run. -/
theorem stepRunsDecoded : Obligations.StepRunsDecoded := by
  intro s s2 q t c rr l i hchoice hheld hhalted hpoll leads s3 hc s4 hpick hdue hstep hbreak hi
  have hissue : s.elapse.issueSlot t = s3.issueAt t c := by
    have hpart : ¬((s.elapse.tile t).held = true ∨ (s.elapse.tile t).halted = true) := by simp [hheld, hhalted]
    simp only [State.issueSlot, hpart, if_false, hpoll]
    by_cases hl : leads
    · rw [if_pos hl] at hc
      simp only [s3, if_pos hl, hc]
      exact if_pos hl
    · rw [if_neg hl] at hc
      simp only [s3, if_neg hl, hc]
      exact if_neg hl
  have hrun : s4.attempt t c = exec i q := (State.attempt_word hpick hdue hstep hbreak).trans (State.runSlot_eq_exec hi)
  have hstep : step s = s.elapse.runIssue t := by rw [step, hchoice]
  rw [hstep, State.runIssue, hissue, State.issueAt, hrun]
  cases exec i q <;> rfl

end Sys2Proof.Machine
end

section
/-! SUPPORT. The helper that a start takes, and the instructions that start and end contexts (R127, R128, R132). -/
namespace Sys2Proof.Machine

/-- The free helpers of a tile, lowest first. -/
def Tile.freeHelpers (x : Tile) : List Nat := (List.range' 1 11).filter (fun c => (x.ctx c).state = .free)

theorem Tile.lowFree_eq_head (x : Tile) : x.lowFree = x.freeHelpers.head? := (List.head?_filter ..).symm

theorem Tile.highFree_eq_getLast (x : Tile) : x.highFree = x.freeHelpers.getLast? := by
  rw [freeHelpers, List.getLast?_eq_head?_reverse, ← List.filter_reverse, List.head?_filter]
  rfl

/-- Of different elements the first is the last where there is one alone. -/
theorem head_eq_getLast_iff_of_nodup {α : Type} {l : List α} (hnd : l.Nodup) (hne : l ≠ []) : l.head? = l.getLast? ↔ l.length = 1 := by
  match l, hne with
  | [a], _ => simp
  | a :: b :: r, _ =>
    have ha : a ∉ b :: r := (List.nodup_cons.1 hnd).1
    have hlast : (b :: r).getLast? = some ((b :: r).getLast (List.cons_ne_nil b r)) := List.getLast?_eq_some_getLast _
    rw [List.getLast?_cons_cons, hlast, List.head?_cons]
    refine ⟨fun h => absurd ?_ ha, fun h => absurd h (by simp)⟩
    rw [Option.some.inj h]
    exact List.getLast_mem _

/-- Start takes the lowest free helper, unless a dispatch is due that takes the only one (R127, R132). -/
theorem Tile.startFree_eq (x : Tile) :
    x.startFree = if x.canDispatch = true ∧ x.freeHelpers.length = 1 then none else x.freeHelpers.head? := by
  rw [startFree, lowFree_eq_head, highFree_eq_getLast]
  by_cases hne : x.freeHelpers = []
  · simp [hne]
  · have hnd : x.freeHelpers.Nodup := (List.nodup_range' (step := 1)).filter _
    simp only [Bool.and_eq_true, beq_iff_eq, head_eq_getLast_iff_of_nodup hnd hne]

theorem startContext : Claims.StartContext := by
  intro rd ra rb wa wb i n
  refine ⟨completesIf_of_issue (execStartCtx rd ra rb wa wb) (fun _ => rfl) (fun _ => rfl) fun v s hw => ?_,
    trapsIf_of_issue (execStartCtx rd ra rb wa wb) (fun _ => rfl) (fun _ => rfl) fun v s hw => if_pos (by rwa [fld_low_two])⟩
  have hfree := Tile.startFree_eq s.curTile
  unfold Tile.freeHelpers at hfree
  simp only [fld_low_two, hw, ne_eq, not_true_eq_false, if_false, ← hfree]
  cases s.curTile.startFree <;> rfl

theorem endAndYield : Claims.EndAndYield :=
  ⟨completesIf_of_issue execEndCtx (fun _ => rfl) (fun _ => rfl) fun _ _ h => if_neg h,
    trapsIf_of_issue execEndCtx (fun _ => rfl) (fun _ => rfl) fun _ _ h => if_pos h,
    completes_of_issue execYield (fun _ => rfl) (fun _ => rfl) fun _ _ => rfl⟩

/-- Settles O38: the helper that start takes is the lowest free one, less the one that dispatch has first; end and yield are what the model runs. -/
theorem contexts : Obligations.Contexts := ⟨startContext, endAndYield⟩

end Sys2Proof.Machine
end

section
/-! SUPPORT. Taking a trap in each mode, the notice beside it, and the return (R116 to R120, R409, R446). -/
namespace Sys2Proof.Machine

/-! ### The notice beside a trap (R409, R446) -/

/-- An event of a tile is named and put on its way, and nothing else happens (R314). -/
theorem State.tileEvent_eq (s : State) (t code flags scol srow : Nat) (a0 a1 : Word) :
    ∃ n e a, s.tileEvent t code flags scol srow a0 a1 = { s with nextId := n, events := e, agenda := a } := by
  unfold State.tileEvent
  dsimp only
  split
  · exact ⟨_, _, _, rfl⟩
  · exact ⟨_, _, _, rfl⟩

theorem State.notice_eq (s : State) (code : Nat) (tval : Word) :
    ∃ n e a, s.notice code tval = { s with nextId := n, events := e, agenda := a } := by
  unfold State.notice
  dsimp only
  split
  · split
    · exact State.tileEvent_eq _ _ _ _ _ _ _ _
    · exact ⟨_, _, _, rfl⟩
  · split
    · generalize decode s.slot.word = w
      split
      · exact State.tileEvent_eq _ _ _ _ _ _ _ _
      · exact ⟨_, _, _, rfl⟩
    · exact ⟨_, _, _, rfl⟩

/-- No other code has a notice. -/
theorem State.notice_none (s : State) {code : Nat} (tval : Word) (hr : code ≠ 0x17) (hs : code ≠ 0x26) : s.notice code tval = s := by
  simp only [State.notice, hr, hs, if_false]

/-- The stream fault tells of the first ended stream of the status that the reader met (R341). -/
theorem State.notice_stream {s : State} {n : Nat} {tval : Word} (hn : n < 4)
    (hends : 3 ≤ (s.curTile.stream n).state ∧ (s.curTile.stream n).role = 1 ∧ (s.curTile.stream n).status = tval)
    (hfirst : ∀ k < n, ¬(3 ≤ (s.curTile.stream k).state ∧ (s.curTile.stream k).role = 1 ∧ (s.curTile.stream k).status = tval)) :
    s.notice 0x26 tval = s.streamEnded s.slot.site n := by
  have hfind : (List.range 4).find? (fun n => decide (3 ≤ (s.curTile.stream n).state) && (s.curTile.stream n).role == 1 &&
      (s.curTile.stream n).status == tval) = some n := by
    simp only [List.find?_range_eq_some, Bool.and_eq_true, decide_eq_true_eq, beq_iff_eq, Bool.not_eq_true', Bool.eq_false_iff, ne_eq, and_assoc]
    exact ⟨hends.1, hends.2.1, hends.2.2, List.mem_range.2 hn, hfirst⟩
  simp only [State.notice, if_true, hfind]

/-! ### The context that traps (R117, R176) -/

/-- The context that traps, its record written and its frame suspended (R117, R182). -/
def State.recorded (s : State) (epc : Word) (code : Nat) (tval : Word) : Ctx :=
  (if s.slot.framed then s.cur.suspend else s.cur).record s.slot epc code tval

theorem State.recorded_eq (s : State) (epc : Word) (code : Nat) (tval : Word) : ∃ f, s.recorded epc code tval =
    { s.cur with frame := f, tepc := epc, tcause := BitVec.ofNat 64 (code % 256 + (if s.slot.pair then 256 else 0)), tval := tval,
                 tword := (if s.slot.pair then s.slot.word2 else 0#32) ++ s.slot.word, tstat := if s.cur.mon then 1 else 0 } := by
  unfold State.recorded Ctx.suspend
  split
  · split
    · exact ⟨_, rfl⟩
    · exact ⟨_, rfl⟩
  · exact ⟨_, rfl⟩

/-! ### In user mode (R116 to R118) -/

theorem Tile.ctx_detach (x : Tile) (c : Nat) : x.detach.ctx c = x.ctx c := by
  unfold Tile.detach
  split
  · rfl
  · rfl

/-- A trap in user mode changes the tile alone, and of its contexts the one that traps: it enters monitor mode at MTVEC with its record written. -/
theorem State.takeTrapAt_user {s : State} (epc : Word) (code : Nat) (tval : Word) (h : s.cur.mon = false) :
    ∃ y, s.takeTrapAt epc code tval = s.setTile s.slot.site y ∧
      y.ctx s.slot.ctx = { s.recorded epc code tval with mon := true, pc := s.curTile.mtvec, state := .live, stepDue := false, yielded := false, mgs := [] } ∧
      ∀ c, c ≠ s.slot.ctx → y.ctx c = s.ctx s.slot.site c := by
  have hmon : ¬(s.ctx s.slot.site s.slot.ctx).mon = true := Bool.eq_false_iff.1 h
  refine ⟨_, if_neg hmon, ?_, fun c hc => ?_⟩
  · dsimp only
    split
    · exact (Tile.ctx_detach _ _).trans (Tile.ctx_setCtx_same _ _ _)
    · exact Tile.ctx_setCtx_same _ _ _
  · dsimp only
    split
    · exact (Tile.ctx_detach _ _).trans (Tile.ctx_setCtx_ne _ _ hc)
    · exact Tile.ctx_setCtx_ne _ _ hc

/-- The context at hand after a trap in user mode (R117, R118). -/
theorem State.cur_takeTrapAt_user {s : State} (epc : Word) (code : Nat) (tval : Word) (h : s.cur.mon = false) :
    ∃ f, (s.takeTrapAt epc code tval).cur =
      { s.cur with frame := f, tepc := epc, tcause := BitVec.ofNat 64 (code % 256 + (if s.slot.pair then 256 else 0)), tval := tval,
                   tword := (if s.slot.pair then s.slot.word2 else 0#32) ++ s.slot.word, tstat := 0, mon := true, pc := s.curTile.mtvec, state := .live,
                   stepDue := false, yielded := false, mgs := [] } := by
  obtain ⟨y, hy, hcur, -⟩ := State.takeTrapAt_user epc code tval h
  obtain ⟨f, hf⟩ := State.recorded_eq s epc code tval
  refine ⟨f, ?_⟩
  rw [hy, State.cur, State.setTile_slot, State.ctx, State.tile_setTile_same, hcur, hf, h]
  rfl

theorem trapEntry : Claims.TrapEntry := by
  constructor
  · intro s n hn ends hends hfirst e
    rw [State.takeTrap, State.notice_stream hn hends hfirst, State.streamEnded, State.streamEvent,
      show (0 : BitVec 32).toNat = 0 from rfl, Nat.zero_add]
    rfl
  · intro s code tval hmon t
    obtain ⟨n, ev, a, hq⟩ := State.notice_eq s code tval
    have hmonq : (s.notice code tval).cur.mon = false := by rw [hq]; exact hmon
    obtain ⟨y, hy, -, hctx⟩ := State.takeTrapAt_user s.slot.addr code tval hmonq
    obtain ⟨f, hcur⟩ := State.cur_takeTrapAt_user s.slot.addr code tval hmonq
    have ht : t = (s.notice code tval).takeTrapAt s.slot.addr code tval := rfl
    rw [ht, hcur, hy, hq]
    refine ⟨rfl, rfl, rfl, rfl, rfl, rfl, rfl, rfl, rfl, rfl, rfl, rfl, rfl, rfl, rfl, rfl, rfl, rfl, fun u c huc => ?_, rfl, rfl, rfl, rfl, fun hr hs => ?_⟩
    · rw [hq] at hctx
      by_cases hu : u = s.slot.site
      · subst hu
        rw [State.ctx, State.tile_setTile_same]
        exact hctx c fun hc => huc ⟨rfl, hc⟩
      · rw [State.ctx, State.tile_setTile_ne _ _ hu]
        rfl
    · rw [← hq, State.notice_none s tval hr hs]
      exact ⟨rfl, rfl⟩

/-! ### In monitor mode (R120) -/

/-- What a report of a region leaves: the slices and edge memory, the tiles, and the word that is issuing. -/
structure KeepsTiles (s t : State) : Prop where
  low : ∀ k, k < sysKey 0 → Memory.byte t.mem k = Memory.byte s.mem k
  tiles : t.tiles = s.tiles
  slot : t.slot = s.slot

theorem Quiet.keepsTiles {s t : State} (h : Quiet s t) : KeepsTiles s t := ⟨h.low, h.tiles, h.slot⟩

theorem KeepsTiles.refl (s : State) : KeepsTiles s s := ⟨fun _ _ => rfl, rfl, rfl⟩

theorem KeepsTiles.trans {s t u : State} (h : KeepsTiles s t) (g : KeepsTiles t u) : KeepsTiles s u :=
  ⟨fun k hk => (g.low k hk).trans (h.low k hk), g.tiles.trans h.tiles, g.slot.trans h.slot⟩

theorem KeepsTiles.tile {s t : State} (h : KeepsTiles s t) (u : Nat) : t.tile u = s.tile u := by
  rw [State.tile, State.tile, h.tiles]

theorem keepsTiles_addCause1 (s : State) (r c status : Nat) : KeepsTiles s (s.addCause1 r c status) := by
  unfold State.addCause1
  dsimp only
  split
  · split
    · exact ⟨fun _ _ => rfl, rfl, rfl⟩
    · refine KeepsTiles.trans ?_ (quiet_event _ _ _ _ _ _ _ _ _ _).keepsTiles
      exact ⟨fun _ _ => rfl, rfl, rfl⟩
  · exact .refl s

theorem keepsTiles_faultDomain (s : State) (r : Nat) : KeepsTiles s (s.faultDomain r) := by
  have hfold : ∀ (d : Nat) (l : FMap Region) (s : State),
      KeepsTiles s (l.foldl (fun s e => if e.1 ≠ r ∧ e.2.fdom = d then s.addCause1 e.1 1 0 else s) s) := by
    intro d l
    induction l with
    | nil => exact KeepsTiles.refl
    | cons e l ih =>
      intro s
      refine KeepsTiles.trans ?_ (ih _)
      dsimp only
      split
      · exact keepsTiles_addCause1 _ _ _ _
      · exact .refl s
  unfold State.faultDomain
  dsimp only
  split
  · exact .refl s
  · exact hfold _ _ s

theorem keepsTiles_addCause (s : State) (r c : Nat) : KeepsTiles s (s.addCause r c) := by
  unfold State.addCause
  dsimp only
  split
  · exact (keepsTiles_addCause1 _ _ _ _).trans (keepsTiles_faultDomain _ _)
  · exact keepsTiles_addCause1 _ _ _ _

/-- A context when its tile halts (R120). -/
def Ctx.halt (x : Ctx) : Ctx := if x.state = .live ∨ x.state = .faultWait then { x with state := .halted } else x

theorem Ctx.halt_eq (x : Ctx) : ∃ m, x.halt = { x with state := m } := by
  unfold Ctx.halt
  split
  · exact ⟨_, rfl⟩
  · exact ⟨_, rfl⟩

theorem Ctx.state_halt_of_runs {x : Ctx} (h : x.state = .live ∨ x.state = .faultWait) : x.halt.state = .halted := by
  rw [Ctx.halt, if_pos h]

theorem Ctx.halt_of_done {x : Ctx} (h : x.state = .free ∨ x.state = .draining) : x.halt = x := by
  refine if_neg ?_
  obtain h | h := h <;> rw [h] <;> decide

theorem Tile.ctx_halt (x : Tile) (c : Nat) : x.halt.ctx c = (x.ctx c).halt := fget_map (f := Ctx.halt) rfl _ _

/-- A trap in monitor mode halts the tile, the record of the context written; its reports to the islands leave every tile (R120, R404). -/
theorem State.takeTrapAt_monitor {s : State} (epc : Word) (code : Nat) (tval : Word) (h : s.cur.mon = true) :
    KeepsTiles (s.updTile s.slot.site (fun z => (z.setCtx s.slot.ctx (s.recorded epc code tval)).halt)) (s.takeTrapAt epc code tval) := by
  have heq : s.takeTrapAt epc code tval = _ := if_pos h
  rw [heq]
  exact (quiet_tileEvent _ _ _ _ _ _ _ _).keepsTiles.trans (keepsTiles_addCause _ _ _)

/-- The tile of a trap in monitor mode. -/
theorem State.tile_takeTrapAt_monitor {s : State} (epc : Word) (code : Nat) (tval : Word) (h : s.cur.mon = true) :
    (s.takeTrapAt epc code tval).tile s.slot.site = (s.curTile.setCtx s.slot.ctx (s.recorded epc code tval)).halt :=
  ((State.takeTrapAt_monitor epc code tval h).tile _).trans (State.tile_updTile_same _ _ _)

theorem monitorTrapHalts : Claims.MonitorTrapHalts := by
  intro s code tval hmon t
  obtain ⟨n, ev, a, hq⟩ := State.notice_eq s code tval
  have ht : t = ({ s with nextId := n, events := ev, agenda := a } : State).takeTrapAt s.slot.addr code tval := by rw [← hq]; rfl
  have hmonq : ({ s with nextId := n, events := ev, agenda := a } : State).cur.mon = true := hmon
  have hkeep := State.takeTrapAt_monitor s.slot.addr code tval hmonq
  have htile := State.tile_takeTrapAt_monitor s.slot.addr code tval hmonq
  rw [← ht] at hkeep htile
  have hctx : ∀ c, c ≠ s.slot.ctx → t.ctx s.slot.site c = (s.ctx s.slot.site c).halt := fun c hc => by
    rw [State.ctx, htile, Tile.ctx_halt, Tile.ctx_setCtx_ne _ _ hc]
    rfl
  refine ⟨?_, hkeep.low, fun c hc hrun => ?_, fun c hc hdone => ?_, fun u c hu => ?_⟩
  · rw [State.curTile, hkeep.slot]
    exact congrArg Tile.halted htile
  · rw [hctx c hc, Ctx.state_halt_of_runs hrun]
  · rw [hctx c hc, Ctx.halt_of_done hdone]
  · rw [State.ctx, hkeep.tile, State.tile_updTile_ne _ _ hu]
    rfl

/-! ### The return (R116, R119) -/

/-- All that a return touches of a context: the mode and the pc, the states of the monitor registers in user mode, SKIP and a suspended frame (R119, R447). -/
theorem Ctx.returnFromTrap_eq (x : Ctx) : ∃ f, x.returnFromTrap =
    { x with mon := bit x.tstat 0, pc := x.tepc, skip := bit x.dbgctl 6, mgs := if bit x.tstat 0 then x.mgs else [], frame := f } := by
  unfold Ctx.returnFromTrap
  dsimp only
  split
  · split
    · exact ⟨_, rfl⟩
    · exact ⟨_, rfl⟩
  · exact ⟨_, rfl⟩

/-- Before an instruction without registers nothing is taken and no mark rises. -/
theorem Need.take_bare {n : Need} (hs : n.srcs = []) (hd : n.dsts = []) (s : State) : n.take s = s.updCur id := by
  rw [Need.take_noSrcs hs, Need.named, hs, hd]
  rfl

theorem Need.cur_take_bare {n : Need} (hs : n.srcs = []) (hd : n.dsts = []) (s : State) : (n.take s).cur = s.cur := by
  rw [Need.take_bare hs hd, State.cur_updCur, id]

/-- The count of instructions is none of a context's (R442). -/
theorem State.cur_tally (s : State) : s.tally.cur = s.cur := by
  rw [State.tally, State.updCurTile, State.cur, State.updTile_slot]
  exact (keepsCtxs_updTile s s.slot.site rfl).ctx _ _

/-- Before a return nothing is outstanding into a monitor register (R119). -/
theorem not_any_pending {m : FMap RegState} (h : m.all (fun e => !e.2.isPending) = true) : ¬m.any (fun e => e.2.isPending) = true := by
  rw [List.all_eq_not_any_not] at h
  simpa using h

/-- What mret names: no register, and monitor mode (R119). -/
def mretNeed : Need := { wf := Instr.mret.wf, priv := true }

/-- In monitor mode with no producer outstanding a return goes to TEPC where that is a word's address (R119). -/
theorem exec_mret {s : State} (hmon : s.cur.mon = true) (hpend : s.cur.mgs.all (fun e => !e.2.isPending) = true) :
    exec .mret s = if s.cur.tepc.toNat % 4 = 0 then .next ((mretNeed.take s).updCur Ctx.returnFromTrap).tally
      else .next (s.takeTrap 0x03 s.cur.tepc) := by
  have hready : mretNeed.ready s = true := ready_none rfl (fun _ => hmon) rfl rfl rfl rfl
  have hcur : (mretNeed.take s).cur = s.cur := Need.cur_take_bare rfl rfl s
  refine (show exec .mret s = execMret s from rfl).trans ((issue_ready (n := mretNeed) _ hready).trans ?_)
  simp only [hcur, if_neg (not_any_pending hpend), fld_low_two]
  by_cases hw : s.cur.tepc.toNat % 4 = 0
  · simp only [hw, ne_eq, not_true_eq_false, if_false, if_true]
  · simp only [hw, ne_eq, not_false_eq_true, if_true, if_false, trap]

theorem monitorReturn : Claims.MonitorReturn := by
  refine ⟨fun s hmon hpend hw => ⟨_, (exec_mret hmon hpend).trans (if_pos hw), ?_⟩, fun s hmon hpend hw => (exec_mret hmon hpend).trans (if_neg hw),
    fun s hmon => exec_eq_trap_of_privileged execMret (fun _ => rfl) (fun _ => rfl) rfl rfl rfl hmon⟩
  obtain ⟨f, hret⟩ := Ctx.returnFromTrap_eq s.cur
  have hcur : (mretNeed.take s).cur = s.cur := Need.cur_take_bare rfl rfl s
  rw [State.cur_tally, State.cur_updCur, hcur, hret]
  exact ⟨rfl, rfl, rfl, rfl, rfl, rfl, rfl, rfl, Need.mem_take_noSrcs rfl s⟩

/-- Settles O39: a trap in user mode changes the context that takes it, in monitor mode it halts the tile, and a return restores the mode and the pc. -/
theorem trapEntries : Obligations.TrapEntries := ⟨trapEntry, monitorTrapHalts, monitorReturn⟩

/-! ### The traps that an instruction asks for (R129) -/

/-- The word of such an instruction: its operand stands in rb (R54, R129). -/
theorem trapWord_eq (n : BitVec 6) {fn : BitVec 6} {low : BitVec 8} (h : low.toNat = fn.toNat) :
    0x11#6 ++ 0#12 ++ n ++ 0#2 ++ fn = 17#6 ++ 0#12 ++ n ++ low := by
  refine BitVec.eq_of_toNat_eq ?_
  simp only [toNat_append_eq, h, BitVec.toNat_ofNat]
  omega

/-- The word of each row decodes to it, and each raises its own code. -/
theorem exec_trapRow {f : BitVec 6 → Instr} {fn : BitVec 6} {code : Nat}
    (h : (f, fn, code) ∈ ([(Instr.trapN, 0x03, 0x06), (Instr.sysc, 0x04, 0x07), (Instr.brk, 0x08, 0x08)] : List ((BitVec 6 → Instr) × BitVec 6 × Nat)))
    (n : BitVec 6) : decode (0x11#6 ++ 0#12 ++ n ++ 0#2 ++ fn) = .ok (f n) ∧ (∀ s, exec (f n) s = raiseTrap (f n) code n s) ∧ (f n).wf = true ∧ code < 256 := by
  simp only [List.mem_cons, Prod.mk.injEq, List.not_mem_nil, or_false] at h
  obtain ⟨rfl, rfl, rfl⟩ | ⟨rfl, rfl, rfl⟩ | ⟨rfl, rfl, rfl⟩ := h
  all_goals exact ⟨decodeEncode _ _ rfl (congrArg some (trapWord_eq n rfl).symm), fun _ => rfl, rfl, by decide⟩

theorem State.curTile_updCur (s : State) (f : Ctx → Ctx) : (s.updCur f).curTile = s.curTile.setCtx s.slot.ctx (f s.cur) :=
  State.tile_setTile_same _ _ _

/-- Nothing is asked before the trap is taken, at the next instruction's address. -/
theorem raiseTrap_eq {i : Instr} (hw : i.wf = true) (code : Nat) (n : BitVec 6) (s : State) :
    raiseTrap i code n s = .next ((s.updCur id).takeTrapAt s.nextAddr code (n.zeroExtend 64)) := by
  have hready : ({ wf := i.wf } : Need).ready s = true := ready_none (by rw [Need.illegal, hw]; rfl) nofun rfl rfl rfl rfl
  refine issue_ok hready ?_
  rw [Need.take_bare rfl rfl]
  rfl

theorem State.nextAddr_word {s : State} (h : s.slot.pair = false) : s.nextAddr = s.slot.addr + 4 := by
  rw [State.nextAddr, Slot.size, h]
  rfl

/-- TWORD of a word that is no pair (R117). -/
theorem zero_append_word (w : BitVec 32) : (0#32 ++ w : BitVec 64) = BitVec.ofNat 64 w.toNat := by
  refine BitVec.eq_of_toNat_eq ?_
  rw [toNat_append_eq, BitVec.toNat_ofNat, BitVec.toNat_ofNat]
  omega

/-- Settles O9: each takes its trap at the next instruction, in user mode into monitor mode, in monitor mode halting the tile. -/
theorem trapInstructions : Obligations.TrapInstructions := by
  intro f fn code hrow n s hpair
  obtain ⟨hdecode, hexec, hw, hcode⟩ := exec_trapRow hrow n
  have hraise : exec (f n) s = .next ((s.updCur id).takeTrapAt (s.slot.addr + 4) code (BitVec.ofNat 64 n.toNat)) := by
    rw [hexec, raiseTrap_eq hw, State.nextAddr_word hpair, BitVec.ofNat_toNat]
  have hcur : (s.updCur id).cur = s.cur := State.cur_updCur s id
  have hslot : (s.updCur id).slot = s.slot := State.updCur_slot s id
  refine ⟨hdecode, fun hmon => ⟨_, hraise, ?_⟩, fun hmon => ⟨_, hraise, ?_⟩⟩
  · have hmonq : (s.updCur id).cur.mon = false := hcur ▸ hmon
    obtain ⟨y, hy, -⟩ := State.takeTrapAt_user (s.slot.addr + 4) code (BitVec.ofNat 64 n.toNat) hmonq
    obtain ⟨fr, hf⟩ := State.cur_takeTrapAt_user (s.slot.addr + 4) code (BitVec.ofNat 64 n.toNat) hmonq
    rw [hf, hcur, hslot, hpair, hy]
    refine ⟨rfl, ?mtvec, rfl, rfl, ?tcause, ?tword, rfl, rfl, rfl, rfl, rfl, rfl⟩
    case mtvec => exact (State.curTile_updCur s id) ▸ rfl
    case tcause => simp [Nat.mod_eq_of_lt hcode]
    case tword => exact zero_append_word s.slot.word
  · have hmonq : (s.updCur id).cur.mon = true := hcur ▸ hmon
    have hkeep := State.takeTrapAt_monitor (s.slot.addr + 4) code (BitVec.ofNat 64 n.toNat) hmonq
    have htile := State.tile_takeTrapAt_monitor (s.slot.addr + 4) code (BitVec.ofNat 64 n.toNat) hmonq
    rw [hslot] at htile
    obtain ⟨fr, hf⟩ := State.recorded_eq (s.updCur id) (s.slot.addr + 4) code (BitVec.ofNat 64 n.toNat)
    obtain ⟨m, hm⟩ := Ctx.halt_eq ((s.updCur id).recorded (s.slot.addr + 4) code (BitVec.ofNat 64 n.toNat))
    rw [State.curTile, State.cur, hkeep.slot, State.updTile_slot, hslot, State.ctx, htile, Tile.ctx_halt, Tile.ctx_setCtx_same, hm, hf]
    exact ⟨rfl, rfl, rfl, hkeep.low⟩

end Sys2Proof.Machine
end

section
/-! SUPPORT. The steps of transfer commands (R313, R326 to R333). -/
namespace Sys2Proof.Machine

theorem Queues.vc3Turn_iff (q : Queues) (e : Ret) :
    q.vc3Turn e = true ↔ ∀ y ∈ q.before e.id, y.body.vc = 3 → y.state = .flying → y.dst ≠ e.dst := by
  simp only [vc3Turn, Bool.not_eq_true', List.any_eq_false, Bool.and_eq_true, beq_iff_eq, decide_eq_true_eq, not_and]
  exact ⟨fun h y hy hvc hfly hdst => h y hy ⟨hvc, hdst⟩ hfly, fun h y hy hyd hfly => h y hy hyd.1 hfly hyd.2⟩

theorem State.standsStill_eq_false_iff (s : State) (d : Dst) : s.standsStill d = false ↔ ∀ u, d = .tile u → (s.tile u).halted = false := by
  cases d <;> simp [standsStill]

theorem State.readReady_iff (s : State) (t : Nat) (e : Ret) :
    s.readReady t e = true ↔ e.state = .flying ∧ s.goesNowhere e.dst = false ∧ (∃ o n, e.body = .xread o n) ∧ (s.tile t).q.vc3Turn e = true := by
  unfold readReady
  cases e.body with
  | xread o n => simp [and_assoc]
  | _ => simp

theorem State.segReady_iff (s : State) (t : Nat) (e : Ret) : s.segReady t e = true ↔ e.unitReady = true ∧
    (e.state = .flying → s.goesNowhere e.dst = false ∧ (∀ u, e.dst = .tile u → (s.tile u).halted = false) ∧ (s.tile t).q.vc3Turn e = true) := by
  rw [← State.standsStill_eq_false_iff]
  simp only [segReady, Bool.and_eq_true, Bool.not_eq_true', Bool.and_eq_false_iff, Bool.or_eq_false_iff, decide_eq_false_iff_not, Bool.not_eq_false',
    and_assoc, imp_iff_not_or]

/-- A queued command that may start runs, and a local copy has its first segment due (R331). -/
theorem exec_transferStart_starts {s : State} {e : XCmd}
    (hrun : (s.tile s.ev.a).xfer.find? (fun e => decide (s.xkind s.ev.a e ≠ .localCopy) && e.state == 1 && e.code == 0 && decide (e.progress < e.len)) = none)
    (hq : (s.tile s.ev.a).xfer.find? (fun e => e.state == 0) = some e) (hstop : (s.tile s.ev.a).stopping = false) (hmay : s.mayStart s.ev.a e = true) :
    exec .transferStart s = .next ((if (s.setXfer s.ev.a { e with state := 1 }).xkind s.ev.a e = .localCopy
      then (s.setXfer s.ev.a { e with state := 1 }).later .transferSegment { a := s.ev.a } else s.setXfer s.ev.a { e with state := 1 }).later
        .transferStart { a := s.ev.a }) := by
  have hgo : ¬((s.tile s.ev.a).stopping = true ∨ (!s.mayStart s.ev.a e) = true) := by simp [hstop, hmay]
  change execTransferStart s = _
  simp only [execTransferStart, hrun, hq, if_neg hgo]
  split
  · rfl
  · rfl

/-- A running command sends its next unit (R329). -/
theorem exec_transferStart_sends {s r : State} {e : XCmd}
    (hrun : (s.tile s.ev.a).xfer.find? (fun e => decide (s.xkind s.ev.a e ≠ .localCopy) && e.state == 1 && e.code == 0 && decide (e.progress < e.len)) = some e)
    (hstop : (s.tile s.ev.a).stopping = false) (hsend : s.sendUnit s.ev.a e = .go r) :
    exec .transferStart s = .next (r.later .transferStart { a := s.ev.a }) := by
  change execTransferStart s = _
  simp only [execTransferStart, hrun, hstop, Bool.false_eq_true, if_false, hsend]

/-- A pull's read request gives the bytes that it names, or the error of a word among them (R212, R329). -/
theorem exec_transferReadRequest_serves {s : State} {e : Ret} {o n u : Nat} (he : (s.tile s.ev.a).q.ret.find? (s.readReady s.ev.a) = some e)
    (hbody : e.body = .xread o n) (hdst : e.dst = .tile u) (hseal : s.sealHit s.ev.a e.dst = none) :
    exec .transferReadRequest s = if s.uncorrectable u o n then .next (s.answered s.ev.a e { code := 0x16 })
      else .next ((s.countCec u (s.correctables u o n)).answered s.ev.a e { data := s.spmRead u o n }) := by
  change execTransferReadRequest s = _
  simp only [execTransferReadRequest, he, hseal]
  simp only [hbody, hdst]

/-- A pushed segment is written at its tile, and counts at the barrier that its command names (R329, R330). -/
theorem exec_transferSegment_writes {s : State} {e : Ret} {y : XCmd} {o n d u c off m : Nat}
    (he : (s.tile s.ev.a).q.ret.find? (s.segReady s.ev.a) = some e) (hbody : e.body = .seg o n d) (hsink : e.sink = .xfer c off m) (hdst : e.dst = .tile u)
    (hseal : s.sealHit s.ev.a e.dst = none) (hy : (s.tile s.ev.a).xfer.find? (fun y => y.id == c) = some y) :
    exec .transferSegment s =
      .next ((if y.bar then (s.writeUnit u o n d).arrive u y.bnum n 0 none false else s.writeUnit u o n d).answered s.ev.a e {}) := by
  rw [hdst] at hseal
  change execTransferSegment s = _
  simp only [execTransferSegment, he, hbody, hsink, hdst, hseal, hy]

/-- A command without a claim that has succeeded leaves its record (R331). -/
theorem exec_transferComplete_records {s : State} {e : XCmd}
    (he : (s.tile s.ev.a).xfer.find? (fun e => e.state == 1 && (e.code != 0 || decide (e.len ≤ e.progress)) && !(s.tile s.ev.a).unitsOut e.id) = some e)
    (hcode : e.code = 0) (hclaim : e.claimed = false) (hdrop : e.drop = false) (hquiet : e.quiet = false) :
    exec .transferComplete s = .next (((s.setXfer s.ev.a { e with state := 2, record := e.recordWord, xl := none, walk := 0 }).updTile s.ev.a
      (fun x => { x with xhold := x.xhold || false })).later .transferStart { a := s.ev.a }) := by
  have herr : (e.code != 0) = false := by rw [hcode]; rfl
  rw [XCmd.quiet] at hquiet
  change execTransferComplete s = _
  simp only [execTransferComplete, he, herr, hclaim, hdrop, XCmd.quiet, hquiet, Bool.false_eq_true, and_false, if_false, Bool.or_false, Bool.false_and]

/-- Settles O27: each step is what its event answers in that case. -/
theorem transferEvents : Obligations.TransferEvents := by
  refine ⟨fun s e => ?_, fun s e r => ?_, State.readReady_iff, State.segReady_iff, Queues.vc3Turn_iff, fun s e o n u => exec_transferReadRequest_serves,
    fun s e o n d u c off m he hbody hsink hdst hseal y hy => exec_transferSegment_writes he hbody hsink hdst hseal hy, fun s e hready hcopy => ?_,
    fun s e => exec_transferComplete_records⟩
  · exact exec_transferStart_starts
  · exact exec_transferStart_sends
  · change execTransferSegment s = _
    simp only [execTransferSegment, hready, hcopy]

end Sys2Proof.Machine
end

section
/-! SUPPORT. The steps of streams (R120, R337 to R344, R445). -/
namespace Sys2Proof.Machine

/-! ### Arrivals (R120, R317, R431) -/

theorem State.entry_of_flying {s : State} {t id : Nat} {m : Ret} (h : s.flying t id = some m) : s.entry t id = some m ∧ m.state = .flying := by
  unfold State.flying at h
  split at h
  next e he =>
    split at h
    next hfly =>
      obtain rfl := Option.some.inj h
      exact ⟨he, of_decide_eq_true (Bool.and_eq_true_iff.1 hfly).1⟩
    next => exact nomatch h
  next => exact nomatch h

theorem atHome_opened {s : State} {m : Ret} (k : Ret → Out) (hm : s.flying s.ev.a s.ev.b = some m) (hseal : s.sealHit s.ev.a m.dst = none) :
    atHome s k = k m := by
  simp only [atHome, hm, hseal]

/-- A go or an abort that the hack has kept back goes after it (R342). -/
theorem signalHome_formed {s : State} {e : Ret} (k : Ret → Out) (he : s.entry s.ev.a s.ev.b = some e) (hform : e.state = .formed)
    (hstop : (s.tile s.ev.a).stopping = false) : signalHome s k = .next (s.launch s.ev.a e) := by
  simp only [signalHome, he, hform, hstop, if_true, Bool.false_eq_true, if_false]

/-- It stays with its source before a halted tile (R120). -/
theorem signalHome_halted {s : State} {e : Ret} {u : Nat} (k : Ret → Out) (he : s.entry s.ev.a s.ev.b = some e) (hform : e.state ≠ .formed)
    (hdst : e.dst = .tile u) (hhalt : (s.tile u).halted = true) : signalHome s k = notYet s := by
  simp only [signalHome, he, hform, if_false, State.standsStill, hdst, hhalt, if_true]

theorem signalHome_opened {s : State} {m : Ret} {u : Nat} (k : Ret → Out) (hm : s.flying s.ev.a s.ev.b = some m) (hdst : m.dst = .tile u)
    (hhalt : (s.tile u).halted = false) (hseal : s.sealHit s.ev.a m.dst = none) : signalHome s k = k m := by
  obtain ⟨he, hfly⟩ := State.entry_of_flying hm
  have hform : m.state ≠ .formed := by rw [hfly]; decide
  have hstill : s.standsStill m.dst = false := by rw [hdst]; exact hhalt
  simp only [signalHome, he, hform, hstill, if_false, Bool.false_eq_true, atHome_opened k hm hseal]

theorem backHome_opened {s : State} {e : Ret} (kind : Nat) (k : State → Ret → Out) (h : s.sealHitBack s.ev.a e.dst = none ∨ e.code = 0x32) :
    backHome s e kind k = k s { e with backFails := 0 } := by
  have hopen : (if e.code = 0x32 then none else s.sealHitBack s.ev.a e.dst) = none := by
    split
    · rfl
    next hcode => exact h.resolve_right hcode
  simp only [backHome, hopen]

/-! ### The end of a stream (R340, R445) -/

theorem State.failLine_eq (s : State) (t n : Nat) {code : BitVec 8} (a : Word) (h : code ≠ 0x15) :
    s.failLine t n code a = (s.streamEvent t n ((s.tile t).stream n) a 0).failSource t n code := by
  rw [State.failLine, if_neg h]

/-- Settles O28: each step is what its event answers in that case. -/
theorem streamEvents : Obligations.StreamEvents := by
  refine ⟨?digest, ?failed, ?kept, ?go, ?abort, fun s t n code a => State.failLine_eq s t n a, ?lineFailed, ?inject, ?line, ?message⟩
  case digest =>
    intro s m u col row tag d n hm hbody hdst hseal hend e hstate hturn
    have hopen := (show exec .streamDigest s = execStreamDigest s from rfl).trans (atHome_opened _ hm hseal)
    simp only [hbody, hdst, hend, hturn, Bool.false_eq_true, if_false] at hopen
    have hfailed : ¬e.state = 4 := by rw [hstate]; decide
    have hwaits := hopen.trans ((if_neg hfailed).trans (if_neg (not_not.2 hstate)))
    refine ⟨fun hd => hwaits.trans (if_pos hd), fun hd => ⟨fun hall => ?_, fun hall => ?_⟩⟩
    · exact hwaits.trans ((if_neg (not_not.2 hd)).trans (if_neg (Bool.eq_false_iff.1 hall)))
    · exact hwaits.trans ((if_neg (not_not.2 hd)).trans (if_pos hall))
  case failed =>
    intro s m u col row tag d n hm hbody hdst hseal hend hstate hturn
    refine (show exec .streamDigest s = execStreamDigest s from rfl).trans ((atHome_opened _ hm hseal).trans ?_)
    simp only [hbody, hdst, hend, hturn, hstate, Bool.false_eq_true, if_false, if_true]
  case kept =>
    intro s e he
    exact ⟨fun hform hstop => ⟨signalHome_formed _ he hform hstop, signalHome_formed _ he hform hstop⟩,
      fun u hform hdst hhalt => ⟨signalHome_halted _ he hform hdst hhalt, signalHome_halted _ he hform hdst hhalt⟩⟩
  case go =>
    intro s m u col row tag d n hm hbody hdst hhalt hseal q hend e hstate
    have hopen := (show exec .streamGo s = execStreamGo s from rfl).trans (signalHome_opened _ hm hdst hhalt hseal)
    simp only [hbody, hdst, hend, q] at hopen
    have hwaits := hopen.trans (if_neg (not_not.2 hstate))
    exact ⟨fun hd => hwaits.trans (if_pos hd), fun hd => hwaits.trans (if_neg hd)⟩
  case abort =>
    intro s m u col row tag code closed n hm hbody hdst hhalt hseal q hend e hstate
    have hopen := (show exec .streamAbort s = execStreamAbort s from rfl).trans (signalHome_opened _ hm hdst hhalt hseal)
    have hrun : ¬(e.state ≠ 1 ∧ e.state ≠ 2) := by tauto
    obtain hend | ⟨hnone, hend⟩ := hend
    · simp only [hbody, hdst, q, hend] at hopen
      exact hopen.trans (if_neg hrun)
    · simp only [hbody, hdst, q, hnone, hend] at hopen
      exact hopen.trans (if_neg hrun)
  case lineFailed =>
    intro s e hstate hrole hcode
    have hruns : ¬(e.state ≠ 2 ∨ e.role ≠ 0) := by simp [hstate, hrole]
    exact (if_neg hruns).trans (if_pos hcode)
  case inject =>
    intro s e hstate hrole hcode hstop
    have hruns : ¬(e.state ≠ 2 ∨ e.role ≠ 0) := by simp [hstate, hrole]
    have hgoes : exec .streamMessageInject s = _ := (if_neg hruns).trans ((if_neg (not_not.2 hcode)).trans (if_neg (Bool.eq_false_iff.1 hstop)))
    refine ⟨fun hdone => hgoes.trans (if_pos hdone), fun hleft hfull hout hret hspent => ?_, ?_⟩
    · have hroom : ¬(4 ≤ (s.tile s.ev.a).messagesOut e.tag ∨ (s.tile s.ev.a).retFree = 0 ∨
          (s.streamTiles s.ev.a e e.scol).any (fun u => s.sealSpent s.ev.a (.tile u)) = true) := by
        rw [List.any_eq_true]
        rintro (h | h | ⟨u, hu, h⟩)
        · exact absurd hout (Nat.not_lt.2 h)
        · exact hret h
        · exact Bool.eq_false_iff.1 (hspent u hu) h
      exact hgoes.trans ((if_neg (Nat.not_le.2 hleft)).trans ((if_pos hfull).trans (if_neg hroom)))
    · intro y hleft hfull hask hret hrel a hxl
      have hready : ¬(e.asked.isSome = true ∨ (s.tile s.ev.a).retFree = 0 ∨ (!(s.tile s.ev.a).released e.ctx e.mark) = true) := by simp [hask, hret, hrel]
      refine hgoes.trans ((if_neg (Nat.not_le.2 hleft)).trans ((if_neg hfull).trans ((if_neg hready).trans ?_)))
      simp only [a, e] at hxl
      simp only [hxl, a, e]
  case line =>
    intro s r a n hr hback hbody t e hstate hasked
    have hexec := show exec .streamLineReply s = execStreamLineReply s from rfl
    unfold execStreamLineReply at hexec
    dsimp only at hexec
    split at hexec
    next hx => exact nomatch hx.symm.trans hr
    next x hx =>
      obtain rfl := Option.some.inj (hx.symm.trans hr)
      have hlive : ¬(e.state ≠ 2 ∨ e.asked ≠ some x.id) := by simp [hstate, hasked]
      have hasks := (hexec.trans (backHome_opened _ _ hback)).trans (if_neg hlive)
      simp only [hbody] at hasks
      exact ⟨fun hcode => hasks.trans (if_neg (not_not.2 hcode)), fun hcode => hasks.trans (if_pos hcode)⟩
  case message =>
    intro s m tag d acc ack n p hm hbody hacc hlost hhalt hstopped hseal hend hstate hport
    change execStreamMessage s = _
    simp only [execStreamMessage, hm, hbody, hacc, hlost, hhalt, hstopped, hseal, hend, hstate, hport, Bool.not_true, Bool.or_false, Bool.false_eq_true,
      if_false, ne_eq, not_true_eq_false]
    exact if_neg (fun h => absurd h.1 (by decide))

end Sys2Proof.Machine
end

section
/-! SUPPORT. The values of the scalar tables: what each operation of the model computes is what its row writes (R138 to R150). -/
namespace Sys2Proof.Machine

open Claims (fieldLen fieldBits extRow insRow clProduct)

/-! ### Shifts and rotations (R138, R141) -/

/-- The amount of a shift is the six low bits of its register. -/
theorem fld_low_six (b : Word) : fld b 0 6 = b.toNat % 64 := by simp [fld, natBits]

theorem shiftLeft_eq_ofNat_mul (a : Word) (n : Nat) : a <<< n = BitVec.ofNat 64 (a.toNat * 2 ^ n) := by
  apply BitVec.eq_of_toNat_eq
  rw [BitVec.toNat_shiftLeft, BitVec.toNat_ofNat, Nat.shiftLeft_eq]

theorem ushiftRight_eq_ofNat_div (a : Word) (n : Nat) : a >>> n = BitVec.ofNat 64 (a.toNat / 2 ^ n) := by
  apply BitVec.eq_of_toNat_eq
  rw [BitVec.toNat_ushiftRight, BitVec.toNat_ofNat, Nat.shiftRight_eq_div_pow, Nat.mod_eq_of_lt (Nat.lt_of_le_of_lt (Nat.div_le_self _ _) a.isLt)]

theorem sshiftRight_eq_ofInt_fdiv (a : Word) (n : Nat) : a.sshiftRight n = BitVec.ofInt 64 (a.toInt.fdiv (2 ^ n)) := by
  rw [BitVec.sshiftRight_eq, Int.shiftRight_eq_div_pow, Int.fdiv_eq_ediv_of_nonneg _ (by positivity), Nat.cast_pow, Nat.cast_ofNat]

theorem rotateLeft_eq_or (a : Word) {n : Nat} (h : n < 64) : a.rotateLeft n = (a <<< n) ||| (a >>> (64 - n)) := by
  rw [BitVec.rotateLeft_def, Nat.mod_eq_of_lt h]

/-! ### Sums, products and quotients (R138, R145, R146) -/

theorem abs_toInt_le (a : Word) : |a.toInt| ≤ 2 ^ 63 :=
  abs_le.mpr ⟨a.le_toInt, a.toInt_lt.le⟩

/-- The upper half of a signed product fits a register. -/
theorem toInt_mulHigh (a b : Word) : (BitVec.ofInt 64 ((a.toInt * b.toInt).fdiv (2 ^ 64))).toInt = (a.toInt * b.toInt) / 2 ^ 64 := by
  have hprod : |a.toInt * b.toInt| ≤ 2 ^ 63 * 2 ^ 63 :=
    (abs_mul _ _).trans_le (mul_le_mul (abs_toInt_le a) (abs_toInt_le b) (abs_nonneg _) (by positivity))
  obtain ⟨hlo, hhi⟩ := abs_le.mp hprod
  rw [Int.fdiv_eq_ediv_of_nonneg _ (by positivity)]
  exact BitVec.toInt_ofInt_eq_self (by decide) (by omega) (by omega)

theorem toNat_mulHigh (a b : Word) : (BitVec.ofNat 64 (a.toNat * b.toNat / 2 ^ 64)).toNat = a.toNat * b.toNat / 2 ^ 64 := by
  rw [BitVec.toNat_ofNat, Nat.mod_eq_of_lt]
  exact Nat.div_lt_of_lt_mul (Nat.mul_lt_mul'' a.isLt b.isLt)

theorem ofInt_toInt_add (a : Word) (x : Int) : BitVec.ofInt 64 (a.toInt + x) = a + BitVec.ofInt 64 x := by
  rw [BitVec.ofInt_add, BitVec.ofInt_toInt]

theorem ofInt_toInt_add_toInt (a b : Word) : BitVec.ofInt 64 (a.toInt + b.toInt) = a + b := by
  rw [ofInt_toInt_add, BitVec.ofInt_toInt]

theorem ofInt_toInt_sub_toInt (a b : Word) : BitVec.ofInt 64 (a.toInt - b.toInt) = a - b := by
  rw [Int.sub_eq_add_neg, ofInt_toInt_add, BitVec.ofInt_neg, BitVec.ofInt_toInt, BitVec.sub_eq_add_neg]

theorem ofInt_toInt_mul_toInt (a b : Word) : BitVec.ofInt 64 (a.toInt * b.toInt) = a * b := by
  rw [BitVec.ofInt_mul, BitVec.ofInt_toInt, BitVec.ofInt_toInt]

/-- The halves of the signed product (R145). -/
theorem toInt_mul_toInt_eq_halves (a b : Word) :
    a.toInt * b.toInt = (BitVec.ofInt 64 ((a.toInt * b.toInt).fdiv (2 ^ 64))).toInt * 2 ^ 64 + (BitVec.ofInt 64 (a.toInt * b.toInt)).toNat := by
  rw [toInt_mulHigh, BitVec.toNat_ofInt]
  omega

/-- The halves of the unsigned product (R145). -/
theorem toNat_mul_toNat_eq_halves (a b : Word) :
    a.toNat * b.toNat = (BitVec.ofNat 64 (a.toNat * b.toNat / 2 ^ 64)).toNat * 2 ^ 64 + (BitVec.ofInt 64 (a.toInt * b.toInt)).toNat := by
  rw [toNat_mulHigh, ofInt_toInt_mul_toInt, BitVec.toNat_mul]
  omega

theorem divWord_mul_add_remWord (a b : Word) : divWord a b * b + remWord a b = a := by
  unfold divWord remWord
  split
  next h => rw [h, mul_zero, zero_add]
  next =>
    calc BitVec.ofInt 64 (a.toInt.tdiv b.toInt) * b + BitVec.ofInt 64 (a.toInt.tmod b.toInt)
        = BitVec.ofInt 64 (a.toInt.tdiv b.toInt * b.toInt + a.toInt.tmod b.toInt) := by
          rw [BitVec.ofInt_add, BitVec.ofInt_mul, BitVec.ofInt_toInt]
      _ = a := by rw [Int.tdiv_mul_add_tmod, BitVec.ofInt_toInt]

theorem divuWord_mul_add_remuWord (a b : Word) : divuWord a b * b + remuWord a b = a := by
  unfold divuWord remuWord
  split
  next h => rw [h, mul_zero, zero_add]
  next =>
    calc BitVec.ofNat 64 (a.toNat / b.toNat) * b + BitVec.ofNat 64 (a.toNat % b.toNat)
        = BitVec.ofNat 64 (a.toNat / b.toNat * b.toNat + a.toNat % b.toNat) := by
          rw [BitVec.ofNat_add, BitVec.ofNat_mul, BitVec.ofNat_toNat, BitVec.setWidth_eq]
      _ = a := by rw [Nat.div_add_mod', BitVec.ofNat_toNat, BitVec.setWidth_eq]

/-! ### Counts and bytes (R148) -/

/-- The leading zeros of a word lie above its highest one. -/
theorem clz64_spec (a : Word) : (a = 0 → clz64 a = 64) ∧
    (a ≠ 0 → clz64 a < 64 ∧ bit a (63 - clz64 a) = true ∧ ∀ i, 63 - clz64 a < i → bit a i = false) := by
  refine ⟨fun h => by rw [h]; rfl, fun h => ?_⟩
  have h0 : a.toNat ≠ 0 := fun hz => h (BitVec.eq_of_toNat_eq hz)
  have hlog : a.toNat.log2 < 64 := (Nat.log2_lt h0).mpr a.isLt
  have htop : 63 - clz64 a = a.toNat.log2 := by
    rw [clz64, if_neg h0]
    omega
  rw [htop]
  refine ⟨by rw [clz64, if_neg h0]; omega, (a.testBit_toNat).symm.trans (Nat.testBit_log2 h0), fun i hi => ?_⟩
  exact (a.testBit_toNat).symm.trans (Nat.testBit_lt_two_pow (Nat.lt_log2_self.trans_le (Nat.pow_le_pow_right (by decide) hi)))

/-- The trailing zeros of a word lie below its lowest one. -/
theorem ctz64_spec (a : Word) : (a = 0 → ctz64 a = 64) ∧
    (a ≠ 0 → ctz64 a < 64 ∧ bit a (ctz64 a) = true ∧ ∀ i, i < ctz64 a → bit a i = false) := by
  refine ⟨fun h => by rw [h]; decide, fun h => ?_⟩
  unfold ctz64
  cases hfind : (List.range 64).find? (fun i => bit a i) with
  | none =>
    have hzero := List.find?_range_eq_none.mp hfind
    exact absurd (BitVec.eq_of_getLsbD_eq fun i hi => by simpa [bit] using hzero i hi) h
  | some k =>
    obtain ⟨hone, hk, hbelow⟩ := List.find?_range_eq_some.mp hfind
    exact ⟨List.mem_range.mp hk, hone, fun i hi => by simpa using hbelow i hi⟩

theorem length_filter_eq_sum {α : Type} (p : α → Bool) (l : List α) : (l.filter p).length = (l.map (fun i => if p i then 1 else 0)).sum := by
  induction l with
  | nil => rfl
  | cons i l ih =>
    rw [List.filter_cons, List.map_cons, List.sum_cons, ← ih]
    split
    · exact Nat.add_comm _ _
    · exact (Nat.zero_add _).symm

theorem getLsbD_foldl_or (g : Nat → Word) (l : List Nat) (x : Word) (k : Nat) :
    (l.foldl (fun x i => x ||| g i) x).getLsbD k = (x.getLsbD k || l.any (fun i => (g i).getLsbD k)) := by
  induction l generalizing x with
  | nil => rw [List.foldl_nil, List.any_nil, Bool.or_false]
  | cons i l ih => rw [List.foldl_cons, ih, BitVec.getLsbD_or, List.any_cons, Bool.or_assoc]

/-- Byte m of a word, moved to the place of byte 7 − m, has its bits there alone. -/
theorem getLsbD_moved_byte (a : Word) {m i j : Nat} (hm : m < 8) (hi : i < 8) (hj : j < 8) :
    (BitVec.ofNat 64 (fld a (8 * m) 8) <<< (8 * (7 - m))).getLsbD (8 * i + j) = (decide (m = 7 - i) && a.getLsbD (8 * m + j)) := by
  rw [BitVec.getLsbD_shiftLeft, BitVec.getLsbD_ofNat, fld, natBits, Nat.testBit_mod_two_pow, Nat.testBit_div_two_pow, BitVec.testBit_toNat]
  by_cases h : m = 7 - i
  · subst h
    rw [show 8 * (7 - (7 - i)) = 8 * i by omega, Nat.add_sub_cancel_left, Nat.add_comm j]
    simp [hj, show 8 * i + j < 64 by omega, show j < 64 by omega]
  · by_cases hlo : 8 * i + j < 8 * (7 - m)
    · simp [hlo, h]
    · simp [h, show ¬8 * i + j - 8 * (7 - m) < 8 by omega]

/-- Byte i of the swapped word is byte 7 − i (R148). -/
theorem fld_bswap64 (a : Word) {i : Nat} (hi : i < 8) : fld (bswap64 a) (8 * i) 8 = fld a (8 * (7 - i)) 8 := by
  rw [fld_eq_toNat_extract, fld_eq_toNat_extract]
  congr 1
  apply BitVec.eq_of_getLsbD_eq
  intro j hj
  rw [BitVec.getLsbD_extractLsb', BitVec.getLsbD_extractLsb', bswap64, getLsbD_foldl_or]
  have hbyte : (List.range 8).any (fun m => (BitVec.ofNat 64 (fld a (8 * m) 8) <<< (8 * (7 - m))).getLsbD (8 * i + j)) =
      a.getLsbD (8 * (7 - i) + j) := by
    rw [Bool.eq_iff_iff, List.any_eq_true]
    constructor
    · rintro ⟨m, hm, hbit⟩
      rw [getLsbD_moved_byte a (List.mem_range.mp hm) hi hj, Bool.and_eq_true, decide_eq_true_eq] at hbit
      exact hbit.1 ▸ hbit.2
    · intro hbit
      refine ⟨7 - i, List.mem_range.mpr (by omega), ?_⟩
      rw [getLsbD_moved_byte a (by omega) hi hj, hbit, decide_eq_true rfl, Bool.and_true]
  rw [hbyte]
  simp

/-! ### Fields (R149) -/

theorem fieldPos_eq (d : Word) : fieldPos d = d.toNat % 64 := fld_low_six d

theorem fieldWidth_eq_fieldLen (d : Word) : fieldWidth d = fieldLen d := by
  rw [fieldWidth, fieldPos_eq]
  rfl

/-- The highest bit of a field says whether its value reaches half the range. -/
theorem testBit_pred_eq_decide {f w : Nat} (hw : 0 < w) (hf : f < 2 ^ w) : f.testBit (w - 1) = decide (2 ^ (w - 1) ≤ f) := by
  have hpow : 2 ^ w = 2 * 2 ^ (w - 1) := by rw [← Nat.pow_succ', Nat.succ_eq_add_one, Nat.sub_add_cancel hw]
  by_cases h : 2 ^ (w - 1) ≤ f
  · rw [decide_eq_true h]
    exact Nat.testBit_of_two_pow_le_and_two_pow_add_one_gt h (by rwa [Nat.sub_add_cancel hw])
  · rw [decide_eq_false h]
    exact Nat.testBit_lt_two_pow (Nat.lt_of_not_le h)

theorem fieldLen_pos (d : Word) : 0 < fieldLen d :=
  Nat.lt_min.mpr ⟨Nat.succ_pos _, Nat.sub_pos_of_lt (Nat.mod_lt _ (by decide))⟩

theorem extField_eq_extRow (a d : Word) : extField a d = extRow a d := by
  have hsign := testBit_pred_eq_decide (fieldLen_pos d) (f := fieldBits a (d.toNat % 64) (fieldLen d)) (Nat.mod_lt _ (by positivity))
  simp only [extField, extRow, fieldWidth_eq_fieldLen, fieldPos_eq]
  rw [show fld a (d.toNat % 64) (fieldLen d) = fieldBits a (d.toNat % 64) (fieldLen d) from rfl, hsign]
  simp

theorem insField_eq_insRow (old a d : Word) : insField old a d = insRow old a d := by
  simp only [insField, insRow, fieldWidth_eq_fieldLen, fieldPos_eq]

/-! ### The carry-less product (R150) -/

/-- The product of the first n bits of gb. -/
def clPartial (a b : Word) (n : Nat) : BitVec 128 :=
  (List.range n).foldl (fun x i => if bit b i then x ^^^ (a.zeroExtend 128 <<< i) else x) 0

/-- The number of pairs of one bits, i of gb below n and k − i of ga. -/
def clPairs (a b : Word) (k n : Nat) : Nat :=
  ((List.range n).filter (fun i => bit b i && decide (i ≤ k) && bit a (k - i))).length

theorem clPartial_succ (a b : Word) (n : Nat) :
    clPartial a b (n + 1) = if bit b n then clPartial a b n ^^^ (a.zeroExtend 128 <<< n) else clPartial a b n := by
  rw [clPartial, List.range_succ, List.foldl_append]
  rfl

theorem clPairs_succ (a b : Word) (k n : Nat) :
    clPairs a b k (n + 1) = clPairs a b k n + if bit b n && decide (n ≤ k) && bit a (k - n) then 1 else 0 := by
  rw [clPairs, List.range_succ, List.filter_append, List.length_append, List.filter_singleton, cond_eq_ite, apply_ite List.length]
  rfl

theorem bit_shifted (a : Word) {k : Nat} (hk : k < 128) (n : Nat) :
    bit (a.zeroExtend 128 <<< n) k = (decide (n ≤ k) && bit a (k - n)) := by
  simp only [bit, BitVec.getLsbD_shiftLeft, BitVec.truncate_eq_setWidth, BitVec.getLsbD_setWidth, hk, show k - n < 128 by omega]
  by_cases h : n ≤ k <;> simp [h]

/-- One more pair turns the parity. -/
theorem decide_odd_succ (n : Nat) : decide ((n + 1) % 2 = 1) = !decide (n % 2 = 1) := by
  rw [← decide_not]
  exact decide_eq_decide.mpr (by omega)

/-- A bit of the product is the parity of its pairs. -/
theorem bit_clPartial (a b : Word) {k : Nat} (hk : k < 128) (n : Nat) : bit (clPartial a b n) k = decide (clPairs a b k n % 2 = 1) := by
  induction n with
  | zero => simp [clPartial, clPairs, bit]
  | succ n ih =>
    rw [clPartial_succ, clPairs_succ]
    cases hb : bit b n with
    | false => simpa using ih
    | true =>
      have hxor : bit (clPartial a b n ^^^ (a.zeroExtend 128 <<< n)) k = (bit (clPartial a b n) k ^^ (decide (n ≤ k) && bit a (k - n))) := by
        rw [← bit_shifted a hk]
        exact BitVec.getLsbD_xor
      rw [if_pos rfl, hxor, ih, Bool.true_and]
      cases decide (n ≤ k) && bit a (k - n) with
      | false => simp
      | true => rw [if_pos rfl, decide_odd_succ, Bool.xor_true]

theorem bit_clProduct (a b : Word) {k : Nat} (hk : k < 128) : bit (clProduct a b) k = decide (clPairs a b k 64 % 2 = 1) :=
  bit_clPartial a b hk 64

/-- No two bits of the factors meet at the highest place. -/
theorem bit_clProduct_top (a b : Word) : bit (clProduct a b) 127 = false := by
  have hnone : clPairs a b 127 64 = 0 := by
    rw [clPairs, List.length_eq_zero_iff, List.filter_eq_nil_iff]
    intro i hi
    have hi64 := List.mem_range.mp hi
    have hout : bit a (127 - i) = false := BitVec.getLsbD_of_ge _ _ (by omega)
    simp [hout]
  rw [bit_clProduct a b (by decide), hnone]
  rfl

theorem extractLsb'_low (x : BitVec 128) : x.extractLsb' 0 64 = x.setWidth 64 := by
  apply BitVec.eq_of_getLsbD_eq
  intro i hi
  simp [hi]

theorem extractLsb'_high (x : BitVec 128) : x.extractLsb' 64 64 = (x >>> 64).setWidth 64 := by
  apply BitVec.eq_of_getLsbD_eq
  intro i hi
  simp [hi]

end Sys2Proof.Machine
end

section
/-! SUPPORT. The scalar instructions: each writes the value of its row (R136, R138 to R150). -/
namespace Sys2Proof.Machine

open Claims (Writes needRR needR needD aluRows mulRows mulRow clProduct RForm)

/-! ### Shapes of scalar instructions -/

section
variable {i : Instr} {rd ra rb : BitVec 6} {wa wb : BitVec 1}

/-- The instruction computes `op` of its sources, which is what the table writes. -/
theorem writes_of_aluR (op : Word → Word → Word) {f : List Word → State → Word} (h : ∀ s, exec i s = aluR i rd ra rb wa wb op s)
    (hop : ∀ v s, op (v0 v) (v1 v) = f v s) : Writes (needRR i rd ra rb wa wb) i rd f :=
  completes_of_issue _ h (fun _ => rfl) fun v s => congrArg (s.result rd) (hop v s)

theorem writes_of_aluR3 (op : Word → Word → Word → Word) {f : List Word → State → Word} (h : ∀ s, exec i s = aluR3 i rd ra rb wa wb op s)
    (hop : ∀ v s, op (v0 v) (v1 v) (v2 v) = f v s) : Writes { wf := i.wf, srcs := [blk rd, (ra, wt wa), (rb, wt wb)], dsts := [rd] } i rd f :=
  completes_of_issue _ h (fun _ => rfl) fun v s => congrArg (s.result rd) (hop v s)

theorem writes_of_aluI (op : Word → Word) {f : List Word → State → Word} (h : ∀ s, exec i s = aluI i rd ra wa op s)
    (hop : ∀ v s, op (v0 v) = f v s) : Writes (needR i rd ra wa) i rd f :=
  completes_of_issue _ h (fun _ => rfl) fun v s => congrArg (s.result rd) (hop v s)

/-- Without a source, the value may depend on the slot, which taking the operands leaves. -/
theorem writes_of_aluU (op : Slot → Word) {f : List Word → State → Word} (h : ∀ s, exec i s = aluU i rd (op s.slot) s)
    (hop : ∀ v s, op s.slot = f v s) : Writes (needD i rd) i rd f :=
  fun s hready => (h s).trans (issue_ok hready (congrArg (((needD i rd).take s).result rd) (hop ((needD i rd).vals s) ((needD i rd).take s))))

end

/-- Writing a result leaves FCSR. -/
theorem State.fcsr_writeG_retire (s : State) (rd : BitVec 6) (v : Word) : (s.writeG rd v).retire.cur.fcsr = s.cur.fcsr := by
  obtain ⟨-, hwrite, -⟩ := s.own_writeG rd v
  obtain ⟨hfin, -⟩ := (s.writeG rd v).sameBut_retire hwrite
  obtain ⟨-, -, -, -, -, -, -, hfcsr, -⟩ := hfin
  exact hfcsr

/-- Taking the operands leaves FCSR. -/
theorem Need.fcsr_take (n : Need) (s : State) : (n.take s).cur.fcsr = s.cur.fcsr := by
  obtain ⟨-, h, r, k, hcur, -⟩ := n.own_take s
  rw [hcur]

/-! ### The register ALU (R138, R139) -/

/-- Each row of the register ALU has its encoding and is an operation of the model. -/
theorem aluRow_spec {p : RForm × BitVec 6 × (Word → Word → Word)} (hp : p ∈ aluRows) (rd ra rb : BitVec 6) (wa wb : BitVec 1) :
    encode (p.1 rd ra rb wa wb) = some (0x01#6 ++ rd ++ ra ++ rb ++ wa ++ wb ++ p.2.1) ∧
    Writes (needRR (p.1 rd ra rb wa wb) rd ra rb wa wb) (p.1 rd ra rb wa wb) rd (fun v _ => p.2.2 (v0 v) (v1 v)) := by
  simp only [aluRows, List.mem_cons, List.not_mem_nil, or_false] at hp
  obtain rfl | rfl | rfl | rfl | rfl | rfl | rfl | rfl | rfl | rfl | rfl | rfl | rfl | rfl | rfl | rfl | rfl := hp
  · exact ⟨rfl, writes_of_aluR (· + ·) (fun _ => rfl) fun _ _ => (ofInt_toInt_add_toInt _ _).symm⟩
  · exact ⟨rfl, writes_of_aluR (· - ·) (fun _ => rfl) fun _ _ => (ofInt_toInt_sub_toInt _ _).symm⟩
  · exact ⟨rfl, writes_of_aluR (· &&& ·) (fun _ => rfl) fun _ _ => rfl⟩
  · exact ⟨rfl, writes_of_aluR (· ||| ·) (fun _ => rfl) fun _ _ => rfl⟩
  · exact ⟨rfl, writes_of_aluR (· ^^^ ·) (fun _ => rfl) fun _ _ => rfl⟩
  · exact ⟨rfl, writes_of_aluR (fun a b => a &&& ~~~b) (fun _ => rfl) fun _ _ => rfl⟩
  · exact ⟨rfl, writes_of_aluR (fun a b => a <<< fld b 0 6) (fun _ => rfl) fun _ _ => by rw [fld_low_six, shiftLeft_eq_ofNat_mul]⟩
  · exact ⟨rfl, writes_of_aluR (fun a b => a >>> fld b 0 6) (fun _ => rfl) fun _ _ => by rw [fld_low_six, ushiftRight_eq_ofNat_div]⟩
  · exact ⟨rfl, writes_of_aluR (fun a b => a.sshiftRight (fld b 0 6)) (fun _ => rfl) fun _ _ => by rw [fld_low_six, sshiftRight_eq_ofInt_fdiv]⟩
  · exact ⟨rfl, writes_of_aluR (fun a b => a.rotateLeft (fld b 0 6)) (fun _ => rfl) fun _ _ => by
      rw [fld_low_six, rotateLeft_eq_or _ (Nat.mod_lt _ (by decide))]⟩
  · exact ⟨rfl, writes_of_aluR (fun a b => bword (a.slt b)) (fun _ => rfl) fun _ _ => rfl⟩
  · exact ⟨rfl, writes_of_aluR (fun a b => bword (a.ult b)) (fun _ => rfl) fun _ _ => rfl⟩
  · exact ⟨rfl, writes_of_aluR (fun a b => bword (a == b)) (fun _ => rfl) fun _ _ => rfl⟩
  · exact ⟨rfl, writes_of_aluR (fun a b => if a.sle b then a else b) (fun _ => rfl) fun _ _ => by simp [BitVec.sle]⟩
  · exact ⟨rfl, writes_of_aluR (fun a b => if a.sle b then b else a) (fun _ => rfl) fun _ _ => by simp [BitVec.sle]⟩
  · exact ⟨rfl, writes_of_aluR (fun a b => if a.ule b then a else b) (fun _ => rfl) fun _ _ => by simp [BitVec.ule]⟩
  · exact ⟨rfl, writes_of_aluR (fun a b => if a.ule b then b else a) (fun _ => rfl) fun _ _ => by simp [BitVec.ule]⟩

/-- Settles O5: the rows by the operations they are, sel by its three sources, and FCSR by the frame of a write. -/
theorem registerAlu : Obligations.RegisterAlu := by
  refine ⟨fun p hp rd ra rb wa wb => aluRow_spec hp rd ra rb wa wb, fun rd ra rb wa wb => ⟨rfl, ?sel⟩, State.fcsr_writeG_retire⟩
  case sel => exact writes_of_aluR3 (fun c a b => if c != 0 then a else b) (fun _ => rfl) fun _ _ => by simp

/-! ### Multiply and divide (R145, R146) -/

/-- Each row of multiply and divide has its encoding and is an operation of the model. -/
theorem mulRow_spec {p : RForm × BitVec 6 × (Word → Word → Word)} (hp : p ∈ mulRows) (rd ra rb : BitVec 6) (wa wb : BitVec 1) :
    encode (p.1 rd ra rb wa wb) = some (0x0A#6 ++ rd ++ ra ++ rb ++ wa ++ wb ++ p.2.1) ∧
    Writes (needRR (p.1 rd ra rb wa wb) rd ra rb wa wb) (p.1 rd ra rb wa wb) rd (fun v _ => p.2.2 (v0 v) (v1 v)) := by
  simp only [mulRows, List.mem_cons, List.not_mem_nil, or_false] at hp
  obtain rfl | rfl | rfl | rfl | rfl | rfl | rfl := hp
  · exact ⟨rfl, writes_of_aluR (· * ·) (fun _ => rfl) fun _ _ => (ofInt_toInt_mul_toInt _ _).symm⟩
  · exact ⟨rfl, writes_of_aluR (fun a b => BitVec.ofInt 64 ((a.toInt * b.toInt).fdiv (2 ^ 64))) (fun _ => rfl) fun _ _ => rfl⟩
  · exact ⟨rfl, writes_of_aluR (fun a b => BitVec.ofNat 64 (a.toNat * b.toNat / 2 ^ 64)) (fun _ => rfl) fun _ _ => rfl⟩
  · exact ⟨rfl, writes_of_aluR divWord (fun _ => rfl) fun _ _ => rfl⟩
  · exact ⟨rfl, writes_of_aluR divuWord (fun _ => rfl) fun _ _ => rfl⟩
  · exact ⟨rfl, writes_of_aluR remWord (fun _ => rfl) fun _ _ => rfl⟩
  · exact ⟨rfl, writes_of_aluR remuWord (fun _ => rfl) fun _ _ => rfl⟩

/-- The rows of the products and quotients, as the operations of the model. -/
theorem mulRow_eq : mulRow .div = divWord ∧ mulRow .rem = remWord ∧ mulRow .divu = divuWord ∧ mulRow .remu = remuWord :=
  ⟨rfl, rfl, rfl, rfl⟩

/-- Settles O6: the rows by the operations they are, and the identities by those of the integers. -/
theorem multiplyDivide : Obligations.MultiplyDivide := by
  refine ⟨fun p hp rd ra rb wa wb => mulRow_spec hp rd ra rb wa wb, fun a b => ?quotients, fun a b => ?halves⟩
  case quotients =>
    obtain ⟨hdiv, hrem, hdivu, hremu⟩ := mulRow_eq
    rw [hdiv, hrem, hdivu, hremu]
    exact ⟨divWord_mul_add_remWord a b, divuWord_mul_add_remuWord a b⟩
  case halves => exact ⟨toInt_mul_toInt_eq_halves a b, toNat_mul_toNat_eq_halves a b⟩

/-! ### The borderline operands of division (R146) -/

/-- An operation whose sources hold a and b writes its value of them, and FCSR stays. -/
theorem exec_aluR_values {i : Instr} {rd ra rb : BitVec 6} {wa wb : BitVec 1} {op : Word → Word → Word} {s : State} {a b : Word}
    (h : ∀ s, exec i s = aluR i rd ra rb wa wb op s) (hready : (needRR i rd ra rb wa wb).ready s = true)
    (hvals : (needRR i rd ra rb wa wb).vals s = [a, b]) :
    let q := (((needRR i rd ra rb wa wb).take s).writeG rd (op a b)).retire
    exec i s = .next q ∧ q.cur.fcsr = s.cur.fcsr := by
  refine ⟨?_, (State.fcsr_writeG_retire _ _ _).trans (Need.fcsr_take _ s)⟩
  have hexec := writes_of_aluR op h (fun _ _ => rfl) s hready
  rwa [hvals] at hexec

/-- Settles O7: each operand pair of R146's table, by the operation and its value there. -/
theorem divisionCorners : Obligations.DivisionCorners := by
  intro rd ra rb wa wb s f a b r h
  have hop : ∃ op, (∀ s, exec (f rd ra rb wa wb) s = aluR (f rd ra rb wa wb) rd ra rb wa wb op s) ∧ op a b = r := by
    simp only [List.mem_cons, List.not_mem_nil, or_false, Prod.mk.injEq] at h
    obtain ⟨rfl, -, rfl, rfl⟩ | ⟨rfl, -, rfl, rfl⟩ | ⟨rfl, -, rfl, rfl⟩ | ⟨rfl, -, rfl, rfl⟩ |
      ⟨rfl, rfl, rfl, rfl⟩ | ⟨rfl, rfl, rfl, rfl⟩ | ⟨rfl, rfl, rfl, rfl⟩ | ⟨rfl, rfl, rfl, rfl⟩ | ⟨rfl, rfl, rfl, rfl⟩ := h
    · exact ⟨divWord, fun _ => rfl, if_pos rfl⟩
    · exact ⟨divuWord, fun _ => rfl, if_pos rfl⟩
    · exact ⟨remWord, fun _ => rfl, if_pos rfl⟩
    · exact ⟨remuWord, fun _ => rfl, if_pos rfl⟩
    · exact ⟨divWord, fun _ => rfl, by decide⟩
    · exact ⟨remWord, fun _ => rfl, by decide⟩
    · exact ⟨divWord, fun _ => rfl, by decide⟩
    · exact ⟨remWord, fun _ => rfl, by decide⟩
    · exact ⟨remWord, fun _ => rfl, by decide⟩
  obtain ⟨op, hexec, rfl⟩ := hop
  exact exec_aluR_values hexec

/-! ### The carry-less product (R150) -/

/-- Settles O8: the product is the model's, and its bits are the parities of their pairs. -/
theorem carrylessProduct : Obligations.CarrylessProduct := by
  refine ⟨fun rd ra rb wa wb => ⟨rfl, rfl, ?low, ?high⟩, fun a b => ⟨fun k hk => bit_clProduct a b hk, bit_clProduct_top a b⟩⟩
  case low => exact writes_of_aluR (fun a b => (clmul128 a b).extractLsb' 0 64) (fun _ => rfl) fun _ _ => extractLsb'_low (clProduct _ _)
  case high => exact writes_of_aluR (fun a b => (clmul128 a b).extractLsb' 64 64) (fun _ => rfl) fun _ _ => extractLsb'_high (clProduct _ _)

/-! ### Bit counts and fields (R148, R149) -/

theorem insertField : Claims.InsertField :=
  fun _ _ _ _ _ => writes_of_aluR3 insField (fun _ => rfl) fun _ _ => insField_eq_insRow _ _ _

theorem extractField : Claims.ExtractField :=
  fun _ _ _ _ _ => writes_of_aluR extField (fun _ => rfl) fun _ _ => extField_eq_extRow _ _

theorem bitCounts : Claims.BitCounts := by
  intro rd ra wa
  refine ⟨⟨clz64, ?clz, clz64_spec⟩, ⟨ctz64, ?ctz, ctz64_spec⟩, ?popc, ⟨bswap64, ?bswap, fun a i hi => fld_bswap64 a hi⟩⟩
  case clz => exact writes_of_aluI (fun a => BitVec.ofNat 64 (clz64 a)) (fun _ => rfl) fun _ _ => rfl
  case ctz => exact writes_of_aluI (fun a => BitVec.ofNat 64 (ctz64 a)) (fun _ => rfl) fun _ _ => rfl
  case popc => exact writes_of_aluI (fun a => BitVec.ofNat 64 (popc64 a)) (fun _ => rfl) fun _ _ => congrArg _ (length_filter_eq_sum _ _)
  case bswap => exact writes_of_aluI bswap64 (fun _ => rfl) fun _ _ => rfl

/-- Settles O35: each bit instruction computes the operation of its row. -/
theorem bitFields : Obligations.BitFields := ⟨insertField, extractField, bitCounts⟩

/-! ### Immediates (R140 to R144) -/

theorem immediateAlu : Claims.ImmediateAlu := by
  refine fun rd ra wa => ⟨fun imm => ⟨?addi, ?andi, ?ori, ?xori⟩, fun n => ⟨?shli, ?shri, ?sari, ?roti⟩, fun k => ⟨?slti, ?sltiu⟩⟩
  case addi => exact writes_of_aluI (fun a => a + imm.signExtend 64) (fun _ => rfl) fun _ _ => (ofInt_toInt_add _ _).symm
  case andi => exact writes_of_aluI (fun a => a &&& imm.signExtend 64) (fun _ => rfl) fun _ _ => rfl
  case ori => exact writes_of_aluI (fun a => a ||| imm.signExtend 64) (fun _ => rfl) fun _ _ => rfl
  case xori => exact writes_of_aluI (fun a => a ^^^ imm.signExtend 64) (fun _ => rfl) fun _ _ => rfl
  case shli => exact writes_of_aluI (fun a => a <<< n.toNat) (fun _ => rfl) fun _ _ => shiftLeft_eq_ofNat_mul _ n.toNat
  case shri => exact writes_of_aluI (fun a => a >>> n.toNat) (fun _ => rfl) fun _ _ => ushiftRight_eq_ofNat_div _ n.toNat
  case sari => exact writes_of_aluI (fun a => a.sshiftRight n.toNat) (fun _ => rfl) fun _ _ => sshiftRight_eq_ofInt_fdiv _ n.toNat
  case roti => exact writes_of_aluI (fun a => a.rotateLeft n.toNat) (fun _ => rfl) fun _ _ => rotateLeft_eq_or _ n.isLt
  case slti =>
    refine writes_of_aluI (fun a => bword (a.slt (k.signExtend 64))) (fun _ => rfl) fun _ _ => ?_
    rw [BitVec.slt_eq_decide, BitVec.toInt_signExtend_of_le (by decide)]
    rfl
  case sltiu => exact writes_of_aluI (fun a => bword (a.ult (k.signExtend 64))) (fun _ => rfl) fun _ _ => rfl

/-- An immediate of lih counts blocks of 4,096 (R143). -/
theorem signExtend_shiftLeft_twelve {k : Nat} (imm : BitVec k) : imm.signExtend 64 <<< 12 = BitVec.ofInt 64 (imm.toInt * 4096) := by
  rw [BitVec.shiftLeft_eq_mul_twoPow, BitVec.ofInt_mul]
  rfl

theorem upperImmediates : Claims.UpperImmediates := by
  refine fun rd imm => ⟨?lih, ?adr⟩
  case lih => exact writes_of_aluU (fun _ => imm.signExtend 64 <<< 12) (fun _ => rfl) fun _ _ => signExtend_shiftLeft_twelve imm
  case adr =>
    exact writes_of_aluU (fun l => l.addr + imm.signExtend 64 <<< 2) (fun _ => rfl) fun _ s => s.target_signExtend imm

/-- Settles O36: each immediate form computes the operation of its row. -/
theorem immediates : Obligations.Immediates := ⟨immediateAlu, upperImmediates⟩

end Sys2Proof.Machine
end

section
/-! SUPPORT. What a vector instruction leaves as it was: its g sources are no ports, taking them raises the high-water mark and no more, and going on touches neither
registers nor masks nor flags (R59, R97, R176). -/
namespace Sys2Proof.Machine

/-! ### Sources that are no ports -/

theorem toNat_g5 (v : BitVec 5) : (g5 v).toNat = v.toNat := BitVec.toNat_setWidth_of_le (by decide)

/-- A g register of the V format is no port (R59). -/
theorem inPort_g5 (v : BitVec 5) : inPort (g5 v) = false := by
  have hv : (g5 v).toNat = v.toNat := toNat_g5 v
  have hlt := v.isLt
  exact decide_eq_false fun h => by omega

theorem State.popSources_noPorts {l : List (BitVec 6 × Bool)} (h : ∀ p ∈ l, inPort p.1 = false) (s : State) : s.popSources l = s := by
  induction l with
  | nil => rfl
  | cons p l ih =>
    rw [State.popSources, List.foldl_cons, h p List.mem_cons_self]
    exact ih fun q hq => h q (List.mem_cons_of_mem p hq)

theorem Need.take_noPorts {n : Need} (h : ∀ p ∈ n.srcs, inPort p.1 = false) (s : State) :
    n.take s = s.updCur (fun x => n.named.foldl Ctx.raise x) :=
  State.popSources_noPorts h _

/-- The context with the high-water mark at k (R97). -/
def Ctx.risen (x : Ctx) (k : Nat) : Ctx := { x with hwm := k }

theorem Need.cur_take_noPorts {n : Need} (h : ∀ p ∈ n.srcs, inPort p.1 = false) (s : State) : ∃ k, (n.take s).cur = s.cur.risen k := by
  rw [Need.take_noPorts h, State.cur_updCur]
  exact Ctx.foldl_raise _ _

theorem Need.mem_take_noPorts {n : Need} (h : ∀ p ∈ n.srcs, inPort p.1 = false) (s : State) : (n.take s).mem = s.mem := by
  rw [Need.take_noPorts h, State.updCur_mem]

/-- The value of the one g source of a V word. -/
theorem Need.vals_g5 {n : Need} {v : BitVec 5} (h : n.srcs = [blk (g5 v)]) (s : State) : n.vals s = [s.cur.readG v.toNat] := by
  rw [Need.vals, h, ← toNat_g5]
  show s.peekFrom [] [g5 v] = _
  rw [State.peekFrom_cons, inPort_g5]
  rfl

/-! ### Going on -/

/-- The g registers, the vector registers, the masks and FCSR are the same. -/
structure SameRegs (x y : Ctx) : Prop where
  g : y.g = x.g
  v : y.v = x.v
  vs : y.vs = x.vs
  masks : y.masks = x.masks
  fcsr : y.fcsr = x.fcsr

theorem SameRegs.stateV {x y : Ctx} (h : SameRegs x y) (v : Nat) : y.stateV v = x.stateV v := by rw [Ctx.stateV, h.vs]; rfl

theorem SameRegs.mask {x y : Ctx} (h : SameRegs x y) (m : Nat) : y.mask m = x.mask m := by rw [Ctx.mask, h.masks]; rfl

theorem State.sameRegs_retire (s : State) : SameRegs s.cur s.retire.cur := by
  obtain ⟨p, f, k, d, b, hcur, -⟩ := s.cur_finish s.nextAddr
  rw [State.retire, hcur]
  exact ⟨rfl, rfl, rfl, rfl, rfl⟩

/-! ### Masks and flags -/

@[simp] theorem Ctx.orFlags_zero (x : Ctx) : x.orFlags 0 = x := by
  simp [Ctx.orFlags]

/-- A mask but m0 reads what was written to it (R57). -/
theorem Ctx.mask_putMask_same (x : Ctx) {m : Nat} (w : BitVec 16) (h : m ≠ 0) : (x.putMask m w).mask m = w := by
  rw [Ctx.mask, if_neg h, Ctx.putMask, if_neg h]
  exact fget_fset_same _ _ _ _

/-- A write to a mask changes masks alone. -/
theorem Ctx.putMask_eq (x : Ctx) (m : Nat) (w : BitVec 16) : ∃ k, x.putMask m w = { x with masks := k } := by
  unfold Ctx.putMask
  split
  · exact ⟨_, rfl⟩
  · exact ⟨_, rfl⟩

end Sys2Proof.Machine
end

section
/-! SUPPORT. The lanes of a result and the bits of a mask: what the folds over them leave at each place (R46, R157, R158, R160, R162). -/
namespace Sys2Proof.Machine

/-! ### Parts put together by OR -/

theorem bit_or {n : Nat} (a b : BitVec n) (k : Nat) : bit (a ||| b) k = (bit a k || bit b k) := BitVec.getLsbD_or

theorem bit_zero (n k : Nat) : bit (0 : BitVec n) k = false := BitVec.getLsbD_zero

theorem bit_foldl_or {n : Nat} (b : Nat → BitVec n) (l : List Nat) (z : BitVec n) (k : Nat) :
    bit (l.foldl (fun a i => a ||| b i) z) k = (bit z k || l.any (fun i => bit (b i) k)) := by
  induction l generalizing z with
  | nil => simp
  | cons i l ih => rw [List.foldl_cons, ih, bit_or, List.any_cons, Bool.or_assoc]

/-- Where part i holds no bit but bit i, each bit of the whole is that of its own part. -/
theorem bit_foldl_or_range {n m : Nat} {b : Nat → BitVec n} {c : Nat → Bool} (h : ∀ i < m, ∀ k, bit (b i) k = (decide (k = i) && c i)) {k : Nat}
    (hk : k < m) : bit ((List.range m).foldl (fun a i => a ||| b i) 0) k = c k := by
  rw [bit_foldl_or, bit_zero, Bool.false_or, Bool.eq_iff_iff, List.any_eq_true]
  constructor
  · rintro ⟨i, hi, hbit⟩
    rw [h i (List.mem_range.mp hi), Bool.and_eq_true, decide_eq_true_eq] at hbit
    exact hbit.1 ▸ hbit.2
  · exact fun hc => ⟨k, List.mem_range.mpr hk, by rw [h k hk, hc, decide_eq_true rfl]; rfl⟩

theorem bit_twoPow {n i : Nat} (hi : i < n) (k : Nat) : bit (BitVec.twoPow n i) k = decide (k = i) := by
  rw [bit, BitVec.getLsbD_twoPow, decide_eq_true hi, Bool.true_and, decide_eq_decide]
  exact eq_comm

/-! ### The lanes of a result -/

/-- Lane j of a result: computed where active, old elsewhere (R158). -/
def resultLane (mask : BitVec 16) (pair : Bool) (w old : Nat) (f : Nat → Nat × BitVec 6) (j : Nat) : Nat :=
  if laneOn mask pair w j then (f j).1 else lane old w j

theorem resultLane_lt (mask : BitVec 16) (pair : Bool) {w : Nat} (old : Nat) {f : Nat → Nat × BitVec 6} (hf : ∀ j, (f j).1 < 2 ^ w) (j : Nat) :
    resultLane mask pair w old f j < 2 ^ w := by
  unfold resultLane
  split
  · exact hf j
  · exact lane_lt _ _ _

/-- The value of a result is its lanes side by side. -/
theorem mapLanes_fst (mask : BitVec 16) (pair : Bool) (w old : Nat) (f : Nat → Nat × BitVec 6) :
    (mapLanes mask pair w old f).1 = joinLanes w (laneCount pair w) (resultLane mask pair w old f) := by
  refine (List.foldl_hom Prod.fst fun acc j => ?_).symm
  rw [resultLane]
  split
  · rfl
  · rfl

/-- The flags of a result are those of its active lanes (R46). -/
theorem bit_mapLanes_snd (mask : BitVec 16) (pair : Bool) (w old : Nat) (f : Nat → Nat × BitVec 6) (k : Nat) :
    bit (mapLanes mask pair w old f).2 k = (List.range (laneCount pair w)).any (fun j => laneOn mask pair w j && bit (f j).2 k) := by
  have hflags : (mapLanes mask pair w old f).2 =
      (List.range (laneCount pair w)).foldl (fun a j => a ||| if laneOn mask pair w j then (f j).2 else 0) 0 := by
    refine (List.foldl_hom Prod.snd fun acc j => ?_).symm
    dsimp only
    split
    · rfl
    · rfl
  rw [hflags, bit_foldl_or, bit_zero, Bool.false_or]
  congr 1
  funext j
  cases laneOn mask pair w j
  · exact bit_zero 6 k
  · rfl

/-- Settles O16: the lanes fit their places, so each stands there as computed, and a flag is that of some active lane. -/
theorem lanesOfAResult : Obligations.LanesOfAResult := by
  intro mask pair w old f _ hf r
  have hr : r.1 = joinLanes w (laneCount pair w) (resultLane mask pair w old f) := mapLanes_fst mask pair w old f
  rw [hr]
  exact ⟨fun j hj => lane_joinLanes (resultLane_lt mask pair old hf) hj, joinLanes_lt (resultLane_lt mask pair old hf) _,
    fun k _ => bit_mapLanes_snd mask pair w old f k⟩

/-! ### The bits of a compared mask -/

/-- What a compare leaves at bit i of a mask (R160). -/
def comparedBit (mask old : BitVec 16) (els : Nat → List Nat) (f : Nat → Bool × BitVec 6) (i : Nat) : Bool :=
  if bit mask i then (els i).all (fun j => (f j).1) else bit old i

/-- The part of a compared mask that its bit i gives. -/
def comparedPart (mask old : BitVec 16) (els : Nat → List Nat) (f : Nat → Bool × BitVec 6) (i : Nat) : BitVec 16 :=
  if bit mask i then (if ((els i).map f).all (·.1) then BitVec.twoPow 16 i else 0) else old &&& BitVec.twoPow 16 i

theorem bit_comparedPart (mask old : BitVec 16) (els : Nat → List Nat) (f : Nat → Bool × BitVec 6) {i : Nat} (hi : i < 16) (k : Nat) :
    bit (comparedPart mask old els f i) k = (decide (k = i) && comparedBit mask old els f i) := by
  have hall : ((els i).map f).all (·.1) = (els i).all (fun j => (f j).1) := List.all_map
  rw [comparedPart, comparedBit, hall]
  cases bit mask i with
  | true =>
    cases (els i).all (fun j => (f j).1) with
    | true => exact (bit_twoPow hi k).trans (Bool.and_true _).symm
    | false => exact (bit_zero 16 k).trans (Bool.and_false _).symm
  | false =>
    refine (bit_and _ _ k).trans ?_
    rw [bit_twoPow hi, Bool.and_comm]
    by_cases h : k = i
    · rw [h]; rfl
    · rw [decide_eq_false h]; rfl

theorem bit_cmpMask (mask old : BitVec 16) (els : Nat → List Nat) (f : Nat → Bool × BitVec 6) {k : Nat} (hk : k < 16) :
    bit (cmpMask mask old els f).1 k = comparedBit mask old els f k := by
  have hfold : (cmpMask mask old els f).1 = (List.range 16).foldl (fun a i => a ||| comparedPart mask old els f i) 0 := by
    refine (List.foldl_hom Prod.fst fun acc i => ?_).symm
    rw [comparedPart]
    split
    · rfl
    · rfl
  rw [hfold]
  exact bit_foldl_or_range (fun i hi k => bit_comparedPart mask old els f hi k) hk

/-- The bit i of the active mask of 64-bit elements: element i / 2 is governed by the even one of its two bits (R157, R162). -/
def activePart (mask : BitVec 16) (i : Nat) : BitVec 16 := if bit mask (i / 2 * 2) then BitVec.twoPow 16 i else 0

theorem bit_activePart (mask : BitVec 16) {i : Nat} (hi : i < 16) (k : Nat) : bit (activePart mask i) k = (decide (k = i) && bit mask (i / 2 * 2)) := by
  rw [activePart]
  cases bit mask (i / 2 * 2) with
  | true => exact (bit_twoPow hi k).trans (Bool.and_true _).symm
  | false => exact (bit_zero 16 k).trans (Bool.and_false _).symm

theorem bit_cmpActive (mask : BitVec 16) (w : Nat) {k : Nat} (hk : k < 16) : bit (cmpActive mask w) k = bit mask (if w = 64 then k / 2 * 2 else k) := by
  unfold cmpActive
  split
  · have hfold : (fun acc i => if bit mask (i / 2 * 2) then acc ||| BitVec.twoPow 16 i else acc) = fun acc i => acc ||| activePart mask i := by
      funext acc i
      rw [activePart]
      split
      · rfl
      · exact BitVec.or_zero.symm
    rw [hfold]
    exact bit_foldl_or_range (fun i hi k => bit_activePart mask hi k) hk
  · rfl

end Sys2Proof.Machine
end

section
/-! SUPPORT. The floating-point operations and the conversion of vectors (R159, R164): each is one lane-by-lane operation on the context at hand, with no modifier
word before it (R36). -/
namespace Sys2Proof.Machine

open Claims (Does needV lanewise)

/-- A ready vector operation does to the context what it computes of it, the flags merged (R46, R158). -/
theorem vecOp_eq_updCur {i : Instr} {srcs vd : List (BitVec 5)} {readsD : Bool} {m : BitVec 3} {s : State} (f : Ctx → Ctx × BitVec 6)
    (h : (needV i srcs vd readsD m).ready s = true) :
    vecOp i srcs vd readsD m f s = .next (((needV i srcs vd readsD m).take s).updCur (fun x => (f x).1.orFlags (f x).2)).retire :=
  (vecOp_ready f h).trans (congrArg (fun t => Host.Outcome.next (State.retire t)) (State.updCur_congr rfl))

theorem does_of_vecOp {i : Instr} {srcs vd : List (BitVec 5)} {readsD : Bool} {m : BitVec 3} {f : Ctx → Ctx × BitVec 6} {g : Ctx → Ctx}
    (h : ∀ s, exec i s = vecOp i srcs vd readsD m f s) (hg : ∀ x, (f x).1.orFlags (f x).2 = g x) :
    Does (needV i srcs vd readsD m) i (fun _ s => s.updCur g) :=
  fun s hready => ((h s).trans (vecOp_eq_updCur f hready)).trans (by rw [funext hg])

/-- The context and the flags of a result computed lane by lane. -/
def Ctx.lanesOf (x : Ctx) (pair : Bool) (w : Nat) (vd : BitVec 5) (m : BitVec 3) (f : Ctx → Nat → Nat × BitVec 6) : Ctx × BitVec 6 :=
  let r := mapLanes (x.mask m.toNat) pair w (x.vread pair vd.toNat) (f x)
  (x.vwrite pair vd.toNat r.1, r.2)

theorem does_lanewise {i : Instr} {srcs : List (BitVec 5)} {vd : BitVec 5} {pair readsD : Bool} {w : Nat} {m : BitVec 3} {f : Ctx → Nat → Nat × BitVec 6}
    (h : ∀ s, exec i s = vecOp i srcs (vgroup pair vd) readsD m (fun x => x.lanesOf pair w vd m f) s) :
    Does (needV i srcs (vgroup pair vd) readsD m) i (fun _ s => lanewise s pair w vd m f) :=
  does_of_vecOp h fun _ => rfl

theorem exec_vfBin {p : (BitVec 5 → BitVec 5 → BitVec 5 → BitVec 3 → BitVec 2 → Instr) × FpOp}
    (hp : p ∈ [(Instr.vaddF, FpOp.add), (.vsubF, .sub), (.vmulF, .mul), (.vminF, .min), (.vmaxF, .max)])
    (vd va vb : BitVec 5) (m : BitVec 3) (t : BitVec 2) (s : State) :
    exec (p.1 vd va vb m t) s = vfBin {} (p.1 vd va vb m t) p.2 vd va vb m t s := by
  simp only [List.mem_cons, List.not_mem_nil, or_false] at hp
  obtain rfl | rfl | rfl | rfl | rfl := hp
  all_goals rfl

theorem exec_vfFma {p : (BitVec 5 → BitVec 5 → BitVec 5 → BitVec 3 → BitVec 2 → Instr) × FmaOp}
    (hp : p ∈ [(Instr.vfma, FmaOp.fma), (.vfms, .fms), (.vfnma, .fnma), (.vfnms, .fnms)])
    (vd va vb : BitVec 5) (m : BitVec 3) (t : BitVec 2) (s : State) :
    exec (p.1 vd va vb m t) s = vfFma {} (p.1 vd va vb m t) p.2 vd va vb m t s := by
  simp only [List.mem_cons, List.not_mem_nil, or_false] at hp
  obtain rfl | rfl | rfl | rfl := hp
  all_goals rfl

theorem exec_vfSpec {p : (BitVec 5 → BitVec 5 → BitVec 3 → BitVec 2 → Instr) × SpecOp}
    (hp : p ∈ [(Instr.vrcp, SpecOp.rcp), (.vrsq, .rsq), (.vsqrt, .sqrt), (.vexp2, .exp2), (.vlog2, .log2), (.vtanh, .tanh)])
    (vd va : BitVec 5) (m : BitVec 3) (t : BitVec 2) (s : State) :
    exec (p.1 vd va m t) s = vfSpec {} (p.1 vd va m t) p.2 vd va m t s := by
  simp only [List.mem_cons, List.not_mem_nil, or_false] at hp
  obtain rfl | rfl | rfl | rfl | rfl | rfl := hp
  all_goals rfl

theorem vectorFloat : Claims.VectorFloat := by
  refine ⟨fun p hp vd va vb m t => ?_, fun p hp vd va vb m t => ?_, fun p hp vd va m t => ?_⟩
  · exact does_lanewise (exec_vfBin hp vd va vb m t)
  · exact does_lanewise (exec_vfFma hp vd va vb m t)
  · exact does_lanewise (exec_vfSpec hp vd va m t)

theorem exec_vcvt (vd va : BitVec 5) (nb : BitVec 1) (m : BitVec 3) (d c : BitVec 4) (s : State) :
    exec (.vcvt vd va nb m d c) s = vfCvt {} (.vcvt vd va nb m d c) vd va nb m d c s := rfl

theorem vectorConvert : Claims.VectorConvert := by
  intro vd va nb m d c i wd wc pd pc s h
  rw [exec_vcvt, vfCvt, vecOp_eq_updCur _ h]
  rfl

/-- Settles O49: the operations lane by lane and the conversion, each from the operation it is. -/
theorem vectorArithmetic : Obligations.VectorArithmetic := ⟨vectorFloat, vectorConvert⟩

end Sys2Proof.Machine
end

section
/-! SUPPORT. Vector compares (R160, R162): the truth of each bit's elements, in a mask. -/
namespace Sys2Proof.Machine

/-! ### What a compare leaves -/

/-- What a compare names: its sources, and no register to write (R158). -/
def cmpNeed (i : Instr) (srcs : List (BitVec 5)) : Need := { wf := i.wf, vsrcs := srcs, vec := true }

theorem Need.wf_of_ready {n : Need} {s : State} (h : n.ready s = true) : n.wf = true := by
  obtain ⟨hlegal, -⟩ := Need.ready_iff_conditions.mp h
  simpa using (Bool.or_eq_false_iff.mp hlegal).1

/-- A ready compare writes its mask and merges its flags; registers and memory stay. -/
theorem vecCmp_ready {i : Instr} {srcs : List (BitVec 5)} {md : BitVec 5} {s : State} (f : Ctx → BitVec 16 × BitVec 6)
    (hf : ∀ k, f (s.cur.risen k) = f s.cur) (hmd : maskDst md = true) (h : (cmpNeed i srcs).ready s = true) :
    ∃ r, vecCmp i srcs md f s = .next r ∧ r.cur.v = s.cur.v ∧ r.cur.fcsr = (s.cur.orFlags (f s.cur).2).fcsr ∧ r.mem = s.mem ∧ r.cur.g = s.cur.g ∧
      r.cur.mask md.toNat = (f s.cur).1 := by
  obtain ⟨k, hk⟩ := Need.cur_take_noPorts (n := cmpNeed i srcs) nofun s
  let t := ((cmpNeed i srcs).take s).updCur (fun x => (x.putMask md.toNat (f x).1).orFlags (f x).2)
  have hexec : vecCmp i srcs md f s = .next t.retire :=
    issue_ok h (congrArg (fun t => Act.ok (State.retire t)) (State.updCur_congr rfl))
  have hcur : t.cur = ((s.cur.risen k).putMask md.toNat (f s.cur).1).orFlags (f s.cur).2 := by
    rw [State.cur_updCur, hk, hf]
  have hregs := t.sameRegs_retire
  have hmask : t.cur.mask md.toNat = (f s.cur).1 := by
    rw [hcur]
    exact Ctx.mask_putMask_same _ _ (Nat.pos_iff_ne_zero.mp (of_decide_eq_true hmd).1)
  obtain ⟨ms, hms⟩ := Ctx.putMask_eq (s.cur.risen k) md.toNat (f s.cur).1
  rw [hms] at hcur
  refine ⟨t.retire, hexec, ?_, ?_, ?_, ?_, (hregs.mask _).trans hmask⟩
  · rw [hregs.v, hcur]; rfl
  · rw [hregs.fcsr, hcur]; rfl
  · rw [State.mem_retire, State.updCur_mem, Need.mem_take_noSrcs rfl]
  · rw [hregs.g, hcur]; rfl

/-! ### Floating point (R160) -/

theorem exec_vfCmp {p : (BitVec 5 → BitVec 5 → BitVec 5 → BitVec 3 → BitVec 2 → Instr) × FCond}
    (hp : p ∈ [(Instr.vcmpEqF, FCond.eq), (.vcmpLtF, .lt), (.vcmpLe, .le), (.vcmpUn, .un)])
    (md va vb : BitVec 5) (m : BitVec 3) (t : BitVec 2) :
    (∀ s, exec (p.1 md va vb m t) s = vfCmp (p.1 md va vb m t) p.2 md va vb m t s) ∧ (p.1 md va vb m t).wf = (pairOk t [va, vb] && maskDst md) := by
  simp only [List.mem_cons, List.not_mem_nil, or_false] at hp
  obtain rfl | rfl | rfl | rfl := hp
  all_goals exact ⟨fun _ => rfl, rfl⟩

/-- The elements of bit k: two of 16 bits, one of the wider ones (R157). -/
def floatElems (w k : Nat) : List Nat := if w = 16 then [2 * k, 2 * k + 1] else [k]

theorem all_floatElems (w k : Nat) (c : Nat → Bool) : (floatElems w k).all c = if w = 16 then c (2 * k) && c (2 * k + 1) else c k := by
  unfold floatElems
  split
  · simp
  · simp

/-- The mask and the flags of a floating-point compare, of the context at hand. -/
def Ctx.floatCompared (x : Ctx) (c : FCond) (md va vb : BitVec 5) (m : BitVec 3) (t : BitVec 2) : BitVec 16 × BitVec 6 :=
  let q := isPair t
  let f := fmtOf t.toNat
  cmpMask (x.mask m.toNat) (x.mask md.toNat) (floatElems f.width) (fun j => c.test (f.operand (bit x.fcsr 15) (lane (x.vread q va.toNat) f.width j))
    (f.operand (bit x.fcsr 15) (lane (x.vread q vb.toNat) f.width j)))

theorem vfCmp_eq (i : Instr) (c : FCond) (md va vb : BitVec 5) (m : BitVec 3) (t : BitVec 2) (s : State) :
    vfCmp i c md va vb m t s = vecCmp i (vgroup (isPair t) va ++ vgroup (isPair t) vb) md (fun x => x.floatCompared c md va vb m t) s := rfl

theorem bit_floatCompared (x : Ctx) (c : FCond) (md va vb : BitVec 5) (m : BitVec 3) (t : BitVec 2) {k : Nat} (hk : k < 16) :
    let q := isPair t
    let f := fmtOf t.toNat
    let test := fun j => c.test (f.operand (bit x.fcsr 15) (lane (x.vread q va.toNat) f.width j)) (f.operand (bit x.fcsr 15) (lane (x.vread q vb.toNat) f.width j))
    bit (x.floatCompared c md va vb m t).1 k =
      if bit (x.mask m.toNat) k then (if f.width = 16 then (test (2 * k)).1 && (test (2 * k + 1)).1 else (test k).1) else bit (x.mask md.toNat) k := by
  intro q f test
  rw [Ctx.floatCompared, bit_cmpMask _ _ _ _ hk, comparedBit, all_floatElems]

/-! ### Integers (R162) -/

/-- The mask and the flags of an integer compare, of the context at hand (R162). -/
def Ctx.intCompared (x : Ctx) (c : (w : Nat) → BitVec w → BitVec w → Bool) (md va vb : BitVec 5) (m : BitVec 3) (w : Nat) : BitVec 16 × BitVec 6 :=
  cmpMask (cmpActive (x.mask m.toNat) w) (x.mask md.toNat) (cmpElems w)
    (fun j => (c w (BitVec.ofNat w (lane (x.vread false va.toNat) w j)) (BitVec.ofNat w (lane (x.vread false vb.toNat) w j)), 0))

theorem viCmp_eq (i : Instr) (c : (w : Nat) → BitVec w → BitVec w → Bool) (md va vb : BitVec 5) (m : BitVec 3) (w : BitVec 2) (s : State) :
    viCmp i c md va vb m w s = vecCmp i [va, vb] md (fun x => x.intCompared c md va vb m (elemWidth w)) s := rfl

theorem bit_intCompared (x : Ctx) (c : (w : Nat) → BitVec w → BitVec w → Bool) (md va vb : BitVec 5) (m : BitVec 3) (w : Nat) {k : Nat} (hk : k < 16) :
    bit (x.intCompared c md va vb m w).1 k = if bit (x.mask m.toNat) (if w = 64 then k / 2 * 2 else k)
      then (cmpElems w k).all (fun j => c w (BitVec.ofNat w (lane (x.vread false va.toNat) w j)) (BitVec.ofNat w (lane (x.vread false vb.toNat) w j)))
      else bit (x.mask md.toNat) k := by
  rw [Ctx.intCompared, bit_cmpMask _ _ _ _ hk, comparedBit, bit_cmpActive _ _ hk]

/-- An integer compare merges no flag. -/
theorem snd_cmpMask (mask old : BitVec 16) (els : Nat → List Nat) (c : Nat → Bool) : (cmpMask mask old els (fun j => (c j, 0))).2 = 0 := by
  rw [cmpMask, ← List.foldl_hom Prod.snd (g₂ := fun a _ => a)]
  · exact List.foldl_fixed _
  · intro acc i
    split
    · simp [List.foldl_map]
    · rfl

/-- The comparison of each row, and the mask it may write. -/
theorem exec_viCmp {p : (BitVec 5 → BitVec 5 → BitVec 5 → BitVec 3 → BitVec 2 → Instr) × (Nat → Nat → Nat → Bool)}
    (hp : p ∈ [(Instr.vcmpEqI, fun w a b => decide (BitVec.ofNat w a = BitVec.ofNat w b)),
      (.vcmpLtI, fun w a b => decide ((BitVec.ofNat w a).toInt < (BitVec.ofNat w b).toInt)),
      (.vcmpLtu, fun w a b => decide ((BitVec.ofNat w a).toNat < (BitVec.ofNat w b).toNat))]) :
    ∃ c : (w : Nat) → BitVec w → BitVec w → Bool, (∀ w a b, c w (BitVec.ofNat w a) (BitVec.ofNat w b) = p.2 w a b) ∧
      ∀ md va vb m w, (∀ s, exec (p.1 md va vb m w) s = viCmp (p.1 md va vb m w) c md va vb m w s) ∧ (p.1 md va vb m w).wf = maskDst md := by
  simp only [List.mem_cons, List.not_mem_nil, or_false] at hp
  obtain rfl | rfl | rfl := hp
  · exact ⟨fun _ a b => a == b, fun _ _ _ => rfl, fun _ _ _ _ _ => ⟨fun _ => rfl, rfl⟩⟩
  · exact ⟨fun _ a b => a.slt b, fun _ _ _ => rfl, fun _ _ _ _ _ => ⟨fun _ => rfl, rfl⟩⟩
  · exact ⟨fun _ a b => a.ult b, fun _ _ _ => rfl, fun _ _ _ _ _ => ⟨fun _ => rfl, rfl⟩⟩

/-- Settles O17: the bits of a compared mask, of the elements that the context holds. -/
theorem vectorCompares : Obligations.VectorCompares := by
  constructor
  · intro p hp md va vb m t i q f n s h
    obtain ⟨hexec, hwf⟩ := exec_vfCmp hp md va vb m t
    have hmd : maskDst md = true := (Bool.and_eq_true_iff.mp (hwf.symm.trans (Need.wf_of_ready h))).2
    obtain ⟨r, hr, hv, -, hmem, hg, hmask⟩ := vecCmp_ready (fun x => x.floatCompared p.2 md va vb m t) (fun _ => rfl) hmd h
    refine ⟨r, ((hexec s).trans (vfCmp_eq _ _ _ _ _ _ _ s)).trans hr, hv, hmem, hg, fun k hk => ?_⟩
    rw [hmask]
    exact bit_floatCompared s.cur p.2 md va vb m t hk
  · intro p hp md va vb m w i n k s h
    obtain ⟨c, hc, hrow⟩ := exec_viCmp hp
    obtain ⟨hexec, hwf⟩ := hrow md va vb m w
    have hmd : maskDst md = true := hwf.symm.trans (Need.wf_of_ready h)
    obtain ⟨r, hr, hv, hfcsr, hmem, hg, hmask⟩ := vecCmp_ready (fun x => x.intCompared c md va vb m (elemWidth w)) (fun _ => rfl) hmd h
    refine ⟨r, ((hexec s).trans (viCmp_eq _ _ _ _ _ _ _ s)).trans hr, hv, ?_, hmem, hg, fun b hb => ?_⟩
    · rw [hfcsr, Ctx.intCompared, snd_cmpMask, Ctx.orFlags_zero]
    · rw [hmask, bit_intCompared _ _ _ _ _ _ _ hb]
      simp only [hc]
      rfl

end Sys2Proof.Machine
end

section
/-! SUPPORT. Results of single vector registers, lane by lane: what the instruction leaves of the context and of memory (R157, R158). -/
namespace Sys2Proof.Machine

/-! ### Widths (R162) -/

/-- A register is its elements side by side. -/
theorem elemWidth_mul_count (w : BitVec 2) : elemWidth w * (512 / elemWidth w) = 512 := by
  revert w
  decide

/-! ### A register written lane by lane -/

/-- The context with `f j` in the active elements of vd, and the elements of `old` in the others. -/
def Ctx.putLanes (x : Ctx) (vd : BitVec 5) (k : Nat) (mask : BitVec 16) (old : Nat) (f : Nat → Nat) : Ctx :=
  x.vwrite false vd.toNat (mapLanes mask false k old (fun j => (f j, 0))).1

theorem Ctx.putLanes_eq (x : Ctx) (vd : BitVec 5) (k : Nat) (mask : BitVec 16) (old : Nat) (f : Nat → Nat) : x.putLanes vd k mask old f =
    x.putV vd.toNat (BitVec.ofNat 512 (joinLanes k (512 / k) (resultLane mask false k old (fun j => (f j, 0))))) := by
  rw [Ctx.putLanes, mapLanes_fst]
  rfl

theorem Ctx.stateV_putV_same (x : Ctx) (v : Nat) (w : VecReg) : (x.putV v w).stateV v = .full := by
  rw [Ctx.stateV, Ctx.putV, fget_fset_same]

/-- No lane without a flag merges one. -/
theorem snd_mapLanes (mask : BitVec 16) (pair : Bool) (w old : Nat) (f : Nat → Nat) : (mapLanes mask pair w old (fun j => (f j, 0))).2 = 0 := by
  refine BitVec.eq_of_getLsbD_eq fun k _ => (bit_mapLanes_snd _ _ _ _ _ k).trans ?_
  simp [bit]

/-- From s to r, of the vector registers vd alone changes: it is full, with `f j` in the active elements and those of `old` in the others. Masks, flags and
memory stay. -/
structure WritesLanes (s r : State) (vd : BitVec 5) (k : Nat) (mask : BitVec 16) (old : Nat) (f : Nat → Nat) : Prop where
  mem : r.mem = s.mem
  readV_ne : ∀ u : Nat, u ≠ vd.toNat → r.cur.readV u = s.cur.readV u
  full : r.cur.stateV vd.toNat = .full
  masks : r.cur.masks = s.cur.masks
  fcsr : r.cur.fcsr = s.cur.fcsr
  lanes : ∀ j < 512 / k, lane (r.cur.readV vd.toNat).toNat k j = if laneOn mask false k j then f j else lane old k j

/-- An instruction that names no port, writes lanes to a register and goes on leaves those lanes. The high-water mark does not matter to what it writes. -/
theorem writesLanes_retire {n : Need} (hp : ∀ p ∈ n.srcs, inPort p.1 = false) {s : State} {g : Ctx → Ctx} {vd : BitVec 5} {w : BitVec 2} {mask : BitVec 16}
    {old : Nat} {f : Nat → Nat} (hg : ∀ h, g (s.cur.risen h) = (s.cur.risen h).putLanes vd (elemWidth w) mask old f) (hf : ∀ j, f j < 2 ^ elemWidth w) :
    WritesLanes s ((n.take s).updCur g).retire vd (elemWidth w) mask old f := by
  obtain ⟨h, htake⟩ := Need.cur_take_noPorts hp s
  have hregs := ((n.take s).updCur g).sameRegs_retire
  have hput := (hg h).trans (Ctx.putLanes_eq _ _ _ _ _ _)
  have hcur : ((n.take s).updCur g).cur = (s.cur.risen h).putV vd.toNat
      (BitVec.ofNat 512 (joinLanes (elemWidth w) (512 / elemWidth w) (resultLane mask false (elemWidth w) old (fun j => (f j, 0))))) := by
    rw [State.cur_updCur, htake, hput]
  refine ⟨?_, fun u hu => ?_, ?_, ?_, ?_, fun j hj => ?_⟩
  · rw [State.mem_retire, State.updCur_mem, Need.mem_take_noPorts hp]
  · rw [State.readV_retire, hcur, Ctx.readV_putV_ne _ _ hu]
    rfl
  · rw [hregs.stateV, hcur]
    exact Ctx.stateV_putV_same _ _ _
  · rw [hregs.masks, hcur]
    rfl
  · rw [hregs.fcsr, hcur]
    rfl
  · rw [State.readV_retire, hcur, Ctx.readV_putV_same, lane_ofNat_joinLanes (elemWidth_mul_count w) (resultLane_lt mask false old hf) hj]
    rfl

end Sys2Proof.Machine
end

section
/-! SUPPORT. Vector integers and logic (R162, R163): each row computes, element by element, what its operation is on bit vectors of the element's width. -/
namespace Sys2Proof.Machine

open Claims (needV)

/-! ### The instruction on lanes -/

/-- Element j of an operation on the lanes of two registers. -/
def Ctx.opLane (x : Ctx) (op : (k : Nat) → BitVec k → BitVec k → BitVec k) (k : Nat) (va vb : BitVec 5) (j : Nat) : Nat :=
  (op k (BitVec.ofNat k (lane (x.readV va.toNat).toNat k j)) (BitVec.ofNat k (lane (x.readV vb.toNat).toNat k j))).toNat

theorem viLogic_eq (i : Instr) (op : (k : Nat) → BitVec k → BitVec k → BitVec k) (vd va vb : BitVec 5) (m : BitVec 3) (w : BitVec 2) (s : State) :
    viLogic i op vd va vb m w s = vecOp i [va, vb] [vd] false m
      (fun x => x.lanesOf false (elemWidth w) vd m (fun x j => (x.opLane op (elemWidth w) va vb j, 0))) s := rfl

theorem writesLanes_of_viLogic {i : Instr} {vd va vb : BitVec 5} {m : BitVec 3} {w : BitVec 2} {s : State}
    (op : (k : Nat) → BitVec k → BitVec k → BitVec k) (h : (needV i [va, vb] [vd] false m).ready s = true) :
    ∃ r, viLogic i op vd va vb m w s = .next r ∧
      WritesLanes s r vd (elemWidth w) (s.cur.mask m.toNat) (s.cur.readV vd.toNat).toNat (s.cur.opLane op (elemWidth w) va vb) := by
  refine ⟨_, (viLogic_eq i op vd va vb m w s).trans (vecOp_eq_updCur _ h),
    writesLanes_retire (n := needV i [va, vb] [vd] false m) nofun (fun k => ?_) fun _ => BitVec.isLt _⟩
  rw [Ctx.lanesOf, snd_mapLanes, Ctx.orFlags_zero]
  rfl

/-- A plain integer operation of ops 0 to 8 sets no flag, so it is one on bit vectors like the logic ones. -/
theorem intElemOp_plain (o : IntOp) (k a b : Nat) : intElemOp {} o k a b = ((intMod {} o k (BitVec.ofNat k a) (BitVec.ofNat k b)).1.toNat, 0) := by
  cases o
  all_goals rfl

theorem viArith_plain (i : Instr) (o : IntOp) (vd va vb : BitVec 5) (m : BitVec 3) (w : BitVec 2) (s : State) :
    viArith {} i o vd va vb m w s = viLogic i (fun k a b => (intMod {} o k a b).1) vd va vb m w s := by
  rw [viArith, funext₂ (intElemOp_plain o (elemWidth w)), viLogic]

/-- Without a modifier the result is the operation's exact one, modulo 2^k (R152, R162). -/
theorem intMod_plain (o : IntOp) (k : Nat) (a b : BitVec k) :
    (intMod {} o k a b).1 = BitVec.ofInt k (if o.signed then o.exact k a.toInt b.toInt else o.exact k a.toNat b.toNat) := by
  have hscale : ∀ x, scaleInt x 0 = x := fun x => Int.mul_one x
  have hexact : ∀ x y, (intModExact {} o k x y).1 = BitVec.ofInt k (o.exact k x y) := by
    intro x y
    rw [← hscale (o.exact k x y)]
    cases o <;> rfl
  rw [intMod]
  split
  · exact hexact _ _
  · exact hexact _ _

/-! ### The values of the rows -/

/-- Instruction and value of a row of R162 or R163. -/
abbrev IntRow := (BitVec 5 → BitVec 5 → BitVec 5 → BitVec 3 → BitVec 2 → Instr) × (Nat → Nat → Nat → Nat)

/-- The instruction of a row is the operation op on lanes, whose value on patterns of k bits is the one of the row. -/
structure RowIs (p : IntRow) (op : (k : Nat) → BitVec k → BitVec k → BitVec k) : Prop where
  exec : ∀ vd va vb m w s, Machine.exec (p.1 vd va vb m w) s = viLogic (p.1 vd va vb m w) op vd va vb m w s
  value : ∀ k (a b : BitVec k), (op k a b).toNat = p.2 k a.toNat b.toNat

theorem rowIs_of_viArith {f : BitVec 5 → BitVec 5 → BitVec 5 → BitVec 3 → BitVec 2 → Instr} {v : Nat → Nat → Nat → Nat} (o : IntOp)
    (h : ∀ vd va vb m w s, exec (f vd va vb m w) s = viArith {} (f vd va vb m w) o vd va vb m w s)
    (hv : ∀ k (a b : BitVec k), (BitVec.ofInt k (if o.signed then o.exact k a.toInt b.toInt else o.exact k a.toNat b.toNat)).toNat = v k a.toNat b.toNat) :
    ∃ op, RowIs (f, v) op :=
  ⟨fun k a b => (intMod {} o k a b).1, fun vd va vb m w s => (h vd va vb m w s).trans (viArith_plain _ o vd va vb m w s),
    fun k a b => (congrArg BitVec.toNat (intMod_plain o k a b)).trans (hv k a b)⟩

section
variable {k : Nat} (a b : BitVec k)

theorem toNat_ofInt_add : (BitVec.ofInt k (a.toInt + b.toInt)).toNat = (a.toNat + b.toNat) % 2 ^ k := by
  rw [BitVec.ofInt_add, BitVec.ofInt_toInt, BitVec.ofInt_toInt, BitVec.toNat_add]

theorem toNat_ofInt_sub : (BitVec.ofInt k (a.toInt - b.toInt)).toNat = (a.toNat + 2 ^ k - b.toNat) % 2 ^ k := by
  have hb := b.isLt
  rw [Int.sub_eq_add_neg, BitVec.ofInt_add, BitVec.ofInt_neg, BitVec.ofInt_toInt, BitVec.ofInt_toInt, ← BitVec.sub_eq_add_neg, BitVec.toNat_sub]
  congr 1
  omega

theorem toNat_ofInt_mul : (BitVec.ofInt k (a.toInt * b.toInt)).toNat = a.toNat * b.toNat % 2 ^ k := by
  rw [BitVec.ofInt_mul, BitVec.ofInt_toInt, BitVec.ofInt_toInt, BitVec.toNat_mul]

/-- The upper half of an unsigned product fits its width. -/
theorem toNat_ofInt_mulHigh : (BitVec.ofInt k (((a.toNat : Int) * b.toNat).fdiv (2 ^ k))).toNat = a.toNat * b.toNat / 2 ^ k := by
  have hdiv : ((a.toNat : Int) * b.toNat).fdiv (2 ^ k) = ((a.toNat * b.toNat / 2 ^ k : Nat) : Int) := by
    rw [Int.fdiv_eq_ediv_of_nonneg _ (by positivity)]
    push_cast
    rfl
  rw [hdiv, BitVec.ofInt_natCast, BitVec.toNat_ofNat, Nat.mod_eq_of_lt]
  exact Nat.div_lt_of_lt_mul (Nat.mul_lt_mul'' a.isLt b.isLt)

/-- The lesser or the greater of two signed values is one of their patterns. -/
theorem toNat_ofInt_ite (c : Prop) [Decidable c] : (BitVec.ofInt k (if c then a.toInt else b.toInt)).toNat = if c then a.toNat else b.toNat := by
  split
  · rw [BitVec.ofInt_toInt]
  · rw [BitVec.ofInt_toInt]

/-- The lesser or the greater of two unsigned values. -/
theorem toNat_ofInt_ite_unsigned (c : Prop) [Decidable c] :
    (BitVec.ofInt k (if c then (a.toNat : Int) else b.toNat)).toNat = if c then a.toNat else b.toNat := by
  split
  · rw [BitVec.ofInt_natCast, BitVec.ofNat_toNat, BitVec.setWidth_eq]
  · rw [BitVec.ofInt_natCast, BitVec.ofNat_toNat, BitVec.setWidth_eq]

/-- A pattern read as a number and back. -/
theorem ofNat_toNat_self : BitVec.ofNat k a.toNat = a := by
  rw [BitVec.ofNat_toNat, BitVec.setWidth_eq]

theorem toNat_sshiftRight_eq_ofInt_fdiv (n : Nat) : (a.sshiftRight n).toNat = (BitVec.ofInt k (a.toInt.fdiv (2 ^ n))).toNat := by
  rw [BitVec.sshiftRight_eq, Int.shiftRight_eq_div_pow, Int.fdiv_eq_ediv_of_nonneg _ (by positivity), Nat.cast_pow, Nat.cast_ofNat]

end

/-- Settles O18: each row is an operation on lanes with the row's value, and such an operation leaves the rest. -/
theorem vectorInteger : Obligations.VectorInteger := by
  intro p hp vd va vb m w i k s h
  obtain ⟨op, hrow⟩ : ∃ op, RowIs p op := by
    simp only [List.mem_cons, List.not_mem_nil, or_false] at hp
    obtain rfl | rfl | rfl | rfl | rfl | rfl | rfl | rfl | rfl | rfl | rfl | rfl | rfl | rfl | rfl | rfl := hp
    · exact rowIs_of_viArith .add (fun _ _ _ _ _ _ => rfl) fun _ a b => toNat_ofInt_add a b
    · exact rowIs_of_viArith .sub (fun _ _ _ _ _ _ => rfl) fun _ a b => toNat_ofInt_sub a b
    · exact rowIs_of_viArith .mul (fun _ _ _ _ _ _ => rfl) fun _ a b => toNat_ofInt_mul a b
    · exact rowIs_of_viArith .mulh (fun _ _ _ _ _ _ => rfl) fun _ a b => by simp only [ofNat_toNat_self]; rfl
    · exact rowIs_of_viArith .mulhu (fun _ _ _ _ _ _ => rfl) fun _ a b => toNat_ofInt_mulHigh a b
    · exact rowIs_of_viArith .min (fun _ _ _ _ _ _ => rfl) fun _ a b => by simp only [ofNat_toNat_self]; exact toNat_ofInt_ite a b _
    · exact rowIs_of_viArith .max (fun _ _ _ _ _ _ => rfl) fun _ a b => by simp only [ofNat_toNat_self]; exact toNat_ofInt_ite b a _
    · exact rowIs_of_viArith .minu (fun _ _ _ _ _ _ => rfl) fun _ a b => by simp only [← Int.ofNat_le]; exact toNat_ofInt_ite_unsigned a b _
    · exact rowIs_of_viArith .maxu (fun _ _ _ _ _ _ => rfl) fun _ a b => by simp only [← Int.ofNat_le]; exact toNat_ofInt_ite_unsigned b a _
    · exact ⟨fun _ a b => a &&& b, fun _ _ _ _ _ _ => rfl, fun _ a b => BitVec.toNat_and a b⟩
    · exact ⟨fun _ a b => a ||| b, fun _ _ _ _ _ _ => rfl, fun _ a b => BitVec.toNat_or a b⟩
    · exact ⟨fun _ a b => a ^^^ b, fun _ _ _ _ _ _ => rfl, fun _ a b => BitVec.toNat_xor a b⟩
    · exact ⟨fun _ a b => a &&& ~~~b, fun _ _ _ _ _ _ => rfl, fun _ a b => by simp only [BitVec.toNat_and, BitVec.toNat_not]⟩
    · exact ⟨fun n a b => a <<< (b.toNat % n), fun _ _ _ _ _ _ => rfl, fun _ a b => by simp only [BitVec.toNat_shiftLeft, Nat.shiftLeft_eq]⟩
    · exact ⟨fun n a b => a >>> (b.toNat % n), fun _ _ _ _ _ _ => rfl, fun _ a b => by simp only [BitVec.toNat_ushiftRight, Nat.shiftRight_eq_div_pow]⟩
    · exact ⟨fun n a b => a.sshiftRight (b.toNat % n), fun _ _ _ _ _ _ => rfl, fun _ a b => by
        simp only [ofNat_toNat_self]; exact toNat_sshiftRight_eq_ofInt_fdiv a _⟩
  obtain ⟨r, hr, hw⟩ := writesLanes_of_viLogic op h
  refine ⟨r, (hrow.exec vd va vb m w s).trans hr, hw.fcsr, hw.mem, hw.readV_ne, hw.full, hw.masks, fun j hj => (hw.lanes j hj).trans ?_⟩
  rw [Ctx.opLane, hrow.value, BitVec.toNat_ofNat, BitVec.toNat_ofNat, Nat.mod_eq_of_lt (lane_lt _ _ _), Nat.mod_eq_of_lt (lane_lt _ _ _)]

end Sys2Proof.Machine
end

section
/-! SUPPORT. Moves between vector registers, g registers and lanes (R163, R165). -/
namespace Sys2Proof.Machine

open Claims (needV)

/-- A mask of all ones governs every element (R157). -/
theorem laneOn_allOnes (w : BitVec 2) {j : Nat} (h : j < 512 / elemWidth w) : laneOn 0xFFFF false (elemWidth w) j = true := by
  have hbit : ∀ b < 16, bit (0xFFFF#16) b = true := by decide
  refine hbit (elemWidth w * j / 32) ?_
  have hlt : elemWidth w * j < 512 := (Nat.lt_div_iff_mul_lt' ⟨_, (elemWidth_mul_count w).symm⟩ j).mp h
  omega

/-- What a move into register vd names: g sources of the V format and v sources. -/
def moveNeed (i : Instr) (srcs vsrcs : List (BitVec 5)) (vd : BitVec 5) : Need :=
  { wf := i.wf, srcs := srcs.map (fun r => blk (g5 r)), vsrcs := vsrcs, vdsts := [vd], vec := true }

theorem moveNeed_noPorts (i : Instr) (srcs vsrcs : List (BitVec 5)) (vd : BitVec 5) : ∀ p ∈ (moveNeed i srcs vsrcs vd).srcs, inPort p.1 = false := by
  intro p hp
  obtain ⟨r, -, rfl⟩ := List.mem_map.mp hp
  exact inPort_g5 r

/-- A ready move whose operation is a change of the context to lanes of vd leaves those lanes. Of the context it reads no high-water mark. -/
theorem writesLanes_of_issue {i : Instr} {srcs vsrcs : List (BitVec 5)} {vd : BitVec 5} {w : BitVec 2} {s : State} {mask : Ctx → BitVec 16} {old : Ctx → Nat}
    {f : List Word → Ctx → Nat → Nat} (hexec : exec i s = issue (moveNeed i srcs vsrcs vd) s
      (fun v t => .ok (t.updCur (fun x => x.putLanes vd (elemWidth w) (mask x) (old x) (f v x))).retire))
    (h : (moveNeed i srcs vsrcs vd).ready s = true)
    (hsame : ∀ k, mask (s.cur.risen k) = mask s.cur ∧ old (s.cur.risen k) = old s.cur ∧ ∀ v, f v (s.cur.risen k) = f v s.cur)
    (hf : ∀ v x j, f v x j < 2 ^ elemWidth w) :
    ∃ r, exec i s = .next r ∧ WritesLanes s r vd (elemWidth w) (mask s.cur) (old s.cur) (f ((moveNeed i srcs vsrcs vd).vals s) s.cur) := by
  refine ⟨_, hexec.trans (issue_ok h rfl), writesLanes_retire (moveNeed_noPorts _ _ _ _) (fun k => ?_) (hf _ _)⟩
  obtain ⟨hmask, hold, hlane⟩ := hsame k
  rw [hmask, hold, hlane]

/-- What vperm puts in element j: of the elements of a and then those of d, the one that the element of b names (R165). -/
def permLane (k a b d j : Nat) : Nat :=
  let q := lane b k j % (2 * (512 / k))
  if q < 512 / k then lane a k q else lane d k (q - 512 / k)

theorem permLane_lt (k a b d j : Nat) : permLane k a b d j < 2 ^ k := by
  unfold permLane
  dsimp only
  split
  · exact lane_lt _ _ _
  · exact lane_lt _ _ _

/-- What vins puts in element j: the low bits of x in element e, the old one elsewhere (R165). -/
def insLane (k d : Nat) (x : Word) (e j : Nat) : Nat := if j = e then x.toNat % 2 ^ k else lane d k j

theorem insLane_lt (k d : Nat) (x : Word) (e j : Nat) : insLane k d x e j < 2 ^ k := by
  unfold insLane
  split
  · exact Nat.mod_lt _ (Nat.two_pow_pos k)
  · exact lane_lt _ _ _

/-! ### What each leaves -/

section
variable (vd va vb nb : BitVec 5) (m : BitVec 3) (w : BitVec 2) (s : State)

theorem exec_vsel : exec (.vsel vd va vb m w) s = issue (moveNeed (.vsel vd va vb m w) [] [va, vb] vd) s (fun _ t => .ok (t.updCur (fun x =>
    x.putLanes vd (elemWidth w) (x.mask m.toNat) (x.readV vb.toNat).toNat (lane (x.readV va.toNat).toNat (elemWidth w)))).retire) := rfl

theorem exec_vperm : exec (.vperm vd va vb m w) s = vecOp (.vperm vd va vb m w) [va, vb] [vd] true m (fun x =>
    (x.putLanes vd (elemWidth w) (x.mask m.toNat) (x.readV vd.toNat).toNat
      (permLane (elemWidth w) (x.readV va.toNat).toNat (x.readV vb.toNat).toNat (x.readV vd.toNat).toNat), 0)) s := rfl

theorem exec_vbcast : exec (.vbcast vd va m w) s = issue (moveNeed (.vbcast vd va m w) [va] (if m = 0 then [] else [vd]) vd) s
    (fun v t => .ok (t.updCur (fun x =>
      x.putLanes vd (elemWidth w) (x.mask m.toNat) (x.readV vd.toNat).toNat (fun _ => (v0 v).toNat % 2 ^ elemWidth w))).retire) := rfl

theorem exec_vins : exec (.vins vd va nb w) s = issue (moveNeed (.vins vd va nb w) [va] [vd] vd) s (fun v t => .ok (t.updCur (fun x =>
    x.putLanes vd (elemWidth w) 0xFFFF (x.readV vd.toNat).toNat (insLane (elemWidth w) (x.readV vd.toNat).toNat (v0 v) nb.toNat))).retire) := rfl

end

/-- vperm is the one move whose old destination is always a source (R165). -/
theorem writesLanes_vperm {vd va vb : BitVec 5} {m : BitVec 3} {w : BitVec 2} {s : State}
    (h : (needV (.vperm vd va vb m w) [va, vb] [vd] true m).ready s = true) :
    ∃ r, exec (.vperm vd va vb m w) s = .next r ∧ WritesLanes s r vd (elemWidth w) (s.cur.mask m.toNat) (s.cur.readV vd.toNat).toNat
      (permLane (elemWidth w) (s.cur.readV va.toNat).toNat (s.cur.readV vb.toNat).toNat (s.cur.readV vd.toNat).toNat) :=
  ⟨_, (exec_vperm vd va vb m w s).trans (vecOp_eq_updCur _ h),
    writesLanes_retire (n := needV _ [va, vb] [vd] true m) nofun (fun _ => by rw [Ctx.orFlags_zero]; rfl) fun _ => permLane_lt _ _ _ _ _⟩

/-- Settles O19: what each leaves in the lanes of vd, and what vext gives. -/
theorem vectorMoves : Obligations.VectorMoves := by
  refine ⟨?vsel, ?vperm, ?vbcast, ?vext, ?vins⟩
  case vsel =>
    intro vd va vb m w i k n s h
    obtain ⟨r, hr, hw⟩ := writesLanes_of_issue (exec_vsel vd va vb m w s) h (fun _ => ⟨rfl, rfl, fun _ => rfl⟩) fun _ _ _ => lane_lt _ _ _
    exact ⟨r, hr, hw.mem, hw.readV_ne, fun j hj => (hw.lanes j hj).trans (apply_ite (fun x : VecReg => lane x.toNat k j) _ _ _).symm⟩
  case vperm =>
    intro vd va vb m w i k s h
    obtain ⟨r, hr, hw⟩ := writesLanes_vperm h
    exact ⟨r, hr, hw.mem, hw.readV_ne, hw.lanes⟩
  case vbcast =>
    intro vd va m w i k n s h
    have hval : v0 (n.vals s) = s.cur.readG va.toNat := congrArg v0 (Need.vals_g5 rfl s)
    obtain ⟨r, hr, hw⟩ := writesLanes_of_issue (exec_vbcast vd va m w s) h (fun _ => ⟨rfl, rfl, fun _ => rfl⟩) fun _ _ _ => Nat.mod_lt _ (Nat.two_pow_pos _)
    rw [← hval]
    exact ⟨r, hr, hw.mem, hw.readV_ne, hw.lanes⟩
  case vext => exact fun vd va nb w => completes_of_issue _ (fun _ => rfl) (fun _ => rfl) fun _ _ => rfl
  case vins =>
    intro vd va nb w i k n s h
    have hval : v0 (n.vals s) = s.cur.readG va.toNat := congrArg v0 (Need.vals_g5 rfl s)
    obtain ⟨r, hr, hw⟩ := writesLanes_of_issue (exec_vins vd va nb w s) h (fun _ => ⟨rfl, rfl, fun _ => rfl⟩) fun _ _ _ => insLane_lt _ _ _ _ _
    rw [← hval]
    exact ⟨r, hr, hw.mem, hw.readV_ne, fun j hj => (hw.lanes j hj).trans (if_pos (laneOn_allOnes w hj))⟩

end Sys2Proof.Machine
end

section
/-! SUPPORT. Repeater instructions without a port operand: the frame they begin, and the fault (R177, R178). -/
namespace Sys2Proof.Machine

open Claims (CompletesIf TrapsIf)

/-! ### The fields of a count operand (R177) -/

/-- The field from a bit up to the top is the quotient by that bit's weight. -/
theorem fld_upper (v : Word) {k : Nat} (hk : k ≤ 64) : fld v k (64 - k) = v.toNat / 2 ^ k := by
  refine Nat.mod_eq_of_lt (Nat.div_lt_of_lt_mul ?_)
  rw [← Nat.pow_add, Nat.add_sub_cancel' hk]
  exact v.isLt

/-- The field from a bit up to the top is zero where the word stays below that bit's weight. -/
theorem fld_upper_eq_zero_iff (v : Word) {k : Nat} (hk : k ≤ 64) : fld v k (64 - k) = 0 ↔ v.toNat < 2 ^ k := by
  rw [fld_upper v hk, Nat.div_eq_zero_iff_lt (Nat.two_pow_pos k)]

theorem fld_low (v : Word) (n : Nat) : fld v 0 n = v.toNat % 2 ^ n := by
  rw [fld, natBits, Nat.pow_zero, Nat.div_one]

/-- The slot mask of rptx: a number of 16 bits is taken modulo its width already. -/
theorem ofNat_fld_slotMask (v : Word) : BitVec.ofNat 16 (fld v 32 16) = BitVec.ofNat 16 (v.toNat / 2 ^ 32) :=
  BitVec.eq_of_toNat_eq (Nat.mod_mod _ _)

/-! ### What a repeater instruction does with its count (R177, R178) -/

/-- The frame of a repeater instruction whose operand is no port. -/
def State.freshFrame (s : State) (l st : BitVec 4) (count : Nat) (mask : BitVec 16) : Frame :=
  { state := .fill, base := s.slot.addr + 4, len := l.toNat + 1, count := count, stride := st.toNat, mask := mask, word := s.slot.word }

/-- The operation of a repeater instruction whose operand is no port, `f` reading count and mask from its value. -/
def frameAct (l st : BitVec 4) (f : Word → Option (Nat × BitVec 16)) (v : List Word) (s : State) : Act :=
  if s.cur.mon then .fault 0x0D 0
  else match f (v0 v) with
    | none => .fault 0x0D 0
    | some (count, mask) => .ok (s.beginFrame (s.freshFrame l st count mask))

theorem frameAct_begins {l st : BitVec 4} {f : Word → Option (Nat × BitVec 16)} {v : List Word} {s : State} {count : Nat} {mask : BitVec 16}
    (hmon : s.cur.mon = false) (hf : f (v0 v) = some (count, mask)) : frameAct l st f v s = .ok (s.beginFrame (s.freshFrame l st count mask)) := by
  simp only [frameAct, hmon, hf, Bool.false_eq_true, if_false]

theorem frameAct_faults {l st : BitVec 4} {f : Word → Option (Nat × BitVec 16)} {v : List Word} {s : State}
    (h : s.cur.mon = true ∨ f (v0 v) = none) : frameAct l st f v s = .fault 0x0D 0 := by
  cases hmon : s.cur.mon with
  | true => simp only [frameAct, hmon, if_true]
  | false =>
    have hf : f (v0 v) = none := h.resolve_left (by simp [hmon])
    simp only [frameAct, hmon, hf, Bool.false_eq_true, if_false]

/-- Without a port operand nothing is reserved, and the operation reads the state with its operands taken alone. -/
theorem frameOp_eq_issue {srcs : List (BitVec 6 × Bool)} (h : ∀ p ∈ srcs, inPort p.1 = false) (i : Instr) (l st : BitVec 4)
    (f : Word → Option (Nat × BitVec 16)) (s : State) : frameOp i srcs l st f s = issue { wf := i.wf, srcs := srcs } s (frameAct l st f) := by
  have hnone : srcs.findSome? (fun p => if inPort p.1 then some (p.1.toNat - 56) else none) = none :=
    List.findSome?_eq_none_iff.2 fun p hp => if_neg (Bool.eq_false_iff.1 (h p hp))
  refine congrArg (issue _ s) (funext fun v => funext fun q => ?_)
  rw [hnone, frameAct]
  rcases f (v0 v) with _ | ⟨count, mask⟩
  · rfl
  · rfl

section
variable {i : Instr} {srcs : List (BitVec 6 × Bool)} {l st : BitVec 4} {f : Word → Option (Nat × BitVec 16)} {p : List Word → State → Prop}
  (he : ∀ s, exec i s = frameOp i srcs l st f s) (hsrcs : ∀ p ∈ srcs, inPort p.1 = false)
include he hsrcs

theorem completesIf_of_frameOp {count : List Word → Nat} {mask : List Word → BitVec 16}
    (h : ∀ v s, p v s → s.cur.mon = false ∧ f (v0 v) = some (count v, mask v)) :
    CompletesIf { wf := i.wf, srcs := srcs } i p (fun v s => s.beginFrame (s.freshFrame l st (count v) (mask v))) :=
  completesIf_of_issue _ he (frameOp_eq_issue hsrcs i l st f) fun v s hp => frameAct_begins (h v s hp).1 (h v s hp).2

theorem trapsIf_of_frameOp (h : ∀ v s, p v s → s.cur.mon = true ∨ f (v0 v) = none) :
    TrapsIf { wf := i.wf, srcs := srcs } i p 0x0D (fun _ _ => 0) :=
  trapsIf_of_issue _ he (frameOp_eq_issue hsrcs i l st f) fun v s hp => frameAct_faults (h v s hp)

end

section
variable (l st : BitVec 4) (s : State)

theorem exec_rpt (n : BitVec 16) : exec (.rpt l st n) s = frameOp (.rpt l st n) [] l st (fun _ => some (n.toNat, 0xFFFF)) s := rfl

theorem exec_rptR (wa : BitVec 1) (ra : BitVec 6) : exec (.rptR l st wa ra) s =
    frameOp (.rptR l st wa ra) [(ra, wt wa)] l st (fun v => if fld v 32 32 ≠ 0 then none else some (fld v 0 32, 0xFFFF)) s := rfl

theorem exec_rptx (wa : BitVec 1) (ra : BitVec 6) : exec (.rptx l st wa ra) s = frameOp (.rptx l st wa ra) [(ra, wt wa)] l st
    (fun v => if fld v 48 16 ≠ 0 then none else some (fld v 0 32, BitVec.ofNat 16 (fld v 32 16))) s := rfl

end

/-- Settles O15: each form is the shared operation with its own reading of count and mask, whose reserved bits are the operand's upper field. -/
theorem repeaterFrames : Obligations.RepeaterFrames := by
  refine ⟨fun l st n => ?rpt, fun l st wa ra hra => ?rptR, fun l st wa ra hra => ?rptx⟩
  case rpt =>
    have hexec := fun s => exec_rpt l st s n
    have hport : ∀ p ∈ ([] : List (BitVec 6 × Bool)), inPort p.1 = false := List.forall_mem_nil _
    exact ⟨completesIf_of_frameOp hexec hport fun v s hmon => ⟨hmon, rfl⟩, trapsIf_of_frameOp hexec hport fun v s hmon => .inl hmon⟩
  case rptR =>
    have hexec := fun s => exec_rptR l st s wa ra
    have hport : ∀ p ∈ [(ra, wt wa)], inPort p.1 = false := List.forall_mem_singleton.2 hra
    have hreserved (v : Word) : fld v 32 32 = 0 ↔ v.toNat < 2 ^ 32 := fld_upper_eq_zero_iff v (by decide)
    refine ⟨completesIf_of_frameOp hexec hport fun v s h => ⟨h.1, ?_⟩, trapsIf_of_frameOp hexec hport fun v s h => ?_⟩
    · rw [if_neg (not_not.2 ((hreserved _).2 h.2)), fld_low, Nat.mod_eq_of_lt h.2]
    · exact h.imp_right fun hbig => if_pos (mt (hreserved _).1 (Nat.not_lt.2 hbig))
  case rptx =>
    have hexec := fun s => exec_rptx l st s wa ra
    have hport : ∀ p ∈ [(ra, wt wa)], inPort p.1 = false := List.forall_mem_singleton.2 hra
    have hreserved (v : Word) : fld v 48 16 = 0 ↔ v.toNat < 2 ^ 48 := fld_upper_eq_zero_iff v (by decide)
    refine ⟨completesIf_of_frameOp hexec hport fun v s h => ⟨h.1, ?_⟩, trapsIf_of_frameOp hexec hport fun v s h => ?_⟩
    · rw [if_neg (not_not.2 ((hreserved _).2 h.2)), fld_low, ofNat_fld_slotMask]
    · exact h.imp_right fun hbig => if_pos (mt (hreserved _).1 (Nat.not_lt.2 hbig))

end Sys2Proof.Machine
end

section
/-! SUPPORT. The steps of a repeater fill and of trains (R176, R184, R361 to R376, R447, R449). -/
namespace Sys2Proof.Machine

/-! ### The fill (R176, R179) -/

theorem Frame.lacks_of_fill {f : Frame} (h : f.state = .fill) : f.lacks = true := by
  rw [Frame.lacks, h]
  rfl

/-- A fill that no restore has brought holds its repeater instruction (R183). -/
theorem State.frameWord_held {f : Frame} (h : f.word ≠ 0) (s : State) (t c : Nat) : s.frameWord t c f = .word f.word s := if_pos h

/-- What the fill of a fresh frame comes to with the fetch of its body. -/
def State.fillOutcome (s : State) (t c : Nat) (f : Frame) : Filled → Out
  | .pass words r => .next (r.fillPassed t c f words)
  | .wait words r => notYet (r.updCtx t c (fun y => { y with frame := { f with words := words } }))
  | .fail r => .next (((r.atSlot t c (f.base - 4) f.word).updCtx t c (fun y => { y with frame := {} })).takeTrap 0x0D 0)
  | .fault a code tval => .next (((s.atSlot t c a 0).updCtx t c (fun y => { y with frame := {} })).takeTrap code tval)

theorem exec_repeaterFill_fresh {s : State} {f : Frame} {o : Filled} (hf : (s.ctx s.ev.a s.ev.b).frame = f) (hfill : f.state = .fill) (hword : f.word ≠ 0)
    (hlive : (s.ctx s.ev.a s.ev.b).state = .live) (hdue : (s.ctx s.ev.a s.ev.b).dueFault = none)
    (ho : s.fillBody s.ev.a s.ev.b f f.words (f.len - f.words.length) = o) :
    exec .repeaterFill s = s.fillOutcome s.ev.a s.ev.b f o := by
  subst hf
  have hlacks := Frame.lacks_of_fill hfill
  have hheld := State.frameWord_held hword s s.ev.a s.ev.b
  have hopen : ¬((!(s.ctx s.ev.a s.ev.b).frame.lacks) = true ∨ (s.ctx s.ev.a s.ev.b).state = .free) := by simp [hlacks, hlive]
  have hgoes : ¬((s.ctx s.ev.a s.ev.b).state ≠ .live ∨ (s.ctx s.ev.a s.ev.b).frame.state = .suspended) := by simp [hlive, hfill]
  refine (if_neg hopen).trans ((if_neg hgoes).trans ?_)
  simp only [hheld, hdue]
  rw [ho]
  cases o with
  | pass words r => exact congrArg Host.Outcome.next (if_pos hfill)
  | wait words r => rfl
  | fail r => rfl
  | fault a code tval => rfl

/-! ### Formation (R371) -/

theorem exec_trainFormationRequest_reaches {s : State} {u : Nat} (hforming : (s.tile s.ev.a).train.state = 1)
    (hmember : s.memberSite s.ev.a s.ev.b = some u) (hfree : (s.tile u).train.request = none) :
    exec .trainFormationRequest s = .next (s.updTile u (fun y => { y with train := { y.train with
      request := some ((s.tile s.ev.a).train.id, (s.tile s.ev.a).train.c0, (s.tile s.ev.a).train.n) } })) := by
  change execTrainFormationRequest s = _
  simp only [execTrainFormationRequest, hforming, hmember, hfree, ne_eq, not_true_eq_false, if_false, Option.isSome_none, Bool.false_eq_true]

/-! ### The lane of an attached follower (R361, R363, R369, R373) -/

/-- A follower before it executes the word at the head of its lane: its frame goes where the leader's goes, and the word stands in the slot. -/
def State.atLane (s : State) (a : Word) (w w2 : BitVec 32) (r : List (Word × BitVec 32 × BitVec 32)) : State :=
  let x := s.tile s.ev.a
  let y := (x.ctx 0).inStep (x.own a)
  let l : Slot := { site := s.ev.a, ctx := 0, addr := x.own a, word := w, word2 := w2, pair := isModifier w, train := true,
                    framed := decide (y.frame.state = .run) }
  { s.updTile s.ev.a (fun z => { z.setCtx 0 y with train := { z.train with lane := r, nextAddr := a + BitVec.ofNat 64 l.size } }) with slot := l }

/-- The word of a tile's lane has been executed: it counts as a step, and a frame that came with it has gone (R184, R364). -/
def State.stepped (s : State) (t : Nat) (w : BitVec 32) (had : Nat) : State :=
  s.updTile t (fun y => { y with train := ({ y.train with step := y.train.step + 1 }.dropFrame w had) })

section
variable {s t : State} {a : Word} {w w2 : BitVec 32} {r : List (Word × BitVec 32 × BitVec 32)}
  (hwest : s.westAhead s.ev.a = true) (hnear : s.eastNear s.ev.a (s.tile s.ev.a).train.d (s.tile s.ev.a).train.lane.length = true)
  (hwire : ∀ e ∈ (s.tile s.ev.a).train.wire, ∀ k, e.2 = some k → (s.tile s.ev.a).train.step ≤ k) (hfence : (s.tile s.ev.a).fenceDone 0 = true)
  (hrun : (s.atLane a w w2 r).followWord = .next t)
include hwest hnear hwire hfence hrun

/-- A word whose cycle has come is executed as the follower's own. -/
theorem State.laneWord_due : s.laneWord a w w2 r =
    if !t.slot.stalled then .next ((t.stepped s.ev.a w (s.tile s.ev.a).train.frames.length).noteStale (s.atLane a w w2 r) s.ev.a)
    else if (t.ctx s.ev.a 0).xlate ≠ .none then notYet (t.updTile s.ev.a (fun y =>
      { y with train := { y.train with lane := (a, w, w2) :: r, nextAddr := (s.tile s.ev.a).train.nextAddr } }))
    else trap ((s.atLane a w w2 r).stepped s.ev.a w (s.tile s.ev.a).train.frames.length) 0x0F 0 := by
  refine (if_neg ?_).trans ?_
  · rintro (h | h | h | h)
    · simp [hwest] at h
    · simp [hnear] at h
    · obtain ⟨e, he, h⟩ := List.any_eq_true.1 h
      cases hk : e.2 with
      | none => simp [hk] at h
      | some k => exact Nat.not_lt.2 (hwire e he k hk) (by simpa [hk] using h)
    · simp [hfence] at h
  split
  next q hq =>
    obtain rfl := Host.Outcome.next.inj (hrun.symm.trans hq)
    rfl
  next hne => exact (hne t hrun).elim

end

/-- A stream word and a marker alike are executed by an attached follower (R363). -/
theorem exec_eq_laneWord {s : State} {i : Instr} {a : Word} {w w2 : BitVec 32} {r : List (Word × BitVec 32 × BitVec 32)}
    (hlane : (s.tile s.ev.a).train.lane = (a, w, w2) :: r) (hattached : (s.tile s.ev.a).train.state = 3)
    (hi : (isTmark w = false ∧ i = .trainStreamWord) ∨ (isTmark w = true ∧ i = .trainMarker)) : exec i s = s.laneWord a w w2 r := by
  obtain ⟨hw, rfl⟩ | ⟨hw, rfl⟩ := hi
  · change execTrainStreamWord s = _
    simp only [execTrainStreamWord, hlane, hw, hattached, ne_eq, not_true_eq_false, Bool.false_eq_true, if_false]
  · change execTrainMarker s = _
    simp only [execTrainMarker, hlane, hw, hattached, Bool.not_true, Bool.false_eq_true, if_false, if_true]

section
variable {s : State} {a : Word} {w w2 : BitVec 32} {r : List (Word × BitVec 32 × BitVec 32)} (hlane : (s.tile s.ev.a).train.lane = (a, w, w2) :: r)
include hlane

/-- A member that is not attached lets a stream word go by (R363, R376). -/
theorem exec_trainStreamWord_passBy (hw : isTmark w = false) (hstate : (s.tile s.ev.a).train.state ≠ 3) : exec .trainStreamWord s =
    .next ((s.updTile s.ev.a (fun y => { y with train := { y.train with lane := r, step := y.train.step + 1 } })).passBy s.ev.a w) := by
  change execTrainStreamWord s = _
  simp only [execTrainStreamWord, hlane, hw, Bool.false_eq_true, if_false]
  exact if_pos hstate

/-- The marker that a member waits for takes it back (R373). -/
theorem exec_trainMarker_rejoins (hw : isTmark w = true) (hstate : (s.tile s.ev.a).train.state = 5) (hmarker : (s.tile s.ev.a).train.marker = fld w 8 6) :
    exec .trainMarker s = .next (((s.updTile s.ev.a (fun x => { x with train := { x.train with lane := r, nextAddr := a + 4, step := x.train.step + 1 } })).updTile
      s.ev.a (fun x => { x with train := { x.train with state := 3, lineDue := 0 } })).lateG s.ev.a (s.tile s.ev.a).train.rd 1) := by
  have hwaits : ¬(s.tile s.ev.a).train.state = 3 := by rw [hstate]; decide
  change execTrainMarker s = _
  simp only [execTrainMarker, hlane, hw, Bool.not_true, Bool.false_eq_true, if_false]
  exact (if_neg hwaits).trans (if_pos ⟨hstate, hmarker⟩)

end

/-! ### What is due in a follower (R77, R447, R449) -/

theorem State.followWord_stepDue {s : State} (h : s.cur.stepDue = true) :
    s.followWord = .next ((s.updCur (fun y => { y with dueFault := none })).takeTrap 0x09 0) := if_pos h

theorem State.followWord_dueFault {s : State} {d : BitVec 8 × Word} (hstep : s.cur.stepDue = false) (hdue : s.cur.dueFault = some d) :
    s.followWord = .next ((s.updCur (fun y => { y with dueFault := none })).takeTrap d.1.toNat d.2) := by
  simp only [State.followWord, hstep, hdue, Bool.false_eq_true, if_false, trap]

theorem State.followWord_breaks {s : State} (hstep : s.cur.stepDue = false) (hdue : s.cur.dueFault = none) (hbreak : s.cur.breaks s.slot.addr = true) :
    s.followWord = .next (s.takeTrap 0x0A 0) := by
  simp only [State.followWord, hstep, hdue, hbreak, Bool.false_eq_true, if_false, if_true, trap]

/-! ### Lines and the VC7 lane (R364, R374, R375) -/

/-- A line that is due is raised once its condition holds: nothing outstanding for tsync, an empty matrix unit for tgang. -/
theorem exec_tsyncLine_raises {s : State} (hraised : (s.tile s.ev.a).train.raised = false) (hdue : (s.tile s.ev.a).train.lineDue ≠ 0)
    (hsync : (s.tile s.ev.a).train.lineDue = 1 → ((s.tile s.ev.a).ctx 0).owed = 0 ∧ (s.tile s.ev.a).quiet 0 = true)
    (hgang : (s.tile s.ev.a).train.lineDue = 2 → (s.tile s.ev.a).mx.isEmpty = true) :
    exec .tsyncLine s = .next (s.updTile s.ev.a (fun x => { x with train := { x.train with raised := true } })) := by
  have hopen : ¬((s.tile s.ev.a).train.lineDue = 0 ∨ (s.tile s.ev.a).train.raised = true) := by simp [hdue, hraised]
  refine (if_neg hopen).trans (if_neg ?_)
  match hline : (s.tile s.ev.a).train.lineDue with
  | 0 => exact absurd hline hdue
  | 1 => simp [hsync hline]
  | 2 => simp [hgang hline]
  | _ + 3 => exact Bool.false_ne_true

section
variable {s : State} {v : Word} {k : Option Nat} {r : List (Word × Option Nat)} (hwire : (s.tile s.ev.a).train.wire = (v, k) :: r)
  (hcycle : ∀ j, k = some j → (s.tile s.ev.a).train.state = 3 → j < (s.tile s.ev.a).train.step)
include hwire hcycle

/-- An element whose cycle has come leaves the wire for the port that is bound to VC7, or is dropped and counted. -/
theorem exec_vc7Element_due {o : Option Nat}
    (ho : (List.range 4).find? (fun p => let w := (s.tile s.ev.a).q.cfg p; cfgV w && cfgVc w == 7) = o) :
    exec .vc7Element s = .next ((s.updTile s.ev.a (fun x => { x with train := { x.train with wire := r } })).updTile s.ev.a (fun x =>
      o.elim { x with train := { x.train with vdrop := x.train.vdrop + 1 } }
        (fun p => x.updQ (fun q => { q with inq := fset [] q.inq p (q.inq? p ++ [{ val := v, stamped := false }]) })))) := by
  change execVc7Element s = _
  simp only [execVc7Element, hwire]
  refine (if_neg fun hlate => ?_).trans ?_
  · obtain ⟨hattached, hlate⟩ := Bool.and_eq_true_iff.1 hlate
    cases k with
    | none => exact Bool.false_ne_true hlate
    | some j => exact Nat.not_le.2 (hcycle j rfl (beq_iff_eq.1 hattached)) (of_decide_eq_true hlate)
  · rw [ho]
    cases o with
    | none => rfl
    | some p => rfl

end

/-- Settles O29: each step is what its event answers in that case; a stream word and a marker are one operation at an attached follower. -/
theorem trainEvents : Obligations.TrainEvents := by
  refine ⟨fun s u => exec_trainFormationRequest_reaches, ?formed, ?words, ?due, fun s => exec_tsyncLine_raises, ?vc7, ?pass, ?fault⟩
  case formed =>
    intro s x fs hforming hleads hformed hcount hready
    refine if_pos ⟨hforming, by rw [hleads]; rfl, hformed, hcount, List.all_eq_true.2 fun u hu => ?_⟩
    obtain ⟨hstate, hjoined, hc0, hid⟩ := hready u hu
    simp only [Bool.and_eq_true, beq_iff_eq]
    exact ⟨⟨⟨hstate, hjoined⟩, hc0⟩, hid⟩
  case words =>
    intro s a w w2 r hlane x count run
    refine ⟨exec_trainStreamWord_passBy hlane, ?_, exec_trainMarker_rejoins hlane⟩
    intro i t hi hattached hwest hnear hwire hfence y l s1 hrun
    have hexec := (exec_eq_laneWord hlane hattached hi).trans (State.laneWord_due hwest hnear hwire hfence hrun)
    refine ⟨fun hready => ?_, fun hstall hxlate => ?_⟩
    · exact hexec.trans (if_pos (by rw [hready]; rfl))
    · exact hexec.trans ((if_neg (by rw [hstall]; decide)).trans (if_neg (not_not.2 hxlate)))
  case due => exact fun s _ => ⟨State.followWord_stepDue, fun d => State.followWord_dueFault, State.followWord_breaks⟩
  case vc7 =>
    intro s v k r hwire hcycle t
    exact ⟨fun p => exec_vc7Element_due hwire hcycle, exec_vc7Element_due hwire hcycle⟩
  case pass =>
    intro s ws r x hfill hword hlive hdue ho
    exact exec_repeaterFill_fresh rfl hfill hword hlive hdue ho
  case fault =>
    intro s a c v x hfill hword hlive hdue ho
    exact exec_repeaterFill_fresh rfl hfill hword hlive hdue ho

end Sys2Proof.Machine
end

section
/-! SUPPORT. A part of every tile through what does not touch it; the matrix unit through the beginning and the end of an instruction (R58, R97, R176, R278, R361). -/
namespace Sys2Proof.Machine

open Claims (SameBytes CountersLow)

/-! ### What leaves a part of every tile as it was -/

/-- From s to t the part p of every tile stays. -/
def KeepsPart {α : Type} (p : Tile → α) (s t : State) : Prop := ∀ u, p (t.tile u) = p (s.tile u)

section
variable {α : Type} {p : Tile → α}

theorem KeepsPart.refl (s : State) : KeepsPart p s s := fun _ => rfl

theorem KeepsPart.trans {s t u : State} (h : KeepsPart p s t) (g : KeepsPart p t u) : KeepsPart p s u := fun v => (g v).trans (h v)

theorem KeepsPart.of_tiles {s t : State} (h : t.tiles = s.tiles) : KeepsPart p s t := fun u => by rw [State.tile, State.tile, h]

theorem KeepsPart.curTile {s t : State} (h : KeepsPart p s t) (hslot : t.slot = s.slot) : p t.curTile = p s.curTile := by
  rw [State.curTile, hslot]
  exact h _

theorem keepsPart_foldl {β : Type} {f : State → β → State} (h : ∀ s b, KeepsPart p s (f s b)) (l : List β) (s : State) : KeepsPart p s (l.foldl f s) := by
  induction l generalizing s with
  | nil => exact .refl s
  | cons b l ih => exact (h s b).trans (ih _)

theorem keepsPart_setTile (s : State) (t : Nat) {x : Tile} (h : p x = p (s.tile t)) : KeepsPart p s (s.setTile t x) := by
  intro u
  rw [State.tile_setTile]
  split
  next hu => rw [h, hu]
  next => rfl

theorem keepsPart_updTile (s : State) (t : Nat) {f : Tile → Tile} (h : p (f (s.tile t)) = p (s.tile t)) : KeepsPart p s (s.updTile t f) :=
  keepsPart_setTile s t h

/-- An answer on its way takes a seal number at most (R430). -/
theorem keepsPart_sendBack (s : State) (t : Nat) (d : Dst) (i : Instr) (a : EvArgs) : KeepsPart p s (s.sendBack t d i a) := by
  unfold State.sendBack
  split
  · exact .refl s
  · unfold State.numberBack
    split
    · exact .of_tiles (quiet_takeSeq s _).tiles
    · exact .refl s

end

/-! ### What leaves every matrix unit as it was -/

theorem keepsMx_updCtx (s : State) (t c : Nat) (f : Ctx → Ctx) : KeepsPart Tile.mx s (s.updCtx t c f) := keepsPart_setTile s t rfl

theorem keepsMx_popAck (s : State) (t : Nat) (e : PElem) : KeepsPart Tile.mx s (s.popAck t e) := by
  unfold State.popAck
  split
  · exact (keepsPart_updTile s t rfl).trans (keepsPart_sendBack _ _ _ _ _)
  · exact .refl s

/-- A pop for a context frees slots, raises stamps and acknowledges (R58, R278, R340). -/
theorem keepsMx_pop (s : State) (t c p : Nat) : KeepsPart Tile.mx s (s.pop t c p) := by
  unfold State.pop
  split
  · exact .refl s
  · extract_lets s1
    have h1 : KeepsPart Tile.mx s s1 := keepsPart_updTile s t rfl
    split
    · exact ((h1.trans (keepsPart_updTile s1 t rfl)).trans (keepsMx_updCtx _ t c _)).trans ((keepsMx_updCtx _ t c _).trans (keepsMx_popAck _ t _))
    · exact h1

/-- Taking the operands leaves every matrix unit. -/
theorem Need.keepsMx_take (n : Need) (s : State) : KeepsPart Tile.mx s (n.take s) := by
  refine (keepsMx_updCtx s _ _ _).trans (keepsPart_foldl (fun s p => ?_) n.srcs _)
  split
  · exact keepsMx_pop _ _ _ _
  · exact .refl s

theorem keepsMx_forwardWord (s : State) (t : Nat) (a : Word) (w w2 : BitVec 32) : KeepsPart Tile.mx s (s.forwardWord t a w w2) := by
  refine (keepsPart_updTile s t rfl).trans (keepsPart_foldl (fun s d => ?_) _ _)
  split
  · exact .refl s
  · split
    · dsimp only
      split
      · have hlane := fun u => keepsPart_updTile (p := Tile.mx) s u
          (f := fun y => { y with train := { y.train with lane := y.train.lane ++ [(a, w, w2)] } }) rfl
        split
        · exact hlane _
        · exact hlane _
      · exact .refl s
    · exact .refl s

/-- Going on leaves every matrix unit (R176, R361). -/
theorem keepsMx_retire (s : State) : KeepsPart Tile.mx s s.retire := by
  have hforward : KeepsPart Tile.mx s s.forward := by
    unfold State.forward
    dsimp only
    split
    · exact keepsMx_forwardWord _ _ _ _ _
    · exact .refl s
  refine hforward.trans (u := s.retire) ?_
  unfold State.retire State.finish State.goOn
  dsimp only
  split
  · exact (keepsMx_updCtx _ _ _ _).trans (keepsMx_updCtx _ _ _ _)
  · exact keepsMx_updCtx _ _ _ _

theorem Need.curTile_mx_take (n : Need) (s : State) : (n.take s).curTile.mx = s.curTile.mx := (n.keepsMx_take s).curTile (n.own_take s).1.slot

theorem State.curTile_mx_retire (s : State) : s.retire.curTile.mx = s.curTile.mx := (keepsMx_retire s).curTile (own_retire s).slot

/-! ### An operation on the matrix unit alone -/

theorem beside_updMx (s : State) (t : Nat) (f : Matrix → Matrix) : Beside 0 s (s.updTile t (fun x => x.updMx f)) := beside_updTile s t rfl

/-- An instruction that takes its operands, changes its tile's matrix unit and goes on leaves the g registers and the bytes of memory. -/
theorem Need.take_updMx_retire (n : Need) (hfew : n.srcs.length ≤ 8) (s : State) (f : Matrix → Matrix) {t : State}
    (ht : t = ((n.take s).updCurTile (fun x => x.updMx f)).retire) :
    SameBytes s t ∧ (CountersLow s 8 → t.mem = s.mem) ∧ t.cur.g = s.cur.g ∧ t.curTile.mx = f s.curTile.mx := by
  obtain ⟨htake, h, r, k, hcur, -⟩ := n.own_take s
  have hunit := beside_updMx (n.take s) (n.take s).slot.site f
  have hown : Own 8 s t := ht ▸ ((htake.trans hunit.own).trans (own_retire _)).mono hfew
  refine ⟨hown.bytes, fun hlow => congrArg Calm.mem (hown.calm 0 hlow).2, ?_, ?_⟩
  · rw [ht, (State.sameRegs_retire _).g, State.updCurTile, hunit.cur, hcur]
  · rw [ht, State.curTile_mx_retire, State.curTile_updCurTile, ← n.curTile_mx_take]
    rfl

end Sys2Proof.Machine
end

section
/-! SUPPORT. The commands of the matrix unit, and what a pushed command leaves (R185, R189, R197 to R202, R235). -/
namespace Sys2Proof.Machine

/-! ### Commands (R189, R197 to R202) -/

/-- A check passes when none of its conditions fails. -/
theorem firstFault_eq_none {l : List (Bool × Nat × Word)} (h : ∀ p ∈ l, p.1 = false) : firstFault l = none := by
  induction l with
  | nil => rfl
  | cons p l ih =>
    exact (if_neg (by simp [h p List.mem_cons_self])).trans (ih fun q hq => h q (List.mem_cons_of_mem p hq))

theorem Matrix.isFull_eq_false {m : Matrix} (h : m.fifo.length < 8) : m.isFull = false := decide_eq_false (Nat.not_le.2 h)

section
variable {i : Instr} {srcs : List (BitVec 6)} {conds : State → List Word → List (Bool × Nat × Word)} {ga gb : List Word → Word} (e : State → Out)
  (he : ∀ s, exec i s = e s) (h : ∀ s, e s = fifoOp i srcs (fun s v => firstFault (conds s v)) (fun v => (ga v, gb v)) s)
include he h

/-- A command that fails none of its conditions, with a place in the FIFO and no access of a claimed command before it, is pushed. -/
theorem completesIf_of_fifoOp {ok : State → List Word → Prop} (hok : ∀ s v, ok s v → ∀ p ∈ conds s v, p.1 = false) :
    Claims.CompletesIf { wf := i.wf, srcs := srcs.map blk } i (fun v s => s.curTile.mx.fifo.length < 8 ∧ ok s v ∧ s.accessHeld = false)
      (fun v s => (s.pushCmd ((encode i).getD 0) (ga v) (gb v)).retire) := by
  refine completesIf_of_issue e he h fun v s hp => ?_
  obtain ⟨hroom, hpass, hheld⟩ := hp
  simp only [Matrix.isFull_eq_false hroom, firstFault_eq_none (hok s v hpass), hheld, Bool.false_eq_true, if_false]

/-- A command that fails a condition takes the fault of the first that it fails. -/
theorem trapsIf_of_fifoOp {bad : State → List Word → Prop} {code : Nat} {tval : List Word → State → Word}
    (hbad : ∀ s v, bad s v → firstFault (conds s v) = some (code, tval v s)) :
    Claims.TrapsIf { wf := i.wf, srcs := srcs.map blk } i (fun v s => s.curTile.mx.fifo.length < 8 ∧ bad s v) code tval := by
  refine trapsIf_of_issue e he h fun v s hp => ?_
  obtain ⟨hroom, hfail⟩ := hp
  simp only [Matrix.isFull_eq_false hroom, hbad s v hfail, Bool.false_eq_true, if_false]

end

theorem matrixCommands : Claims.MatrixCommands := by
  refine ⟨fun ga gb => ?mcfg, fun ga gb => ?munf, fun ga gb => ?mldb, fun acc gb => ?mzero, fun acc ga gb k => ?mstr, fun acc ga gb x y => ?mmac,
    fun acc gb x y => ?mmacu, fun acc gb x y => ?mmacs, fun acc gb => ?mzeroFault, fun ga gb => ?mmacsFault⟩
  case mcfg =>
    refine completesIf_of_fifoOp (execMcfg ga gb) (fun _ => rfl) (fun _ => rfl) fun s v hok => ?_
    obtain ⟨hres, hhigh, hbit, hlow⟩ := hok
    simp [hres, hhigh, hbit, hlow]
  case munf =>
    refine completesIf_of_fifoOp (execMunf ga gb) (fun _ => rfl) (fun _ => rfl) fun s v hok => ?_
    obtain ⟨hres, harea, halign⟩ := hok
    simp [hres, Option.isNone_eq_false_iff.2 harea, halign]
  case mldb =>
    refine completesIf_of_fifoOp (execMldb ga gb) (fun _ => rfl) (fun _ => rfl) fun s v hok => ?_
    obtain ⟨hres, hpos, hmax, hrows, hspm⟩ := hok
    cases hport : bit (v1 v) 47 with
    | true => simp [hres, hpos, hmax, hrows]
    | false =>
      obtain ⟨harea, halign⟩ := hspm hport
      simp [hres, hpos, hmax, hrows, Option.isNone_eq_false_iff.2 harea, halign]
  case mzero =>
    refine completesIf_of_fifoOp (execMzero acc gb) (fun _ => rfl) (fun _ => rfl) fun s v hok => ?_
    simp [show fld (v0 v) 0 48 = 0 from hok]
  case mstr =>
    refine completesIf_of_fifoOp (execMstr acc ga gb k) (fun _ => rfl) (fun _ => rfl) fun s v hok => ?_
    have hfmt : fld k 0 4 = k.toNat % 16 := by simp [fld, natBits]
    rw [hfmt]
    obtain ⟨hres, hstep, hwide, harea, halign⟩ := hok
    simp [hres, hstep, hwide, Option.isNone_eq_false_iff.2 harea, halign]
  case mmac =>
    refine completesIf_of_fifoOp (execMmac acc ga gb x y) (fun _ => rfl) (fun _ => rfl) fun s v hok => ?_
    obtain ⟨hmac, harea, halign⟩ := hok
    simp [hmac, Option.isNone_eq_false_iff.2 harea, halign]
  case mmacu =>
    refine completesIf_of_fifoOp (execMmacu acc gb x y) (fun _ => rfl) (fun _ => rfl) fun s v hok => ?_
    obtain ⟨hfmt, hmac⟩ := hok
    simp [show x ≠ 6#4 from hfmt, hmac]
  case mmacs =>
    refine completesIf_of_fifoOp (execMmacs acc gb x y) (fun _ => rfl) (fun _ => rfl) fun s v hok => ?_
    simp [show macCheck x.toNat false (v0 v) = true from hok]
  case mzeroFault =>
    refine trapsIf_of_fifoOp (execMzero acc gb) (fun _ => rfl) (fun _ => rfl) fun s v hbad => if_pos ?_
    exact bne_iff_ne.2 hbad
  case mmacsFault =>
    refine trapsIf_of_fifoOp (execMmacs ga gb 0 0) (fun _ => rfl) (fun _ => rfl) fun s v hbad => if_pos ?_
    simp [show macCheck 0 false (v0 v) = false from hbad]

/-! ### What a pushed command leaves (R189) -/

theorem State.curTile_later (s : State) (i : Instr) (e : EvArgs) : (s.later i e).curTile = s.curTile := rfl

/-- The command enters the FIFO last, with its operands; accumulators stay. -/
theorem State.mx_pushCmd (s : State) (w : BitVec 32) (a b : Word) : ∃ e, e.word = w ∧ e.ga = a ∧ e.gb = b ∧ e.state = 0 ∧
    let m := (s.pushCmd w a b).curTile.mx
    m.fifo = s.curTile.mx.fifo ++ [e] ∧ m.acc = s.curTile.mx.acc ∧ m.astat = s.curTile.mx.astat := by
  rw [State.pushCmd, State.curTile_later, State.curTile_updCurTile]
  exact ⟨_, rfl, rfl, rfl, rfl, rfl, rfl, rfl⟩

theorem beside_pushCmd (s : State) (w : BitVec 32) (a b : Word) : Beside 0 s (s.pushCmd w a b) :=
  (beside_updMx s _ _).trans (beside_later _ _ _)

theorem matrixPushFrame : Claims.MatrixPushFrame := by
  intro s w a b hframed t
  obtain ⟨e, hw, ha, hb, hstate, hfifo, hacc, hastat⟩ := s.mx_pushCmd w a b
  have hpush := beside_pushCmd s w a b
  have hregs := State.sameRegs_retire (s.pushCmd w a b)
  rw [hpush.cur] at hregs
  obtain ⟨-, hpc⟩ := programCounter (s.pushCmd w a b) 0 (hpush.slot ▸ hframed)
  rw [hpush.slot] at hpc
  rw [show t.curTile.mx = _ from State.curTile_mx_retire _, hfifo]
  exact ⟨List.length_append, ⟨e, List.getLast?_concat, hw, ha, hb, hstate⟩, hacc, hastat, State.mem_retire _, hregs.g, hregs.v, hregs.fcsr, hpc⟩

/-- Settles O53: each command is its check and then the push, and the push touches the FIFO alone. -/
theorem matrixPushes : Obligations.MatrixPushes := ⟨matrixCommands, matrixPushFrame⟩

end Sys2Proof.Machine
end

section
/-! SUPPORT. The registers of the matrix unit, saved and restored (R200, R201, R203 to R205). -/
namespace Sys2Proof.Machine

open Claims (needD)

/-! ### The words of the accumulators (R201) -/

theorem Matrix.word_putWord (m : Matrix) (n k : Nat) (v : BitVec 32) (c e : Nat) :
    (m.putWord n k v).word c e = if 1024 * c + e = 1024 * n + k then v else m.word c e := fget_fset _ _ _ _ _

/-- Doubleword q of an accumulator is its words 2q and 2q + 1. -/
def Matrix.putPair (m : Matrix) (n q : Nat) (a : Word) : Matrix := (m.putWord n (2 * q) (a.setWidth 32)).putWord n (2 * q + 1) (a.extractLsb' 32 32)

theorem Matrix.word_putPair_same (m : Matrix) (n q : Nat) (a : Word) :
    (m.putPair n q a).word n (2 * q + 1) ++ (m.putPair n q a).word n (2 * q) = a := by
  rw [Matrix.putPair, Matrix.word_putWord, if_pos rfl, Matrix.word_putWord, if_neg (by omega), Matrix.word_putWord, if_pos rfl,
    BitVec.setWidth_eq_extractLsb' (by decide)]
  exact (BitVec.extractLsb'_append_extractLsb'_eq_extractLsb' (by decide)).trans BitVec.extractLsb'_eq_self

theorem Matrix.word_putPair_ne (m : Matrix) {n q c e : Nat} (a : Word) (hq : q < 512) (he : e < 1024) (hne : ¬(c = n ∧ e / 2 = q)) :
    (m.putPair n q a).word c e = m.word c e := by
  rw [Matrix.putPair, Matrix.word_putWord, Matrix.word_putWord, if_neg (by omega), if_neg (by omega)]

/-- What mwr leaves of the unit: doubleword q of an accumulator is a, or its ASTAT where q is 512. -/
def Matrix.written (m : Matrix) (n q : Nat) (a : Word) : Matrix :=
  if q = 512 then { m with astat := fset 0 m.astat n (a.setWidth 6) } else m.putPair n q a

theorem exec_mwr {acc : BitVec 2} {ga gb : BitVec 6} {n : Need} {s : State} (hn : n = { wf := (Instr.mwr acc ga gb).wf, srcs := [blk ga, blk gb] })
    (hready : n.ready s = true) (hfree : (n.take s).curTile.mx.busy acc.toNat = false)
    (hq : ¬(512 < (v1 (n.vals s)).toNat ∨ ((v1 (n.vals s)).toNat = 512 ∧ fld (v0 (n.vals s)) 6 58 ≠ 0))) :
    exec (.mwr acc ga gb) s =
      .next ((n.take s).updCurTile (fun x => x.updMx (fun m => m.written acc.toNat (v1 (n.vals s)).toNat (v0 (n.vals s))))).retire := by
  subst hn
  refine (show exec (.mwr acc ga gb) s = execMwr acc ga gb s from rfl).trans (issue_ok hready ?_)
  simp only [hfree, Bool.false_eq_true, if_false, if_neg hq]
  rfl

theorem matrixAccumulators : Claims.MatrixAccumulators := by
  refine ⟨fun acc ga gb => ⟨?read, ?above⟩, ?write, ?pop⟩
  case read =>
    refine completesIf_of_issue (execMrd acc ga gb) (fun _ => rfl) (fun _ => rfl) fun v s hp => ?_
    obtain ⟨hfree, hq⟩ := hp
    simp only [hfree, Bool.false_eq_true, if_false, if_neg (Nat.not_lt.2 hq), BitVec.ofNat_toNat]
    rfl
  case above =>
    refine trapsIf_of_issue (execMrd acc ga gb) (fun _ => rfl) (fun _ => rfl) fun v s hp => ?_
    obtain ⟨hfree, hq⟩ := hp
    simp only [hfree, Bool.false_eq_true, if_false, if_pos hq]
  case write =>
    intro acc ga gb i n s hready hfree q a
    obtain ⟨hbytes, hmem, hg, hmx⟩ := n.take_updMx_retire (Nat.le_add_left 2 6) s (fun m => m.written acc.toNat q a) rfl
    refine ⟨fun hq => ?_, fun hq ha => ?_⟩
    · have hlimit : ¬(512 < q ∨ (q = 512 ∧ fld a 6 58 ≠ 0)) := by omega
      refine ⟨_, exec_mwr rfl hready hfree hlimit, hbytes, hmem, hg, ?_⟩
      rw [hmx, Matrix.written, if_neg (by omega)]
      exact ⟨Matrix.word_putPair_same _ _ _ _, fun c _ e he hne => Matrix.word_putPair_ne _ _ hq he hne⟩
    · have hfields : fld a 6 58 = 0 := (fld_upper_eq_zero_iff a (k := 6) (by decide)).2 ha
      have hlimit : ¬(512 < q ∨ (q = 512 ∧ fld a 6 58 ≠ 0)) := by omega
      refine ⟨_, exec_mwr rfl hready hfree hlimit, hbytes, hmem, ?_⟩
      rw [hmx, Matrix.written, if_pos hq]
      exact ⟨(fget_fset_same _ _ _ _).trans (BitVec.ofNat_toNat _ _).symm, rfl⟩
  case pop =>
    intro ga s hready hnone
    refine ⟨_, rfl, (show exec (.mpop ga) s = execMpop ga s from rfl).trans (issue_ok hready ?_)⟩
    simp only [show ({ wf := (Instr.mpop ga).wf, dsts := [ga] } : Need) = needD (.mpop ga) ga from rfl, hnone]
    rfl

/-! ### Save and restore (R203 to R205) -/

/-- A privileged word in user mode: an illegal one is that before it is privileged (R70, R77). -/
theorem exec_eq_trap_of_user {n : Need} {i : Instr} {body : List Word → State → Act} (e : State → Out) (he : ∀ s, exec i s = e s)
    (h : ∀ s, e s = issue n s body) {s : State} (hv : n.vec = false) (hp : n.priv = true) (hm : s.cur.mon = false) :
    exec i s = .next (s.takeTrap (if n.wf then 0x02 else 0x01) 0) := by
  cases hw : n.wf with
  | true => exact exec_eq_trap_of_privileged e he h hw hv hp hm
  | false => exact ((he s).trans (h s)).trans (issue_gate_fault body (if_pos (by rw [Need.illegal, hw]; rfl)))

theorem matrixSaveRestore : Claims.MatrixSaveRestore := by
  refine ⟨fun ga gb => ?save, fun ga gb => ?restore, fun s ga gb hm => ⟨?_, ?_⟩⟩
  case save =>
    refine completesIf_of_issue (execMsave ga gb) (fun _ => rfl) (fun _ => rfl) fun v s hp => ?_
    obtain ⟨hcheck, hheld, hquiet⟩ := hp
    simp [hcheck, hheld, hquiet]
  case restore =>
    refine completesIf_of_issue (execMrest ga gb) (fun _ => rfl) (fun _ => rfl) fun v s hp => ?_
    obtain ⟨hcheck, hheld, hquiet, hgood, hpart⟩ := hp
    have himage : ¬((v1 v).toNat = 0 ∧ (!part0Ok (s.spmRead s.slot.site (addrOff (v0 v)) (partSize (v1 v).toNat))) = true) := by
      rintro ⟨h0, hbad⟩
      rw [h0, hpart h0] at hbad
      exact Bool.false_ne_true hbad
    simp only [hcheck, hheld, hquiet, hgood, Bool.not_true, Bool.false_eq_true, or_self, if_false, if_neg himage]
    rfl
  · exact exec_eq_trap_of_user (execMsave ga gb) (fun _ => rfl) (fun _ => rfl) rfl rfl hm
  · exact exec_eq_trap_of_user (execMrest ga gb) (fun _ => rfl) (fun _ => rfl) rfl rfl hm

/-- Settles O54: what mrd reads is what mwr has put there, since taking operands and going on leave the unit; msave and mrest move a part once its checks pass. -/
theorem matrixState : Obligations.MatrixState := ⟨matrixAccumulators, matrixSaveRestore⟩

end Sys2Proof.Machine
end

section
/-! SUPPORT. The steps of barriers, collectives and the matrix unit (R195, R196, R348, R353 to R356). -/
namespace Sys2Proof.Machine

/-! ### Messages of VC5 (R353 to R355) -/

theorem vc5Step_opened {s : State} {e : Ret} (own : Ret → State → State) (k : Ret → Out) (he : s.flying s.ev.a s.ev.b = some e)
    (hseal : s.sealHit s.ev.a e.dst = none) : vc5Step s own k = k e := by
  obtain ⟨hentry, hfly⟩ := State.entry_of_flying he
  have hform : e.state ≠ .formed := by rw [hfly]; decide
  simp only [vc5Step, hentry, if_pos hform, atHome_opened k he hseal]

/-- A message for its own tile is applied once its release has happened. -/
theorem vc5Step_own {s : State} {e : Ret} (own : Ret → State → State) (k : Ret → Out) (he : s.entry s.ev.a s.ev.b = some e) (hform : e.state = .formed)
    (hdst : e.dst = .tile s.ev.a) (hstop : (s.tile s.ev.a).stopping = false) (hrel : (s.tile s.ev.a).released e.ctx e.mark = true) :
    vc5Step s own k = .next (own e (s.freeEntry s.ev.a e.id)) := by
  simp only [vc5Step, he, if_neg (not_not.2 hform), if_pos hdst, hstop, hrel, Bool.not_true, Bool.or_false, Bool.false_eq_true, if_false]

/-- Accepting a message leaves the collective that its tile is in (R288). -/
theorem State.keepsColl_accept (s : State) (t : Nat) (e : Ret) : KeepsPart Tile.coll s (s.accept t e) := by
  have hnote : KeepsPart Tile.coll s (s.noteRefusing t e false) := by
    unfold State.noteRefusing
    split
    · exact keepsPart_updTile s _ rfl
    · exact .of_tiles rfl
    · exact .refl s
  have hflit : KeepsPart Tile.coll (s.noteRefusing t e false) ((s.noteRefusing t e false).backFlit e) := by
    unfold State.backFlit
    split
    · exact keepsPart_updTile _ _ rfl
    · exact .refl _
  exact ((hnote.trans hflit).trans (keepsPart_updTile _ t rfl)).trans (keepsPart_sendBack _ _ _ _ _)

theorem barrierEvents : Claims.BarrierEvents := by
  refine ⟨?vote, ?ownVote, ?contribution, ?result⟩
  case vote =>
    intro s e u a n he hbody hdst hseal
    change execBarvMessage s = _
    simp only [execBarvMessage, vc5Step_opened _ _ he hseal, hbody, hdst]
  case ownVote =>
    intro s e a n he hform hbody hdst hstop hrel
    change execBarvMessage s = _
    simp only [execBarvMessage, vc5Step_own _ _ he hform hdst hstop hrel, hbody]
  case contribution =>
    intro s e u d v fl err l he hbody hdst hseal
    change execCollContribution s = _
    simp only [execCollContribution, vc5Step_opened _ _ he hseal, hbody, hdst, Bool.or_eq_true]
  case result =>
    intro s e u d v fl err l he hbody hdst hseal hopen hactive hlevel
    have hcoll : ((s.accept s.ev.a e).tile u).coll = (s.tile u).coll := s.keepsColl_accept s.ev.a e u
    change execCollResult s = _
    simp only [execCollResult, vc5Step_opened _ _ he hseal, hbody, hdst, hopen, hcoll, hactive, hlevel, Bool.false_eq_true, and_self, if_false, if_true]

/-! ### The steps of the matrix unit (R195, R196) -/

/-- The step after a unit of work of the command e at tile t: its entry is replaced and its next unit is due, or the unit has to wait. -/
def State.afterWork (s : State) (t : Nat) (e : MCmd) : Work → Out
  | .done e' s' => .next ((s'.updTile t (fun x => x.updMx (fun m => m.setCmd e'))).later .matrixCommandComplete { a := t, b := e'.serial })
  | .wait => notYet s
  | .fail c s' => .next ((s'.updTile t (fun x => x.updMx (fun m => m.setCmd { e with code := BitVec.ofNat 8 c }))).later
      .matrixCommandComplete { a := t, b := e.serial })

theorem MCmd.drains_eq_true {e : MCmd} (hrun : e.state = 1) (h : e.code ≠ 0 ∨ e.total ≤ e.progress) : e.drains = true := by
  simpa [MCmd.drains, hrun] using h

theorem MCmd.drains_eq_false {e : MCmd} (hcode : e.code = 0) (hwork : e.progress < e.total) : e.drains = false := by
  simp [MCmd.drains, hcode, hwork]

section
variable {s : State} {e : MCmd} (he : (s.tile s.ev.a).mx.fifo.find? (fun e => e.serial == s.ev.b && e.state == 1) = some e)
  (hheld : (s.tile s.ev.a).mx.state ≠ 3)
include he

theorem exec_matrixCommandComplete_drains (h : e.drains = true) :
    exec .matrixCommandComplete s = if (s.tile s.ev.a).mx.macBefore e then notYet s else .next (s.endCmd s.ev.a e) := by
  change execMatrixCommandComplete s = _
  simp only [execMatrixCommandComplete, he, h, if_true]

include hheld

theorem exec_matrixCommandComplete_works (h : e.drains = false) :
    exec .matrixCommandComplete s = s.afterWork s.ev.a e (s.work s.ev.a e) := by
  change execMatrixCommandComplete s = _
  simp only [execMatrixCommandComplete, he, h, hheld, Bool.false_eq_true, if_false]
  cases s.work s.ev.a e with
  | done _ _ => rfl
  | wait => rfl
  | fail _ _ => rfl

end

theorem matrixEvents : Claims.MatrixEvents := by
  refine ⟨fun s e he hstart => ?start, fun s e he hheld => ?_⟩
  case start =>
    refine (show exec .matrixCommandStart s = execMatrixCommandStart s from rfl).trans ?_
    simp only [execMatrixCommandStart, he, hstart, Bool.not_true, Bool.false_eq_true, if_false]
  have hrun : e.state = 1 := (by simpa using List.find?_some he : _ ∧ e.state = 1).2
  refine ⟨fun hend => ?ends, fun e' s' hcode hwork hdone => ?done, fun c s' hcode hwork hfail => ?fail, fun hcode hwork hwait => ?wait⟩
  case ends =>
    rw [exec_matrixCommandComplete_drains he (MCmd.drains_eq_true hrun hend)]
    exact ⟨fun hfirst => if_neg (Bool.eq_false_iff.1 hfirst), fun hbefore => if_pos hbefore⟩
  case done => rw [exec_matrixCommandComplete_works he hheld (MCmd.drains_eq_false hcode hwork), hdone, State.afterWork]
  case fail => rw [exec_matrixCommandComplete_works he hheld (MCmd.drains_eq_false hcode hwork), hfail, State.afterWork]
  case wait => rw [exec_matrixCommandComplete_works he hheld (MCmd.drains_eq_false hcode hwork), hwait, State.afterWork]

/-- Settles O55: each step is what its event answers in that case; a result finds the collective of its tile as it was before it is accepted. -/
theorem unitEvents : Obligations.UnitEvents := ⟨barrierEvents, matrixEvents⟩

end Sys2Proof.Machine
end

section
/-! SUPPORT. Accesses to memory: the conditions on an address, the value of a load, and what a scalar load or an atomic does with its operands (R208, R209, R212,
R214, R216, R219, R220, R480). -/
namespace Sys2Proof.Machine

open Claims (CompletesIf TrapsIf loadRows storeRows atomicRows effective extended)

/-! ### The conditions on an address (R208, R209) -/

section
variable {s : State} {t size : Nat} {mon : Bool} {a : Word}

theorem State.checkAddr_aligned (h : a.toNat % size = 0) : s.checkAddr t mon a size size = s.checkForm t mon a size := if_neg (not_not.2 h)

theorem State.not_outside (hin : addrCol a < (s.dims t).1 ∧ addrRow a < (s.dims t).2) : ¬((s.dims t).1 ≤ addrCol a ∨ (s.dims t).2 ≤ addrRow a) := by
  omega

section
variable (hwindow : bit a 63 = false) (hform : fld a 37 26 = 0)
include hwindow hform

theorem State.checkForm_outside (hout : ¬(addrCol a < (s.dims t).1 ∧ addrRow a < (s.dims t).2)) : s.checkForm t mon a size = .error 0x11 :=
  (if_neg (Bool.eq_false_iff.1 hwindow)).trans ((if_neg (not_not.2 hform)).trans (if_pos (by omega)))

variable (hin : addrCol a < (s.dims t).1 ∧ addrRow a < (s.dims t).2)
include hin

theorem State.checkForm_past (hpast : 0x180000 < addrOff a + size) : s.checkForm t mon a size = .error 0x12 := by
  refine (if_neg (Bool.eq_false_iff.1 hwindow)).trans ((if_neg (not_not.2 hform)).trans ((if_neg (State.not_outside hin)).trans ?_))
  exact if_pos hpast

theorem State.checkForm_monitor (hfits : addrOff a + size ≤ 0x180000) (htop : 0x170000 < addrOff a + size)
    (h : mon = false ∨ ¬((s.tile t).region = 0 ∨ (addrCol a = (s.tile t).col ∧ addrRow a = (s.tile t).row))) : s.checkForm t mon a size = .error 0x13 := by
  refine (if_neg (Bool.eq_false_iff.1 hwindow)).trans ((if_neg (not_not.2 hform)).trans ((if_neg (State.not_outside hin)).trans ?_))
  refine (if_neg (Nat.not_lt.2 hfits)).trans (if_pos ⟨htop, ?_⟩)
  simpa [or_iff_not_imp_left] using h

theorem State.checkForm_own (hfits : addrOff a + size ≤ 0x180000) (hmay : addrOff a + size ≤ 0x170000 ∨ mon = true)
    (here : (s.tile t).region = 0 ∨ (addrCol a = (s.tile t).col ∧ addrRow a = (s.tile t).row)) :
    s.checkForm t mon a size = .ok (.loc (addrOff a)) := by
  refine (if_neg (Bool.eq_false_iff.1 hwindow)).trans ((if_neg (not_not.2 hform)).trans ((if_neg (State.not_outside hin)).trans ?_))
  refine (if_neg (Nat.not_lt.2 hfits)).trans ((if_neg ?_).trans (if_pos (decide_eq_true here)))
  rintro ⟨htop, hwho⟩
  obtain hlow | hmon := hmay
  · exact absurd hlow (Nat.not_le.2 htop)
  · simp [hmon, here] at hwho

theorem State.checkForm_hole (hlow : addrOff a + size ≤ 0x170000)
    (hfar : ¬((s.tile t).region = 0 ∨ (addrCol a = (s.tile t).col ∧ addrRow a = (s.tile t).row))) (hhole : s.placeFrom t (addrCol a) (addrRow a) = .hole) :
    s.checkForm t mon a size = .error 0x14 := by
  refine (if_neg (Bool.eq_false_iff.1 hwindow)).trans ((if_neg (not_not.2 hform)).trans ((if_neg (State.not_outside hin)).trans ?_))
  refine (if_neg (by omega)).trans ((if_neg fun h => absurd hlow (Nat.not_le.2 h.1)).trans ((if_neg (by simpa using hfar)).trans ?_))
  rw [hhole]

end

end

/-- Settles O12: alignment first, then the form and the mesh, the slice, the monitor's range and the hole. -/
theorem addressConditions : Obligations.AddressConditions := by
  intro s t mon a size _ here inside
  refine ⟨fun h => if_pos h, fun h hedge hbits => ?edgeForm, fun h hedge hbits => ?edge, fun h hslice hbits => ?form, fun h hslice hbits hout => ?outside,
    fun h hslice hbits hin hpast => ?past, fun h hslice hbits hin hfits htop hwho => ?monitor, fun h hslice hbits hin hfits hmay hown => ?own,
    fun h hslice hbits hin hlow hfar hhole => ?hole⟩
  all_goals rw [State.checkAddr_aligned h]
  case edgeForm => exact (if_pos hedge).trans (if_pos hbits)
  case edge => exact (if_pos hedge).trans (if_neg (not_not.2 hbits))
  case form => exact (if_neg (Bool.eq_false_iff.1 hslice)).trans (if_pos hbits)
  case outside => exact State.checkForm_outside hslice hbits hout
  case past => exact State.checkForm_past hslice hbits hin hpast
  case monitor => exact State.checkForm_monitor hslice hbits hin hfits htop hwho
  case own => exact State.checkForm_own hslice hbits hin hfits hmay hown
  case hole => exact State.checkForm_hole hslice hbits hin hlow hfar hhole

/-! ### The values of loads (R214, R480) -/

theorem State.spmRead_lt (n : Nat) (s : State) (t off : Nat) : s.spmRead t off n < 2 ^ (8 * n) := by
  induction n generalizing off with
  | zero => exact Nat.one_pos
  | succ n ih =>
    have hrest := ih (off + 1)
    have hbyte := (Memory.byte s.mem (s.spmKey t off)).isLt
    rw [State.spmRead, Nat.mul_succ, Nat.pow_add]
    omega

/-- A register receives the low bytes of a number, extended. -/
theorem extended_mod {size : Nat} (h0 : 0 < size) (h8 : size ≤ 8) (signed : Bool) (x : Nat) :
    extended size signed (x % 2 ^ (8 * size)) = extendLoad size signed x := by
  cases signed with
  | false => simp [extended, extendLoad]
  | true =>
    have hhalf : 2 ^ (8 * size) = 2 * 2 ^ (8 * size - 1) := by rw [← Nat.pow_succ']; congr 1; omega
    have hext : extendLoad size true x = BitVec.ofInt 64 (BitVec.ofNat (8 * size) x).toInt := rfl
    rw [hext, extended, BitVec.toInt_eq_toNat_cond, BitVec.toNat_ofNat]
    generalize x % 2 ^ (8 * size) = y
    by_cases hneg : 2 ^ (8 * size - 1) ≤ y
    · rw [if_pos ⟨rfl, hneg⟩, if_neg (by omega)]; norm_cast
    · rw [if_neg (fun h => hneg h.2), if_pos (by omega)]; rfl

theorem extended_spmRead {size : Nat} (h0 : 0 < size) (h8 : size ≤ 8) (signed : Bool) (s : State) (t off : Nat) :
    extended size signed (s.spmRead t off size) = extendLoad size signed (s.spmRead t off size) := by
  rw [← extended_mod h0 h8, Nat.mod_eq_of_lt (s.spmRead_lt size t off)]

theorem effective_eq {k : Nat} (base : Word) (off : BitVec k) (size : Nat) :
    effective base off size = base + off.signExtend 64 * BitVec.ofNat 64 size := by
  have hoff : off.signExtend 64 = BitVec.ofInt 64 off.toInt := rfl
  rw [effective, BitVec.ofInt_mul, BitVec.ofInt_natCast, hoff]

section
variable {s : State} {off size : Nat}

theorem State.loadOwn_raw (h : s.curTile.spmraw = true) : s.loadOwn off size = some (s.spmRaw s.slot.site off size, s) := if_pos h

variable (hraw : s.curTile.spmraw = false)
include hraw

theorem State.loadOwn_good (h : s.uncorrectable s.slot.site off size = false) :
    s.loadOwn off size = some (s.spmRead s.slot.site off size, s.countCec s.slot.site (s.correctables s.slot.site off size)) :=
  (if_neg (Bool.eq_false_iff.1 hraw)).trans (if_neg (Bool.eq_false_iff.1 h))

theorem State.loadOwn_bad (h : s.uncorrectable s.slot.site off size = true) : s.loadOwn off size = none :=
  (if_neg (Bool.eq_false_iff.1 hraw)).trans (if_pos h)

end

/-! ### Loads, stores and atomics (R214, R216, R219, R220) -/

/-- Each row of the loads is the load of its size. -/
theorem loadRow_spec {p : (BitVec 6 → BitVec 6 → BitVec 1 → BitVec 1 → BitVec 9 → Instr) × Nat × Bool} (hp : p ∈ loadRows) :
    0 < p.2.1 ∧ p.2.1 ≤ 8 ∧ ∀ rd ra wa n off s, exec (p.1 rd ra wa n off) s = loadOp (p.1 rd ra wa n off) rd ra wa n off p.2.1 p.2.2 s := by
  simp only [loadRows, List.mem_cons, List.not_mem_nil, or_false] at hp
  obtain rfl | rfl | rfl | rfl | rfl | rfl | rfl := hp
  all_goals exact ⟨by decide, by decide, fun _ _ _ _ _ _ => rfl⟩

/-- Each row of the stores is the store of its size. -/
theorem storeRow_spec {p : (BitVec 6 → BitVec 6 → BitVec 1 → BitVec 11 → Instr) × Nat} (hp : p ∈ storeRows) (rs ra : BitVec 6) (wa : BitVec 1)
    (off : BitVec 11) (s : State) : exec (p.1 rs ra wa off) s = storeOp (p.1 rs ra wa off) rs ra wa off p.2 s := by
  simp only [storeRows, List.mem_cons, List.not_mem_nil, or_false] at hp
  obtain rfl | rfl | rfl | rfl := hp
  all_goals rfl

/-- Each row of the atomics is the atomic of its operation. -/
theorem atomicRow_spec {p : (BitVec 6 → BitVec 6 → BitVec 6 → BitVec 1 → BitVec 1 → BitVec 1 → Instr) × Nat} (hp : p ∈ atomicRows) (rd ra rb : BitVec 6)
    (wa wb z : BitVec 1) (s : State) : exec (p.1 rd ra rb wa wb z) s = atomicOp (p.1 rd ra rb wa wb z) p.2 rd ra rb wa wb z s := by
  simp only [atomicRows, List.mem_cons, List.not_mem_nil, or_false] at hp
  obtain rfl | rfl | rfl | rfl | rfl | rfl | rfl | rfl | rfl | rfl | rfl := hp
  all_goals rfl

/-- Settles O13: an own-slice access loads what it reads, extended, or takes the fault of its check or of its error. -/
theorem localLoads : Obligations.LocalLoads := by
  intro p hp rd ra wa nb off i n size a
  obtain ⟨hpos, hle, hexec⟩ := loadRow_spec hp
  have ha : ∀ v, v0 v + off.signExtend 64 * BitVec.ofNat 64 size = a v := fun v => (effective_eq (v0 v) off size).symm
  refine ⟨fun o => ?good, fun o => ?raw, fun o => ?bad, fun c x => ?fault⟩
  case good =>
    refine completesIf_of_issue _ (hexec rd ra wa nb off) (fun _ => rfl) fun v s ⟨hheld, hcheck, hraw, hok⟩ => ?_
    simp only [ha, hheld, hcheck, State.loadOwn_good hraw hok, extended_spmRead hpos hle, Bool.false_eq_true, if_false, State.result, size]
  case raw =>
    refine completesIf_of_issue _ (hexec rd ra wa nb off) (fun _ => rfl) fun v s ⟨hheld, hcheck, hraw⟩ => ?_
    simp only [ha, hheld, hcheck, State.loadOwn_raw hraw, extended_mod hpos hle, Bool.false_eq_true, if_false, State.result, size]
  case bad =>
    refine trapsIf_of_issue _ (hexec rd ra wa nb off) (fun _ => rfl) fun v s ⟨hheld, hcheck, hraw, herr⟩ => ?_
    simp only [ha, hheld, hcheck, State.loadOwn_bad hraw herr, Bool.false_eq_true, if_false, size]
  case fault =>
    refine trapsIf_of_issue _ (hexec rd ra wa nb off) (fun _ => rfl) fun v s ⟨hheld, hcheck⟩ => ?_
    simp only [ha, hheld, hcheck, Bool.false_eq_true, if_false, size]

/-- The access has passed its checks, and the operation follows the place that it reaches. -/
theorem localAtomics : Claims.LocalAtomics := by
  intro p hp rd ra rb wa wb z i size n
  have hexec := atomicRow_spec hp rd ra rb wa wb z
  have hpos : 0 < size := by simp only [size]; split <;> decide
  have hle : size ≤ 8 := by simp only [size]; split <;> decide
  refine ⟨fun o => ?good, fun o => ?bad, fun c x => ?fault⟩
  case good =>
    refine completesIf_of_issue _ hexec (fun _ => by unfold atomicOp; rfl) fun v s ⟨hheld, hcheck, hok⟩ => ?_
    simp only [hheld, hcheck, hok, State.reach, extended_spmRead hpos hle, Bool.false_eq_true, if_false, State.result, size] <;> rfl
  case bad =>
    refine trapsIf_of_issue _ hexec (fun _ => by unfold atomicOp; rfl) fun v s ⟨hheld, hcheck, herr⟩ => ?_
    simp only [hheld, hcheck, herr, State.reach, Bool.false_eq_true, if_false, if_true, size]
  case fault =>
    refine trapsIf_of_issue _ hexec (fun _ => by unfold atomicOp; rfl) fun v s ⟨hheld, hcheck⟩ => ?_
    simp only [hheld, hcheck, Bool.false_eq_true, if_false, size]

theorem atomicValues : Claims.AtomicValues := by
  intro size old b cmp _ hold
  dsimp only
  have hx : (BitVec.ofNat (8 * size) old).toNat = old := by rw [BitVec.toNat_ofNat, Nat.mod_eq_of_lt hold]
  have hy : (BitVec.ofNat (8 * size) b).toNat = b % 2 ^ (8 * size) := BitVec.toNat_ofNat ..
  have hmod : BitVec.ofNat (8 * size) (b % 2 ^ (8 * size)) = BitVec.ofNat (8 * size) b := BitVec.eq_of_toNat_eq (by simp)
  refine ⟨?add, ?and, ?or, ?xor, ?min, ?max, ?minu, ?maxu, congrArg some hy, congrArg (ite _ · none) (congrArg some hy), fun op hop => ?flags⟩
  case add => simp only [amoNew, BitVec.toNat_add, BitVec.toNat_ofNat, ← Nat.add_mod]
  case and => simp only [amoNew, BitVec.toNat_and, hx, hy]
  case or => simp only [amoNew, BitVec.toNat_or, hx, hy]
  case xor => simp only [amoNew, BitVec.toNat_xor, hx, hy]
  case min => simp only [amoNew, hmod, BitVec.sle_eq_decide, decide_eq_true_eq, apply_ite BitVec.toNat, hx, hy]
  case max => simp only [amoNew, hmod, BitVec.sle_eq_decide, decide_eq_true_eq, apply_ite BitVec.toNat, hx, hy]
  case minu => simp only [amoNew, BitVec.ule_eq_decide, decide_eq_true_eq, apply_ite BitVec.toNat, hx, hy]
  case maxu => simp only [amoNew, BitVec.ule_eq_decide, decide_eq_true_eq, apply_ite BitVec.toNat, hx, hy]
  case flags => interval_cases op <;> rfl

/-- Settles O43: the operation at the place that the access reaches, and its values one by one. -/
theorem atomics : Obligations.Atomics := ⟨localAtomics, atomicValues⟩

/-- Settles O14: each access that reaches another tile or the edge is a request. -/
theorem remoteRequests : Obligations.RemoteRequests := by
  refine ⟨?load, ?store, ?atomic⟩
  case load =>
    intro p hp rd ra wa off l d x i size a hl
    obtain ⟨-, -, hexec⟩ := loadRow_spec hp
    have ha : ∀ v, v0 v + off.signExtend 64 * BitVec.ofNat 64 size = a v := fun v => (effective_eq (v0 v) off size).symm
    have hplain : ¬((0 : BitVec 1) = 1) := by decide
    refine completesIf_of_issue _ (hexec rd ra wa 0 off) (fun _ => rfl) fun v s ⟨hheld, hcheck, hreach⟩ => ?_
    cases l with
    | loc o => exact absurd rfl (hl o)
    | rem u o => simp only [ha, hheld, hcheck, hreach, hplain, false_and, Bool.false_eq_true, if_false, State.sendLoad, size]
    | edge va => simp only [ha, hheld, hcheck, hreach, hplain, false_and, Bool.false_eq_true, if_false, State.sendLoad, size]
  case store =>
    intro p hp rs ra wa off l d x i size n a
    have ha : ∀ v, v0 v + off.signExtend 64 * BitVec.ofNat 64 size = a v := fun v => (effective_eq (v0 v) off size).symm
    refine completesIf_of_issue _ (storeRow_spec hp rs ra wa off) (fun _ => rfl) fun v s ⟨hheld, hcheck, hreach, hfree⟩ => ?_
    simp only [ha, hheld, hcheck, hreach, hfree, Bool.false_eq_true, if_false, size]
  case atomic =>
    intro p hp rd ra rb wa wb z l d x i size n
    refine completesIf_of_issue _ (atomicRow_spec hp rd ra rb wa wb z) (fun _ => by unfold atomicOp; rfl) fun v s ⟨hheld, hcheck, hreach, hfree⟩ => ?_
    simp only [hheld, hcheck, hreach, hfree, Bool.false_eq_true, if_false, State.sendLoad, size]

end Sys2Proof.Machine
end

section
/-! SUPPORT. Fences, the order of a context's accesses, and the instructions of translation (R221, R232, R235, R236, R270, R271). -/
namespace Sys2Proof.Machine

open Claims (needRR needAB)

/-! ### Fences (R221, R232, R235) -/

theorem Tile.quiet_iff (x : Tile) (c : Nat) : x.quiet c = true ↔
    (∀ e ∈ x.q.ret, e.isWriteOf c = false) ∧ (∀ e ∈ x.mx.fifo, e.claimed = true → e.claimCtx ≠ c) ∧ ∀ e ∈ x.xfer, e.claimed = true → e.claimCtx ≠ c := by
  simp [Tile.quiet, and_assoc]

section
variable {x : Tile} {c : Nat}

theorem Tile.fenceDone_of_none (h : (x.ctx c).fence = 0) : x.fenceDone c = true := by
  simp [Tile.fenceDone, h, bit]

theorem Tile.fenceDone_of_release (h : (x.ctx c).fence = 1) : x.fenceDone c = x.quiet c := by
  simp [Tile.fenceDone, h, bit]

theorem Tile.fenceDone_of_acquire (h : (x.ctx c).fence = 2) : x.fenceDone c = ((x.ctx c).owed == 0) := by
  simp [Tile.fenceDone, h, bit]

end

/-- The instruction that issues ends the fence before it. -/
theorem State.fence_finish (s : State) (a : Word) : (s.finish a).cur.fence = 0 := by
  obtain ⟨p, f, k, d, b, hcur, -, -⟩ := s.cur_finish a
  rw [hcur]

theorem fences : Claims.Fences := by
  refine ⟨State.fence_finish, fun x c => Tile.fenceDone_of_none, fun x c h => ?release, fun x c h => ?acquire, fun p hp q => ?rows⟩
  case release => rw [Tile.fenceDone_of_release h, Tile.quiet_iff]
  case acquire => rw [Tile.fenceDone_of_acquire h, beq_iff_eq]
  case rows =>
    simp only [List.mem_cons, List.not_mem_nil, or_false] at hp
    obtain rfl | rfl | rfl := hp
    · exact completes_of_issue (execFenceRel q) (fun _ => rfl) (fun _ => rfl) fun _ _ => rfl
    · exact completes_of_issue (execFenceAcq q) (fun _ => rfl) (fun _ => rfl) fun _ _ => rfl
    · exact completes_of_issue (execFenceFull q) (fun _ => rfl) (fun _ => rfl) fun _ _ => rfl

/-! ### The order of accesses (R235, R236) -/

theorem Tile.accessHeld_iff (x : Tile) (c : Nat) : x.accessHeld c = true ↔
    (∃ e ∈ x.mx.fifo, e.claimed = true ∧ e.claimCtx = c) ∨ (∃ e ∈ x.xfer, e.claimed = true ∧ e.claimCtx = c) ∨
      ∃ e ∈ x.q.ret, e.readBefore c (x.ctx c).acquired = true := by
  simp [Tile.accessHeld, or_assoc]

theorem accessOrder : Claims.AccessOrder := fun s => s.curTile.accessHeld_iff s.slot.ctx

/-! ### The instructions of translation (R270, R271) -/

/-- A register that waits for a reply already on its way lets the context go on. -/
theorem State.lateResult_ok (s : State) (rd : BitVec 6) (v : Word) : ∃ t, s.lateResult rd v = .ok t := ⟨_, rfl⟩

/-- What tdrop keeps lies off the range. -/
theorem rangesMeet_eq (lo hi a n : Nat) : rangesMeet lo hi a n = decide (lo < hi ∧ a < hi ∧ lo < a + n) := rfl

theorem pageInstructions : Claims.PageInstructions := by
  refine ⟨fun rd ra rb wa wb => ⟨fun e => ?probe, ?probeForm⟩, fun rd ra rb wa wb w => ⟨fun s hready hform hprobed => ?renew, ?renewForm⟩,
    fun ra rb wa wb => ⟨?drop, ?dropForm⟩⟩
  case probe =>
    refine completesIf_of_issue (execTprobe rd ra rb wa wb) (fun _ => rfl) (fun _ => rfl) fun v s ⟨hform, hfound⟩ => ?_
    simp only [hform, hfound, Bool.not_true, Bool.false_eq_true, if_false, State.result]
  case probeForm =>
    refine trapsIf_of_issue (execTprobe rd ra rb wa wb) (fun _ => rfl) (fun _ => rfl) fun v s hform => if_pos ?_
    rw [hform, Bool.not_false]
  case renew =>
    obtain ⟨t, ht⟩ := State.lateResult_ok ((needRR (.lrenew rd ra rb wa wb) rd ra rb wa wb).take s) rd w
    refine ⟨t, ht, (show exec (.lrenew rd ra rb wa wb) s = execLrenew rd ra rb wa wb s from rfl).trans
      (issue_ok (n := needRR (.lrenew rd ra rb wa wb) rd ra rb wa wb) hready ?_)⟩
    simp only [hform, hprobed, ht, Bool.not_true, Bool.false_eq_true, if_false]
  case renewForm =>
    refine trapsIf_of_issue (execLrenew rd ra rb wa wb) (fun _ => rfl) (fun _ => rfl) fun v s hform => if_pos ?_
    rw [hform, Bool.not_false]
  case drop =>
    refine completesIf_of_issue (execTdrop ra rb wa wb) (fun _ => rfl) (fun _ => rfl) fun v s hform => ?_
    simp only [hform, Bool.not_true, Bool.false_eq_true, if_false, rangesMeet_eq, decide_not, Bool.decide_and, Bool.decide_eq_true]
  case dropForm =>
    refine trapsIf_of_issue (execTdrop ra rb wa wb) (fun _ => rfl) (fun _ => rfl) fun v s hform => if_pos ?_
    rw [hform, Bool.not_false]

/-- Settles O44: what a fence waits for, what an access waits for, and the branches of tprobe, lrenew and tdrop. -/
theorem fencesAndPages : Obligations.FencesAndPages := ⟨fences, accessOrder, pageInstructions⟩

end Sys2Proof.Machine
end

section
/-! SUPPORT. Requests of contexts at the tile or the memory that they name, their replies and their acknowledgements (R212, R216, R219, R226, R254, R258, R288,
R317, R323, R324, R431, R487). -/
namespace Sys2Proof.Machine

/-! ### At another tile (R158, R212, R219, R226) -/

/-- A request whose turn it is is performed at its tile. -/
theorem exec_remoteRequest_performs {s : State} {e : Ret} {u : Nat} (he : s.flying s.ev.a s.ev.b = some e) (hdst : e.dst = .tile u)
    (hseal : s.sealHit s.ev.a e.dst = none) (hturn : (s.tile s.ev.a).q.inTurn e = true) :
    exec .remoteRequest s = .next ((s.performTile s.ev.a u e).2.answered s.ev.a e (s.performTile s.ev.a u e).1) := by
  refine (show exec .remoteRequest s = execRemoteRequest s from rfl).trans ((atHome_opened _ he hseal).trans ?_)
  simp only [hdst, hturn, Bool.not_true, Bool.false_eq_true, if_false]

/-- Only a row of a vector load whose line is not kept needs less than all its bytes (R158). -/
theorem State.needsOf_whole {e : Ret} (h : ∀ k j x, e.sink ≠ .vec k j false x) (s : State) (t off n : Nat) : s.needsOf t e off n = [(off, n)] := by
  unfold State.needsOf
  split
  next k j x hsink => exact absurd hsink (h k j x)
  next => rfl

theorem State.needBad_singleton (s : State) (t off n : Nat) : s.needBad t [(off, n)] = s.uncorrectable t off n := by
  simp [State.needBad]

theorem State.needCount_singleton (s : State) (t off n : Nat) : s.needCount t [(off, n)] = s.countCec t (s.correctables t off n) := by
  simp [State.needCount]

section
variable {s : State} {t u : Nat} {e : Ret}

theorem State.performTile_load {a : Word} {n : Nat} (h : e.body = .load a n) : s.performTile t u e =
    if s.needBad u (s.needsOf t e (addrOff a) n) then ({ code := 0x16 }, s)
    else ({ data := s.spmRead u (addrOff a) n }, s.needCount u (s.needsOf t e (addrOff a) n)) := by
  simp only [State.performTile, h]

theorem State.performTile_store {a : Word} {n d : Nat} (h : e.body = .store a n d) : s.performTile t u e =
    ({}, if s.storeBlocked u (addrOff a) n then s.storeError u t e 0x16 else s.spmStore u (addrOff a) n d) := by
  simp only [State.performTile, h]
  split <;> rfl

theorem State.performTile_row {a : Word} {m : BitVec 64} {d : BitVec 512} (h : e.body = .row a m d) : s.performTile t u e =
    ({}, if s.rowBlocked u (addrOff a) m then s.storeError u t e 0x16 else s.rowStore u (addrOff a) m d) := by
  simp only [State.performTile, h]
  split <;> rfl

end

/-! ### Replies (R216, R217, R431) -/

section
variable {s : State} {e : Ret} (he : s.answeredEntry s.ev.a s.ev.b = some e)
include he

/-- A reply whose seal opens frees its entry and is delivered; what another tile answers waits while the tile is held (R122, R218). -/
theorem exec_remoteReply_delivers (hheld : (s.tile s.ev.a).held = false ∨ ∃ pa, e.dst = .edge pa)
    (hback : s.sealHitBack s.ev.a e.dst = none ∨ e.code = 0x32) :
    exec .remoteReply s = .next ((s.freeEntry s.ev.a e.id).deliver s.ev.a { e with backFails := 0 }) := by
  change execRemoteReply s = _
  obtain hheld | ⟨pa, hdst⟩ := hheld
  · simp only [execRemoteReply, he, hheld, Bool.false_eq_true, false_and, if_false, backHome_opened _ _ hback]
  · simp only [execRemoteReply, he, hdst, Bool.not_true, Bool.false_eq_true, and_false, if_false, backHome_opened _ _ hback]

/-- A reply whose seal fails at a gate is sent again, up to three times. -/
theorem exec_remoteReply_again {g pa : Nat} (hdst : e.dst = .edge pa) (hcode : e.code ≠ 0x32) (hback : s.sealHitBack s.ev.a e.dst = some g)
    (hfails : e.backFails < 2) :
    exec .remoteReply s = notYet ((s.countCec g 1).setEntry s.ev.a { e with backFails := e.backFails + 1 }) := by
  have hagain : ¬(3 ≤ e.backFails + 1) := by omega
  change execRemoteReply s = _
  simp only [execRemoteReply, he, hdst, Bool.not_true, Bool.false_eq_true, and_false, if_false]
  rw [hdst] at hback
  simp only [backHome, hdst, hcode, hback, hagain, if_false, (quiet_countCec s g 1).ev]

end

/-! ### Acknowledgements (R212, R288) -/

/-- An acknowledgement frees its entry, tells the error of a store, and lets go what was held behind it. -/
theorem exec_acknowledgement_frees {s : State} {e : Ret} (he : s.entry s.ev.a s.ev.b = some e) (hbody : ∀ tag d acc ack, e.body ≠ .elems tag d acc ack)
    (hstate : e.state = .done) (hheld : (s.tile s.ev.a).held = false) (hback : s.sealHitBack s.ev.a e.dst = none ∨ e.code = 0x32)
    (hsink : ∀ c o n, e.sink ≠ .xfer c o n) :
    exec .acknowledgement s = .next ((if e.code = 0 then s.freeEntry s.ev.a e.id
      else (s.freeEntry s.ev.a e.id).storeError s.ev.a s.ev.a { e with backFails := 0 } e.code.toNat).releaseHeld s.ev.a e.body.vc e.dst) := by
  have hexec := show exec .acknowledgement s = execAcknowledgement s from rfl
  unfold execAcknowledgement at hexec
  dsimp only at hexec
  split at hexec
  next hnone => exact nomatch hnone.symm.trans he
  next x hx =>
    obtain rfl := Option.some.inj (hx.symm.trans he)
    split at hexec
    next tag d acc ack helems => exact absurd helems (hbody tag d acc ack)
    next =>
      refine hexec.trans ((if_neg (not_not.2 hstate)).trans ((if_neg (Bool.eq_false_iff.1 hheld)).trans ((backHome_opened _ _ hback).trans ?_)))
      dsimp only
      split
      next c o n hxfer => exact absurd hxfer (hsink c o n)
      next =>
        split
        next => rfl
        next =>
          split
          next c o n hxfer => exact absurd hxfer (hsink c o n)
          next => rfl

/-! ### At an edge port (R226, R258, R323, R324) -/

theorem State.portRefuses_iff (s : State) (p : Nat) (e : Ret) :
    s.portRefuses p e = true ↔ (s.field (s.portField p)).state = 2 ∨ e.deadline ≤ s.now (s.portField p) + 420 := by
  simp [State.portRefuses]

theorem State.portRefuses_eq_false_iff (s : State) (p : Nat) (e : Ret) :
    s.portRefuses p e = false ↔ (s.field (s.portField p)).state ≠ 2 ∧ s.now (s.portField p) + 420 < e.deadline := by
  simp [State.portRefuses]

section
variable {s : State} {e : Ret} {pa p : Nat} (he : s.flying s.ev.a s.ev.b = some e) (hdst : e.dst = .edge pa) (hseal : s.sealHit s.ev.a e.dst = none)
  (hport : s.arrivalPort e pa = some p)
include he hdst hseal hport

theorem exec_edgePortArrival_refuses (h : s.portRefuses p e = true) : exec .edgePortArrival s = .next (s.edgeRefuse s.ev.a e) := by
  refine (show exec .edgePortArrival s = execEdgePortArrival s from rfl).trans ((atHome_opened _ he hseal).trans ?_)
  simp only [hdst, hport, h, if_true]

theorem exec_edgePortArrival_queues (h : s.portRefuses p e = false) (hturn : (s.tile s.ev.a).q.inTurn e = true) :
    exec .edgePortArrival s = .next ((s.setEntry s.ev.a { e with state := .atPort }).later .edgeSlotSend { a := s.ev.a, b := e.id }) := by
  refine (show exec .edgePortArrival s = execEdgePortArrival s from rfl).trans ((atHome_opened _ he hseal).trans ?_)
  simp only [hdst, hport, h, hturn, Bool.not_true, Bool.false_eq_true, if_false]

end

section
variable {s : State} {e : Ret} {pa p : Nat} (he : s.entry s.ev.a s.ev.b = some e) (hstate : e.state = .atPort) (hdst : e.dst = .edge pa)
include he hstate hdst

/-- A port of the own wafer without a slot for the region answers 0x31 (R324). -/
theorem exec_edgeSlotSend_noSlot (hport : s.arrivalPort e pa = some p) (hwafer : paWafer pa = s.module.waferNo)
    (hnone : ∀ k < 64, (s.port p).mayUse (s.tile s.ev.a).region k = false) :
    exec .edgeSlotSend s = .next (s.answered s.ev.a e { code := 0x31 }) := by
  have hany : (List.range 64).any ((s.port p).mayUse (s.tile s.ev.a).region) = false := by simpa using hnone
  change execEdgeSlotSend s = _
  simp only [execEdgeSlotSend, he, hstate, hdst, hport, hwafer, hany, decide_true, Bool.not_false, and_self, if_true, State.edgeError]

/-- In a slot of the region the request leaves the port. -/
theorem exec_edgeSlotSend_sends (hport : s.arrivalPort e pa = some p) (hrefuses : s.portRefuses p e = false) (hup : s.portUp p = true)
    (hcopies : s.copiesAnswer e pa = true) (hslot : (s.port p).mayUse (s.tile s.ev.a).region (s.now (s.portField p) / 8 % 64) = true) :
    exec .edgeSlotSend s = .next (s.later .moduleAccess { a := s.ev.a, b := e.id }) := by
  have hany : (List.range 64).any ((s.port p).mayUse (s.tile s.ev.a).region) = true :=
    List.any_eq_true.2 ⟨_, List.mem_range.2 (Nat.mod_lt _ (by decide)), hslot⟩
  change execEdgeSlotSend s = _
  simp only [execEdgeSlotSend, he, hstate, hdst, hport, hany, hrefuses, hup, hcopies, hslot, Bool.not_true, Bool.false_eq_true, and_false, or_self, if_false]

/-- At the deadline of its translation a request is no longer performed (R261). -/
theorem exec_moduleAccess_late (hport : s.arrivalPort e pa = some p) (hlate : e.deadline ≤ s.now (s.portField p)) :
    exec .moduleAccess s = .next (s.edgeRefuse s.ev.a e) := by
  change execModuleAccess s = _
  simp only [execModuleAccess, he, hstate, hdst, hport, Option.getD_some, if_pos hlate]

end

/-- A refusal drops the translation of its address and asks for another (R258). -/
theorem exec_edgeRefusal_asks {s : State} {e : Ret} (he : s.entry s.ev.a s.ev.b = some e) (hwants : e.wantsXlate = true)
    (hheld : (s.tile s.ev.a).held = false) (hcode : e.code = 0) (hback : s.sealHitBack s.ev.a e.dst = none) :
    exec .edgeRefusal s = .next ((s.updTile s.ev.a (fun x => { x with
      dtlb := x.dtlb.filter (fun y => !y.covers e.body.va)
      itlb := if e.kind = 3 then x.itlb.filter (fun y => !y.covers e.body.va) else x.itlb })).later
      .l2TlbLookup { a := s.ev.a, b := whoRetained e.id }) := by
  change execEdgeRefusal s = _
  simp only [execEdgeRefusal, he, hwants, hheld, backHome_opened _ _ (.inl hback), hcode, Bool.not_true, Bool.false_eq_true, if_false, ne_eq,
    not_true_eq_false]
  rfl

/-! ### The words behind a port (R212, R254) -/

theorem mod_eight_of_mem_memWords {key n k : Nat} (h : k ∈ memWords key n) : k % 8 = 0 := by
  obtain ⟨i, -, rfl⟩ := List.mem_map.1 h
  exact Nat.mul_mod_left _ _

theorem memWords_aligned {k n : Nat} (hk : k % 8 = 0) (h0 : 0 < n) (h8 : n ≤ 8) : memWords k n = [k] := by
  have hone : (k + n + 7) / 8 - k / 8 = 1 := by omega
  have hword : k / 8 * 8 = k := by omega
  simp [memWords, hone, hword]

theorem mem_memWords_of_mem_partWords {key n k : Nat} (h : k ∈ partWords key n) : k ∈ memWords key n := (List.mem_filter.1 h).1

theorem inCopy_single (k pa : Nat) : inCopy [pa] k pa = k := Nat.add_sub_cancel ..

section
variable {s : State} {k : Nat} (pa : Nat) (hk : k % 8 = 0)
include hk

theorem State.memBad_word {n : Nat} (h0 : 0 < n) (h8 : n ≤ 8) : s.memBad k n = (s.eccAt k == 66) := by
  simp [State.memBad, memWords_aligned hk h0 h8]

/-- The only copy serves each word that it holds without an uncorrectable error. -/
theorem State.goodCopy_single : s.goodCopy [pa] k = if s.eccAt k = 66 then none else some pa := by
  have hbad : s.memBad (inCopy [pa] k pa) 1 = (s.eccAt k == 66) := by rw [inCopy_single, State.memBad_word hk (by decide) (by decide)]
  by_cases h : s.eccAt k = 66
  · rw [if_pos h]
    exact List.find?_cons_of_neg (by simp [hbad, h])
  · rw [if_neg h]
    exact List.find?_cons_of_pos (by simp [hbad, h])

end

theorem State.goodCopy_spec {s : State} {copies : List Nat} {k pa : Nat} (h : s.goodCopy copies k = some pa) :
    pa ∈ copies ∧ s.memBad (inCopy copies k pa) 1 = false :=
  ⟨List.mem_of_find?_eq_some h, by simpa using List.find?_some h⟩

section
variable {ks : List Nat} (hks : ∀ k ∈ ks, k % 8 = 0)
include hks

theorem State.copiesBad_single (s : State) (pa : Nat) : s.copiesBad [pa] ks = ks.any (fun k => s.eccAt k == 66) := by
  rw [State.copiesBad, Bool.eq_iff_iff, List.any_eq_true, List.any_eq_true]
  refine exists_congr fun k => and_congr_right fun hk => ?_
  rw [State.goodCopy_single pa (hks k hk)]
  by_cases h : s.eccAt k = 66
  · simp [h]
  · simp [h]

/-- A word without an error counts none. -/
theorem State.countWords_good {s : State} (pa : Nat) (hgood : ∀ k ∈ ks, s.eccAt k = 0) : s.countWords [pa] ks = s := by
  induction ks with
  | nil => rfl
  | cons k ks ih =>
    have hk := hks k (List.mem_cons_self ..)
    have hok := hgood k (List.mem_cons_self ..)
    have hfirst : s.countWords [pa] [k] = s := by
      simp [State.countWords, State.goodCopy_single pa hk, hok, inCopy_single, State.countCec]
    have hrest := ih (fun j hj => hks j (List.mem_cons_of_mem _ hj)) (fun j hj => hgood j (List.mem_cons_of_mem _ hj))
    calc s.countWords [pa] (k :: ks) = (s.countWords [pa] [k]).countWords [pa] ks := rfl
      _ = s := by rw [hfirst, hrest]

/-- Without a bad word the only copy takes nothing from another. -/
theorem State.healWords_single {s : State} (pa : Nat) (hgood : ∀ k ∈ ks, s.eccAt k ≠ 66) : s.healWords [pa] ks = s.countWords [pa] ks := by
  have hecc : ∀ k, (s.countWords [pa] ks).eccAt k = s.eccAt k := fun k => by rw [State.eccAt, (quiet_countWords s [pa] ks).ecc, State.eccAt]
  refine List.foldlRecOn (motive := (· = s.countWords [pa] ks)) ks _ rfl ?_
  rintro q rfl k hk
  have hserves : (s.countWords [pa] ks).goodCopy [pa] k = some pa := by rw [State.goodCopy_single pa (hks k hk), hecc, if_neg (hgood k hk)]
  have hwhole : (s.countWords [pa] ks).memBad k 8 = false := by
    rw [State.memBad_word (hks k hk) (by decide) (by decide), hecc, beq_eq_false_iff_ne]
    exact hgood k hk
  simp only [hserves, List.foldl_cons, List.foldl_nil, inCopy_single, hwhole, Bool.false_eq_true, if_false]

end

/-! ### At the module (R254, R261, R263, R433, R487) -/

section
variable {s : State} {t n : Nat} {e : Ret} {a : Word} (pa : Nat)

theorem State.readWords_whole (hsink : ∀ k j x, e.sink ≠ .vec k j false x) (key : Nat) : s.readWords t e key n = memWords key n := by
  simp [State.readWords, State.needsOf_whole hsink]

theorem State.performMem_load (hbody : e.body = .load a n) (hsink : ∀ k j x, e.sink ≠ .vec k j false x) : s.performMem t e [pa] =
    if s.memBad (edgeKey pa) n then ({ code := 0x16 }, s)
    else ({ data := s.memRead (edgeKey pa) n }, s.countWords [pa] (memWords (edgeKey pa) n)) := by
  have hbad : s.copiesBad [pa] (memWords (edgeKey pa) n) = s.memBad (edgeKey pa) n := State.copiesBad_single (fun _ => mod_eight_of_mem_memWords) s pa
  simp only [State.performMem, hbody, List.headD_cons, State.readWords_whole hsink, hbad]
  split
  · rfl
  next hgood => simp only [State.copyRead, List.headD_cons, hgood, Bool.false_eq_true, if_false]

variable {d : Nat} (hbody : e.body = .store a n d)
include hbody

theorem State.performMem_store_good (hgood : s.memBad (edgeKey pa) n = false) :
    s.performMem t e [pa] = ({}, (s.countWords [pa] (partWords (edgeKey pa) n)).memStore (edgeKey pa) n d) := by
  have hword : ∀ k ∈ partWords (edgeKey pa) n, k % 8 = 0 := fun k hk => mod_eight_of_mem_memWords (mem_memWords_of_mem_partWords hk)
  have hok : ∀ k ∈ partWords (edgeKey pa) n, s.eccAt k ≠ 66 := fun k hk => by
    simpa using List.any_eq_false.1 hgood k (mem_memWords_of_mem_partWords hk)
  have hbad : s.copiesBad [pa] (partWords (edgeKey pa) n) = false := by
    rw [State.copiesBad_single hword, List.any_eq_false]
    exact fun k hk => by simpa using hok k hk
  simp only [State.performMem, hbody, List.headD_cons, hbad, Bool.false_eq_true, if_false, State.healWords_single hword pa hok, List.foldl_cons, List.foldl_nil]

theorem State.performMem_store_bad (hbad : (partWords (edgeKey pa) n).any (fun k => s.eccAt k == 66) = true) :
    s.performMem t e [pa] = ({}, s.storeError t t e 0x16) := by
  rw [← State.copiesBad_single (fun k hk => mod_eight_of_mem_memWords (mem_memWords_of_mem_partWords hk)) s pa] at hbad
  simp only [State.performMem, hbody, List.headD_cons, hbad, if_true]

end

section
variable {s : State} {e : Ret} {pa p : Nat} (hmirror : e.mirrored = false) (hport : s.servingPort pa = some p)
include hport

theorem State.arrivalPort_of_serving : s.arrivalPort e pa = some p := by
  simp only [State.arrivalPort, hport]

include hmirror

theorem State.copiesOf_single : s.copiesOf e pa = [pa] := by
  simp [State.copiesOf, hport, hmirror]

variable (he : s.entry s.ev.a s.ev.b = some e) (hstate : e.state = .atPort) (hdst : e.dst = .edge pa) (hwafer : paWafer pa = s.module.waferNo)
  (hlive : s.now (s.portField p) < e.deadline)
include he hstate hdst hwafer hlive

/-- A frame that the key opens performs the request. -/
theorem exec_moduleAccess_performs (htag : (s.tag (pa / 4096)).denies e.kid = false) :
    let r := s.performMem s.ev.a e (if e.body.writes then [pa] else [pa].filter s.answers)
    exec .moduleAccess s = .next (r.2.answered s.ev.a e r.1) := by
  have hfar : ¬((0 : BitVec 8) = 0x30 ∨ (0 : BitVec 8) = 0x31) := by decide
  change execModuleAccess s = _
  simp only [execModuleAccess, he, hstate, hdst, State.arrivalPort_of_serving hport, Option.getD_some, Nat.not_le.2 hlive,
    State.copiesOf_single hmirror hport, hwafer, hfar, htag, hmirror, List.isEmpty_cons, List.find?_cons, List.find?_nil, if_true, if_false,
    Bool.false_eq_true, false_and]

/-- A frame under another key, or locked, turns a context's store away with its code alone. -/
theorem exec_moduleAccess_denies_store (htag : (s.tag (pa / 4096)).denies e.kid = true) {a : Word} {n d : Nat} (hbody : e.body = .store a n d)
    (hsink : e.sink.isEngine = false) : exec .moduleAccess s = .next (s.answered s.ev.a e { code := 0x15 }) := by
  have hfar : ¬((0 : BitVec 8) = 0x30 ∨ (0 : BitVec 8) = 0x31) := by decide
  change execModuleAccess s = _
  simp only [execModuleAccess, he, hstate, hdst, State.arrivalPort_of_serving hport, Option.getD_some, Nat.not_le.2 hlive,
    State.copiesOf_single hmirror hport, hwafer, hfar, htag, hbody, hsink, List.isEmpty_cons, List.find?_cons, if_true, if_false,
    Bool.false_eq_true, Bool.not_false, Bool.and_true, State.edgeError]

/-- It turns a load or an engine's store away and tells the home island (R446). -/
theorem exec_moduleAccess_denies_told (htag : (s.tag (pa / 4096)).denies e.kid = true) {a : Word} {n d : Nat}
    (hbody : e.body = .load a n ∨ (e.body = .store a n d ∧ e.sink.isEngine = true)) : exec .moduleAccess s =
      .next ((s.tileEvent s.ev.a 0x15 0 0 0 e.body.target (BitVec.ofNat 64 (e.kid + 2 ^ 16 * (s.tag (pa / 4096)).kid))).answered s.ev.a e { code := 0x15 }) := by
  have hfar : ¬((0 : BitVec 8) = 0x30 ∨ (0 : BitVec 8) = 0x31) := by decide
  change execModuleAccess s = _
  obtain hbody | ⟨hbody, hsink⟩ := hbody
  · simp only [execModuleAccess, he, hstate, hdst, State.arrivalPort_of_serving hport, Option.getD_some, Nat.not_le.2 hlive,
      State.copiesOf_single hmirror hport, hwafer, hfar, htag, hbody, List.isEmpty_cons, List.find?_cons, if_true, if_false,
      Bool.false_eq_true, Bool.and_false, State.edgeError]
  · simp only [execModuleAccess, he, hstate, hdst, State.arrivalPort_of_serving hport, Option.getD_some, Nat.not_le.2 hlive,
      State.copiesOf_single hmirror hport, hwafer, hfar, htag, hbody, hsink, List.isEmpty_cons, List.find?_cons, if_true, if_false,
      Bool.false_eq_true, Bool.not_true, Bool.false_and, State.edgeError]

end

theorem FrameTag.denies_eq_false {x : FrameTag} {kid : Nat} (hkid : x.kid = kid) (hopen : x.locked = false) : x.denies kid = false := by
  simp [FrameTag.denies, hkid, hopen]

theorem FrameTag.denies_eq_true {x : FrameTag} {kid : Nat} (h : x.kid ≠ kid ∨ x.locked = true) : x.denies kid = true := by
  simpa [FrameTag.denies] using h

theorem State.answers_own {s : State} {pa : Nat} (h : (s.group (paGroup pa)).answering = true) : s.answers pa = true := by
  simp [State.answers, h]

/-- Settles O24: each step is what its event answers in that case. -/
theorem requestEvents : Obligations.RequestEvents := by
  refine ⟨?tile, ?vector, ?reply, ?edgeReply, ?again, ?acknowledged, ?storeError, ?arrival, ?slot, ?refusal, ?atModule, ?counted, ?copy, ?late⟩
  case tile =>
    intro s e u he hdst hseal hturn hsink
    have hexec := exec_remoteRequest_performs he hdst hseal hturn
    refine ⟨fun a n hbody hok => ?_, fun a n hbody hbad => ?_, fun a n d hbody => ?_, fun a m d hbody => ?_, fun a n op b c hbody hok => ?_⟩
    · rw [hexec, State.performTile_load hbody, State.needsOf_whole hsink, State.needBad_singleton, State.needCount_singleton, hok]
      rfl
    · rw [hexec, State.performTile_load hbody, State.needsOf_whole hsink, State.needBad_singleton, hbad]
      rfl
    · rw [hexec, State.performTile_store hbody]
      split <;> rfl
    · rw [hexec, State.performTile_row hbody]
      split <;> rfl
    · rw [hexec]
      simp only [State.performTile, hbody, hok, Bool.false_eq_true, if_false] <;> rfl
  case vector =>
    intro s e u k j x a n he hdst hseal hturn _ hbody l
    rw [exec_remoteRequest_performs he hdst hseal hturn, State.performTile_load hbody]
    split <;> rfl
  case reply => exact fun s e u he _ hheld hback => exec_remoteReply_delivers he (.inl hheld) hback
  case edgeReply => exact fun s e pa he hdst hback => exec_remoteReply_delivers he (.inr ⟨pa, hdst⟩) hback
  case again => exact fun s e g pa he hdst hcode hback hfails => exec_remoteReply_again he hdst hcode hback hfails
  case acknowledged =>
    intro s e he hbody hstate hheld hcode hback hsink
    rw [exec_acknowledgement_frees he hbody hstate hheld (.inl hback) hsink, if_pos hcode]
  case storeError =>
    intro s e a n d he hbody hstate hheld hcode hback hsink
    have hplain : ∀ tag d acc ack, e.body ≠ .elems tag d acc ack := fun _ _ _ _ h => nomatch hbody.symm.trans h
    rw [exec_acknowledgement_frees he hplain hstate hheld hback hsink, if_neg hcode]
  case arrival =>
    intro s e pa p he hdst hseal hport
    refine ⟨fun h => ?_, fun hclock hlive hturn => ?_⟩
    · exact exec_edgePortArrival_refuses he hdst hseal hport ((State.portRefuses_iff s p e).2 h)
    · exact exec_edgePortArrival_queues he hdst hseal hport ((State.portRefuses_eq_false_iff s p e).2 ⟨hclock, hlive⟩) hturn
  case slot =>
    intro s e pa p he hstate hdst hport hwafer
    exact ⟨exec_edgeSlotSend_noSlot he hstate hdst hport hwafer, exec_edgeSlotSend_sends he hstate hdst hport⟩
  case refusal => exact fun s e he hwants hheld hcode hback => exec_edgeRefusal_asks he hwants hheld hcode hback
  case atModule =>
    intro s e pa p he hstate hdst hwafer hmirror hport hlive
    refine ⟨fun hkid hopen => ?_, fun hdenied a n d => ?_⟩
    · have hexec := exec_moduleAccess_performs hmirror hport he hstate hdst hwafer hlive (FrameTag.denies_eq_false hkid hopen)
      refine ⟨fun a n hbody hsink hanswers _ => ?_, fun a n d hbody => ?_⟩
      · simp only [hbody, Body.writes, List.filter_cons, State.answers_own hanswers, List.filter_nil, State.performMem_load pa hbody hsink,
          Bool.false_eq_true, if_false, if_true] at hexec
        refine ⟨fun hgood => ?_, fun hbad => ?_⟩
        · simpa only [hgood, Bool.false_eq_true, if_false] using hexec
        · simpa only [hbad, if_true] using hexec
      · simp only [hbody, Body.writes, if_true] at hexec
        refine ⟨fun hgood => ?_, fun hbad => ?_⟩
        · rw [hexec, State.performMem_store_good pa hbody hgood]
        · rw [hexec, State.performMem_store_bad pa hbody hbad]
    · have htag := FrameTag.denies_eq_true hdenied
      exact ⟨exec_moduleAccess_denies_store hmirror hport he hstate hdst hwafer hlive htag,
        exec_moduleAccess_denies_told hmirror hport he hstate hdst hwafer hlive htag⟩
  case counted => exact fun s pa ks hgood hks => State.countWords_good hks pa hgood
  case copy => exact fun s copies k pa h => State.goodCopy_spec h
  case late => exact fun s e pa p he hstate hdst hport hlate => exec_moduleAccess_late he hstate hdst hport hlate

end Sys2Proof.Machine
end

section
/-! SUPPORT. The instructions of messages: sends, triggered sends, ports, handlers and receive counters (R235, R291, R294, R298 to R300, R302 to R306). -/
namespace Sys2Proof.Machine

open Claims (needAB needA needD need0 namedDest nearDest SendsAs)

/-! ### Sends (R302, R303) -/

section
variable {s : State} {h p : Word} {d : Dst} {col row : Nat}

theorem State.sendNow_error (s : State) (h p : Word) (c : Nat) (a : Word) : s.sendNow h p (.error (c, a)) = .fault c a := rfl

theorem State.sendNow_beyond (s : State) (d : Dst × Nat × Nat) (hrange : putRangeOk h p = false) : s.sendNow h p (.ok d) = .fault 0x21 0 := by
  simp only [State.sendNow, hrange, Bool.not_false, if_true]

section
variable (hrange : putRangeOk h p = true) (hfree : pwCount p ≤ s.curTile.retFree) (hheld : s.accessHeld = false)
include hrange hfree hheld

theorem State.sendNow_unreadable (d : Dst × Nat × Nat) (hbad : s.uncorrectable s.slot.site (pwOff p) (pwCount p * mdwLen h) = true) :
    s.sendNow h p (.ok d) = .fault 0x16 (s.curTile.addrOf (pwOff p)) := by
  simp only [State.sendNow, hrange, Nat.not_lt.2 hfree, hheld, hbad, Bool.not_true, Bool.false_eq_true, if_false, if_true]

theorem State.sendNow_sends (hgood : s.uncorrectable s.slot.site (pwOff p) (pwCount p * mdwLen h) = false) :
    s.sendNow h p (.ok (d, col, row)) = .ok (s.sendAll s.slot.site s.slot.ctx h p d col row).retire := by
  simp only [State.sendNow, hrange, Nat.not_lt.2 hfree, hheld, hgood, Bool.not_true, Bool.false_eq_true, if_false]

end
end

/-- A word whose operands, once they pass their own checks, are sent as sendNow sends, and else break the format. -/
theorem sendsAs_of_issue {i : Instr} {n : Need} {body : List Word → State → Act} {ok : List Word → State → Prop}
    {dest : List Word → State → Except (Nat × Word) (Dst × Nat × Nat)} (e : State → Out) (he : ∀ s, exec i s = e s) (h : ∀ s, e s = issue n s body)
    (hok : ∀ v s, ok v s → body v s = s.sendNow (v0 v) (v1 v) (dest v s)) (hbad : ∀ v s, ¬ok v s → body v s = .fault 0x21 0) : SendsAs i n ok dest := by
  refine ⟨fun d col row => ?sends, ?format, fun c a => ?away, fun d => ?beyond, fun d => ?unreadable⟩
  case sends =>
    refine completesIf_of_issue e he h fun v s ⟨hv, hdest, hrange, hfree, hheld, hgood⟩ => ?_
    rw [hok v s hv, hdest, State.sendNow_sends hrange hfree hheld hgood]
  case format => exact trapsIf_of_issue e he h hbad
  case away =>
    refine trapsIf_of_issue e he h fun v s ⟨hv, hdest⟩ => ?_
    rw [hok v s hv, hdest, State.sendNow_error]
  case beyond =>
    refine trapsIf_of_issue e he h fun v s ⟨hv, hdest, hrange⟩ => ?_
    rw [hok v s hv, hdest, State.sendNow_beyond s d hrange]
  case unreadable =>
    refine trapsIf_of_issue e he h fun v s ⟨hv, hdest, hrange, hfree, hheld, hgood⟩ => ?_
    rw [hok v s hv, hdest, State.sendNow_unreadable hrange hfree hheld d hgood]

theorem sendTo_sendsAs {i : Instr} {kinds : List Nat} {maxLen : Nat} {ra rb : BitVec 6} {wa wb : BitVec 1}
    (he : ∀ s, exec i s = sendTo i kinds maxLen ra rb wa wb s) :
    SendsAs i (needAB i ra rb wa wb) (fun v s => s.sendOperandsOk (v0 v) (v1 v) kinds maxLen false = true) (fun v s => namedDest s (v0 v)) := by
  refine sendsAs_of_issue (sendTo i kinds maxLen ra rb wa wb) he (fun _ => rfl) (fun v s hok => ?_) fun v s hbad => ?_
  · simp only [hok, Bool.not_true, Bool.false_eq_true, if_false]
    rfl
  · simp only [Bool.eq_false_iff.2 hbad, Bool.not_false, if_true]

/-- Without a neighbour in the region a send to it breaks the format; with one the message goes there. -/
theorem sendNear_sendsAs {i : Instr} {dir : Nat} {ra rb : BitVec 6} {wa wb : BitVec 1} (he : ∀ s, exec i s = sendNear i dir ra rb wa wb s) :
    SendsAs i (needAB i ra rb wa wb)
      (fun v s => s.sendOperandsOk (v0 v) (v1 v) [0, 1] 240 true = true ∧ (nearDest s dir).isSome = true)
      (fun _ s => (nearDest s dir).getD (.error (0x21, 0))) := by
  refine sendsAs_of_issue (sendNear i dir ra rb wa wb) he (fun _ => rfl) (fun v s ⟨hok, hnear⟩ => ?_) fun v s hbad => ?_
  · unfold nearDest at hnear ⊢
    simp only [hok, Bool.not_true, Bool.false_eq_true, if_false]
    cases hside : neighbour s.curTile.col s.curTile.row dir with
    | none => simp only [hside, Option.isSome_none, Bool.false_eq_true] at hnear
    | some q =>
      by_cases hout : (s.dims s.slot.site).1 ≤ q.1 ∨ (s.dims s.slot.site).2 ≤ q.2
      · simp only [hside, hout, if_true, Option.isSome_none, Bool.false_eq_true] at hnear
      · simp only [hout, if_false, Option.getD_some] <;> rfl
  · unfold nearDest at hbad
    by_cases hok : s.sendOperandsOk (v0 v) (v1 v) [0, 1] 240 true = true
    · simp only [hok, Bool.not_true, Bool.false_eq_true, if_false]
      cases hside : neighbour s.curTile.col s.curTile.row dir with
      | none => rfl
      | some q =>
        by_cases hout : (s.dims s.slot.site).1 ≤ q.1 ∨ (s.dims s.slot.site).2 ≤ q.2
        · simp only [hout, if_true]
        · exact absurd ⟨hok, by simp only [hside, hout, if_false, Option.isSome_some]⟩ hbad
    · simp only [Bool.eq_false_iff.2 hok, Bool.not_false, if_true]

theorem sends : Claims.Sends := by
  refine fun ra rb wa wb => ⟨sendTo_sendsAs fun _ => rfl, sendTo_sendsAs fun _ => rfl, ?host, fun p hp => ?near⟩
  case host =>
    refine sendsAs_of_issue (execHmsg ra rb wa wb) (fun _ => rfl) (fun _ => rfl) (fun v s hok => ?_) fun v s hbad => ?_
    · simp only [hok, Bool.not_true, Bool.false_eq_true, if_false]
    · simp only [Bool.eq_false_iff.2 hbad, Bool.not_false, if_true]
  case near =>
    simp only [List.mem_cons, List.not_mem_nil, or_false] at hp
    obtain rfl | rfl | rfl | rfl := hp <;> exact sendNear_sendsAs fun _ => rfl

/-! ### Triggered sends (R235, R300, R303) -/

theorem exists_ite_eq_ok {ε α : Type} {c : Prop} [Decidable c] {a b : Except ε α} (ha : c → ∃ u, a = .ok u) (hb : ¬c → ∃ u, b = .ok u) :
    ∃ u, (if c then a else b) = .ok u := by
  split
  next h => exact ha h
  next h => exact hb h

theorem triggeredSends : Claims.TriggeredSends := by
  intro n ra rb wa wb i nd ok e quiet
  have hdest : ∀ {v s}, ok v s → ∃ u, (if mdwKind (v0 v) = 3 then .ok 0 else s.sendDest s.slot.site (fld (v0 v) 0 8) (fld (v0 v) 8 8)) = .ok u :=
    fun h => exists_ite_eq_ok (fun _ => ⟨0, rfl⟩) fun hk => h.2.1.resolve_left hk
  refine ⟨?waits, ?fires, ?full⟩
  case waits =>
    refine completesIf_of_issue (execTsend n ra rb wa wb) (fun _ => rfl) (fun _ => rfl) fun v s ⟨hok, (hheld : s.accessHeld = false), hroom, hstate⟩ => ?_
    obtain ⟨u, hu⟩ := hdest hok
    obtain ⟨hops, -, hrange⟩ := hok
    simp only [hops, hu, hrange, hheld, Nat.not_le.2 hroom, hstate, Bool.not_true, Bool.false_eq_true, if_false]
    rfl
  case fires =>
    refine completesIf_of_issue (execTsend n ra rb wa wb) (fun _ => rfl) (fun _ => rfl) fun v s ⟨hok, (hheld : s.accessHeld = false), hroom, hstate⟩ => ?_
    obtain ⟨u, hu⟩ := hdest hok
    obtain ⟨hops, -, hrange⟩ := hok
    simp only [hops, hu, hrange, hheld, Nat.not_le.2 hroom, hstate, Bool.not_true, Bool.false_eq_true, if_false, if_true]
    rfl
  case full =>
    refine trapsIf_of_issue (execTsend n ra rb wa wb) (fun _ => rfl) (fun _ => rfl) fun v s ⟨hok, hfull⟩ => ?_
    obtain ⟨u, hu⟩ := hdest hok
    obtain ⟨hops, -, hrange⟩ := hok
    simp only [hops, hu, hrange, hfull, Bool.not_true, Bool.false_eq_true, if_false, if_true]

/-! ### Ports (R291, R304) -/

theorem portBinding : Claims.PortBinding := by
  intro ra n wa i nd p ok dest bind
  have hgoes : ∀ {v s}, dest v s → ∃ u, (if 4 ≤ p ∧ cfgV (v0 v) = true ∧ cfgVc (v0 v) = 2 then s.sendDest s.slot.site (fld (v0 v) 0 8) (fld (v0 v) 8 8)
      else .ok 0) = .ok u := fun h => exists_ite_eq_ok h fun _ => ⟨0, rfl⟩
  refine ⟨?empty, ?flushed, ?format⟩
  case empty =>
    refine completesIf_of_issue (execQcfg ra n wa) (fun _ => rfl) (fun _ => rfl) fun v s ⟨⟨hform, honce⟩, hdest, hnone⟩ => ?_
    obtain ⟨u, hu⟩ := hgoes hdest
    simp only [p] at hform honce hnone hu
    simp only [hform, honce, hu, hnone, List.isEmpty_nil, Bool.not_true, Bool.or_self, Bool.false_and, Bool.false_eq_true, if_false, if_true]
    rfl
  case flushed =>
    refine completesIf_of_issue (execQcfg ra n wa) (fun _ => rfl) (fun _ => rfl) fun v s ⟨⟨hform, honce⟩, hdest, hsome, hfree, hfilled⟩ => ?_
    obtain ⟨u, hu⟩ := hgoes hdest
    simp only [p] at hform honce hsome hfilled hu
    have hnone : (fget [] s.curTile.q.gathered n.toNat).any (fun e => e.1 != 0) = false := by simpa using hfilled
    have hempty : (fget [] s.curTile.q.gathered n.toNat).isEmpty = false := by simpa using hsome
    simp only [hform, honce, hu, hempty, hnone, beq_false_of_ne hfree, Bool.not_true, Bool.not_false, Bool.or_self, Bool.and_false, Bool.false_eq_true, if_false]
    rfl
  case format =>
    refine trapsIf_of_issue (execQcfg ra n wa) (fun _ => rfl) (fun _ => rfl) fun v s hbad => if_pos ?_
    by_cases hform : portcfgOk n.toNat (v0 v) = true
    · have honce : s.curTile.q.boundTwice n.toNat (v0 v) = true := by simpa [ok, p, hform] using hbad
      rw [honce, Bool.or_true]
    · rw [Bool.eq_false_iff.2 hform, Bool.not_false, Bool.true_or]

/-! ### The handler table (R294, R305) -/

section
variable {α : Type} {p : Tile → α} (htrain : ∀ x k, p { x with train := k } = p x)
include htrain

/-- Forwarding a word to followers changes trains alone (R361). -/
theorem keepsPart_forward (s : State) : KeepsPart p s s.forward := by
  have hupd : ∀ s u (g : Train → Train), KeepsPart p s (s.updTile u (fun y => { y with train := g y.train })) :=
    fun s u g => keepsPart_updTile s u (htrain _ _)
  have hlane : ∀ s u l i a, KeepsPart p s ((s.updTile u (fun y => { y with train := { y.train with lane := y.train.lane ++ [l] } })).later i a) :=
    fun s u l _ _ => (hupd s u fun k => { k with lane := k.lane ++ [l] }).trans (.of_tiles rfl)
  unfold State.forward
  dsimp only
  split
  · refine (hupd s s.slot.site fun k => { k with step := k.step + 1 }).trans (keepsPart_foldl (fun s d => ?_) _ _)
    split
    · exact .refl s
    · split
      · dsimp only
        split
        · split
          · exact hlane _ _ _ _ _
          · exact hlane _ _ _ _ _
        · exact .refl s
      · exact .refl s
  · exact .refl s

/-- Going on changes contexts and trains alone (R176, R361). -/
theorem keepsPart_retire (hctxs : ∀ x c y, p (Tile.setCtx x c y) = p x) (s : State) : KeepsPart p s s.retire := by
  have hctx : ∀ s f, KeepsPart p s (s.updCur f) := fun s f => keepsPart_setTile s _ (hctxs _ _ _)
  refine (keepsPart_forward htrain s).trans (u := s.retire) ?_
  unfold State.retire State.finish State.goOn
  dsimp only
  split
  · exact (hctx _ _).trans (hctx _ _)
  · exact hctx _ _

end

/-- A parked item or its discard, and the event beside it, leave memory, the contexts and the seal of every table (R292, R296, R409). -/
theorem State.park_spec (s : State) (t : Nat) (i : QItem) : KeepsCtxs s (s.park t i) ∧ KeepsPart (fun x => x.q.isSealed) s (s.park t i) := by
  unfold State.park
  extract_lets q full s1 h code a0
  have hctxs : KeepsCtxs s s1 := keepsCtxs_updTile s t rfl
  have hseal : KeepsPart (fun x => x.q.isSealed) s s1 := keepsPart_updTile s t (by cases full <;> rfl)
  obtain ⟨n, e, a, hevent⟩ := s1.tileEvent_eq t code (if full then 1 else 0) (fld h 16 8) (fld h 24 8) a0 h
  rw [hevent]
  exact ⟨hctxs.trans ⟨rfl, rfl, fun _ _ => rfl⟩, hseal.trans (.of_tiles rfl)⟩

/-- Items are parked, a dispatch is due again for each of some others, and the instruction goes on (R296, R305). -/
def State.parkAndGoOn (s : State) (t : Nat) (wait due : List QItem) : State :=
  (due.foldl (fun s _ => s.later .dispatch { a := t }) (wait.foldl (fun s i => s.park t i) s)).retire

/-- Whatever is parked, memory stays and the table is as open as it was. -/
theorem State.parkAndGoOn_spec (s : State) (t : Nat) (wait due : List QItem) :
    (s.parkAndGoOn t wait due).curTile.q.isSealed = s.curTile.q.isSealed ∧ (s.parkAndGoOn t wait due).mem = s.mem := by
  have hpark : KeepsCtxs s (wait.foldl (fun s i => s.park t i) s) := keepsCtxs_foldl (fun s i => (s.park_spec t i).1) wait s
  have hdue := hpark.trans (keepsCtxs_foldl (f := fun s (_ : QItem) => s.later .dispatch { a := t }) (fun _ _ => ⟨rfl, rfl, fun _ _ => rfl⟩) due _)
  have hseal : KeepsPart (fun x => x.q.isSealed) s (s.parkAndGoOn t wait due) :=
    ((keepsPart_foldl (fun s i => (s.park_spec t i).2) wait s).trans
      (keepsPart_foldl (f := fun s (_ : QItem) => s.later .dispatch { a := t }) (fun _ _ => .of_tiles rfl) due _)).trans
      (keepsPart_retire (fun _ _ => rfl) (fun _ _ _ => rfl) _)
  exact ⟨hseal.curTile ((own_retire _).slot.trans hdue.slot), (State.mem_retire _).trans hdue.mem⟩

/-- The table is opened, and the PORT messages leave the dispatch queue (R305). -/
def State.unsealed (s : State) : State :=
  s.updCurTile (fun x => x.updQ (fun q => { q with isSealed := false, dispatchQ := q.dispatchQ.filter (fun i => i.kind != 2) }))

theorem State.isSealed_unsealed (s : State) : s.unsealed.curTile.q.isSealed = false := by
  rw [State.unsealed, State.curTile_updCurTile]
  rfl

theorem exec_hopen {s : State} (hready : (need0 .hopen).ready s = true) :
    ∃ wait due, exec .hopen s = .next (((need0 .hopen).take s).unsealed.parkAndGoOn ((need0 .hopen).take s).slot.site wait due) :=
  ⟨_, _, (show exec .hopen s = execHopen s from rfl).trans (issue_ok hready rfl)⟩

theorem handlerTable : Claims.HandlerTable := by
  refine ⟨fun ra n wa => ⟨?set, ?format⟩, fun n => ?clear, ?seals, fun s hready => ?opens⟩
  case set =>
    refine completesIf_of_issue (execHset ra n wa) (fun _ => rfl) (fun _ => rfl) fun v s hform => ?_
    simp only [hform, Bool.not_true, Bool.false_eq_true, if_false]
  case format =>
    refine trapsIf_of_issue (execHset ra n wa) (fun _ => rfl) (fun _ => rfl) fun v s hform => if_pos ?_
    rw [hform, Bool.not_false]
  case opens =>
    obtain ⟨wait, due, hexec⟩ := exec_hopen hready
    obtain ⟨hseal, hmem⟩ := State.parkAndGoOn_spec ((need0 .hopen).take s).unsealed ((need0 .hopen).take s).slot.site wait due
    exact ⟨_, hexec, hseal.trans (State.isSealed_unsealed _), hmem.trans (Need.mem_take_noSrcs rfl s)⟩
  case clear => exact completes_of_issue (execHclr n) (fun _ => rfl) (fun _ => rfl) fun _ _ => rfl
  case seals => exact completes_of_issue execHseal (fun _ => rfl) (fun _ => rfl) fun _ _ => rfl

/-! ### Receive counters (R298, R299, R306) -/

theorem receiveCounters : Claims.ReceiveCounters := by
  refine ⟨fun ra n wa => ⟨?arm, ?reserved⟩, fun rd n => ?read, fun rd n => ?cancel⟩
  case arm =>
    refine completesIf_of_issue (execRcarm ra n wa) (fun _ => rfl) (fun _ => rfl) fun v s hzero => ?_
    simp only [hzero, ne_eq, not_true_eq_false, if_false]
  case reserved => exact trapsIf_of_issue (execRcarm ra n wa) (fun _ => rfl) (fun _ => rfl) fun v s h => if_pos h
  case read => exact completes_of_issue (execRcrd rd n) (fun _ => rfl) (fun _ => rfl) fun _ _ => rfl
  case cancel => exact completes_of_issue (execTcancel rd n) (fun _ => rfl) (fun _ => rfl) fun _ _ => rfl

/-- Settles O45: each instruction of messages answers what its clause says, branch by branch; an opened table stays open while waiting items are parked. -/
theorem messageInstructions : Obligations.MessageInstructions := ⟨sends, triggeredSends, portBinding, handlerTable, receiveCounters⟩

end Sys2Proof.Machine
end

section
/-! SUPPORT. The instructions of barriers and collectives (R237, R347, R348, R352 to R355, R399). -/
namespace Sys2Proof.Machine

open Claims (needR needRR needAB needA needD need0)

/-! ### Setting a barrier up and changing it (R347, R352) -/

/-- A field is zero exactly when both its parts are. -/
theorem fld_append_eq_zero_iff (w : Word) (lo m n : Nat) : fld w lo (m + n) = 0 ↔ fld w lo m = 0 ∧ fld w (lo + m) n = 0 := by
  simp only [fld, natBits, Nat.pow_add, ← Nat.div_div_eq_div_mul, Nat.mod_mul]
  have := Nat.two_pow_pos m
  constructor
  · intro h
    obtain ⟨h1, h2⟩ := Nat.add_eq_zero_iff.1 h
    exact ⟨h1, (Nat.mul_eq_zero.1 h2).resolve_left (by omega)⟩
  · rintro ⟨h1, h2⟩
    rw [h1, h2, Nat.mul_zero]

theorem binitRow_spec {p : (BitVec 6 → BitVec 6 → BitVec 6 → BitVec 1 → Instr) × Bool} (hp : p ∈ [(Instr.binit, false), (Instr.binitF, true)])
    (rd ra n : BitVec 6) (wa : BitVec 1) (s : State) : exec (p.1 rd ra n wa) s = binitOp (p.1 rd ra n wa) p.2 rd ra n wa s := by
  simp only [List.mem_cons, List.not_mem_nil, or_false] at hp
  obtain rfl | rfl := hp
  · rfl
  · rfl

/-- The first selection of a bwait that has to wait notes the tick; the step of a gang's timeout is due where it watches the barrier (R399). -/
def State.noteWait (s : State) (n : Nat) : State :=
  let t := s.slot.site
  let k := (s.region s.curTile.region).kernel s.curTile.kernel
  let s' := s.updCur (fun x => { x with waitAt := some (s.nowAt t) })
  if s.curTile.kernel ≠ 0 ∧ k.gang ∧ k.gbar.testBit n then s'.later .gangTimeout { a := t, b := s.slot.ctx } else s'

/-- A bwait that is passed over notes it in the state before its selection, with which it is tried again. -/
theorem exec_bwait_waits {rd n : BitVec 6} {s : State} (hready : (needD (.bwait rd n) rd).ready s = true) (hfirst : s.cur.waitAt = none)
    (hstate : (((needD (.bwait rd n) rd).take s).curTile.bar n.toNat).state = 1 ∨ (((needD (.bwait rd n) rd).take s).curTile.bar n.toNat).state = 3) :
    exec (.bwait rd n) s = stall (s.noteWait n.toNat) := by
  have hexec := (show exec (.bwait rd n) s = execBwait rd n s from rfl).trans (issue_wait (n := needD (.bwait rd n) rd) hready
    ((if_neg (by omega)).trans (if_neg (by omega))))
  have hunset : ¬s.cur.waitAt.isSome = true := by
    rw [hfirst]
    exact Bool.false_ne_true
  exact hexec.trans (congrArg stall (if_neg hunset))

/-- A context that begins to wait changes in that alone. -/
theorem State.cur_noteWait (s : State) (n : Nat) : (s.noteWait n).cur = { s.cur with waitAt := some (s.nowAt s.slot.site) } := by
  unfold State.noteWait
  extract_lets t k s'
  have hcur : s'.cur = { s.cur with waitAt := some (s.nowAt t) } := State.cur_updCur _ _
  split
  · exact hcur
  · exact hcur

theorem State.mem_noteWait (s : State) (n : Nat) : (s.noteWait n).mem = s.mem := by
  unfold State.noteWait
  extract_lets t k s'
  split
  · rfl
  · rfl

theorem State.agenda_noteWait {s : State} {n : Nat} (hkernel : s.curTile.kernel ≠ 0) (hgang : ((s.region s.curTile.region).kernel s.curTile.kernel).gang = true)
    (hwatched : ((s.region s.curTile.region).kernel s.curTile.kernel).gbar.testBit n = true) :
    (s.noteWait n).agenda = s.agenda ++ [(.gangTimeout, { a := s.slot.site, b := s.slot.ctx })] :=
  congrArg State.agenda (if_pos ⟨hkernel, hgang, hwatched⟩)

theorem barriers : Claims.Barriers := by
  refine ⟨fun p hp rd ra n wa => ?init, fun ra n wa => ⟨?expect, ?expectFormat, ?expectState⟩, fun n => ⟨?invalidate, ?invalidateBusy⟩, fun rd n => ?test,
    fun rd n => ⟨?complete, ?unused, fun s hready => ?waits⟩⟩
  case init =>
    have hexec := binitRow_spec hp rd ra n wa
    have hzero : ∀ w : Word, (fld w 0 36 = 0 ∧ fld w 36 8 = 0) = (fld w 0 44 = 0) := fun w => propext (fld_append_eq_zero_iff w 0 36 8).symm
    refine ⟨completesIf_of_issue _ hexec (fun _ => rfl) fun v s ⟨hform, hfree⟩ => ?_, trapsIf_of_issue _ hexec (fun _ => rfl) fun v s hform => if_pos hform,
      trapsIf_of_issue _ hexec (fun _ => rfl) fun v s ⟨hform, hbusy⟩ => ?_⟩
    · refine (if_neg (not_not.2 hform)).trans ((if_neg (by rwa [Bool.not_eq_true'])).trans ?_)
      simp only [hzero]
      rfl
    · exact (if_neg (not_not.2 hform)).trans (if_pos (by rwa [Bool.not_eq_true']))
  case expect =>
    refine completesIf_of_issue (execBexp ra n wa) (fun _ => rfl) (fun _ => rfl) fun v s ⟨hform, hactive, hpend, harr⟩ => ?_
    simp only [hform, hactive, not_or.2 ⟨Nat.not_le.2 hpend, Nat.not_le.2 harr⟩, ne_eq, not_true_eq_false, if_false]
  case expectFormat =>
    refine trapsIf_of_issue (execBexp ra n wa) (fun _ => rfl) (fun _ => rfl) fun v s hbad => ?_
    by_cases hform : fld (v0 v) 44 20 = 0
    · obtain ⟨hactive, hover⟩ := hbad.resolve_left (not_not.2 hform)
      simp only [hform, hactive, hover, ne_eq, not_true_eq_false, if_false, if_true]
    · exact if_pos hform
  case expectState =>
    refine trapsIf_of_issue (execBexp ra n wa) (fun _ => rfl) (fun _ => rfl) fun v s ⟨hform, hidle⟩ => ?_
    simp only [hform, hidle, ne_eq, not_true_eq_false, not_false_eq_true, if_false, if_true]
  case invalidate => exact completesIf_of_issue (execBinv n) (fun _ => rfl) (fun _ => rfl) fun v s h => if_neg h
  case invalidateBusy => exact trapsIf_of_issue (execBinv n) (fun _ => rfl) (fun _ => rfl) fun v s h => if_pos h
  case test => exact completes_of_issue (execBtest rd n) (fun _ => rfl) (fun _ => rfl) fun _ _ => rfl
  case complete =>
    refine completesIf_of_issue (execBwait rd n) (fun _ => rfl) (fun _ => rfl) fun v s h => ?_
    simp only [h, OfNat.ofNat_ne_zero, if_false, if_true]
    rfl
  case unused => exact trapsIf_of_issue (execBwait rd n) (fun _ => rfl) (fun _ => rfl) fun v s h => if_pos h
  case waits =>
    intro s0 hstate hfirst
    obtain ⟨k, hcur⟩ := Need.cur_take_noSrcs (n := needD (.bwait rd n) rd) rfl s
    have hs0 : s0 = _ := Need.take_noSrcs rfl s
    have htile : s0.curTile.kernel = s.curTile.kernel ∧ s0.curTile.region = s.curTile.region := by
      rw [hs0, State.curTile_updCur]
      exact ⟨rfl, rfl⟩
    have hsince := congrArg Ctx.waitAt (s.cur_noteWait n.toNat)
    have hpc := congrArg Ctx.pc (s.cur_noteWait n.toNat)
    refine ⟨_, exec_bwait_waits hready ((congrArg Ctx.waitAt hcur).symm.trans hfirst) hstate, hsince, hpc.trans (congrArg Ctx.pc hcur).symm,
      s.mem_noteWait n.toNat, fun hkernel hgang hwatched => ?_⟩
    rw [htile.1] at hkernel hgang hwatched
    rw [htile.2] at hgang hwatched
    exact State.agenda_noteWait hkernel hgang hwatched

/-! ### Arrivals (R348, R353) -/

theorem barrierArrival : Claims.BarrierArrival := by
  intro ra rb wa wb i nd dest
  refine ⟨?here, fun u => ?sent, ?format⟩
  case here =>
    refine completesIf_of_issue (execBarv ra rb wa wb) (fun _ => rfl) (fun _ => rfl) fun v s ⟨⟨hform, hdest⟩, hreleased⟩ => ?_
    simp only [hform, hdest, hreleased, Bool.not_true, Bool.false_eq_true, and_self, if_false, if_true]
  case sent =>
    refine completesIf_of_issue (execBarv ra rb wa wb) (fun _ => rfl) (fun _ => rfl) fun v s ⟨⟨hform, hdest⟩, hway⟩ => ?_
    have hlater : ¬(u = s.slot.site ∧ s.curTile.released s.slot.ctx s.nextId = true) := by
      rintro ⟨hown, hreleased⟩
      obtain ⟨-, hpending⟩ | ⟨hother, -⟩ := hway
      · exact Bool.false_ne_true (hpending.symm.trans hreleased)
      · exact hother hown
    have hfree : ¬(u ≠ s.slot.site ∧ s.curTile.retFree = 0) := by
      rintro ⟨hother, hfull⟩
      obtain ⟨hown, -⟩ | ⟨-, hroom⟩ := hway
      · exact hother hown
      · exact hroom hfull
    simp only [hform, hdest, hlater, hfree, Bool.not_true, Bool.false_eq_true, if_false]
  case format =>
    refine trapsIf_of_issue (execBarv ra rb wa wb) (fun _ => rfl) (fun _ => rfl) fun v s hform => if_pos ?_
    rw [hform, Bool.not_false]

/-! ### Collectives (R354, R355) -/

theorem collectives : Claims.Collectives := by
  intro rd ra rb wa wb i n here holds
  refine ⟨?joins, ?format⟩
  case joins =>
    refine completesIf_of_issue (execColl rd ra rb wa wb) (fun _ => rfl) (fun _ => rfl)
      fun v s ⟨⟨hform, hcol, hcolEnd, hrow, hrowEnd⟩, hwide, hhigh, hsites, hidle, hfree, hbar⟩ => ?_
    have hwhole : (List.range (collCount (v1 v))).find? (fun p => (s.collSite s.slot.site (v1 v) p).isNone) = none := by
      simpa [List.find?_eq_none, Option.isSome_iff_ne_none] using hsites
    refine (if_neg ?_).trans ((if_neg (not_or.2 ⟨Nat.not_lt.2 hwide, Nat.not_lt.2 hhigh⟩)).trans ?_)
    · simp only [hform, Bool.not_true, Bool.false_or, Bool.not_eq_true', decide_eq_false_iff_not, not_not]
      exact ⟨hcol, hcolEnd, hrow, hrowEnd⟩
    · rw [hwhole]
      exact (if_neg (not_or.2 ⟨Bool.eq_false_iff.1 hidle, hfree⟩)).trans (if_neg (Bool.eq_false_iff.1 hbar))
  case format =>
    refine trapsIf_of_issue (execColl rd ra rb wa wb) (fun _ => rfl) (fun _ => rfl) fun v s hbad => if_pos ?_
    by_cases hform : collOk (v1 v) = true
    · simp only [hform, Bool.not_true, Bool.false_or, Bool.not_eq_true', decide_eq_false_iff_not]
      exact fun hplace => hbad ⟨hform, hplace⟩
    · rw [Bool.eq_false_iff.2 hform, Bool.not_false, Bool.true_or]

/-- Settles O46: the branches of each instruction of barriers and collectives; a bwait that waits notes when it began to, and nothing else of its context. -/
theorem barrierInstructions : Obligations.BarrierInstructions := ⟨barriers, barrierArrival, collectives⟩

end Sys2Proof.Machine
end

section
/-! SUPPORT. The chronometers and the leases of translations (R257, R274 to R277). -/
namespace Sys2Proof.Machine

/-! ### Discipline of a copy (R275, R276) -/

/-- An unset copy takes the reference's value and is locked (R276). -/
theorem exec_chronometerSet_unset {s : State} (h : (s.field s.ev.a).state = 0) : exec .chronometerSet s =
    .next (s.setField s.ev.a { state := 1, base := s.ev.b % 2 ^ 64, since := s.tick, holdFor := 0, goodSince := s.tick }).regulated :=
  if_neg (not_not.mpr h)

/-- The regulator's next period end is due once (R413). -/
theorem State.regulated_cases (s : State) :
    (s.regulated = s ∧ ∃ a ∈ s.agenda, a.1 = .regulatorPeriod) ∨ s.regulated = s.later .regulatorPeriod {} := by
  by_cases h : s.agenda.any (fun a => a.1 == .regulatorPeriod) = true
  · refine .inl ⟨if_pos h, ?_⟩
    simpa only [List.any_eq_true, beq_iff_eq] using h
  · exact .inr (if_neg h)

/-- The copy of a field after an error above ε has been corrected: in holdover, the hold counted (R275, R276). -/
def State.heldOver (s : State) (f : Nat) (err : Int) : State :=
  (s.steer f err).setField f { (s.steer f err).field f with state := 2, goodSince := (s.steer f err).tick + (err.toNat - epsilon) }

section
variable {s : State}

/-- Within ε the copy keeps its state, and the good ticks begin no later than now (R276). -/
theorem exec_chronometerDiscipline_good (h : (s.field s.ev.a).state ≠ 0) (herr : s.ev.i.natAbs ≤ epsilon) :
    exec .chronometerDiscipline s = .next ((s.steer s.ev.a s.ev.i).setField s.ev.a
      { (s.steer s.ev.a s.ev.i).field s.ev.a with
        goodSince := min ((s.steer s.ev.a s.ev.i).field s.ev.a).goodSince (s.steer s.ev.a s.ev.i).tick }) :=
  (if_neg h).trans (if_pos (by simpa using herr))

/-- Beyond ε a copy in holdover drops once more what its buffers hold (R275). -/
theorem exec_chronometerDiscipline_again (h : (s.field s.ev.a).state = 2) (herr : epsilon < s.ev.i.natAbs) :
    exec .chronometerDiscipline s = .next ((s.heldOver s.ev.a s.ev.i).dropField s.ev.a) :=
  (if_neg (by rw [h]; decide)).trans ((if_neg (by simpa using herr)).trans (if_pos h))

/-- Beyond ε a locked copy goes to holdover, with its site event, and waits to be locked again (R276). -/
theorem exec_chronometerDiscipline_bad (h : (s.field s.ev.a).state = 1) (herr : epsilon < s.ev.i.natAbs) :
    exec .chronometerDiscipline s = .next ((((s.heldOver s.ev.a s.ev.i).dropField s.ev.a).siteEvent s.ev.a 0x4B (BitVec.ofInt 64 s.ev.i)
      (BitVec.ofNat 64 s.ev.a)).later .clockRestored { a := s.ev.a }) :=
  (if_neg (by rw [h]; decide)).trans ((if_neg (by simpa using herr)).trans (if_neg (by rw [h]; decide)))

/-- After 1,000,000 good ticks the copy is locked again (R276). -/
theorem exec_clockRestored_due (h : (s.field s.ev.a).state = 2) (hdue : (s.field s.ev.a).goodSince + 1000000 ≤ s.tick) :
    exec .clockRestored s =
      .next ((s.setField s.ev.a { s.field s.ev.a with state := 1 }).siteEvent s.ev.a 0x4C 0 (BitVec.ofNat 64 s.ev.a)) :=
  (if_neg (not_not.mpr h)).trans (if_neg (not_lt.mpr hdue))

end

/-! ### Leases (R257) -/

/-- A change of every tile by a function of its site, which leaves the tile of reset as it is. -/
theorem tile_mapTiles {s t : State} {f : Nat → Tile → Tile} (ht : t.tiles = s.tiles.map (fun e => (e.1, f e.1 e.2)))
    (hf : ∀ u, f u Tile.reset = Tile.reset) (u : Nat) : t.tile u = f u (s.tile u) := by
  unfold State.tile
  rw [ht]
  induction s.tiles with
  | nil => exact (hf u).symm
  | cons e l ih =>
    rw [List.map_cons, fget_cons, fget_cons, ih]
    split
    · rename_i h
      rw [h]
    · rfl

/-- What a tile of a cluster holds still at a tick (R257). -/
def Tile.unexpired (now : Nat) (x : Tile) : Tile :=
  { x with itlb := x.itlb.filter (fun e => decide (now < e.deadline)), dtlb := x.dtlb.filter (fun e => decide (now < e.deadline)) }

/-- A translation whose lease has ended leaves every buffer of the cluster (R257). -/
theorem exec_translationExpiry (s : State) :
    ∃ t, exec .translationExpiry s = .next t ∧ t.mem = s.mem ∧ t.regions = s.regions ∧ t.fields = s.fields ∧ t.agenda = s.agenda ∧
      (let now := s.now (fieldOfCluster s.ev.a)
       (t.cluster s.ev.a).l2 = (s.cluster s.ev.a).l2.filter (fun e => decide (now < e.deadline)) ∧
       (t.cluster s.ev.a).wc = (s.cluster s.ev.a).wc.filter (fun e => decide (now < e.deadline)) ∧
       ∀ u, t.tile u = if s.clusterOf u = s.ev.a then (s.tile u).unexpired now else s.tile u) := by
  refine ⟨_, rfl, rfl, rfl, rfl, rfl, ?_, ?_, fun u => ?_⟩
  · exact congrArg Cluster.l2 (State.cluster_setCluster_same _ _ _)
  · exact congrArg Cluster.wc (State.cluster_setCluster_same _ _ _)
  · refine tile_mapTiles (f := fun u x => if s.clusterOf u = s.ev.a then x.unexpired (s.now (fieldOfCluster s.ev.a)) else x) ?_ ?_ u
    · refine List.map_congr_left fun e _ => ?_
      split <;> rename_i h
      · exact congrArg _ (if_pos h).symm
      · exact congrArg (Prod.mk e.1) (if_neg h).symm
    · intro v
      split <;> rfl

/-- Settles O22: each event is what it answers in that case. -/
theorem clockEvents : Obligations.ClockEvents := by
  refine ⟨fun s h => exec_chronometerSet_unset h, State.regulated_cases, fun s h herr => exec_chronometerDiscipline_again h herr,
    fun s h herr => exec_chronometerDiscipline_good h herr, fun s h herr => exec_chronometerDiscipline_bad h herr,
    fun s h hdue => exec_clockRestored_due h hdue, fun s => ?_⟩
  obtain ⟨t, hexec, hmem, hregions, hfields, hagenda, hl2, hwc, htile⟩ := exec_translationExpiry s
  refine ⟨t, hexec, hmem, hregions, hfields, hagenda, hl2, hwc, fun u => ?_⟩
  rw [htile u]
  split <;> rfl

end Sys2Proof.Machine
end

section
/-! SUPPORT. Events that neither store nor deliver: what each of them leaves of memory, of the error codes and of the tiles (R255, R276, R321). -/
namespace Sys2Proof.Machine

/-! ### What may stay -/

/-- Memory, the error codes and the tick stay. -/
structure KeepsMemory (s t : State) : Prop where
  mem : t.mem = s.mem
  ecc : t.ecc = s.ecc
  tick : t.tick = s.tick

/-- And so do the tiles and the clusters. -/
structure KeepsWafer (s t : State) : Prop extends KeepsMemory s t where
  tiles : t.tiles = s.tiles
  clusters : t.clusters = s.clusters

/-- The slices and edge memory, the error codes and the tick stay: at most the islands' memory is written. -/
structure KeepsLow (s t : State) : Prop where
  low : ∀ k, k < sysKey 0 → Memory.byte t.mem k = Memory.byte s.mem k
  ecc : t.ecc = s.ecc
  tick : t.tick = s.tick

theorem KeepsWafer.refl (s : State) : KeepsWafer s s := ⟨⟨rfl, rfl, rfl⟩, rfl, rfl⟩

theorem KeepsWafer.trans {s t u : State} (h : KeepsWafer s t) (g : KeepsWafer t u) : KeepsWafer s u :=
  ⟨⟨g.mem.trans h.mem, g.ecc.trans h.ecc, g.tick.trans h.tick⟩, g.tiles.trans h.tiles, g.clusters.trans h.clusters⟩

theorem KeepsLow.refl (s : State) : KeepsLow s s := ⟨fun _ _ => rfl, rfl, rfl⟩

theorem KeepsLow.trans {s t u : State} (h : KeepsLow s t) (g : KeepsLow t u) : KeepsLow s u :=
  ⟨fun k hk => (g.low k hk).trans (h.low k hk), g.ecc.trans h.ecc, g.tick.trans h.tick⟩

theorem KeepsMemory.keepsLow {s t : State} (h : KeepsMemory s t) : KeepsLow s t := ⟨fun k _ => by rw [h.mem], h.ecc, h.tick⟩

theorem Quiet.keepsLow {s t : State} (h : Quiet s t) : KeepsLow s t := ⟨h.low, h.ecc, h.tick⟩

theorem Aside.keepsLow {n : Nat} {s t : State} (h : Aside n s t) : KeepsLow s t :=
  ⟨h.bytes, congrArg Steady.ecc h.steady, congrArg Steady.tick h.steady⟩

theorem keepsWafer_foldl {β : Type} {f : State → β → State} (h : ∀ s b, KeepsWafer s (f s b)) (l : List β) (s : State) : KeepsWafer s (l.foldl f s) := by
  induction l generalizing s with
  | nil => exact .refl s
  | cons b l ih => exact (h s b).trans (ih _)

theorem keepsLow_foldl {β : Type} {f : State → β → State} (h : ∀ s b, KeepsLow s (f s b)) (l : List β) (s : State) : KeepsLow s (l.foldl f s) := by
  induction l generalizing s with
  | nil => exact .refl s
  | cons b l ih => exact (h s b).trans (ih _)

/-- Every next state that a meaning answers has a property. -/
inductive Leads (P : State → Prop) : Out → Prop
  | next {t : State} (h : P t) : Leads P (.next t)
  | fault {r : Fault} : Leads P (.fault r)
  | refused {r : Refusal} : Leads P (.refused r)

theorem Leads.of_next {P : State → Prop} {o : Out} {t : State} (h : Leads P o) (e : o = .next t) : P t := by
  cases h <;> cases e
  assumption

theorem Leads.imp {P Q : State → Prop} {o : Out} (h : Leads P o) (hpq : ∀ t, P t → Q t) : Leads Q o := by
  cases h with
  | next h => exact .next (hpq _ h)
  | fault => exact .fault
  | refused => exact .refused

/-! ### Clocks, ports, bays and registers -/

theorem keepsWafer_later (s : State) (i : Instr) (e : EvArgs) : KeepsWafer s (s.later i e) := ⟨⟨rfl, rfl, rfl⟩, rfl, rfl⟩

theorem keepsWafer_setTherm (s : State) (v : Nat) : KeepsWafer s (s.setTherm v) := by
  have hmodule : KeepsWafer s { s with module := { s.module with therm := v } } := ⟨⟨rfl, rfl, rfl⟩, rfl, rfl⟩
  refine hmodule.trans (keepsWafer_foldl (fun s i => ?_) _ _)
  split
  · exact .refl s
  · exact ⟨⟨rfl, rfl, rfl⟩, rfl, rfl⟩

theorem keepsWafer_report (s : State) : KeepsWafer s s.report := by
  unfold State.report
  split
  · exact .refl s
  · exact ⟨⟨rfl, rfl, rfl⟩, rfl, rfl⟩

theorem keepsWafer_mapIslands (s : State) (f : Island → Island) : KeepsWafer s (s.mapIslands f) :=
  keepsWafer_foldl (f := fun s i => s.setIsland i (f (s.island i))) (fun _ _ => ⟨⟨rfl, rfl, rfl⟩, rfl, rfl⟩) (List.range 36) s

theorem keepsWafer_chronometerSet (s : State) : Leads (KeepsWafer s) (exec .chronometerSet s) := by
  show Leads _ (execChronometerSet s)
  unfold execChronometerSet State.regulated
  dsimp only
  split
  · exact .next (.refl s)
  · split
    · exact .next ⟨⟨rfl, rfl, rfl⟩, rfl, rfl⟩
    · exact .next ⟨⟨rfl, rfl, rfl⟩, rfl, rfl⟩

theorem keepsWafer_laneFailure (s : State) : Leads (KeepsWafer s) (exec .laneFailure s) := .next ⟨⟨rfl, rfl, rfl⟩, rfl, rfl⟩

theorem keepsWafer_linkReplay (s : State) : Leads (KeepsWafer s) (exec .linkReplay s) := by
  show Leads _ (execLinkReplay s)
  unfold execLinkReplay
  dsimp only
  split
  · exact .next (.refl s)
  · exact .next ⟨⟨rfl, rfl, rfl⟩, rfl, rfl⟩

theorem keepsWafer_moduleSeated (s : State) : Leads (KeepsWafer s) (exec .moduleSeated s) := .next ⟨⟨rfl, rfl, rfl⟩, rfl, rfl⟩

theorem keepsWafer_moduleScrubDone (s : State) : Leads (KeepsWafer s) (exec .moduleScrubDone s) := by
  show Leads _ (execModuleScrubDone s)
  unfold execModuleScrubDone
  dsimp only
  split
  · exact .next (.refl s)
  · exact .next ⟨⟨rfl, rfl, rfl⟩, rfl, rfl⟩

theorem keepsWafer_bayRelease (s : State) : Leads (KeepsWafer s) (exec .bayRelease s) := .next ⟨⟨rfl, rfl, rfl⟩, rfl, rfl⟩

theorem keepsWafer_gangAck (s : State) : Leads (KeepsWafer s) (exec .gangAck s) := by
  show Leads _ (execGangAck s)
  unfold execGangAck
  dsimp only
  split
  · exact .next (.refl s)
  · exact .next ⟨⟨rfl, rfl, rfl⟩, rfl, rfl⟩

/-- A register's write reaches an island, the module or a bay. -/
theorem keepsWafer_registerWrite (s : State) : Leads (KeepsWafer s) (exec .registerWrite s) := by
  show Leads _ (execRegisterWrite s)
  unfold execRegisterWrite
  dsimp only
  repeat' split
  all_goals exact .next ⟨⟨rfl, rfl, rfl⟩, rfl, rfl⟩

theorem keepsWafer_thermalAlert (s : State) : Leads (KeepsWafer s) (exec .thermalAlert s) := by
  show Leads _ (execThermalAlert s)
  unfold execThermalAlert
  dsimp only
  refine .next ((keepsWafer_report s).trans ?_)
  split
  · exact keepsWafer_setTherm _ _
  · exact .refl _

theorem keepsWafer_thermalNormal (s : State) : Leads (KeepsWafer s) (exec .thermalNormal s) := by
  have hreport := keepsWafer_report s
  show Leads _ (execThermalNormal s)
  unfold execThermalNormal notYet
  dsimp only
  split
  · exact .next hreport
  · split
    · exact .next (hreport.trans (keepsWafer_setTherm _ _))
    · split
      · exact .next (hreport.trans ⟨⟨rfl, rfl, rfl⟩, rfl, rfl⟩)
      · exact .next (hreport.trans (keepsWafer_later _ _ _))

theorem keepsWafer_runtimeRestartDone (s : State) : Leads (KeepsWafer s) (exec .runtimeRestartDone s) := .next (keepsWafer_mapIslands _ _)

/-! ### Translation's own steps, trains -/

theorem keepsMemory_translationExpiry (s : State) : Leads (KeepsMemory s) (exec .translationExpiry s) := .next ⟨rfl, rfl, rfl⟩

theorem keepsMemory_walk (s : State) : Leads (KeepsMemory s) (exec .walk s) := by
  show Leads _ (execWalk s)
  unfold execWalk notYet
  dsimp only
  generalize (if (State.cluster s _).waiting.contains _ then _ else _ : Cluster) = x
  split
  · exact .next ⟨rfl, rfl, rfl⟩
  · split
    · exact .next ⟨rfl, rfl, rfl⟩
    · split
      · exact .next ⟨rfl, rfl, rfl⟩
      · exact .next ⟨rfl, rfl, rfl⟩

theorem keepsMemory_trainFormationRequest (s : State) : Leads (KeepsMemory s) (exec .trainFormationRequest s) := by
  show Leads _ (execTrainFormationRequest s)
  unfold execTrainFormationRequest notYet
  dsimp only
  repeat' split
  all_goals exact .next ⟨rfl, rfl, rfl⟩

theorem keepsMemory_tsyncLine (s : State) : Leads (KeepsMemory s) (exec .tsyncLine s) := by
  show Leads _ (execTsyncLine s)
  unfold execTsyncLine notYet
  dsimp only
  repeat' split
  all_goals exact .next ⟨rfl, rfl, rfl⟩

theorem keepsMemory_vc7Element (s : State) : Leads (KeepsMemory s) (exec .vc7Element s) := by
  show Leads _ (execVc7Element s)
  unfold execVc7Element notYet
  dsimp only
  repeat' split
  all_goals exact .next ⟨rfl, rfl, rfl⟩

/-! ### Operations of queues and reports -/

theorem keepsLow_setTile (s : State) (t : Nat) (x : Tile) : KeepsLow s (s.setTile t x) := ⟨fun _ _ => rfl, rfl, rfl⟩

theorem keepsLow_setCluster (s : State) (k : Nat) (x : Cluster) : KeepsLow s (s.setCluster k x) := ⟨fun _ _ => rfl, rfl, rfl⟩

theorem keepsLow_setRegion (s : State) (r : Nat) (x : Region) : KeepsLow s (s.setRegion r x) := ⟨fun _ _ => rfl, rfl, rfl⟩

theorem keepsLow_updRegion (s : State) (r : Nat) (f : Region → Region) : KeepsLow s (s.updRegion r f) := ⟨fun _ _ => rfl, rfl, rfl⟩

theorem keepsLow_updTile (s : State) (t : Nat) (f : Tile → Tile) : KeepsLow s (s.updTile t f) := ⟨fun _ _ => rfl, rfl, rfl⟩

theorem keepsLow_updCtx (s : State) (t c : Nat) (f : Ctx → Ctx) : KeepsLow s (s.updCtx t c f) := ⟨fun _ _ => rfl, rfl, rfl⟩

theorem keepsLow_stalled (s : State) : Leads (KeepsLow s) (notYet s) := .next ⟨fun _ _ => rfl, rfl, rfl⟩

theorem keepsLow_later (s : State) (i : Instr) (e : EvArgs) : KeepsLow s (s.later i e) := (beside_later s i e).keepsLow

theorem keepsLow_setEntry (s : State) (t : Nat) (e : Ret) : KeepsLow s (s.setEntry t e) := (beside_setEntry s t e).keepsLow

theorem keepsLow_launch (s : State) (t : Nat) (e : Ret) : KeepsLow s (s.launch t e) := (beside_launch s t e).keepsLow

theorem keepsLow_sendBack (s : State) (t : Nat) (d : Dst) (i : Instr) (a : EvArgs) : KeepsLow s (s.sendBack t d i a) :=
  (beside_sendBack s t d i a).keepsLow

theorem keepsLow_tileEvent (s : State) (t code src mode kern : Nat) (a0 a1 : Word) : KeepsLow s (s.tileEvent t code src mode kern a0 a1) :=
  (quiet_tileEvent s t code src mode kern a0 a1).keepsLow

theorem keepsLow_answer (s : State) (t : Nat) (e : Ret) : KeepsLow s (s.answer t e) := by
  unfold State.answer
  dsimp only
  refine KeepsLow.trans ?_ (keepsLow_sendBack _ _ _ _ _)
  split
  · exact keepsLow_updTile _ _ _
  · exact .refl s

theorem keepsLow_noteRefusing (s : State) (t : Nat) (e : Ret) (on : Bool) : KeepsLow s (s.noteRefusing t e on) := by
  unfold State.noteRefusing
  dsimp only
  split
  · exact keepsLow_updTile _ _ _
  · exact ⟨fun _ _ => rfl, rfl, rfl⟩
  · exact .refl s

theorem keepsLow_backFlit (s : State) (e : Ret) : KeepsLow s (s.backFlit e) := by
  unfold State.backFlit
  split
  · exact keepsLow_updTile _ _ _
  · exact .refl s

theorem keepsLow_refuse (s : State) (t : Nat) (e : Ret) : KeepsLow s (s.refuse t e) :=
  ((keepsLow_noteRefusing s t e true).trans (keepsLow_backFlit _ e)).trans (keepsLow_sendBack _ _ _ _ _)

theorem keepsLow_sealNotice (s : State) (t : Nat) (e : Ret) (vc kind : Nat) : KeepsLow s (s.sealNotice t e vc kind) := keepsLow_tileEvent _ _ _ _ _ _ _ _

/-- A seal that fails counts, and the message is refused, sent again or answered (R431). -/
theorem keepsLow_sealFail (s : State) (t g : Nat) (e : Ret) : Leads (KeepsLow s) (s.sealFail t g e) := by
  have hcount := (quiet_countCec s g 1).keepsLow
  unfold State.sealFail
  dsimp only
  split
  · exact .next (hcount.trans (((keepsLow_setEntry _ _ _).trans (keepsLow_sealNotice _ _ _ _ _)).trans (keepsLow_answer _ _ _)))
  · split
    · exact .next (hcount.trans ((keepsLow_setEntry _ _ _).trans (keepsLow_refuse _ _ _)))
    · exact (keepsLow_stalled _).imp fun _ h => hcount.trans ((keepsLow_setEntry _ _ _).trans h)

/-- What goes on at a destination leaves what its gates and its own operation leave (R317, R431). -/
theorem keepsLow_atHome {s : State} {k : Ret → Out} (hk : ∀ e, Leads (KeepsLow s) (k e)) : Leads (KeepsLow s) (atHome s k) := by
  unfold atHome
  split
  · exact .next (.refl s)
  · split
    · exact keepsLow_sealFail _ _ _ _
    · exact hk _

theorem keepsLow_backHome {s : State} {e : Ret} {kind : Nat} {k : State → Ret → Out} (hk : ∀ t e, Leads (KeepsLow t) (k t e)) :
    Leads (KeepsLow s) (backHome s e kind k) := by
  have hcount := fun g => (quiet_countCec s g 1).keepsLow
  unfold backHome
  dsimp only
  split
  · split
    · exact (hk _ _).imp fun _ h => (hcount _).trans ((keepsLow_sealNotice _ _ _ _ _).trans h)
    · exact (keepsLow_stalled _).imp fun _ h => (hcount _).trans ((keepsLow_setEntry _ _ _).trans h)
  · exact hk _ _

theorem keepsLow_faultReply {s : State} {k : State → Out} (hk : ∀ t, Leads (KeepsLow t) (k t)) : Leads (KeepsLow s) (faultReply s k) := by
  unfold faultReply
  dsimp only
  split
  · exact (keepsLow_stalled _).imp fun _ h => (quiet_countCec s _ 1).keepsLow.trans h
  · refine (hk _).imp fun _ h => KeepsLow.trans ?_ h
    unfold State.numberBack
    split
    · exact (quiet_takeSeq _ _).keepsLow
    · exact .refl s

theorem keepsLow_signalHome {s : State} {k : Ret → Out} (hk : ∀ e, Leads (KeepsLow s) (k e)) : Leads (KeepsLow s) (signalHome s k) := by
  unfold signalHome
  dsimp only
  split
  · exact .next (.refl s)
  · split
    · split
      · exact keepsLow_stalled s
      · exact .next (keepsLow_launch _ _ _)
    · split
      · exact keepsLow_stalled s
      · exact keepsLow_atHome hk

theorem keepsLow_giveXlate (s : State) (t who : Nat) (e : Tlb) (held : Bool) : KeepsLow s (s.giveXlate t who e held) := by
  have hupd : ∀ {c : Prop} [Decidable c] (s : State) (f : Tile → Tile), KeepsLow s (if c then s.updTile t f else s) := fun s f => by
    split
    · exact keepsLow_updTile _ _ _
    · exact .refl s
  unfold State.giveXlate
  extract_lets fillD c1 s1 c2 n
  have hfill : ∀ s, KeepsLow s (fillD s) := fun s => hupd s _
  split
  · split
    · exact (hfill s).trans (keepsLow_updCtx _ _ _ _)
    · exact keepsLow_updCtx _ _ _ _
  · split
    · exact keepsLow_updTile _ _ _
    · split
      · refine KeepsLow.trans (t := s1) ?_ (keepsLow_updCtx _ _ _ _)
        simp only [s1]
        split
        · exact keepsLow_updTile _ _ _
        · exact keepsLow_updCtx _ _ _ _
      · split
        · exact (hfill s).trans (keepsLow_updCtx _ _ _ _)
        · split
          · exact keepsLow_updTile _ _ _
          · split
            · exact .refl s
            · split
              · exact keepsLow_later _ _ _
              · refine KeepsLow.trans ?_ ((keepsLow_updTile _ _ _).trans (keepsLow_launch _ _ _))
                split
                · exact keepsLow_updTile _ _ _
                · exact hfill s

theorem keepsLow_addCause1 (s : State) (r c status : Nat) : KeepsLow s (s.addCause1 r c status) := by
  unfold State.addCause1
  dsimp only
  split
  · split
    · exact keepsLow_setRegion _ _ _
    · exact ((keepsLow_setRegion _ _ _).trans (keepsLow_later _ _ _)).trans (quiet_event _ _ _ _ _ _ _ _ _ _).keepsLow
  · exact .refl s

/-! ### An image at its place (R124, R450) -/

theorem keepsLow_memWrite_sys (s : State) (a n v : Nat) : KeepsLow s (s.memWrite (sysKey a) n v) := (quiet_memWrite s a n v).keepsLow

theorem keepsLow_putSys (s : State) (a : Nat) (l : List (Nat × Nat)) : KeepsLow s (s.putSys a l) := by
  induction l generalizing s a with
  | nil => exact .refl s
  | cons p l ih => exact (keepsLow_memWrite_sys _ _ _ _).trans (ih _ _)

theorem keepsLow_saveTile (s : State) (t base : Nat) (spm : Bool) : KeepsLow s (s.saveTile t base spm) := by
  unfold State.saveTile
  extract_lets x s1 s2 s3
  have h2 : KeepsLow s s2 :=
    (keepsLow_putSys s base _).trans (keepsLow_foldl (fun s i => keepsLow_putSys s (base + sectionAt i) (s.section_ t i)) (List.range 10) s1)
  have h3 : KeepsLow s2 s3 := by
    simp only [s3]
    split
    · exact keepsLow_foldl (fun s i => keepsLow_memWrite_sys s _ _ _) _ s2
    · exact .refl s2
  exact ⟨(h2.trans h3).low, (h2.trans h3).ecc, (h2.trans h3).tick⟩

/-! ### Messages, lookups, replies, streams and inspections -/

theorem keepsLow_clockRestored (s : State) : Leads (fun t => KeepsLow s t ∧ t.tiles = s.tiles ∧ t.clusters = s.clusters) (exec .clockRestored s) := by
  show Leads _ (execClockRestored s)
  unfold execClockRestored notYet
  dsimp only
  split
  · exact .next ⟨.refl s, rfl, rfl⟩
  · split
    · exact .next ⟨⟨fun _ _ => rfl, rfl, rfl⟩, rfl, rfl⟩
    · refine .next ?_
      generalize hu : s.setField s.ev.a { s.field s.ev.a with state := 1 } = u
      have hq : Quiet u (u.siteEvent s.ev.a 0x4C 0 (BitVec.ofNat 64 s.ev.a)) := quiet_raise _ _
      rw [← hu] at hq ⊢
      exact ⟨⟨hq.low, hq.ecc, hq.tick⟩, hq.tiles, hq.clusters⟩

theorem keepsLow_l2TlbLookup (s : State) : Leads (KeepsLow s) (exec .l2TlbLookup s) := by
  show Leads _ (execL2TlbLookup s)
  unfold execL2TlbLookup
  dsimp only
  split
  · exact .next (.refl s)
  · split
    · exact keepsLow_stalled s
    · split
      · exact .next ((keepsLow_setCluster _ _ _).trans (keepsLow_giveXlate _ _ _ _ _))
      · exact .next ((keepsLow_setCluster _ _ _).trans (keepsLow_later _ _ _))

theorem keepsLow_retryReply (s : State) : Leads (KeepsLow s) (exec .retryReply s) := by
  show Leads _ (execRetryReply s)
  refine keepsLow_faultReply fun s => ?_
  dsimp only
  split
  · exact .next (.refl s)
  · split
    · exact .next (keepsLow_updCtx _ _ _ _)
    · split
      · exact .next ((keepsLow_updTile _ _ _).trans ((keepsLow_setEntry _ _ _).trans (keepsLow_later _ _ _)))
      · exact .next (keepsLow_updTile _ _ _)

theorem keepsLow_refusedReinject (s : State) : Leads (KeepsLow s) (exec .refusedReinject s) := by
  show Leads _ (execRefusedReinject s)
  unfold execRefusedReinject
  dsimp only
  split
  · split
    · exact .next (.refl s)
    · split
      · exact keepsLow_stalled s
      · split
        · exact .next (keepsLow_launch _ _ _)
        · exact .next (keepsLow_setEntry _ _ _)
  · exact .next (.refl s)

theorem keepsLow_edgeRefusal (s : State) : Leads (KeepsLow s) (exec .edgeRefusal s) := by
  show Leads _ (execEdgeRefusal s)
  unfold execEdgeRefusal
  dsimp only
  split
  · split
    · exact .next (.refl s)
    · split
      · exact keepsLow_stalled s
      · refine keepsLow_backHome fun t e => ?_
        split
        · exact .next ((keepsLow_setEntry _ _ _).trans (keepsLow_answer _ _ _))
        · exact .next ((keepsLow_updTile _ _ _).trans (keepsLow_later _ _ _))
  · exact .next (.refl s)

theorem keepsLow_messageRefusal (s : State) : Leads (KeepsLow s) (exec .messageRefusal s) := by
  show Leads _ (execMessageRefusal s)
  unfold execMessageRefusal
  dsimp only
  split
  · refine keepsLow_backHome fun t e => ?_
    split
    · exact .next ((keepsLow_setEntry _ _ _).trans (keepsLow_answer _ _ _))
    · split
      · exact .next ((keepsLow_setEntry _ _ _).trans (keepsLow_later _ _ _))
      · exact .next (keepsLow_setEntry _ _ _)
  · exact .next (.refl s)

theorem keepsLow_streamGo (s : State) : Leads (KeepsLow s) (exec .streamGo s) := by
  show Leads _ (execStreamGo s)
  refine keepsLow_signalHome fun m => ?_
  dsimp only
  split
  · split
    · exact .next (keepsLow_updTile _ _ _)
    · split
      · exact .next (keepsLow_updTile _ _ _)
      · split
        · exact .next ((keepsLow_updTile _ _ _).trans (keepsLow_updTile _ _ _))
        · exact .next (((keepsLow_updTile _ _ _).trans (keepsLow_updTile _ _ _)).trans (quiet_streamEvent _ _ _ _ _ _).keepsLow)
  · exact .next (.refl s)

theorem keepsLow_streamAbort (s : State) : Leads (KeepsLow s) (exec .streamAbort s) := by
  show Leads _ (execStreamAbort s)
  refine keepsLow_signalHome fun m => ?_
  dsimp only
  split
  · split
    · exact .next (keepsLow_updTile _ _ _)
    · split
      · exact .next (keepsLow_updTile _ _ _)
      · exact .next ((keepsLow_updTile _ _ _).trans (keepsLow_updTile _ _ _))
  · exact .next (.refl s)

theorem keepsLow_inspectionRequest (s : State) : Leads (KeepsLow s) (exec .inspectionRequest s) := by
  show Leads _ (execInspectionRequest s)
  unfold execInspectionRequest
  dsimp only
  split
  · exact .next (keepsLow_setRegion _ _ _)
  · split
    · exact .next (keepsLow_setRegion _ _ _)
    · exact .next (((keepsLow_setRegion _ _ _).trans (keepsLow_addCause1 _ _ _ _)).trans (keepsLow_later _ _ _))

theorem keepsLow_inspectionReady (s : State) : Leads (KeepsLow s) (exec .inspectionReady s) := by
  show Leads _ (execInspectionReady s)
  unfold execInspectionReady
  dsimp only
  split
  · exact .next (.refl s)
  · split
    · exact keepsLow_stalled s
    · exact .next (((keepsLow_foldl (fun s t => keepsLow_saveTile s t (inspectAt t) true) _ s).trans (keepsLow_updRegion _ _ _)).trans
        (quiet_event _ _ _ _ _ _ _ _ _ _).keepsLow)

/-! ### The events by what they leave -/

/-- Events of islands, the module, ports, bays and regions: they leave memory, tiles and clusters. -/
theorem keepsWafer_exec : ∀ i ∈ [Instr.chronometerSet, .laneFailure, .linkReplay, .moduleSeated, .moduleScrubDone, .bayRelease, .gangAck, .registerWrite,
    .thermalAlert, .thermalNormal, .runtimeRestartDone], ∀ s, Leads (KeepsWafer s) (exec i s) := by
  simp only [List.forall_mem_cons, List.not_mem_nil, false_imp_iff, implies_true, and_true]
  exact ⟨keepsWafer_chronometerSet, keepsWafer_laneFailure, keepsWafer_linkReplay, keepsWafer_moduleSeated, keepsWafer_moduleScrubDone,
    keepsWafer_bayRelease, keepsWafer_gangAck, keepsWafer_registerWrite, keepsWafer_thermalAlert, keepsWafer_thermalNormal, keepsWafer_runtimeRestartDone⟩

/-- Events of translation and of trains: they leave memory. -/
theorem keepsMemory_exec : ∀ i ∈ [Instr.translationExpiry, .walk, .trainFormationRequest, .tsyncLine, .vc7Element],
    ∀ s, Leads (KeepsMemory s) (exec i s) := by
  simp only [List.forall_mem_cons, List.not_mem_nil, false_imp_iff, implies_true, and_true]
  exact ⟨keepsMemory_translationExpiry, keepsMemory_walk, keepsMemory_trainFormationRequest, keepsMemory_tsyncLine, keepsMemory_vc7Element⟩

/-- Events that may report to an island's ring, or save an image: they leave what is not the islands' memory. -/
theorem keepsLow_exec : ∀ i ∈ [Instr.clockRestored, .l2TlbLookup, .retryReply, .refusedReinject, .edgeRefusal, .messageRefusal, .streamGo, .streamAbort,
    .inspectionRequest, .inspectionReady], ∀ s, Leads (KeepsLow s) (exec i s) := by
  simp only [List.forall_mem_cons, List.not_mem_nil, false_imp_iff, implies_true, and_true]
  exact ⟨fun s => (keepsLow_clockRestored s).imp fun _ h => h.1, keepsLow_l2TlbLookup, keepsLow_retryReply, keepsLow_refusedReinject, keepsLow_edgeRefusal,
    keepsLow_messageRefusal, keepsLow_streamGo, keepsLow_streamAbort, keepsLow_inspectionRequest, keepsLow_inspectionReady⟩

/-- Settles O60: each event by the class of what it leaves. -/
theorem quietEvents : Obligations.QuietEvents := by
  refine ⟨fun i hi s t h => ?_, fun i hi s t h => ?_, fun i hi s t h => ?_⟩
  · have hkeeps : Leads (KeepsMemory s) (exec i s) := by
      by_cases hw : i ∈ [Instr.chronometerSet, .laneFailure, .linkReplay, .moduleSeated, .moduleScrubDone, .bayRelease, .gangAck, .registerWrite,
          .thermalAlert, .thermalNormal, .runtimeRestartDone]
      · exact (keepsWafer_exec i hw s).imp fun _ h => h.toKeepsMemory
      · refine keepsMemory_exec i ?_ s
        simp only [List.mem_cons, List.not_mem_nil, or_false] at hi hw ⊢
        tauto
    obtain ⟨hmem, hecc, htick⟩ := hkeeps.of_next h
    exact ⟨hmem, hecc, htick⟩
  · obtain ⟨hlow, hecc, htick⟩ := (keepsLow_exec i hi s).of_next h
    exact ⟨hlow, hecc, htick⟩
  · by_cases hclock : i = .clockRestored
    · subst hclock
      exact ((keepsLow_clockRestored s).of_next h).2
    · have hkeeps := (keepsWafer_exec i (by simp only [List.mem_cons, List.not_mem_nil, or_false] at hi ⊢; tauto) s).of_next h
      exact ⟨hkeeps.tiles, hkeeps.clusters⟩

end Sys2Proof.Machine
end

section
/-! SUPPORT. Lookups, walks and the replies to posted faults (R255, R259 to R262, R266). -/
namespace Sys2Proof.Machine

/-! ### Lookups and the start of a walk (R255, R259) -/

section
variable {s : State} {va kind : Nat} (hwant : s.wanted s.ev.a s.ev.b = some (va, kind))
include hwant

theorem exec_l2TlbLookup_hit (hheld : (s.tile s.ev.a).held = false) {e : Tlb}
    (hfind : tlbFind (s.cluster (s.busOf s.ev.a)).l2 (s.tile s.ev.a).region (s.nowAt s.ev.a) va kind = some e) : exec .l2TlbLookup s =
    .next ((s.setCluster (s.busOf s.ev.a) { s.cluster (s.busOf s.ev.a) with
      l2 := e :: (s.cluster (s.busOf s.ev.a)).l2.filter (fun y => y != e) }).giveXlate s.ev.a s.ev.b e true) := by
  show execL2TlbLookup s = _
  unfold execL2TlbLookup
  dsimp only
  rw [hwant]
  dsimp only
  rw [if_neg (fun h => by rw [hheld] at h; exact absurd h.2.2 (by decide)), hfind]

theorem exec_l2TlbLookup_miss (hheld : (s.tile s.ev.a).held = false)
    (hfind : tlbFind (s.cluster (s.busOf s.ev.a)).l2 (s.tile s.ev.a).region (s.nowAt s.ev.a) va kind = none) : exec .l2TlbLookup s =
    .next ((s.setCluster (s.busOf s.ev.a) { s.cluster (s.busOf s.ev.a) with
      waiting := (s.cluster (s.busOf s.ev.a)).waiting ++ [(s.ev.a, s.ev.b)] }).later .walk { a := s.ev.a, b := s.ev.b }) := by
  show execL2TlbLookup s = _
  unfold execL2TlbLookup
  dsimp only
  rw [hwant]
  dsimp only
  rw [if_neg (fun h => by rw [hheld] at h; exact absurd h.2.2 (by decide)), hfind]

/-- The walker that takes a request starts from the roots of its region (R259). -/
def State.newWalker (s : State) (va kind : Nat) : Walker :=
  s.walkStart { busy := true, site := s.ev.a, who := s.ev.b, region := (s.tile s.ev.a).region, va := va, kind := kind,
                fresh := decide ((48 ≤ s.ev.b ∧ s.ev.b < 64) ∨ s.ev.b = 12 ∨ (64 ≤ s.ev.b ∧ s.ev.b % 64 = 13)) }

/-- The first request that waits takes the lowest free walker (R259). -/
theorem exec_walk_first (hhead : (s.cluster (s.busOf s.ev.a)).waiting.head? = some (s.ev.a, s.ev.b)) {n : Nat}
    (hfree : (List.range 8).find? (fun n => !(fget {} (s.cluster (s.busOf s.ev.a)).walkers n).busy) = some n) :
    exec .walk s = .next (((s.setCluster (s.busOf s.ev.a) (s.cluster (s.busOf s.ev.a))).setCluster (s.busOf s.ev.a) { s.cluster (s.busOf s.ev.a) with
      waiting := (s.cluster (s.busOf s.ev.a)).waiting.drop 1
      walkers := fset {} (s.cluster (s.busOf s.ev.a)).walkers n (s.newWalker va kind) }).later .walkerRead { a := s.busOf s.ev.a, b := n }) := by
  have hwaits : (s.cluster (s.busOf s.ev.a)).waiting.contains (s.ev.a, s.ev.b) = true := by
    rw [List.contains_iff_mem]
    exact List.mem_of_head? hhead
  show execWalk s = _
  unfold execWalk
  dsimp only
  rw [if_pos hwaits]
  have hwant' : (s.setCluster (s.busOf s.ev.a) (s.cluster (s.busOf s.ev.a))).wanted s.ev.a s.ev.b = some (va, kind) := hwant
  rw [hwant']
  dsimp only
  rw [if_neg (not_not.mpr hhead), hfree]
  rfl

end

/-! ### A walker's read (R255, R261, R262) -/

/-- How a walker goes on after the reading of an entry of stage 1, at the address ipa (R259, R261). -/
def State.afterStage1 (s : State) (k n : Nat) (w : Walker) (ipa : Nat) : Reading → Out
  | .wait => notYet s
  | .again w s => notYet (s.setCluster k { s.cluster k with walkers := fset {} (s.cluster k).walkers n w })
  | .stale => s.walkOn k n { w with phase := 0, l2 := 4, t2 := (s.region w.region).s2root, tdl := 2 ^ 64 }
  | .error => s.walkEnd k n w 5 1 w.l1 ipa none
  | .got e d w s => match entryOf 1 w.l1 e with
    | .invalid => s.walkEnd k n (w.use 1 w.l1 ipa d (teLs e = 0)) 1 1 w.l1 ipa none
    | .bad => s.walkEnd k n (w.use 1 w.l1 ipa d (teLs e = 0)) 3 1 w.l1 ipa none
    | .table a => s.walkOn k n { w.use 1 w.l1 ipa d (teLs e = 0) with
        phase := 0, l1 := w.l1 - 1, t1 := a, l2 := 4, t2 := (s.region w.region).s2root, tdl := 2 ^ 64 }
    | .leaf => s.walkOn k n { w.use 1 w.l1 ipa d (teLs e = 0) with
        phase := 2, leaf1 := e, leafLvl := w.l1, ipa := leafAddr e w.va, l2 := 4, t2 := (s.region w.region).s2root }

/-- A walker in phase 1 reads the entry of stage 1 that its address selects, and goes on as the reading says. -/
theorem exec_walkerRead_stage1 {s : State} {w : Walker} (hw : fget {} (s.cluster s.ev.a).walkers s.ev.b = w) (hbusy : w.busy = true) (hphase : w.phase = 1) :
    exec .walkerRead s = s.afterStage1 s.ev.a s.ev.b w (w.t1 + 8 * tableIndex w.va w.l1)
      (s.readEntry s.ev.a w 1 (w.t1 + 8 * tableIndex w.va w.l1) w.tpa w.tmir (keepEntry 1 w.l1 true)) := by
  show execWalkerRead s = _
  unfold execWalkerRead
  dsimp only
  rw [hw, if_neg (by rw [hbusy]; decide), if_neg (by rw [hphase]; decide), if_pos hphase]
  rfl

theorem quiet_walkNumber (s : State) (k r pa : Nat) : Quiet s (s.walkNumber k r pa) := by
  unfold State.walkNumber
  dsimp only
  split
  · exact (quiet_takeSeq _ _).trans (quiet_takeSeq _ _)
  · exact .refl s

theorem quiet_walkWords (s : State) (copies ks : List Nat) (k r pa : Nat) : Quiet s ((s.countWords copies ks).walkNumber k r pa) :=
  (quiet_countWords s copies ks).trans (quiet_walkNumber _ k r pa)

/-- A read that finds an entry leaves the walk where it stood, and memory below the islands' (R255, R262). -/
theorem readEntry_got {s r : State} {k stage addr pa e d : Nat} {w w1 : Walker} {mir : Bool} {keep : Nat → Bool}
    (h : s.readEntry k w stage addr pa mir keep = .got e d w1 r) :
    (w1.va = w.va ∧ w1.l1 = w.l1 ∧ w1.l2 = w.l2 ∧ w1.region = w.region) ∧ KeepsLow s r ∧ r.regions = s.regions := by
  unfold State.readEntry at h
  extract_lets now mine x at h
  generalize (if stage = 1 then w.tkid else 0) = kid at h
  split at h
  · cases h
    exact ⟨⟨rfl, rfl, rfl, rfl⟩, .refl s, rfl⟩
  · split at h
    · cases h
      exact ⟨⟨rfl, rfl, rfl, rfl⟩, keepsLow_setCluster _ _ _, rfl⟩
    · split at h
      · cases h
      · cases h
      · split at h
        · cases h
        · split at h
          · cases h
          · split at h
            · split at h <;> cases h
            · simp only [Reading.got.injEq] at h
              obtain ⟨-, -, rfl, rfl⟩ := h
              exact ⟨⟨rfl, rfl, rfl, rfl⟩, (quiet_walkWords _ _ _ _ _ _).keepsLow, (quiet_walkWords _ _ _ _ _ _).regions⟩

/-- What the walker cache may hold (R255). -/
theorem keepEntry_iff (stage lvl : Nat) (tbl : Bool) (e : Nat) :
    keepEntry stage lvl tbl e = true ↔ (∃ a, entryOf stage lvl e = .table a) ∨ (entryOf stage lvl e = .leaf ∧ stage = 2 ∧ tbl = true) := by
  unfold keepEntry
  cases entryOf stage lvl e <;> simp

/-! ### Replies to posted faults (R266, R317, R431) -/

theorem faultReply_shut {s : State} {g : Nat} (h : s.sealHitBack s.ev.a (.island (s.homeOf s.ev.a)) = some g) (k : State → Out) :
    faultReply s k = notYet (s.countCec g 1) := by
  unfold faultReply
  dsimp only
  rw [h]

theorem exec_reply_shut {s : State} {g : Nat} (h : s.sealHitBack s.ev.a (.island (s.homeOf s.ev.a)) = some g) :
    exec .retryReply s = notYet (s.countCec g 1) ∧ exec .failReply s = notYet (s.countCec g 1) := by
  show execRetryReply s = _ ∧ execFailReply s = _
  exact ⟨faultReply_shut h _, faultReply_shut h _⟩

theorem faultReply_opened {s : State} (h : s.sealHitBack s.ev.a (.island (s.homeOf s.ev.a)) = none) (k : State → Out) :
    faultReply s k = k (s.numberBack s.ev.a (.island (s.homeOf s.ev.a))) := by
  unfold faultReply
  dsimp only
  rw [h]

theorem quiet_numberBack (s : State) (t : Nat) (d : Dst) : Quiet s (s.numberBack t d) := by
  unfold State.numberBack
  split
  · exact quiet_takeSeq _ _
  · exact .refl s

theorem Quiet.tile {s t : State} (h : Quiet s t) (u : Nat) : t.tile u = s.tile u := by
  rw [State.tile, State.tile, h.tiles]

section
variable {s : State} {c : Nat} (hheld : (s.tile s.ev.a).held = false) (hwaiter : (s.tile s.ev.a).faultWaiter s.ev.b = some c)
  (hopen : s.sealHitBack s.ev.a (.island (s.homeOf s.ev.a)) = none)
include hheld hwaiter hopen

/-- RETRY lets the context that waits run again (R266). -/
theorem exec_retryReply_waiter : exec .retryReply s = .next ((s.numberBack s.ev.a (.island (s.homeOf s.ev.a))).updCtx s.ev.a c
    (fun y => { y with state := .live, xlate := .none, faulted := false })) := by
  have hq := quiet_numberBack s s.ev.a (.island (s.homeOf s.ev.a))
  show execRetryReply s = _
  refine (faultReply_opened hopen _).trans ?_
  dsimp only
  rw [hq.ev, hq.tile, if_neg (by rw [hheld]; decide), hwaiter]

/-- FAIL gives it its fault, a code below 0xC0 as 0xC0 (R266, R445). -/
theorem exec_failReply_waiter : exec .failReply s = .next ((s.numberBack s.ev.a (.island (s.homeOf s.ev.a))).updCtx s.ev.a c (fun y => { y with
    state := .live, xlate := .none, faulted := false
    dueFault := some (if fld s.ev.w 0 8 < 0xC0 then 0xC0 else BitVec.ofNat 8 (fld s.ev.w 0 8), y.faultAddr) })) := by
  have hq := quiet_numberBack s s.ev.a (.island (s.homeOf s.ev.a))
  show execFailReply s = _
  refine (faultReply_opened hopen _).trans ?_
  dsimp only
  rw [hq.ev, hq.tile, if_neg (by rw [hheld]; decide), hwaiter]

end

/-- Settles O23: each step is what its event answers in that case. -/
theorem translationEvents : Obligations.TranslationEvents := by
  refine ⟨?hit, ?miss, ?walk, ?read, ?got, keepEntry_iff, ?shut, ?waiter⟩
  case hit => exact fun s va kind e hwant hheld hfind => exec_l2TlbLookup_hit hwant hheld hfind
  case miss => exact fun s va kind hwant hheld hfind => exec_l2TlbLookup_miss hwant hheld hfind
  case walk =>
    intro s va kind n hwant k x hhead hfree
    refine ⟨_, exec_walk_first hwant hhead hfree, ?_, rfl, rfl, ?_⟩
    · exact congrArg Cluster.waiting (State.cluster_setCluster_same _ _ _)
    · have hwalker : fget {} ((((s.setCluster k x).setCluster k { x with
          waiting := x.waiting.drop 1, walkers := fset {} x.walkers n (s.newWalker va kind) }).later .walkerRead { a := k, b := n }).cluster k).walkers n =
          s.newWalker va kind :=
        (congrArg (fun x => fget {} (Cluster.walkers x) n) (State.cluster_setCluster_same _ _ _)).trans
          (fget_fset_same {} x.walkers n (s.newWalker va kind))
      dsimp only
      rw [hwalker]
      exact ⟨rfl, rfl, rfl, rfl, rfl, rfl, rfl, rfl, rfl, rfl, rfl⟩
  case read =>
    intro s k n w hbusy hphase ipa read
    have hexec : exec .walkerRead s = s.afterStage1 k n w ipa read := exec_walkerRead_stage1 rfl hbusy hphase
    refine ⟨fun r w1 h => ?_, fun h => ?_, fun h => ?_, fun h => ?_, fun e d w1 r h he => ?_, fun e d w1 r a h he => ?_, fun e d w1 r h he => ?_⟩
    all_goals rw [hexec, h]
    · rfl
    · rfl
    · rfl
    · rfl
    all_goals simp only [State.afterStage1, he]
  case got =>
    intro s k w stage addr pa mir keep e d w1 r h
    obtain ⟨⟨hva, hl1, hl2, hregion⟩, hlow, hregions⟩ := readEntry_got h
    exact ⟨hva, hl1, hl2, hregion, hlow.low, hregions⟩
  case shut => exact fun s g h => exec_reply_shut h
  case waiter =>
    exact fun s c hheld hwaiter hopen => ⟨exec_retryReply_waiter hheld hwaiter hopen, exec_failReply_waiter hheld hwaiter hopen⟩

end Sys2Proof.Machine
end

section
/-! SUPPORT. Reports, usage records, posted faults and the indexes of rings (R264, R408, R440 to R443). -/
namespace Sys2Proof.Machine

/-! ### Reports (R442) -/

/-- A report leaves the tile without counts, and memory as it was. -/
theorem State.reportTile_counts (s : State) (t : Nat) : ((s.reportTile t).tile t).counts = [] ∧ (s.reportTile t).mem = s.mem := by
  have hcounts : (((s.setTile t { s.tile t with counts := [], metered := s.tick }).tile t).counts) = [] :=
    congrArg Tile.counts (State.tile_setTile_same s t _)
  unfold State.reportTile
  dsimp only
  split
  · exact ⟨hcounts, rfl⟩
  · exact ⟨hcounts, rfl⟩

/-- The boundary that the last snapshot of a region stands at. -/
def Region.snapAt (x : Region) : Nat := match x.snaps.getLast? with | some e => e.1 | none => x.lastBoundary

/-- Before the next boundary no snapshot is taken. -/
theorem Region.snapTo_early {x : Region} {stamp : Nat} (h : stamp < x.snapAt + 10 ^ 9) : x.snapTo stamp = x := by
  have hnone : (stamp - x.snapAt) / 10 ^ 9 = 0 := Nat.div_eq_of_lt (by omega)
  show ({ x with snaps := x.snaps ++ (List.range ((stamp - x.snapAt) / 10 ^ 9)).map (fun i => (x.snapAt + (i + 1) * 10 ^ 9, x.meter)) } : Region) = x
  rw [hnone, List.range_zero, List.map_nil, List.append_nil]

theorem Region.count_meter (x : Region) (stamp : Nat) (add : FMap Nat → FMap Nat) : (x.count stamp add).meter = add x.meter := rfl

/-- A report reaches every snapshot whose boundary is later than its stamp. -/
theorem Region.count_snaps {x : Region} {stamp : Nat} (h : stamp < x.snapAt + 10 ^ 9) (add : FMap Nat → FMap Nat) :
    (x.count stamp add).snaps = x.snaps.map (fun e => if stamp < e.1 then (e.1, add e.2) else e) := by
  unfold Region.count
  rw [Region.snapTo_early h]

/-! ### Usage records (R442, R443) -/

/-- The last record of a region, at its last release tick. -/
theorem exec_usageRecord_final {s : State} (h : (s.region s.ev.a).finalDue = true) : exec .usageRecord s =
    .next ((s.setRegion s.ev.a { heldRecs := ((s.region s.ev.a).build s.ev.a 1 (s.region s.ev.a).finalAt (s.region s.ev.a).meter).heldRecs }).holdRecord
      s.ev.a).flushUsage := if_pos h

/-- The region after a boundary whose record is built: its number and digest, and the snapshots of later boundaries. -/
def Region.atBoundary (x : Region) (r now : Nat) : Region :=
  let b := x.lastBoundary + 10 ^ 9
  let y := x.snapTo now
  let m := match y.snaps.find? (fun e => e.1 == b) with | some e => e.2 | none => y.meter
  ({ y with lastBoundary := b, snaps := y.snaps.filter (fun e => decide (b < e.1)) } : Region).build r 0 b m

/-- A region's record is built 100,000 ticks after its boundary, while the SEC has room for it. -/
theorem exec_usageRecord_due {s : State} (h : (s.region s.ev.a).finalDue = false) (h0 : (s.region s.ev.a).state ≠ 0) (h5 : (s.region s.ev.a).state ≠ 5)
    (hdue : (s.region s.ev.a).lastBoundary + 10 ^ 9 + 100000 ≤ s.now (s.region s.ev.a).home) (hroom : (s.region s.ev.a).heldRecs.length < 4) :
    exec .usageRecord s = .next (((s.setRegion s.ev.a ((s.region s.ev.a).atBoundary s.ev.a (s.now (s.region s.ev.a).home))).holdRecord
      s.ev.a).flushUsage.later .usageRecord { a := s.ev.a }) := by
  have hfull : decide (4 ≤ ((s.region s.ev.a).snapTo (s.now (s.region s.ev.a).home)).heldRecs.length) = false := decide_eq_false (not_le.mpr hroom)
  show execUsageRecord s = _
  unfold execUsageRecord
  dsimp only
  rw [if_neg (by rw [h]; decide), if_neg (not_or.mpr ⟨h0, h5⟩), if_neg (not_lt.mpr hdue), hfull]
  rfl

/-- The oldest record held is written where the ring has room, and the next follow. -/
theorem State.flushUsage_room {s : State} {r : Nat} {rest : List Nat} {e : BitVec 28672} {l : List (BitVec 28672)} (h : s.heldOrder = r :: rest)
    (hroom : (s.ring usageRing).full = false) (hrecs : (s.region r).heldRecs = e :: l) :
    s.flushUsage = ({ s.updRegion r (fun x => { x with heldRecs := l }) with lastRecord := r }.ringWrite usageRing e.toNat).writeHeld rest := by
  unfold State.flushUsage
  rw [h, State.writeHeld, if_neg (by rw [hroom]; decide), hrecs]

/-- A full ring takes none. -/
theorem State.flushUsage_full {s : State} {r : Nat} {rest : List Nat} (h : s.heldOrder = r :: rest) (hfull : (s.ring usageRing).full = true) :
    s.flushUsage = s := by
  unfold State.flushUsage
  rw [h, State.writeHeld, if_pos hfull, ← h]

/-! ### Posted faults (R264, R317) -/

section
variable {s q : State} {p : Posted} (hfirst : s.posted.find? (fun p => s.postedRoom p && s.vc6Turn p.site p.seq) = some p)
include hfirst

/-- A posted fault whose seal fails on its way is sent again (R431). -/
theorem exec_postedFaultMessage_shut (h : s.vc6Enter p.site (s.region p.region).home = .error q) : exec .postedFaultMessage s = notYet q := by
  show execPostedFaultMessage s = _
  unfold execPostedFaultMessage
  rw [if_neg (by rw [List.isEmpty_iff]; intro hnil; rw [hnil] at hfirst; cases hfirst), hfirst]
  dsimp only
  rw [h]

/-- One of stage 1 joins its region's mailbox, any other the hypervisor's (R264). -/
theorem exec_postedFaultMessage_arrives (h : s.vc6Enter p.site (s.region p.region).home = .ok q) : exec .postedFaultMessage s =
    let r := { q with posted := q.posted.erase p }
    let isl := (s.region p.region).home
    if p.stage = 1 then .next ((r.ringWrite (faultRing p.region) p.entry.toNat).interruptRegion p.region 2)
    else .next ((r.setIsland isl { r.island isl with hypMailbox := (r.island isl).hypMailbox ++ [p.entry] }).interruptHyp isl) := by
  show execPostedFaultMessage s = _
  unfold execPostedFaultMessage
  rw [if_neg (by rw [List.isEmpty_iff]; intro hnil; rw [hnil] at hfirst; cases hfirst), hfirst]
  dsimp only
  rw [h]

end

/-! ### Indexes of readers (R408, R443) -/

/-- The ring's words after a write of its RIDX. -/
def State.ridxWritten (s : State) : State := s.memWrite (sysKey ((s.ring s.ev.a).base + (s.ring s.ev.a).n * (s.ring s.ev.a).size + 8)) 8 s.ev.b

section
variable {s : State} (hnamed : (s.ring s.ev.a).n ≠ 0)
include hnamed

theorem exec_ringRidxWrite_inRange (hlow : (s.ring s.ev.a).ridx ≤ s.ev.b) (hhigh : s.ev.b ≤ (s.ring s.ev.a).widx) (husage : s.ev.a ≠ usageRing) :
    exec .ringRidxWrite s = .next (s.ridxWritten.setRing s.ev.a { s.ring s.ev.a with ridx := s.ev.b, bad := false }) := by
  show execRingRidxWrite s = _
  unfold execRingRidxWrite
  dsimp only
  rw [if_neg hnamed, if_neg (not_or.mpr ⟨not_lt.mpr hhigh, not_lt.mpr hlow⟩), if_neg husage]
  rfl

theorem exec_ringRidxWrite_outOfRange (h : (s.ring s.ev.a).widx < s.ev.b ∨ s.ev.b < (s.ring s.ev.a).ridx) :
    exec .ringRidxWrite s = .next (s.ridxWritten.setRing s.ev.a { s.ring s.ev.a with bad := true }) := by
  show execRingRidxWrite s = _
  unfold execRingRidxWrite
  dsimp only
  rw [if_neg hnamed, if_pos h]
  rfl

end

/-- Settles O33: each event is what it answers in that case. -/
theorem recordEvents : Obligations.RecordEvents := by
  refine ⟨?report, ?count, ?due, ?final, ?room, ?full, ?posted, ?ridx⟩
  case report => exact fun s => ⟨rfl, s.reportTile_counts s.ev.a⟩
  case count =>
    refine fun x stamp add => ⟨x.count_meter stamp add, fun hnone h => ?_, fun b m hone h => ?_⟩
    · rw [Region.count_snaps (by rw [Region.snapAt, hnone]; exact h), hnone, List.map_nil]
    · rw [Region.count_snaps (by rw [Region.snapAt, hone]; exact h), hone, List.map_cons, List.map_nil]
      split <;> rfl
  case due => exact fun s h h0 h5 hdue hroom => exec_usageRecord_due h h0 h5 hdue hroom
  case final => exact fun s h => exec_usageRecord_final h
  case room => exact fun s r rest e l h hroom hrecs => State.flushUsage_room h hroom hrecs
  case full => exact fun s r rest h hfull => State.flushUsage_full h hfull
  case posted =>
    exact fun s p hfirst => ⟨fun q h => exec_postedFaultMessage_shut hfirst h, fun q h =>
      ⟨fun h1 => (exec_postedFaultMessage_arrives hfirst h).trans (if_pos h1), fun h1 => (exec_postedFaultMessage_arrives hfirst h).trans (if_neg h1)⟩⟩
  case ridx =>
    intro s x hnamed
    exact ⟨fun hlow hhigh husage => exec_ringRidxWrite_inRange hnamed hlow hhigh husage,
      fun h => exec_ringRidxWrite_outOfRange hnamed h⟩

end Sys2Proof.Machine
end

section
/-! SUPPORT. The arrival of messages, their refusal and their injection, dispatch, and the events on their way to rings (R288, R289, R292, R295, R300, R301,
R307, R407). -/
namespace Sys2Proof.Machine

/-! ### Acceptance (R120, R288, R289, R307) -/

/-- What a destination must refuse, or has no slots for, it turns away. -/
theorem State.turnsAway_of {s : State} {t u n : Nat} {e : Ret}
    (h : (s.tile u).halted = true ∨ (s.tile t).q.firstOf e = false ∨ 1024 < (s.tile u).q.used + n) : s.turnsAway t u n e = true := by
  unfold State.turnsAway State.mustRefuse
  obtain h | h | h := h
  · rw [h, Bool.true_or, Bool.true_or, Bool.true_or]
  · rw [h, Bool.not_false, Bool.or_true, Bool.true_or, Bool.true_or]
  · rw [decide_eq_true h, Bool.or_true, Bool.true_or]

/-- A tile that runs takes the first message of its source on its VC for which it has slots. -/
theorem State.turnsAway_running {s : State} {t u n : Nat} {e : Ret} (hhalt : (s.tile u).halted = false) (hfirst : (s.tile t).q.firstOf e = true)
    (hslots : (s.tile u).q.used + n ≤ 1024) (hheld : (s.tile u).held = false) : s.turnsAway t u n e = false := by
  unfold State.turnsAway State.mustRefuse
  rw [hhalt, hfirst, hheld, decide_eq_false (not_lt.mpr hslots)]
  rfl

/-! ### Arrivals at a tile (R288, R292, R295) -/

section
variable {s : State} {e : Ret} {u : Nat} {h : BitVec 128} {p : List Word} (hfly : s.flying s.ev.a s.ev.b = some e) (hbody : e.body = .msg h p)
  (hdst : e.dst = .tile u) (hseal : s.sealHit s.ev.a e.dst = none)
include hfly hbody hdst hseal

/-- A PUT stores its payload, and is counted (R288). -/
theorem exec_putMessage_taken (htake : s.turnsAway s.ev.a u 0 e = false) : exec .putMessage s =
    .next (((p.zipIdx.foldl (fun s x => s.spmStore u (8 * fld h 104 18 + 8 * x.2) 8 x.1.toNat) s).countIf u h e.stamp).accept s.ev.a e) := by
  refine (atHome_opened _ hfly hseal).trans ?_
  dsimp only
  rw [hbody, hdst]
  dsimp only
  rw [if_neg (by rw [htake]; decide)]

/-- An active message joins the dispatch queue (R295). -/
theorem exec_amMessage_taken (htake : s.turnsAway s.ev.a u e.flits e = false) : exec .amMessage s =
    .next (((s.updTile u (fun x => x.updQ (fun q => { q with
        used := q.used + e.flits
        dispatchQ := q.dispatchQ ++ [{ kind := 0, hidx := fld h 104 6, hdr := h, payload := p, slots := e.flits, stamp := e.stamp }] }))).later
      .dispatch { a := u }).accept s.ev.a e) := by
  refine (atHome_opened _ hfly hseal).trans ?_
  dsimp only
  rw [hbody, hdst]
  dsimp only
  rw [if_neg (by rw [htake]; decide)]

/-- A PORT message joins the input port bound to its TAG (R292). -/
theorem exec_portMessage_taken {k : Nat} (htake : s.turnsAway s.ev.a u e.flits e = false) (hport : (s.tile u).q.portFor 2 (fld h 104 8) = some k) :
    exec .portMessage s = .next ((((s.updTile u (fun x => x.updQ (fun q => { q with used := q.used + e.flits }))).updTile u (fun x =>
      x.updQ (fun q => q.joinPort k { kind := 2, hdr := h, payload := p, slots := e.flits, stamp := e.stamp }))).countIf u h e.stamp).accept s.ev.a e) := by
  refine (atHome_opened _ hfly hseal).trans ?_
  dsimp only
  rw [hbody, hdst]
  dsimp only
  rw [if_neg (by rw [htake]; decide), hport]

/-- What the tile turns away goes back (R288). -/
theorem exec_message_refused (hturn : s.turnsAway s.ev.a u e.flits e = true) :
    exec .amMessage s = .next (s.refuse s.ev.a e) ∧ exec .portMessage s = .next (s.refuse s.ev.a e) := by
  constructor
  all_goals
    refine (atHome_opened _ hfly hseal).trans ?_
    dsimp only
    rw [hbody, hdst]
    exact if_pos hturn

end

/-! ### Arrivals at an island (R301, R410, R479) -/

section
variable {s : State} {e : Ret} {h : BitVec 128} {p : List Word} {i : Nat} (hfly : s.flying s.ev.a s.ev.b = some e) (hbody : e.body = .msg h p)
  (hdst : e.dst = .island i) (hseal : s.sealHit s.ev.a e.dst = none)
include hfly hbody hdst hseal

/-- What the home island answers to a message that has crossed the mesh. -/
theorem exec_hostMessage_home : exec .hostMessage s =
    let r := (s.tile s.ev.a).region
    if s.islandDown (s.homeOf s.ev.a) || (r != 0 && (s.ring (hostRing r)).full) || !(s.tile s.ev.a).q.firstOf e || !s.vc6Turn s.ev.a e.id
    then .next (s.refuse s.ev.a e)
    else if r = 0 then .next ((s.bootMessage (s.homeOf s.ev.a) s.ev.a h p).accept s.ev.a e)
    else .next (((s.ringWrite (hostRing r) (h.toNat + p.zipIdx.foldl (fun acc x => acc + x.1.toNat * 2 ^ (128 + 64 * x.2)) 0)).interruptRegion r 1).accept
      s.ev.a e) := by
  refine (atHome_opened _ hfly hseal).trans ?_
  dsimp only
  rw [hbody, hdst]

/-- The host queue of a region takes no message while it is full. -/
theorem exec_hostMessage_full (hregion : (s.tile s.ev.a).region ≠ 0) (hfull : (s.ring (hostRing (s.tile s.ev.a).region)).full = true) :
    exec .hostMessage s = .next (s.refuse s.ev.a e) := by
  refine (exec_hostMessage_home hfly hbody hdst hseal).trans (if_pos ?_)
  rw [hfull, bne_iff_ne.mpr hregion, Bool.and_self, Bool.or_true, Bool.true_or, Bool.true_or]

variable (hup : s.islandDown (s.homeOf s.ev.a) = false) (hfirst : (s.tile s.ev.a).q.firstOf e = true) (hturn : s.vc6Turn s.ev.a e.id = true)
include hup hfirst hturn

/-- A tile of no region talks to its field's island. -/
theorem exec_hostMessage_boot (hregion : (s.tile s.ev.a).region = 0) :
    exec .hostMessage s = .next ((s.bootMessage (s.homeOf s.ev.a) s.ev.a h p).accept s.ev.a e) := by
  refine (exec_hostMessage_home hfly hbody hdst hseal).trans ((if_neg ?_).trans (if_pos hregion))
  rw [hup, hfirst, hturn, hregion, bne_self_eq_false, Bool.false_and]
  decide

/-- A message of a region joins its host queue. -/
theorem exec_hostMessage_queued (hregion : (s.tile s.ev.a).region ≠ 0) (hroom : (s.ring (hostRing (s.tile s.ev.a).region)).full = false) :
    exec .hostMessage s =
      .next (((s.ringWrite (hostRing (s.tile s.ev.a).region) (h.toNat + p.zipIdx.foldl (fun acc x => acc + x.1.toNat * 2 ^ (128 + 64 * x.2)) 0)).interruptRegion
        (s.tile s.ev.a).region 1).accept s.ev.a e) := by
  refine (exec_hostMessage_home hfly hbody hdst hseal).trans ((if_neg ?_).trans (if_neg hregion))
  rw [hup, hfirst, hturn, hroom, Bool.and_false]
  decide

end

/-! ### Refusals and injection (R288, R289, R300) -/

/-- A refusal that has come back: the first of its VC and destination is injected again, another is held behind it. -/
theorem exec_messageRefusal_back {s : State} {e : Ret} (hfly : s.flying s.ev.a s.ev.b = some e) (hseal : s.sealHitBack s.ev.a e.dst = none)
    (hcode : e.code = 0) : exec .messageRefusal s =
    if (s.tile s.ev.a).q.firstOf e
    then .next ((s.setEntry s.ev.a { e with backFails := 0, state := .refused, again := true }).later .refusedReinject { a := s.ev.a, b := e.id })
    else .next (s.setEntry s.ev.a { e with backFails := 0, state := .held }) := by
  show execMessageRefusal s = _
  unfold execMessageRefusal
  dsimp only
  rw [hfly]
  dsimp only
  rw [backHome_opened _ _ (.inl hseal)]
  dsimp only
  rw [if_neg (not_not.mpr hcode)]
  rfl

/-- It goes again in its turn. -/
theorem exec_refusedReinject_due {s : State} {e : Ret} (hentry : s.entry s.ev.a s.ev.b = some e) (hstate : e.state = .refused)
    (hqueued : e.body.isQueued = true) (hstop : (s.tile s.ev.a).stopping = false) : exec .refusedReinject s =
    if (s.tile s.ev.a).q.firstOf e then .next (s.launch s.ev.a e) else .next (s.setEntry s.ev.a { e with state := .held }) := by
  show execRefusedReinject s = _
  unfold execRefusedReinject
  dsimp only
  rw [hentry]
  dsimp only
  rw [if_neg (by rw [hstate, hqueued]; decide), if_neg (by rw [hstop]; decide)]

/-- The first fired send that may go goes, each of its messages that still waits once (R300). -/
theorem exec_triggeredSendInject_fired {s : State} {f : Nat × Nat} (hfire : (s.tile s.ev.a).q.fired.find? (s.tile s.ev.a).mayFire = some f) :
    exec .triggeredSendInject s = .next (((s.tile s.ev.a).firedOf f).foldl (fun q e => match q.entry s.ev.a e.id with
      | some y => if y.state = .held ∨ y.state = .formed then q.release s.ev.a y else q
      | none => q) (s.updTile s.ev.a (fun x => x.updQ (fun q => { q with fired := q.fired.erase f })))) := by
  show execTriggeredSendInject s = _
  unfold execTriggeredSendInject
  dsimp only
  rw [if_neg (by rw [List.isEmpty_iff]; intro hnil; rw [hnil] at hfire; cases hfire), hfire] <;> rfl

/-! ### Events (R317, R407, R430, R431) -/

theorem State.vc6Enter_spent {s : State} {t i : Nat} (h : s.sealSpent t (.island i) = true) : s.vc6Enter t i = .error s := if_pos h

section
variable {s : State} {t i : Nat} (hlive : s.sealSpent t (.island i) = false)
include hlive

theorem State.vc6Enter_shut {g : Nat} (h : s.sealHit t (.island i) = some g) : s.vc6Enter t i = .error (s.countCec g 1) := by
  unfold State.vc6Enter
  rw [if_neg (by rw [hlive]; decide), h]

theorem State.vc6Enter_opened (h : s.sealHit t (.island i) = none) : s.vc6Enter t i =
    .ok ((s.updTile t (fun x => { x with counts := fset 0 x.counts 9 (fget 0 x.counts 9 + 1) })).numberOut t (.island i)) := by
  unfold State.vc6Enter
  rw [if_neg (by rw [hlive]; decide), h]

end

/-- An event's message goes in its turn: a tile's own in the order its messages were formed. -/
def State.eventTurn (s : State) (e : EventMsg) : Bool := match e.src with
  | some t => s.vc6Turn t e.seq
  | none => true

/-- An event's message on its way: a tile's own is counted and sealed on VC6, an island's own crosses nothing. -/
def State.eventEnter (s : State) (e : EventMsg) : Except State State := match e.src with
  | some t => s.vc6Enter t (s.eventIsland e)
  | none => .ok s

/-- The event that goes is the first that may. -/
theorem exec_eventMessage_eq (s : State) : exec .eventMessage s = match s.events with
    | [] => .next s
    | _ => match s.events[s.events.findIdx (fun e => s.eventRoom e && s.eventTurn e)]? with
      | none => notYet s
      | some e => match s.eventEnter e with
        | .error q => notYet q
        | .ok q => .next ({ q with events := q.events.eraseIdx (s.events.findIdx (fun e => s.eventRoom e && s.eventTurn e)) }.eventWrite e) := rfl

/-- The first event, whose ring has room and whose turn it is, is written to its ring: a tile's own after its way on VC6 (R407). -/
theorem exec_eventMessage_first {s : State} {e : EventMsg} {rest : List EventMsg} (hevents : s.events = e :: rest) (hroom : s.eventRoom e = true)
    (hturn : s.eventTurn e = true) : exec .eventMessage s = match s.eventEnter e with
      | .error q => notYet q
      | .ok q => .next ({ q with events := q.events.eraseIdx 0 }.eventWrite e) := by
  have hindex : s.events.findIdx (fun e => s.eventRoom e && s.eventTurn e) = 0 := by
    rw [hevents, List.findIdx_cons, hroom, hturn]
    rfl
  rw [exec_eventMessage_eq, hindex, hevents]
  rfl

/-! ### Dispatch (R295, R296) -/

section
variable {s : State} {i : QItem} {rest : List QItem} {n : Nat} (hqueue : (s.tile s.ev.a).q.dispatchQ = i :: rest)
  (hseal : (s.tile s.ev.a).q.isSealed = false) (hstop : (s.tile s.ev.a).stopping = false) (hhalt : (s.tile s.ev.a).halted = false)
  (hexit : (s.tile s.ev.a).exited = false) (hfree : (s.tile s.ev.a).highFree = some n)
include hqueue hseal hstop hhalt hexit hfree

/-- What the head of the dispatch queue does where a helper is free. -/
theorem exec_dispatch_head : exec .dispatch s =
    let w := fget 0 (s.tile s.ev.a).q.handlers i.hidx
    let q := s.updTile s.ev.a (fun x => x.updQ (fun q => { q with dispatchQ := rest }))
    if i.kind = 2 ∨ !bit w 63 then .next (q.park s.ev.a i)
    else
      let r := if i.kind = 1 then ((s.tile s.ev.a).q.tsr, q) else q.receive s.ev.a i.stamp
      .next (r.2.updTile s.ev.a (fun x => (x.updQ (fun q => { q with used := q.used - i.slots })).setCtx n (x.helper i w r.1))) := by
  show execDispatch s = _
  unfold execDispatch
  dsimp only
  rw [hqueue]
  dsimp only
  rw [hseal, hstop, hhalt, hexit, hfree]
  rfl

end

/-- Settles O25: each event is what it answers in that case. -/
theorem messageEvents : Obligations.MessageEvents := by
  refine ⟨?turns, ?takes, ?tile, ?island, ?refusal, ?again, ?fired, ?event, ?enter, ?dispatch⟩
  case turns => exact fun s t u n e h => State.turnsAway_of h
  case takes => exact fun s t u n e hhalt hfirst hslots hheld => State.turnsAway_running hhalt hfirst hslots hheld
  case tile =>
    exact fun s e u h p hfly hbody hdst hseal => ⟨fun htake => exec_putMessage_taken hfly hbody hdst hseal htake,
      fun htake => exec_amMessage_taken hfly hbody hdst hseal htake, fun k htake hport => exec_portMessage_taken hfly hbody hdst hseal htake hport,
      fun hturn => exec_message_refused hfly hbody hdst hseal hturn⟩
  case island =>
    exact fun s e h p i hfly hbody hdst hseal hup hfirst hturn =>
      ⟨fun hregion => exec_hostMessage_boot hfly hbody hdst hseal hup hfirst hturn hregion,
        fun hregion hfull => exec_hostMessage_full hfly hbody hdst hseal hregion hfull,
        fun hregion hroom => exec_hostMessage_queued hfly hbody hdst hseal hup hfirst hturn hregion hroom⟩
  case refusal => exact fun s e hfly hseal hcode => exec_messageRefusal_back hfly hseal hcode
  case again => exact fun s e hentry hstate hqueued hstop => exec_refusedReinject_due hentry hstate hqueued hstop
  case fired => exact fun s f hfire => exec_triggeredSendInject_fired hfire
  case event =>
    intro s e rest hevents hroom hturn write
    have hexec := exec_eventMessage_first hevents hroom (s := s) (e := e) (by
      unfold State.eventTurn
      split
      · exact hturn _ ‹_›
      · rfl)
    have henters : ∀ t, e.src = some t → s.eventEnter e = s.vc6Enter t (s.eventIsland e) := fun t hsrc => by
      unfold State.eventEnter
      rw [hsrc]
    refine ⟨fun hsrc => ?_, fun t q hsrc henter => ?_, fun t q hsrc henter => ?_⟩
    · rw [hexec, State.eventEnter, hsrc]
      rfl
    · rw [hexec, henters t hsrc, henter]
      rfl
    · rw [hexec, henters t hsrc, henter]
  case enter =>
    exact fun s t i => ⟨fun g hlive h => State.vc6Enter_shut hlive h, fun h => State.vc6Enter_spent h, fun hlive h => State.vc6Enter_opened hlive h⟩
  case dispatch =>
    intro s i rest n hqueue hseal hstop hhalt hexit hfree w
    have hexec := exec_dispatch_head hqueue hseal hstop hhalt hexit hfree
    refine ⟨fun h => ?_, fun hkind hvalid => ?_, fun hkind hvalid => ?_⟩
    · refine hexec.trans (if_pos ?_)
      rwa [Bool.not_eq_true']
    · refine hexec.trans ((if_neg ?_).trans ?_)
      · rw [hkind, hvalid]; decide
      · rw [if_pos hkind]
    · refine hexec.trans ((if_neg ?_).trans ?_)
      · rw [hkind, hvalid]; decide
      · rw [if_neg (by rw [hkind]; decide)]

end Sys2Proof.Machine
end

section
/-! SUPPORT. What a write of ROLE, an attachment and a module's removal leave of the groups and of the bays (R320 to R322, R432, R456 to R458). -/
namespace Sys2Proof.Machine

/-- A part of the state that every step of a fold leaves stays. -/
theorem stays_foldl {β γ : Type} {p : State → γ} {f : State → β → State} (h : ∀ s b, p (f s b) = p s) (l : List β) (s : State) : p (l.foldl f s) = p s := by
  induction l generalizing s with
  | nil => rfl
  | cons b l ih => exact (ih _).trans (h s b)

/-! ### Lanes and training (R320, R321) -/

/-- The first lane that fails is replaced by the spare, at half width. -/
theorem Port.laneFail_spare {x : Port} (h : x.state = 3) (hspare : x.sp = false) (n : Nat) :
    x.laneFail n = { x with state := 4, sp := true, lane := n % 8, replayFails := 0 } := by
  unfold Port.laneFail
  rw [if_pos h, if_neg (by rw [hspare]; decide)]

/-- The second fails the port. -/
theorem Port.laneFail_again {x : Port} (h : x.state = 4 ∨ x.state = 3 ∧ x.sp = true) (n : Nat) : (x.laneFail n).state = 5 := by
  unfold Port.laneFail
  obtain h | ⟨h, hspare⟩ := h
  · rw [if_neg (by omega), if_pos h]
  · rw [if_pos h, if_pos hspare]

theorem exec_portTraining_training {s : State} (h : s.portState s.ev.a = 2) : exec .portTraining s =
    .next ((s.setPort s.ev.a (if s.ev.flag then { state := 3, extra := s.ev.b % 256, slots := (s.port s.ev.a).slots }
      else if 3 ≤ (s.port s.ev.a).trainFails + 1 then { s.port s.ev.a with state := 5, trainFails := 0 }
      else { s.port s.ev.a with trainFails := (s.port s.ev.a).trainFails + 1 })).attach (s.ev.a / 8)) :=
  if_neg (not_not.mpr h)

/-! ### What stays of the groups and of the bays -/

theorem State.group_of_groups {s t : State} (h : t.groups = s.groups) (g : Nat) : t.group g = s.group g := by rw [State.group, h, State.group]

@[simp] theorem State.retrain_groups (s : State) (g role : Nat) (partner : Bool) : (s.retrain g role partner).groups = s.groups := by
  unfold State.retrain
  refine stays_foldl (p := State.groups) (fun s p => ?_) _ s
  split <;> rfl

@[simp] theorem State.retrain_group (s : State) (g role : Nat) (partner : Bool) (n : Nat) : (s.retrain g role partner).group n = s.group n := by
  rw [State.group, State.retrain_groups]
  rfl

@[simp] theorem State.meterFrames_groups (s : State) (r : Nat) : (s.meterFrames r).groups = s.groups := by
  unfold State.meterFrames
  split <;> rfl

/-- An erased module loses its keys, and its group nothing else. -/
theorem State.eraseGroup_group (s : State) (g : Nat) : (s.eraseGroup g).group g = { s.group g with keys := [] } := by
  unfold State.eraseGroup
  extract_lets pa s1
  have hfold : s1.groups = s.groups := stays_foldl (p := State.groups) (fun s e => by
    rw [State.setTag_groups]
    exact State.meterFrames_groups _ _) _ s
  rw [State.group_setGroup_same]
  exact congrArg (fun x : Group => { x with keys := [] }) (State.group_of_groups hfold g)

/-- An attachment lets the group answer, and gives it keys; its role and its status stay. -/
theorem State.attach_group (s : State) (g : Nat) : ((s.attach g).group g).role = (s.group g).role ∧ ((s.attach g).group g).status = (s.group g).status := by
  unfold State.attach
  dsimp only
  split
  · rw [State.group_setGroup_same]
    exact ⟨rfl, rfl⟩
  · exact ⟨rfl, rfl⟩

/-! ### Roles (R322, R432) -/

section
variable {s : State} {g role : Nat} (partner : Bool) (hg : g < 72) (hrole : (s.group g).role ≠ role)
include hg hrole

/-- A write that is refused gives its status alone. -/
theorem State.writeRole_refused (h : s.roleStatus g role ≠ 0) :
    s.writeRole g role partner = s.setGroup g { s.group g with status := s.roleStatus g role } := by
  unfold State.writeRole
  dsimp only
  rw [if_neg (by omega), if_neg hrole, if_pos h]

/-- One that is taken gives the role, with status 0. -/
theorem State.writeRole_taken (h : s.roleStatus g role = 0) :
    ((s.writeRole g role partner).group g).role = role ∧ ((s.writeRole g role partner).group g).status = 0 := by
  unfold State.writeRole
  dsimp only
  rw [if_neg (by omega), if_neg hrole, if_neg (not_not.mpr h)]
  generalize hq : (s.setGroup g { s.group g with role := role, status := 0, answering := false }).retrain g role partner = q
  have hhas : (q.group g).role = role ∧ (q.group g).status = 0 := by
    rw [← hq, State.retrain_group, State.group_setGroup_same]
    exact ⟨rfl, rfl⟩
  have herase : ∀ t : State, t.groups = q.groups → ((t.eraseGroup g).group g).role = role ∧ ((t.eraseGroup g).group g).status = 0 := fun t ht => by
    rw [State.eraseGroup_group, State.group, ht]
    exact hhas
  have hattach : ∀ t : State, t.groups = q.groups → ((t.attach g).group g).role = role ∧ ((t.attach g).group g).status = 0 := fun t ht => by
    rw [(t.attach_group g).1, (t.attach_group g).2, State.group_of_groups ht]
    exact hhas
  split
  · split
    · exact herase q rfl
    · exact hattach q rfl
  · rename_i b _
    have hlatch : (if role ≠ 0 then q.setBay b { q.bay b with release := false, latch := false } else q).groups = q.groups := by
      split
      · rfl
      · rfl
    revert hlatch
    generalize (if role ≠ 0 then q.setBay b { q.bay b with release := false, latch := false } else q) = t
    intro hlatch
    split
    · exact herase t hlatch
    · exact hattach t hlatch

end

/-- A memory group whose ports have trained answers, and its module has every key. -/
theorem State.attach_attaches {s : State} {g : Nat} (hrole : (s.group g).role = 1) (hsilent : (s.group g).answering = false) (hmodule : s.moduleIn g = true)
    (htrained : (portsOf g).any (fun p => s.portState p == 2) = false) (hup : (portsOf g).any s.portUp = true) :
    ((s.attach g).group g).answering = true ∧ ((s.attach g).group g).keys = s.sec.keys.map (fun e => (e.1, e.2.2)) := by
  unfold State.attach
  dsimp only
  rw [if_pos ⟨hrole, by rw [hsilent]; rfl, hmodule, by rw [htrained]; rfl, hup⟩, State.group_setGroup_same]
  exact ⟨rfl, rfl⟩

/-! ### Bays (R457, R458) -/

theorem State.loseReplies_stays {γ : Type} (p : State → γ) (hentry : ∀ s t e, p (State.setEntry s t e) = p s) (hdraws : ∀ s n, p { s with draws := n } = p s)
    (s : State) (g : Nat) : p (s.loseReplies g) = p s := by
  unfold State.loseReplies
  refine stays_foldl (p := p) (fun s t => stays_foldl (p := p) (fun s e => ?_) _ s) _ s
  split
  · split
    · rfl
    · dsimp only
      split
      · exact hdraws _ _
      · exact (hentry _ _ _).trans (hdraws _ _)
  · rfl

/-- A module that goes leaves its bay; its group, under another role, is not touched. -/
theorem exec_moduleRemoved_other {s : State} (hseated : (s.bay s.ev.a).present = true) (hrole : (s.group (s.bay s.ev.a).group).role ≠ 1) :
    exec .moduleRemoved s = .next (s.setBay s.ev.a { s.bay s.ev.a with present := false }) := by
  show execModuleRemoved s = _
  unfold execModuleRemoved
  dsimp only
  rw [if_neg (by rw [hseated]; decide)]
  exact if_pos hrole

/-- One of a memory group takes its keys with it, and the group answers no more. -/
theorem exec_moduleRemoved_memory {s : State} (hseated : (s.bay s.ev.a).present = true) (hrole : (s.group (s.bay s.ev.a).group).role = 1) :
    ∃ t, exec .moduleRemoved s = .next t ∧ (t.bay s.ev.a).present = false ∧ (t.group (s.bay s.ev.a).group).answering = false ∧
      (t.group (s.bay s.ev.a).group).keys = [] := by
  refine ⟨_, (if_neg (by rw [hseated]; decide)).trans (if_neg (not_not.mpr hrole)), ?_, ?_⟩
  all_goals
    have hports : ∀ (s : State) (p : Nat), (if s.portState p = 0 then s else s.setPort p { s.port p with state := 5 }).bays = s.bays ∧
      (if s.portState p = 0 then s else s.setPort p { s.port p with state := 5 }).groups = s.groups := fun s p => by
      split
      · exact ⟨rfl, rfl⟩
      · exact ⟨rfl, rfl⟩
  · rw [State.bay, stays_foldl (p := State.bays) (fun s p => (hports s p).1), State.loseReplies_stays State.bays (fun _ _ _ => rfl) (fun _ _ => rfl)]
    exact congrArg Bay.present (State.bay_setBay_same s _ _)
  · rw [State.group, stays_foldl (p := State.groups) (fun s p => (hports s p).2), State.loseReplies_stays State.groups (fun _ _ _ => rfl) (fun _ _ => rfl)]
    have hgone := State.group_setGroup_same (s.setBay s.ev.a { s.bay s.ev.a with present := false }) (s.bay s.ev.a).group
      { s.group (s.bay s.ev.a).group with answering := false, keys := [] }
    exact ⟨congrArg Group.answering hgone, congrArg Group.keys hgone⟩

/-- The erasure of a module ends: SCRUB clears, and the latch follows RELEASE. -/
theorem exec_moduleScrubDone_scrubbed {s : State} (h : (s.bay s.ev.a).scrub = true) :
    exec .moduleScrubDone s = .next (s.setBay s.ev.a { s.bay s.ev.a with scrub := false, latch := (s.bay s.ev.a).release }) := by
  show execModuleScrubDone s = _
  unfold execModuleScrubDone
  dsimp only
  rw [if_neg (by rw [h]; decide)]

/-- Settles O26: each event is what it answers in that case. -/
theorem linkEvents : Obligations.LinkEvents := by
  refine ⟨fun s => rfl, ?lanes, ?replay, ?training, fun s => ⟨rfl, rfl, rfl⟩, ?role, fun s => rfl, fun s => exec_moduleRemoved_other,
    fun s => exec_moduleRemoved_memory, fun s => exec_moduleScrubDone_scrubbed, ?free, ?taken, ?attach⟩
  case lanes =>
    intro x n
    refine ⟨fun h hspare => ?_, fun h => Port.laneFail_again h n⟩
    rw [Port.laneFail_spare h hspare]
    exact ⟨rfl, rfl, rfl⟩
  case replay =>
    intro s h
    exact if_neg (by omega)
  case training =>
    intro s h
    dsimp only
    have hexec := exec_portTraining_training h
    refine ⟨fun hpassed => ?_, fun hfailed hfew => ?_, fun hfailed hmany => ?_⟩
    · rw [hexec, if_pos hpassed]
    · rw [hexec, if_neg (by rw [hfailed]; decide), if_neg (by omega)]
    · rw [hexec, if_neg (by rw [hfailed]; decide), if_pos (by omega)]
  case role =>
    exact fun s g role partner hg hrole => ⟨State.writeRole_refused partner hg hrole, State.writeRole_taken partner hg hrole⟩
  case free => exact fun s h => congrArg Host.Outcome.next (State.writeBay_noRole h _ _)
  case taken => exact fun s hgroup hrole => congrArg Host.Outcome.next (State.writeBay_role hgroup hrole _ _)
  case attach => exact fun s g _ hrole hsilent hmodule htrained hup => State.attach_attaches hrole hsilent hmodule htrained hup

end Sys2Proof.Machine
end

section
/-! SUPPORT. Power: what a loss of it leaves, boot and the bays, and the thermal reports (R417, R453 to R455). -/
namespace Sys2Proof.Machine

/-! ### Maps of which a part is kept -/

theorem fget_filter {α : Type} (d : α) (p : Nat → Bool) (m : FMap α) (k : Nat) :
    fget d (m.filter (fun e => p e.1)) k = if p k then fget d m k else d := by
  induction m with
  | nil => exact (ite_self d).symm
  | cons e m ih =>
    obtain ⟨j, v⟩ := e
    rw [List.filter_cons]
    by_cases hj : j = k
    · subst hj
      by_cases hp : p j = true
      · rw [if_pos hp, if_pos hp, fget_cons, fget_cons, if_pos rfl, if_pos rfl]
      · rw [if_neg hp, if_neg hp, ih, if_neg hp]
    · rw [fget_cons (d := d) j v m k, if_neg hj, ← ih]
      split
      · rw [fget_cons, if_neg hj]
      · rfl

/-- Edge memory is what a loss of power leaves of memory. -/
theorem State.unpowered_byte (s : State) (k : Nat) :
    Memory.byte s.unpowered.mem k = if edgeKey 0 ≤ k ∧ k < sysKey 0 then Memory.byte s.mem k else 0 := by
  refine (fget_filter 0#8 (fun k => decide (edgeKey 0 ≤ k ∧ k < sysKey 0)) s.mem k).trans ?_
  simp only [decide_eq_true_eq]
  rfl

/-! ### The bays through boot (R424, R455) -/

/-- The bays stay, and the module's power. -/
structure KeepsBays (s t : State) : Prop where
  bays : t.bays = s.bays
  powered : t.module.powered = s.module.powered

theorem KeepsBays.refl (s : State) : KeepsBays s s := ⟨rfl, rfl⟩

theorem KeepsBays.trans {s t u : State} (h : KeepsBays s t) (g : KeepsBays t u) : KeepsBays s u := ⟨g.bays.trans h.bays, g.powered.trans h.powered⟩

theorem keepsBays_foldl {β : Type} {f : State → β → State} (h : ∀ s b, KeepsBays s (f s b)) (l : List β) (s : State) : KeepsBays s (l.foldl f s) :=
  ⟨stays_foldl (p := State.bays) (fun s b => (h s b).bays) l s, stays_foldl (p := fun s => s.module.powered) (fun s b => (h s b).powered) l s⟩

theorem keepsBays_loadMonitor (s : State) (t : Nat) : KeepsBays s (s.loadMonitor t) := by
  unfold State.loadMonitor
  extract_lets a old m e
  have hfirst : KeepsBays s { s with mem := m, ecc := e } := ⟨rfl, rfl⟩
  refine hfirst.trans (keepsBays_foldl (fun s k => ?_) _ _)
  dsimp only
  split
  · exact .refl s
  · exact ⟨rfl, rfl⟩

theorem keepsBays_loadAll (s : State) : KeepsBays s s.loadAll := by
  unfold State.loadAll
  refine keepsBays_foldl (fun s t => ?_) _ s
  split
  · exact .refl s
  · exact keepsBays_loadMonitor s t

theorem keepsBays_bootRemap (s : State) : KeepsBays s s.bootRemap := by
  unfold State.bootRemap
  extract_lets l s1 s2
  have hunmapped : KeepsBays s s1 := ⟨rfl, rfl⟩
  have hmapped : KeepsBays s1 s2 := by
    refine keepsBays_foldl (fun s d => ?_) l s1
    exact ⟨rfl, rfl⟩
  refine (hunmapped.trans hmapped).trans (keepsBays_foldl (fun s e => ?_) _ s2)
  exact ⟨rfl, rfl⟩

theorem keepsBays_measureMap (s : State) : KeepsBays s s.measureMap := by
  unfold State.measureMap
  split
  · exact ⟨rfl, rfl⟩
  · exact ⟨rfl, rfl⟩

theorem keepsBays_bootImage {s t : State} {i reg : Nat} (h : s.bootImage i reg = some t) : KeepsBays s t := by
  unfold State.bootImage at h
  dsimp only at h
  generalize (if i = 2 then monitorValue else Config.firmware i) = v at h
  split at h
  · obtain rfl := Option.some.inj h
    exact ⟨rfl, rfl⟩
  · cases h

theorem keepsBays_bootIslands {s t : State} {l : List Nat} (h : s.bootIslands l = some t) : KeepsBays s t := by
  induction l generalizing s with
  | nil => exact Option.some.inj h ▸ .refl s
  | cons i l ih =>
    unfold State.bootIslands at h
    split at h
    · exact (keepsBays_bootImage ‹_›).trans (ih h)
    · cases h

theorem keepsBays_drawKeys (s : State) (n : Nat) : KeepsBays s (s.drawKeys n).2 := by
  induction n generalizing s with
  | zero => exact .refl s
  | succ n ih =>
    have hdrawn : KeepsBays s s.drawKey.2 := ⟨rfl, rfl⟩
    unfold State.drawKeys
    split
    · rename_i heq
      exact (congrArg Prod.snd heq : s.drawKey.2 = _) ▸ hdrawn
    · rename_i q heq
      have hq : KeepsBays s q := (show s.drawKey.2 = q from congrArg Prod.snd heq) ▸ hdrawn
      refine hq.trans (.trans ?_ (ih _))
      exact ⟨rfl, rfl⟩

theorem keepsBays_openRing0 (s : State) (base n : Nat) : KeepsBays s (s.openRing0 base n) := by
  have hdrawn := keepsBays_drawKeys s 4
  unfold State.openRing0
  split
  · rename_i heq
    rwa [heq] at hdrawn
  · rename_i key q heq
    rw [heq] at hdrawn
    have hkeyed : KeepsBays s ({ q with sec := { q.sec with booted := true } }.setIsland 0 { q.island 0 with ringKey := some (key.truncate 256) }) :=
      ⟨hdrawn.bays, hdrawn.powered⟩
    dsimp only
    split
    · exact hkeyed
    · exact hkeyed.trans ⟨rfl, rfl⟩

/-- Boot, as far as its checks let it go, touches no bay. -/
theorem keepsBays_boot (s : State) (base n : Nat) : KeepsBays s (s.boot base n) := by
  unfold State.boot
  split
  · exact .refl s
  · rename_i s1 h1
    have hremap := ((keepsBays_bootImage h1).trans (keepsBays_measureMap s1)).trans (keepsBays_bootRemap _)
    dsimp only
    split
    · exact hremap
    · rename_i s2 h2
      have hislands := hremap.trans (keepsBays_bootIslands h2)
      split
      · exact hislands
      · rename_i s3 h3
        have hmonitor := (hislands.trans (keepsBays_bootImage h3)).trans (keepsBays_loadAll s3)
        split
        · exact hislands.trans (keepsBays_bootImage h3)
        · rename_i s4 h4
          exact (hmonitor.trans (keepsBays_bootImage h4)).trans (keepsBays_openRing0 s4 base n)

theorem keepsBays_regulated (s : State) : KeepsBays s s.regulated := by
  unfold State.regulated
  split
  · exact .refl s
  · exact ⟨rfl, rfl⟩

theorem keepsBays_lockFields (s : State) : KeepsBays s s.lockFields := by
  unfold State.lockFields
  have hset := keepsBays_foldl (f := fun s f => s.setField f { state := 1, base := s.tick % 2 ^ 64, since := s.tick, goodSince := s.tick })
    (fun s f => ⟨rfl, rfl⟩) (List.range 36) s
  exact hset.trans (keepsBays_regulated _)

theorem keepsBays_retrain (s : State) (g role : Nat) (partner : Bool) : KeepsBays s (s.retrain g role partner) := by
  unfold State.retrain
  refine keepsBays_foldl (fun s p => ?_) _ s
  split
  · exact .refl s
  · exact ⟨rfl, rfl⟩

/-- The state from which power-on boots: what a loss of power leaves, with power, and with every bay's LED, RELEASE and LATCH zero (R455, R456). -/
def State.repowered (s : State) : State :=
  { s.unpowered.mapSites Site.cold with
    module := { s.unpowered.module with powered := true, therm := 0, hotSince := none }
    bays := s.unpowered.bays.map (fun e => (e.1, { e.2 with led := false, release := false, latch := false })) }

/-- The ports of every group that has a role train under it. -/
def State.retrainRoles (s : State) : State := (List.range 72).foldl (fun s g =>
  let x := s.group g
  if x.role = 0 then s else s.retrain g x.role (x.role == 2 || s.moduleIn g)) s

theorem keepsBays_retrainRoles (s : State) : KeepsBays s s.retrainRoles := by
  refine keepsBays_foldl (fun s g => ?_) _ s
  dsimp only
  split
  · exact .refl s
  · exact keepsBays_retrain _ _ _ _

theorem exec_powerOn_eq (s : State) : exec .powerOn s = .next ((s.repowered.boot s.ev.a s.ev.b).lockFields).retrainRoles := rfl

/-- Power-on touches no bay after that. -/
theorem keepsBays_powerOn (s : State) : KeepsBays s.repowered ((s.repowered.boot s.ev.a s.ev.b).lockFields).retrainRoles :=
  ((keepsBays_boot _ _ _).trans (keepsBays_lockFields _)).trans (keepsBays_retrainRoles _)

theorem State.repowered_bay (s : State) (b : Nat) : s.repowered.bay b = { s.bay b with led := false, release := false, latch := false } :=
  fget_map (d := ({} : Bay)) (f := fun x => { x with led := false, release := false, latch := false }) rfl s.bays b

/-! ### Thermal reports (R453, R454) -/

@[simp] theorem State.setTherm_therm (s : State) (v : Nat) : (s.setTherm v).module.therm = v := by
  unfold State.setTherm
  rw [stays_foldl (p := fun s => s.module.therm) (fun s i => by split <;> rfl)]

theorem Module.alertNow_iff (x : Module) : x.alertNow = true ↔ 45 < x.inlet ∨ x.flow < 81 ∨ x.feedA = false ∨ x.feedB = false := by
  simp [Module.alertNow, or_assoc]

theorem Module.hotNow_iff (x : Module) : x.hotNow = true ↔ 55 < x.outlet ∨ x.flow < 60 := by
  simp [Module.hotNow]

theorem Module.dead_iff (x : Module) : x.dead_ = true ↔ x.feedA = false ∧ x.feedB = false := by
  simp [Module.dead_]

/-- Since when a condition holds: it starts now where it did not hold. -/
def sinceOf (on : Bool) (old : Option Nat) (now : Nat) : Option Nat := if on then some (old.getD now) else none

/-- What is measured is noted with the times. -/
theorem State.measured_module (s : State) (w : Word) : (s.measured w).module =
    let x := { s.module with inlet := fld w 24 8, outlet := fld w 16 8, flow := fld w 8 8, feedA := bit w 4, feedB := bit w 5 }
    { x with clearSince := sinceOf (!x.alertNow) s.module.clearSince s.tick, hotSince := sinceOf x.hotNow s.module.hotSince s.tick } := by
  have hsince : ∀ (on : Bool) (old : Option Nat),
      (if !on then none else match old with | some t => some t | none => some s.tick) = sinceOf on old s.tick := fun on old => by
    cases on with
    | false => rfl
    | true => cases old with
      | none => rfl
      | some t => rfl
  dsimp only
  rw [← hsince, ← hsince]
  rfl

theorem sinceOf_eq_none {on : Bool} {old : Option Nat} {now : Nat} : sinceOf on old now = none ↔ on = false := by
  cases on with
  | false => exact iff_of_true rfl rfl
  | true => exact iff_of_false (Option.some_ne_none _) Bool.true_eq_false_eq_False

theorem sinceOf_eq_some {on : Bool} {old : Option Nat} {now c : Nat} (h : sinceOf on old now = some c) : c = old.getD now := by
  unfold sinceOf at h
  split at h
  · exact (Option.some.inj h).symm
  · cases h

theorem heldFor_some (t now n : Nat) : heldFor (some t) now n = true ↔ t + n ≤ now := decide_eq_true_iff

section
variable (s : State)

theorem exec_thermalAlert_eq : exec .thermalAlert s =
    .next (if s.report.module.therm = 0 ∧ s.report.module.alertNow then s.report.setTherm 1 else s.report) := rfl

theorem exec_thermalNormal_eq : exec .thermalNormal s =
    if s.report.module.therm ≠ 1 ∨ s.report.module.clearSince.isNone then .next s.report
    else if heldFor s.report.module.clearSince s.report.tick 60000000000 then .next (s.report.setTherm 0)
    else if s.ev.flag then notYet s.report
    else .next (s.report.later .thermalNormal { s.ev with flag := true }) := by
  have hev : s.report.ev = s.ev := by
    unfold State.report
    split
    · rfl
    · rfl
  rw [← hev]
  rfl

theorem exec_thermalShutdown_eq : exec .thermalShutdown s =
    if 2 ≤ s.report.module.therm then .next s.report
    else if s.report.module.dead_ || heldFor s.report.module.hotSince s.report.tick 5000000000 then
      .next ((s.report.setTherm 2).haltAll.later .powerRemoval { a := s.report.tick + 2000000000 })
    else if s.report.module.hotSince.isNone then .next s.report
    else if s.report.ev.flag then notYet s.report
    else .next (s.report.later .thermalShutdown { s.report.ev with flag := true }) := rfl

end

/-- Settles O20: power and thermal events are what they answer in that case; power-on keeps every bay dark through boot. -/
theorem powerEvents : Obligations.PowerEvents := by
  refine ⟨fun s h => if_neg (by omega), ?unpowered, fun s => rfl, ?powered, ?bays, fun s v => State.setTherm_therm s v, fun s h => if_pos h,
    ?report, ?alert, ?normal, ?shutdown⟩
  case unpowered => exact fun s => ⟨rfl, rfl, rfl, rfl, rfl, rfl, rfl, s.unpowered_byte⟩
  case powered =>
    intro s
    exact ⟨_, exec_powerOn_eq s, (keepsBays_powerOn s).powered⟩
  case bays =>
    intro s t h b
    have ht : _ = t := Host.Outcome.next.inj ((exec_powerOn_eq s).symm.trans h)
    have hbay : t.bay b = { s.bay b with led := false, release := false, latch := false } := by
      rw [← ht, State.bay, (keepsBays_powerOn s).bays]
      exact s.repowered_bay b
    rw [hbay]
    exact ⟨rfl, rfl, rfl⟩
  case report =>
    intro s h
    have hreport : s.report = s.measured s.ev.w := if_neg (by rw [h]; decide)
    rw [hreport]
    dsimp only
    rw [State.measured_module]
    refine ⟨rfl, rfl, rfl, rfl, rfl, rfl, rfl, rfl, ?_, ?_, fun c hc => sinceOf_eq_some hc, fun c hc => sinceOf_eq_some hc⟩
    · refine sinceOf_eq_none.trans ?_
      rw [Bool.not_eq_false']
      exact Module.alertNow_iff _
    · refine sinceOf_eq_none.trans ?_
      rw [← Bool.not_eq_true]
      exact not_congr (Module.hotNow_iff _)
  case alert =>
    intro s r
    refine ⟨fun htherm h => ?_, fun h => ?_⟩
    · rw [exec_thermalAlert_eq, if_pos ⟨htherm, (Module.alertNow_iff _).2 h⟩]
    · rw [exec_thermalAlert_eq, if_neg]
      rw [Module.alertNow_iff]
      rintro ⟨htherm, hnow⟩
      obtain h | ⟨hinlet, hflow, hA, hB⟩ := h
      · exact h htherm
      · rw [hA, hB] at hnow
        simp only [Bool.true_eq_false, or_false] at hnow
        exact hnow.elim (not_lt.2 hinlet) (not_lt.2 hflow)
  case normal =>
    intro s r
    have hwaits : ∀ c, r.module.therm = 1 → r.module.clearSince = some c → ¬(r.module.therm ≠ 1 ∨ r.module.clearSince.isNone = true) := fun c h1 hc => by
      rw [hc]
      exact not_or.2 ⟨not_not.2 h1, Bool.false_ne_true⟩
    have hpasses : ∀ c, r.module.clearSince = some c → r.tick < c + 60000000000 → ¬heldFor r.module.clearSince r.tick 60000000000 = true := fun c hc hlate => by
      rw [hc, heldFor_some]
      omega
    refine ⟨fun c h1 hc hdue => ?_, fun h => ?_, fun c h1 hc hlate hflag => ?_, fun c h1 hc hlate hflag => ?_⟩
    · rw [exec_thermalNormal_eq, if_neg (hwaits c h1 hc), if_pos (by rw [hc, heldFor_some]; exact hdue)]
    · rw [exec_thermalNormal_eq, if_pos (h.imp_right Option.isNone_iff_eq_none.2)]
    · rw [exec_thermalNormal_eq, if_neg (hwaits c h1 hc), if_neg (hpasses c hc hlate), if_neg (by rw [hflag]; decide)]
    · rw [exec_thermalNormal_eq, if_neg (hwaits c h1 hc), if_neg (hpasses c hc hlate), if_pos hflag]
  case shutdown =>
    intro s r
    refine ⟨fun htherm h => ?_, fun h => ?_⟩
    · rw [exec_thermalShutdown_eq, if_neg (not_le.2 htherm), if_pos]
      · rfl
      · rw [Bool.or_eq_true, Module.dead_iff]
        obtain h | ⟨c, hc, hdue⟩ := h
        · exact .inl h
        · exact .inr (by rw [hc, heldFor_some]; exact hdue)
    · rw [exec_thermalShutdown_eq]
      obtain h | ⟨hfeeds, hcool⟩ := h
      · exact if_pos h
      · split
        · rfl
        · rw [if_neg, if_pos (by rw [hcool]; rfl)]
          rw [Bool.or_eq_true, Module.dead_iff, hcool]
          rintro (⟨hA, hB⟩ | hheld)
          · rw [hA, hB] at hfeeds
            simp at hfeeds
          · cases hheld

end Sys2Proof.Machine
end

section
/-! SUPPORT. The instructions of transfers, streams, trains and kernels (R327 to R345, R360 to R377, R378, R393). -/
namespace Sys2Proof.Machine

open Claims (needAB needA needR needD need0 SameBytes CountersLow)

/-! ### A part of every tile that messages do not touch -/

section
variable {α : Type} {p : Tile → α} (hp : ∀ x q c l, p { x with q := q, counts := c, streams := l } = p x)
include hp

theorem keepsPart_updQ (s : State) (t : Nat) (f : Queues → Queues) : KeepsPart p s (s.updTile t (fun x => x.updQ f)) :=
  keepsPart_updTile s t (hp (s.tile t) _ (s.tile t).counts (s.tile t).streams)

theorem keepsPart_popAck (s : State) (t : Nat) (e : PElem) : KeepsPart p s (s.popAck t e) := by
  unfold State.popAck
  split
  · exact (keepsPart_updTile s t (hp (s.tile t) (s.tile t).q _ (s.tile t).streams)).trans (keepsPart_sendBack _ _ _ _ _)
  · exact .refl s

theorem keepsPart_launch (s : State) (t : Nat) (e : Ret) : KeepsPart p s (s.launch t e) := by
  unfold State.launch
  extract_lets e1 stamp body e2 n s1
  split
  · exact keepsPart_updQ hp s t _
  · have h1 : KeepsPart p s s1 := (keepsPart_updQ hp s t _).trans
      (keepsPart_updTile (s.setEntry t e2) t (hp ((s.setEntry t e2).tile t) ((s.setEntry t e2).tile t).q _ ((s.setEntry t e2).tile t).streams))
    have h2 : KeepsPart p s1 (s1.numberOut t e1.dst) := by
      unfold State.numberOut
      split
      · exact .of_tiles (quiet_takeSeq s1 t).tiles
      · exact .refl s1
    exact h1.trans (h2.trans (.of_tiles rfl))

theorem keepsPart_tell (s : State) (t u c : Nat) (b : Body) : KeepsPart p s (s.tell t u c b) := by
  have hkept : KeepsPart p s (s.fresh.2.keep t { id := s.fresh.1, ctx := c, body := b, dst := .tile u, state := .formed }) :=
    .trans (t := s.fresh.2) (.of_tiles rfl) (keepsPart_updQ hp s.fresh.2 t _)
  unfold State.tell
  dsimp only
  split
  · exact hkept.trans (.of_tiles rfl)
  · exact hkept.trans (keepsPart_launch hp _ _ _)

theorem keepsPart_dropStream (s : State) (t : Nat) (e : StreamEnd) : KeepsPart p s (s.dropStream t e) :=
  KeepsPart.trans (t := s.updTile t (fun x => x.dropStream e (s.streamSrc t e)))
    (keepsPart_updTile s t (hp (s.tile t) _ (s.tile t).counts (s.tile t).streams))
    (keepsPart_foldl (fun s v => keepsPart_popAck hp s t v) _ _)

/-- A stream of a tile closes, and its other end is told (R337, R393). -/
theorem keepsPart_tellAll (s : State) (t : Nat) (e : StreamEnd) (l : List Nat) : KeepsPart p s (l.foldl (fun s u => s.sendAbort t e 0 true u) s) :=
  keepsPart_foldl (fun s u => keepsPart_tell hp s t u _ _) l s

theorem keepsPart_closeStreams (s : State) (t : Nat) : KeepsPart p s (s.closeStreams t) := by
  unfold State.closeStreams
  extract_lets s1
  have hclosed : KeepsPart p s s1 := keepsPart_foldl (fun s n => by
    dsimp only
    split
    · split
      · exact (keepsPart_dropStream hp s t _).trans (keepsPart_tellAll hp _ t _ _)
      · exact keepsPart_tellAll hp s t _ _
    · split
      · exact keepsPart_dropStream hp s t _
      · exact .refl s) _ s
  exact hclosed.trans (keepsPart_updTile s1 t (hp (s1.tile t) _ (s1.tile t).counts []))

section
variable (hctx : ∀ x c y, p (Tile.setCtx x c y) = p x)
include hctx

/-- A pop touches queues and the context that pops (R58, R278). -/
theorem keepsPart_pop (s : State) (t c k : Nat) : KeepsPart p s (s.pop t c k) := by
  have hupd : ∀ s f, KeepsPart p s (State.updCtx s t c f) := fun s f => keepsPart_setTile s t (hctx _ _ _)
  unfold State.pop
  split
  · exact .refl s
  · extract_lets s1
    have h1 : KeepsPart p s s1 := keepsPart_updQ hp s t _
    split
    · exact ((h1.trans (keepsPart_updQ hp s1 t _)).trans (hupd _ _)).trans ((hupd _ _).trans (keepsPart_popAck hp _ t _))
    · exact h1

/-- So does taking the operands. -/
theorem Need.keepsPart_take (n : Need) (s : State) : KeepsPart p s (n.take s) := by
  refine (keepsPart_setTile s s.slot.site (hctx _ _ _)).trans (keepsPart_foldl (fun s q => ?_) n.srcs _)
  split
  · exact keepsPart_pop hp hctx _ _ _ _
  · exact .refl s

end
end

/-- Words down the lane change trains alone (R361). -/
theorem keepsPart_forwardWord {α : Type} {p : Tile → α} (htrain : ∀ x k, p { x with train := k } = p x) (s : State) (t : Nat) (a : Word)
    (w w2 : BitVec 32) : KeepsPart p s (s.forwardWord t a w w2) := by
  refine (keepsPart_updTile s t (htrain _ _)).trans (keepsPart_foldl (fun s d => ?_) _ _)
  split
  · exact .refl s
  · split
    · dsimp only
      split
      · have hlane := fun u => keepsPart_updTile s u (f := fun y => { y with train := { y.train with lane := y.train.lane ++ [(a, w, w2)] } }) (htrain _ _)
        split
        · exact (hlane _).trans (.of_tiles rfl)
        · exact (hlane _).trans (.of_tiles rfl)
      · exact .refl s
    · exact .refl s

/-! ### Transfers (R327 to R332) -/

theorem transfers : Claims.Transfers := by
  refine ⟨fun rd ra rb wa wb => ⟨?queued, fun c a => ?checked⟩, fun rd => ⟨fun s hready hnone => ?empty, fun e => ?claimed⟩⟩
  case queued =>
    refine completesIf_of_issue (execXcopy rd ra rb wa wb) (fun _ => rfl) (fun _ => rfl) fun v s ⟨hchecked, hroom, hfree, hheld⟩ => ?_
    dsimp only
    rw [hchecked]
    dsimp only
    rw [if_neg (by rw [hheld]; simp only [Bool.false_eq_true, or_false]; omega)]
    rfl
  case checked =>
    refine trapsIf_of_issue (execXcopy rd ra rb wa wb) (fun _ => rfl) (fun _ => rfl) fun v s hchecked => ?_
    dsimp only
    rw [hchecked]
  case empty =>
    refine ⟨_, rfl, (show exec (.xpop rd) s = execXpop rd s from rfl).trans (issue_ok hready ?_)⟩
    unfold needD at hnone
    dsimp only
    rw [hnone]
    rfl
  case claimed =>
    refine completesIf_of_issue (execXpop rd) (fun _ => rfl) (fun _ => rfl) fun v s ⟨holdest, hruns⟩ => ?_
    dsimp only
    rw [holdest]
    dsimp only
    rw [if_neg hruns]
    rfl

/-! ### Streams (R337, R344, R345) -/

/-- Counting correctable errors holds back no access. -/
theorem State.accessHeld_countCec (s : State) (t n : Nat) : (s.countCec t n).accessHeld = s.accessHeld := by
  have hquiet := quiet_countCec s t n
  rw [State.accessHeld, State.accessHeld, State.curTile, State.curTile, hquiet.slot, hquiet.tile]

theorem streams : Claims.Streams := by
  refine ⟨fun ra n wa => ⟨fun o => ?opens, ?misaligned⟩, fun rd n => ⟨?none, ?ended⟩⟩
  case opens =>
    refine completesIf_of_issue (execSopen ra n wa) (fun _ => rfl) (fun _ => rfl) fun v s h => ?_
    obtain ⟨haddr, hgood, hlimits, hslot, hother, hrole, hcol, hrow, htiles, hheld, hfree⟩ := h
    have hsame : (List.range 4).any (fun k => (s.curTile.stream k).state != 0 && (s.curTile.stream k).same
        { state := 1, spb := BitVec.ofNat 512 (s.spmRead s.slot.site o 64), digest := spbDigest (BitVec.ofNat 512 (s.spmRead s.slot.site o 64)),
          ctx := s.slot.ctx, mark := s.nextId }) = false := by
      rw [List.any_eq_false]
      intro k hk hsame
      rw [Bool.and_eq_true, bne_iff_ne] at hsame
      exact Bool.eq_false_iff.1 (hother k (List.mem_range.1 hk) hsame.1) hsame.2
    dsimp only
    rw [haddr]
    dsimp only
    rw [if_neg (by rw [hheld]; decide), if_neg (by rw [hgood]; decide), if_neg, if_neg, if_neg]
    rotate_left
    · rw [hrole]
      exact fun h => absurd h.1 (by decide)
    · rw [hrole, hcol, hrow, beq_self_eq_true, beq_self_eq_true]
      decide
    · rw [hlimits, hslot, hsame]
      decide
    split
    next i hfind =>
      have hnone := List.find?_some hfind
      obtain ⟨u, hu⟩ := htiles i (List.mem_range.1 (List.mem_of_find?_eq_some hfind))
      simp only [hu] at hnone
      cases hnone
    next => rw [if_pos hrole, State.accessHeld_countCec, if_neg (by rw [hheld]; exact fun h => h.elim hfree (by decide))]
  case misaligned =>
    refine trapsIf_of_issue (execSopen ra n wa) (fun _ => rfl) (fun _ => rfl) fun v s h => ?_
    dsimp only
    rw [State.checkAddr, if_pos h]
  case none =>
    refine completesIf_of_issue (execSclose rd n) (fun _ => rfl) (fun _ => rfl) fun v s h => ?_
    exact if_pos h
  case ended =>
    refine completesIf_of_issue (execSclose rd n) (fun _ => rfl) (fun _ => rfl) fun v s ⟨hended, hrole⟩ => ?_
    dsimp only
    rw [if_neg (show ¬(s.curTile.stream n.toNat).state = 0 by omega), if_neg (show ¬(s.curTile.stream n.toNat).role = 1 by omega), if_pos hended]
    rfl

/-! ### Trains (R360, R368, R371 to R377) -/

section
variable {n : Need} {i : Instr} {bad : Train → Bool} {body : List Word → State → Act} (e : State → Out) (he : ∀ s, exec i s = e s)
  (h : ∀ s, e s = trainGate n bad s body)
include he h

/-- In context 0, in a state that permits it, a train instruction is its operation. -/
theorem completesIf_of_trainGate {p : List Word → State → Prop} {f : List Word → State → State}
    (hb : ∀ v s, p v s → s.slot.ctx = 0 ∧ bad s.curTile.train = false ∧ body v s = .ok (f v s)) : Claims.CompletesIf n i p f :=
  completesIf_of_issue e he h fun v s hp => by
    obtain ⟨hctx, hgood, hbody⟩ := hb v s hp
    rw [if_neg (by rw [hctx, hgood]; decide), hbody]

/-- One that is ready, and whose operation succeeds, leaves what the operation leaves. -/
theorem exists_next_of_trainGate {s : State} {p : State → Prop} (hready : n.ready s = true) (hctx : (n.take s).slot.ctx = 0)
    (hgood : bad (n.take s).curTile.train = false) (hb : ∃ t, body (n.vals s) (n.take s) = .ok t ∧ p t) : ∃ t, exec i s = .next t ∧ p t := by
  obtain ⟨t, ht, hp⟩ := hb
  refine ⟨t, ((he s).trans (h s)).trans (issue_ok hready ?_), hp⟩
  rw [if_neg (by rw [hctx, hgood]; decide), ht]

theorem trapsIf_of_trainGate {p : List Word → State → Prop} (hb : ∀ v s, p v s → s.slot.ctx ≠ 0 ∨ bad s.curTile.train = true) :
    Claims.TrapsIf n i p 0x0E (fun _ _ => 0) :=
  trapsIf_of_issue e he h fun v s hp => if_pos (hb v s hp)

end

/-- A train's words: a state that is neither none nor detached permits them. -/
theorem attached_of {n : Nat} (h0 : n ≠ 0) (h4 : n ≠ 4) : (n == 0 || n == 4) = false := by
  rw [beq_false_of_ne h0, beq_false_of_ne h4]
  rfl

/-- The place of a tile in its region through the end of an instruction (R361). -/
theorem State.curTile_col_retire (s : State) : s.retire.curTile.col = s.curTile.col :=
  (keepsPart_retire (p := Tile.col) (fun _ _ => rfl) (fun _ _ _ => rfl) s).curTile (own_retire s).slot

/-- The leader forms a train and asks each other member (R371). -/
theorem tform_forms (rd ra : BitVec 6) (wa : BitVec 1) : Claims.CompletesIf (needR (.tform rd ra wa) rd ra wa) (.tform rd ra wa)
    (fun v s => s.slot.ctx = 0 ∧ s.curTile.train.state = 0 ∧ fld (v0 v) 16 48 = 0 ∧ 2 ≤ fld (v0 v) 0 8 ∧
        s.curTile.col + fld (v0 v) 0 8 ≤ (s.dims s.slot.site).1 ∧
        ∀ d < fld (v0 v) 0 8, ∃ u, s.placeFrom s.slot.site (s.curTile.col + d) s.curTile.row = .site u)
      (fun v s => (List.range (fld (v0 v) 0 8)).foldl (fun q d => if d = 0 then q else q.later .trainFormationRequest { a := s.slot.site, b := d })
        (s.retire.updCurTile (fun x => let y := x.setCtx 0 { x.ctx 0 with formed := true }
          { y with train := { x.train with state := 1, id := fld (v0 v) 8 8, c0 := s.curTile.col, n := fld (v0 v) 0 8, d := 0, rd := rd.toNat, joined := false, syncWait := 0, lane := [], frames := [], step := 0 } }))) := by
  refine completesIf_of_trainGate (execTform rd ra wa) (fun _ => rfl) (fun _ => rfl) fun v s h => ?_
  obtain ⟨hctx, hnone, hreserved, htwo, hinside, hplaces⟩ := h
  refine ⟨hctx, by rw [hnone]; rfl, ?_⟩
  dsimp only
  rw [if_neg (by omega)]
  split
  next d hfind =>
    have hno := List.find?_some hfind
    obtain ⟨u, hu⟩ := hplaces d (List.mem_range.1 (List.mem_of_find?_eq_some hfind))
    simp only [hu] at hno
    cases hno
  next =>
    rw [← State.curTile_col_retire s]
    rfl

/-- A follower has answered its leader: it waits to be attached (R371). -/
def State.joined (s : State) (rid c0 n : Nat) (rd : BitVec 6) : State :=
  s.retire.updCurTile (fun x => { x with
    train := { x.train with state := 1, id := rid, c0 := c0, n := n, d := x.col - c0, rd := rd.toNat, joined := true, request := none, lineDue := 0, raised := false, lane := [], frames := [], step := 0 } })

/-- The answer touches the tile's train alone. -/
theorem State.joined_spec (s : State) (rid c0 n : Nat) (rd : BitVec 6) : Own 0 s (s.joined rid c0 n rd) ∧
    (s.joined rid c0 n rd).curTile.train.state = 1 ∧ (s.joined rid c0 n rd).curTile.train.id = rid ∧
    (s.joined rid c0 n rd).curTile.train.joined = true ∧ (s.joined rid c0 n rd).curTile.train.d = s.curTile.col - c0 := by
  have hown := own_retire s
  rw [← State.curTile_col_retire s]
  unfold State.joined
  generalize s.retire = q at hown ⊢
  refine ⟨hown.trans (beside_updTile q q.slot.site rfl).own, ?_⟩
  rw [State.curTile_updCurTile]
  exact ⟨rfl, rfl, rfl, rfl⟩

/-- A follower joins the train that has asked it (R371). -/
theorem tjoin_joins (rd ra : BitVec 6) (wa : BitVec 1) {s : State} (hready : (needR (.tjoin rd ra wa) rd ra wa).ready s = true) (hctx : s.slot.ctx = 0)
    (hnone : s.curTile.train.state = 0) {rid c0 k : Nat} (hasked : ((needR (.tjoin rd ra wa) rd ra wa).take s).curTile.train.request = some (rid, c0, k))
    (hreserved : fld (v0 ((needR (.tjoin rd ra wa) rd ra wa).vals s)) 16 48 = 0) (hc0 : fld (v0 ((needR (.tjoin rd ra wa) rd ra wa).vals s)) 0 8 = c0)
    (hid : fld (v0 ((needR (.tjoin rd ra wa) rd ra wa).vals s)) 8 8 = rid) (hcol : c0 < s.curTile.col) :
    ∃ t, exec (.tjoin rd ra wa) s = .next t ∧ t.curTile.train.state = 1 ∧ t.curTile.train.id = rid ∧ t.curTile.train.joined = true ∧
      t.curTile.train.d = s.curTile.col - c0 ∧ SameBytes s t ∧ (CountersLow s 8 → t.mem = s.mem) := by
  obtain ⟨n, hn⟩ : ∃ n, needR (.tjoin rd ra wa) rd ra wa = n := ⟨_, rfl⟩
  have hfew : n.srcs.length + 0 + 0 ≤ 8 := by rw [← hn]; exact Nat.le_add_left 1 7
  rw [hn] at hready hasked hreserved hc0 hid
  have htake := (n.own_take s).1
  have hkept : (n.take s).curTile.col = s.curTile.col ∧ (n.take s).curTile.train = s.curTile.train :=
    ⟨(n.keepsPart_take (p := Tile.col) (fun _ _ _ _ => rfl) (fun _ _ _ => rfl) s).curTile htake.slot,
      (n.keepsPart_take (p := Tile.train) (fun _ _ _ _ => rfl) (fun _ _ _ => rfl) s).curTile htake.slot⟩
  obtain ⟨hjoin, hstate, hrid, hjoined, hd⟩ := (n.take s).joined_spec rid c0 k rd
  have hexec : ∃ t, exec (.tjoin rd ra wa) s = .next t ∧
      (t = (n.take s).joined rid c0 k rd ∨ ∃ l, t = ((n.take s).joined rid c0 k rd).later .trainFormed { a := l }) := by
    subst hn
    refine exists_next_of_trainGate (n := needR (.tjoin rd ra wa) rd ra wa) (execTjoin rd ra wa) (fun _ => rfl) (fun _ => rfl) hready (htake.slot ▸ hctx) (by rw [hkept.2, hnone]; rfl) ?_
    dsimp only
    rw [hasked]
    dsimp only
    rw [if_neg (by rw [hreserved, hc0, hid, hkept.1]; omega)]
    split
    · exact ⟨_, rfl, .inr ⟨_, rfl⟩⟩
    · exact ⟨_, rfl, .inl rfl⟩
  obtain ⟨t, hexec, ht⟩ := hexec
  generalize (n.take s).joined rid c0 k rd = j at hjoin hstate hrid hjoined hd ht
  have hlike : Own 0 j t ∧ t.curTile = j.curTile := by
    obtain rfl | ⟨l, rfl⟩ := ht
    · exact ⟨(Beside.refl _).own, rfl⟩
    · exact ⟨(beside_later _ _ _).own, rfl⟩
  have hown : Own 8 s t := ((htake.trans hjoin).trans hlike.1).mono hfew
  refine ⟨t, hexec, ?_, ?_, ?_, ?_, hown.bytes, fun hlow => congrArg Calm.mem (hown.calm 0 hlow).2⟩
  · rw [hlike.2, hstate]
  · rw [hlike.2, hrid]
  · rw [hlike.2, hjoined]
  · rw [hlike.2, hd, hkept.1]

theorem trains : Claims.Trains := by
  refine ⟨tform_forms, fun rd ra wa => ?join, fun ra k wa => ⟨?pass, ?leave⟩, fun n => ?mark, fun rd n => ?rejoin, fun rd => ?sync, ?gang, ?ends,
    fun rd => ?skew, ?forbidden, fun n => ?mark_forbidden⟩
  case join =>
    exact fun s hready hctx hnone rid c0 k hasked hreserved hc0 hid hcol => tjoin_joins rd ra wa hready hctx hnone hasked hreserved hc0 hid hcol
  case pass =>
    refine completesIf_of_trainGate (execTleave ra k wa) (fun _ => rfl) (fun _ => rfl) fun v s ⟨hctx, h0, h4, hstay⟩ =>
      ⟨hctx, attached_of h0 h4, if_neg ?_⟩
    rintro ⟨hlane, hzero⟩
    exact hstay.elim (fun h => by rw [h] at hlane; cases hlane) hzero
  case leave =>
    refine completesIf_of_trainGate (execTleave ra k wa) (fun _ => rfl) (fun _ => rfl) fun v s ⟨hctx, h0, h4, hlane, hgoes, hword⟩ =>
      ⟨hctx, attached_of h0 h4, ?_⟩
    dsimp only
    rw [if_pos ⟨hlane, hgoes⟩, if_neg (not_not.2 hword)]
  case mark => exact completesIf_of_trainGate (execTmark n) (fun _ => rfl) (fun _ => rfl) fun v s ⟨hctx, h0⟩ => ⟨hctx, beq_false_of_ne h0, rfl⟩
  case rejoin =>
    exact completesIf_of_trainGate (execTrejoin rd n) (fun _ => rfl) (fun _ => rfl) fun v s ⟨hctx, h4⟩ => ⟨hctx, by rw [h4]; rfl, rfl⟩
  case sync =>
    exact completesIf_of_trainGate (execTsync rd) (fun _ => rfl) (fun _ => rfl) fun v s ⟨hctx, h0, h4⟩ => ⟨hctx, attached_of h0 h4, rfl⟩
  case gang =>
    exact completesIf_of_trainGate execTgang (fun _ => rfl) (fun _ => rfl) fun v s ⟨hctx, h0, h4⟩ => ⟨hctx, attached_of h0 h4, rfl⟩
  case ends => exact completesIf_of_trainGate execTend (fun _ => rfl) (fun _ => rfl) fun v s ⟨hctx, h0⟩ => ⟨hctx, beq_false_of_ne h0, rfl⟩
  case skew => exact completesIf_of_trainGate (execRdskew rd) (fun _ => rfl) (fun _ => rfl) fun v s hctx => ⟨hctx, rfl, rfl⟩
  case forbidden =>
    intro i hi
    simp only [List.mem_cons, List.not_mem_nil, or_false] at hi
    obtain rfl | rfl := hi
    · exact trapsIf_of_trainGate execTgang (fun _ => rfl) (fun _ => rfl) fun v s h => h.imp_right fun h0 => by rw [h0]; rfl
    · exact trapsIf_of_trainGate execTend (fun _ => rfl) (fun _ => rfl) fun v s h => h.imp_right fun h0 => by rw [h0]; rfl
  case mark_forbidden => exact trapsIf_of_trainGate (execTmark n) (fun _ => rfl) (fun _ => rfl) fun v s h => h.imp_right fun h0 => by rw [h0]; rfl

/-- Settles O47: the branches of each instruction of transfers, streams and trains; a tjoin's tile keeps its place while its operands are taken. -/
theorem transferInstructions : Obligations.TransferInstructions := ⟨transfers, streams, trains⟩

end Sys2Proof.Machine
end

section
/-! SUPPORT. The instructions of kernels, and what the end of a kernel leaves of its tiles (R378, R380, R393 to R395). -/
namespace Sys2Proof.Machine

open Claims (needR needA)

/-! ### kq (R378, R380) -/

theorem kernelEnqueue : Claims.KernelEnqueue := by
  refine fun rd ra wa => ⟨fun o => ?queued, fun c => ?checked⟩
  case queued =>
    refine completesIf_of_issue (execKq rd ra wa) (fun _ => rfl) (fun _ => rfl) fun v s ⟨haddr, hheld, hgood, hfree⟩ => ?_
    have hslot := (quiet_countCec s s.slot.site (s.correctables s.slot.site o 64)).slot
    dsimp only
    rw [haddr]
    dsimp only
    rw [if_neg (by rw [hheld]; decide), if_neg (by rw [hgood]; decide), if_neg hfree]
    unfold State.sendLoad
    rw [show ∀ q : State, q.touch none = q from fun _ => rfl, hslot]
  case checked =>
    refine trapsIf_of_issue (execKq rd ra wa) (fun _ => rfl) (fun _ => rfl) fun v s h => ?_
    dsimp only
    rw [h]

/-! ### Contexts that have left the live state (R393, R395) -/

/-- No context of a tile is live. -/
def State.idle (s : State) (u : Nat) : Prop := ∀ c, (s.ctx u c).state ≠ .live

theorem State.idle_of_keeps {s t : State} (h : KeepsPart Tile.ctxs s t) {u : Nat} (hidle : s.idle u) : t.idle u := fun c => by
  rw [State.ctx, Tile.ctx, h u]
  exact hidle c

theorem Ctx.freed_state (x : Ctx) : x.freed.state ≠ .live := by
  unfold Ctx.freed
  split
  · rename_i h
    rw [h]
    exact nofun
  · exact nofun

/-- What runs on a tile that stops is freed. -/
theorem Tile.stopAll_ctx (x : Tile) (kill all : Bool) (c : Nat) : ((x.stopAll kill all).2.2.2.ctx c).state ≠ .live := by
  have hfold : ∀ (l : List Nat) (m : FMap Ctx), (∀ c, (fget Ctx.reset m c).state ≠ .live) →
      ∀ c, (fget Ctx.reset (l.foldl (fun m c => fset Ctx.reset m c (Ctx.freed ((x.discardCmds kill all).2.2.ctx c))) m) c).state ≠ .live := by
    intro l
    induction l with
    | nil => exact fun _ h => h
    | cons d l ih =>
      refine fun m h => ih _ fun c => ?_
      rw [fget_fset]
      split
      · exact Ctx.freed_state _
      · exact h c
  exact hfold (List.range 12) [] (fun _ => nofun) c

theorem State.idle_setTile {s : State} {t u : Nat} {x : Tile} (h : u = t → ∀ c, (x.ctx c).state ≠ .live) (hidle : u ≠ t → s.idle u) :
    (s.setTile t x).idle u := fun c => by
  rw [State.ctx, State.tile_setTile]
  split
  · exact h ‹_› c
  · exact hidle ‹_› c

/-- A tile that leaves its kernel is idle, and one that was stays so. -/
theorem State.idle_leaveKernel {s : State} {u : Nat} (r n t : Nat) (h : s.idle u) : (s.leaveKernel r n t).idle u := by
  have hclosed := State.idle_of_keeps (keepsPart_closeStreams (p := Tile.ctxs) (fun _ _ _ _ => rfl) s t) h
  unfold State.leaveKernel
  extract_lets s1 x
  have hstop := x.stopAll_ctx true true
  generalize x.stopAll true true = stopped at hstop ⊢
  obtain ⟨m, k, tr, y⟩ := stopped
  exact State.idle_of_keeps (.of_tiles (State.updRegion_tiles _ _ _)) (State.idle_setTile (fun _ => hstop) (fun _ => hclosed))

theorem keepsPart_islandStore {α : Type} (p : Tile → α) (s : State) (r : Nat) (l : List Nat × Bool) (n v : Nat) : KeepsPart p s (s.islandStore r l n v) := by
  unfold State.islandStore
  extract_lets s1
  have hlost : KeepsPart p s s1 := by
    simp only [s1]
    split
    · exact .of_tiles (quiet_mirrorLost s r _).tiles
    · exact .refl s
  refine hlost.trans (keepsPart_foldl (fun s pa => ?_) _ s1)
  refine KeepsPart.trans (t := s.memWrite (edgeKey pa) n v) (.of_tiles rfl) (keepsPart_foldl (fun s k => ?_) _ _)
  split
  · exact .refl s
  · exact .of_tiles rfl

theorem keepsPart_writeRecord {α : Type} (p : Tile → α) (s : State) (r n rrec tick status reason : Nat) :
    KeepsPart p s (s.writeRecord r n rrec tick status reason) := by
  unfold State.writeRecord
  split
  · exact .refl s
  · split
    · exact keepsPart_islandStore p s _ _ _ _
    · split
      · exact .refl s
      · exact .of_tiles rfl

theorem State.idle_leaveKernels {s : State} {u : Nat} (r n : Nat) (l : List Nat) (h : s.idle u) : (l.foldl (fun s t => s.leaveKernel r n t) s).idle u := by
  induction l generalizing s with
  | nil => exact h
  | cons t l ih =>
    rw [List.foldl_cons]
    exact ih (State.idle_leaveKernel r n t h)

/-- So it is when the whole kernel retires. -/
theorem State.idle_retireKernel {s : State} {u : Nat} (r n status reason : Nat) (h : s.idle u) : (s.retireKernel r n status reason).idle u := by
  unfold State.retireKernel
  extract_lets k sites s1 names s2 k1 k2 s3 bytes s4
  have h1 : s1.idle u := State.idle_leaveKernels r n sites h
  have h3 : s3.tiles = s1.tiles := (State.updRegion_tiles _ _ _).trans (State.updRegion_tiles _ _ _)
  have h4 : KeepsPart Tile.ctxs s3 s4 := keepsPart_writeRecord _ s3 _ _ _ _ _ _
  have h5 : (s4.event r 0x47 0 0 0 0 0 (BitVec.ofNat 64 (bytes % 2 ^ 64)) (BitVec.ofNat 64 k2.rrec)).tiles = s4.tiles := (quiet_event s4 _ _ _ _ _ _ _ _ _).tiles
  have hretired : s4.idle u := State.idle_of_keeps h4 (State.idle_of_keeps (.of_tiles h3) h1)
  exact State.idle_of_keeps (.of_tiles ((State.later_tiles _ _ _).trans h5)) hretired

theorem State.idle_endKernel {s : State} {u : Nat} (r n status : Nat) (h : s.idle u) : (s.endKernel r n status).idle u := by
  unfold State.endKernel
  split
  · exact State.idle_retireKernel r n status 0 h
  · exact State.idle_of_keeps (.of_tiles rfl) h

/-! ### kexit (R393) -/

/-- An instruction that is ready and whose operation succeeds leaves what the operation leaves. -/
theorem exists_next_of_issue {n : Need} {i : Instr} {body : List Word → State → Act} (e : State → Out) (he : ∀ s, exec i s = e s)
    (h : ∀ s, e s = issue n s body) {s : State} {p : State → Prop} (hready : n.ready s = true)
    (hb : ∃ t, body (n.vals s) (n.take s) = .ok t ∧ p t) : ∃ t, exec i s = .next t ∧ p t := by
  obtain ⟨t, ht, hp⟩ := hb
  exact ⟨t, ((he s).trans (h s)).trans (issue_ok hready ht), hp⟩

theorem keepsPart_dissolve {α : Type} {p : Tile → α} (htrain : ∀ x k, p { x with train := k } = p x) (s : State) : KeepsPart p s s.dissolve := by
  unfold State.dissolve
  dsimp only
  split
  · exact keepsPart_forwardWord htrain s _ _ _ _
  · exact .refl s

/-- The word that dissolves a train leaves the word that issues. -/
theorem State.slot_dissolve (s : State) : s.dissolve.slot = s.slot := by
  unfold State.dissolve
  dsimp only
  split
  · exact (keepsCtxs_forwardWord s _ _ _ _).slot
  · rfl

/-- What a kexit does before its tile stops leaves the tile in its kernel. -/
theorem State.kernel_exiting (n : Need) (s : State) (t : Nat) : (((n.take s).dissolve.retire.closeStreams t).tile s.slot.site).kernel = s.curTile.kernel := by
  have htake := n.keepsPart_take (p := Tile.kernel) (fun _ _ _ _ => rfl) (fun _ _ _ => rfl) s
  have hretire := keepsPart_retire (p := Tile.kernel) (fun _ _ => rfl) (fun _ _ _ => rfl) (n.take s).dissolve
  have hclose := keepsPart_closeStreams (p := Tile.kernel) (fun _ _ _ _ => rfl) (n.take s).dissolve.retire t
  exact ((htake.trans (keepsPart_dissolve (fun _ _ => rfl) _)).trans (hretire.trans hclose)) _

/-- What a kexit does once its tile x has stopped as y: the tile keeps its exit value, and its kernel counts the exit and the discards. -/
def State.exitTile (q : State) (u : Nat) (val : Word) (x y : Tile) (m k tr : Nat) : Act :=
  let s := q.setTile u { y with exited := true, exitValue := val, train := { wire := x.train.wire, vdrop := x.train.vdrop } }
  let r := x.region
  let n := x.kernel
  if r = 0 ∨ n = 0 then .ok s
  else
    let lower (z : Kernel) : Bool := !z.exitSeen || decide (x.row < z.exitRow ∨ (x.row = z.exitRow ∧ x.col < z.exitCol))
    let s := s.updRegion r (fun z =>
      let kk := (z.kernel n).addDiscards m k tr 0
      let kk := { kk with exits := kk.exits + 1 }
      z.setKernel n (if val ≠ 0 ∧ lower kk then { kk with exitSeen := true, exitCol := x.col, exitRow := x.row, exitVal := val } else kk))
    let kk := (s.region r).kernel n
    if (s.kernelSites r kk).all (fun p => (s.tile p.2).exited) then .ok (s.endKernel r n 0) else .ok s

theorem execKexit_eq (ra : BitVec 6) (wa : BitVec 1) (s : State) : execKexit ra wa s = issue (needA (.kexit ra wa) ra wa) s (fun v s =>
    if !s.curTile.exitReady then .wait id
    else
      let q := s.dissolve.retire.closeStreams s.slot.site
      let x := q.tile s.slot.site
      let (m, k, tr, y) := x.stopAll false false
      q.exitTile s.slot.site (v0 v) x y m k tr) := rfl

/-- A tile that exits is idle, and keeps its exit value where no kernel holds it. -/
theorem State.exitTile_ok (q : State) (u : Nat) (val : Word) (x : Tile) {y : Tile} (m k tr : Nat) (hstop : ∀ c, (y.ctx c).state ≠ .live) :
    ∃ t, q.exitTile u val x y m k tr = .ok t ∧ (x.kernel = 0 → (t.tile u).exited = true ∧ (t.tile u).exitValue = val) ∧ t.idle u := by
  unfold State.exitTile
  extract_lets s1 r n lower s2 kk
  have hexited : (s1.tile u).exited = true ∧ (s1.tile u).exitValue = val := by
    simp only [s1]
    rw [State.tile_setTile_same]
    exact ⟨rfl, rfl⟩
  have hidle : s1.idle u := State.idle_setTile (fun _ => hstop) (fun h => absurd rfl h)
  split
  · exact ⟨s1, rfl, fun _ => hexited, hidle⟩
  · rename_i hkernel
    have hcounted : s2.idle u := State.idle_of_keeps (.of_tiles (State.updRegion_tiles _ _ _)) hidle
    split
    · exact ⟨_, rfl, fun h => absurd (.inr h) hkernel, State.idle_endKernel _ _ _ hcounted⟩
    · exact ⟨_, rfl, fun h => absurd (.inr h) hkernel, hcounted⟩

theorem kernelExit : Claims.KernelExit := by
  intro ra wa s i n hready hexit
  refine exists_next_of_issue (execKexit ra wa) (fun _ => rfl) (execKexit_eq ra wa) hready ?_
  rw [if_neg (by rw [hexit]; decide), (n.own_take s).1.slot, ← State.kernel_exiting n s s.slot.site]
  exact State.exitTile_ok _ _ _ _ _ _ _ (Tile.stopAll_ctx _ _ _)

/-- Settles O48: the branches of kq and of kexit, whose tile's contexts are freed and stay so when its kernel retires with it. -/
theorem kernelInstructions : Obligations.KernelInstructions := ⟨kernelEnqueue, kernelExit⟩

end Sys2Proof.Machine
end

section
/-! SUPPORT. The words that the spec writes out; submission, placement, loading and start of kernels, and the ways in which they end (R64 to R69, R384 to R399). -/
namespace Sys2Proof.Machine

/-- Settles O3: each word by the row of the table that it meets. -/
theorem decodeWords : Obligations.DecodeWords := ⟨rfl, rfl, rfl, rfl, rfl, rfl, rfl, rfl, rfl, rfl, rfl⟩

/-! ### Submission (R385, R386, R392) -/

theorem exec_launchRegisterWrite_runs {s : State} (h : (s.region s.ev.a).state = 2 ∨ (s.region s.ev.a).state = 3) : exec .launchRegisterWrite s =
    .next (s.submit s.ev.a (BitVec.ofNat 512 (s.memRead (sysKey s.ev.b) 64)) 0 0).2 :=
  if_neg (by omega)

/-- A tile's request is submitted under its place in the region. -/
theorem exec_kqRequest_home {s : State} {e : Ret} {d : BitVec 512} (hfly : s.flying s.ev.a s.ev.b = some e) (hbody : e.body = .kq d)
    (hseal : s.sealHit s.ev.a e.dst = none) (hup : s.islandDown (s.homeOf s.ev.a) = false) (hturn : s.vc6Turn s.ev.a e.id = true)
    (hstands : (s.region (s.tile s.ev.a).region).stopped = false) :
    exec .kqRequest s = if (s.tile s.ev.a).region = 0 then .next (s.answered s.ev.a e { data := 2 ^ 33 })
      else let q := s.submit (s.tile s.ev.a).region d (1 + (s.tile s.ev.a).col + 256 * (s.tile s.ev.a).row) 0
        .next (q.2.answered s.ev.a e { data := q.1.1 * 2 ^ 32 + q.1.2 }) := by
  refine (atHome_opened _ hfly hseal).trans ?_
  dsimp only
  rw [hbody, Nat.add_assoc]
  dsimp only
  rw [if_neg (by rw [hup, hturn, hstands]; decide)]
  rfl

/-! ### Placement (R383, R387) -/

theorem exec_placement_placed {s t : State} {n : Nat} {l : List Nat} (hqueue : (s.region s.ev.a).queue = n :: l)
    (hruns : (s.region s.ev.a).state = 2 ∨ (s.region s.ev.a).state = 3) (hborder : bit (s.region s.ev.a).causes 5 = false)
    (hclosed : ((s.region s.ev.a).kernel n).closed = true) (hparent : s.parent_ s.ev.a = false) (hskew : s.skewed s.ev.a n = false)
    (hplaced : s.placeAll s.ev.a ((s.region s.ev.a).queue.filter (fun y => ((s.region s.ev.a).kernel y).group == ((s.region s.ev.a).kernel n).group)) = some t) :
    exec .placement s = .next ((t.later .loadingDone { a := s.ev.a, b := n }).later .placement { a := s.ev.a }) := by
  rw [hqueue] at hplaced
  show execPlacement s = _
  unfold execPlacement
  dsimp only
  rw [hqueue]
  dsimp only
  rw [if_neg (by omega), if_neg (by rw [hborder]; decide), if_neg (by rw [hclosed, hparent]; decide), if_neg (by rw [hskew]; decide), hplaced]

/-! ### Loading (R383, R388, R399) -/

/-- The kernels of a group that load. -/
def State.loading (s : State) (r g : Nat) : List Nat := ((s.region r).members g).filter (fun n => ((s.region r).kernel n).state == 2)

/-- A kernel is loaded, or it retires where its image cannot be. -/
def State.loadOrRetire (s : State) (r n : Nat) : State := if (s.loadKernel r n).2 then (s.loadKernel r n).1 else s.retireKernel r n 6 5

/-- A gang kernel whose deadline has passed retires. -/
def State.retireLate (s : State) (r now n : Nat) : State :=
  if ((s.region r).kernel n).deadline ≠ 0 ∧ ((s.region r).kernel n).deadline ≤ now then s.retireKernel r n 3 0 else s

/-- The group's kernels are loaded, then those that are late retire, and what is left is made ready. -/
theorem exec_loadingDone_spec {s t q : State} {r g : Nat} (hr : s.ev.a = r) (hg : ((s.region r).kernel s.ev.b).group = g)
    (hclear : ¬(s.loading r g).any (fun n => !(s.loadKernel r n).2 && (s.unskewed.loadKernel r n).2) = true)
    (ht : (s.loading r g).foldl (fun z n => z.loadOrRetire r n) s = t)
    (hq : (t.loading r g).foldl (fun z n => z.retireLate r (t.now (t.region r).home) n) t = q) :
    (q.loading r g = [] → exec .loadingDone s = .next q) ∧
      (∀ n, q.loading r g = [n] → ((q.region r).kernel n).timed = false →
        exec .loadingDone s = .next (q.makeReady r (t.now (t.region r).home + 4096) [n])) := by
  subst hr hg ht hq
  show (_ → execLoadingDone s = _) ∧ ∀ n, _ → _ → execLoadingDone s = _
  unfold execLoadingDone
  extract_lets r g loading s1 now s2 ns
  rw [if_neg (show ¬(loading s).any (fun n => !(s.loadKernel r n).2 && (s.unskewed.loadKernel r n).2) = true from hclear)]
  refine ⟨fun h => ?_, fun n h htimed => ?_⟩
  · rw [show ns = [] from h]
    rfl
  · rw [show ns = [n] from h]
    exact if_pos (by rw [show ((s2.region r).kernel n).timed = false from htimed]; rfl)

section
variable {s : State} {n g : Nat} (hgroup : ((s.region s.ev.a).kernel s.ev.b).group = g) (hone : s.loading s.ev.a g = [n])
include hgroup hone

section
variable {t : State} (hload : s.loadKernel s.ev.a n = (t, true)) (hstill : t.loading s.ev.a g = [n])
include hload hstill

/-- A kernel that is loaded, not late and not timed starts 4096 ticks later. -/
theorem exec_loadingDone_ready
    (hdue : ((t.region s.ev.a).kernel n).deadline = 0 ∨ t.now (t.region s.ev.a).home < ((t.region s.ev.a).kernel n).deadline)
    (htimed : ((t.region s.ev.a).kernel n).timed = false) :
    exec .loadingDone s = .next (t.makeReady s.ev.a (t.now (t.region s.ev.a).home + 4096) [n]) := by
  refine (exec_loadingDone_spec rfl hgroup (by simp [hone, hload]) (t := t) (q := t) ?_ ?_).2 n hstill htimed
  · rw [hone, List.foldl_cons, List.foldl_nil, State.loadOrRetire, hload, if_pos rfl]
  · rw [hstill, List.foldl_cons, List.foldl_nil, State.retireLate, if_neg (by omega)]

/-- One that is late never starts. -/
theorem exec_loadingDone_late (hgang : ((t.region s.ev.a).kernel n).deadline ≠ 0)
    (hlate : ((t.region s.ev.a).kernel n).deadline ≤ t.now (t.region s.ev.a).home) (hlast : (t.retireKernel s.ev.a n 3 0).loading s.ev.a g = []) :
    exec .loadingDone s = .next (t.retireKernel s.ev.a n 3 0) := by
  refine (exec_loadingDone_spec rfl hgroup (by simp [hone, hload]) (t := t) (q := t.retireKernel s.ev.a n 3 0) ?_ ?_).1 hlast
  · rw [hone, List.foldl_cons, List.foldl_nil, State.loadOrRetire, hload, if_pos rfl]
  · rw [hstill, List.foldl_cons, List.foldl_nil, State.retireLate, if_pos ⟨hgang, hlate⟩]

end

/-- One that cannot be read, and not for a skew-fault, is rejected. -/
theorem exec_loadingDone_rejected (hread : (s.loadKernel s.ev.a n).2 = false) (hskew : (s.unskewed.loadKernel s.ev.a n).2 = false)
    (hlast : (s.retireKernel s.ev.a n 6 5).loading s.ev.a g = []) : exec .loadingDone s = .next (s.retireKernel s.ev.a n 6 5) := by
  refine (exec_loadingDone_spec rfl hgroup (by simp [hone, hskew]) (t := s.retireKernel s.ev.a n 6 5) (q := s.retireKernel s.ev.a n 6 5) ?_ ?_).1 hlast
  · rw [hone, List.foldl_cons, List.foldl_nil, State.loadOrRetire, if_neg (by rw [hread]; decide)]
  · rw [hlast, List.foldl_nil]

end

/-! ### Timed start (R280, R389, R396) -/

section
variable {s : State}

/-- The tiles whose field has reached the start tick start; the others stay due. -/
theorem exec_timedStart_starts (hready : ((s.region s.ev.a).kernel s.ev.b).state = 3) (hruns : (s.region s.ev.a).state = 2)
    (hsome : (s.kernelSites s.ev.a ((s.region s.ev.a).kernel s.ev.b)).filter (fun p => s.reached p.2 ((s.region s.ev.a).kernel s.ev.b).tgo) ≠ []) :
    exec .timedStart s =
      let q := s.startTiles s.ev.a s.ev.b (fun t => s.reached t ((s.region s.ev.a).kernel s.ev.b).tgo)
      .next (if ((q.region s.ev.a).kernel s.ev.b).due.isEmpty then q else q.later .timedStart { a := s.ev.a, b := s.ev.b }) := by
  obtain ⟨p, hp⟩ := List.exists_mem_of_ne_nil _ hsome
  obtain ⟨hsite, hreached⟩ := List.mem_filter.1 hp
  show execTimedStart s = _
  unfold execTimedStart
  dsimp only
  rw [if_neg (by omega), if_neg (by omega), if_neg]
  rw [Bool.not_eq_true', Bool.not_eq_false, List.any_eq_true]
  exact ⟨p, hsite, by rw [hready, hreached]; rfl⟩

/-- Of a ready kernel every tile is still to start. -/
theorem State.startTiles_ready {r n : Nat} {go : Nat → Bool} (hready : ((s.region r).kernel n).state = 3)
    (hsome : (s.kernelSites r ((s.region r).kernel n)).filter (fun p => go p.2) ≠ []) :
    s.startTiles r n go =
      let k := (s.region r).kernel n
      let now := (s.kernelSites r k).filter (fun p => go p.2)
      now.foldl (fun t p => t.startTile p.2 n k.arg (fget (0, []) k.progs p.1) (k.restarted.contains p.1))
        (s.updRegion r (fun z => z.setKernel n { k with state := 4, due := ((s.kernelSites r k).filter (fun p => !go p.2)).map (·.1), restarted := k.restarted.filter (fun i => !now.any (fun p => p.1 == i)) })) := by
  have hall : (s.kernelSites r ((s.region r).kernel n)).filter (fun p => ((s.region r).kernel n).state == 3 || ((s.region r).kernel n).due.contains p.1) =
      s.kernelSites r ((s.region r).kernel n) := List.filter_eq_self.2 fun p _ => by rw [hready]; rfl
  unfold State.startTiles
  dsimp only
  rw [hall, if_neg (by rwa [List.isEmpty_iff])]

/-- What is due while the region is held, or the kernel saved, waits. -/
theorem exec_timedStart_held (h3 : 3 ≤ ((s.region s.ev.a).kernel s.ev.b).state) (h6 : ((s.region s.ev.a).kernel s.ev.b).state ≤ 6)
    (hdue : ((s.region s.ev.a).kernel s.ev.b).state = 3 ∨ ((s.region s.ev.a).kernel s.ev.b).due ≠ [])
    (hheld : (s.region s.ev.a).state ≠ 2 ∨ ((s.region s.ev.a).kernel s.ev.b).state = 6) : exec .timedStart s = notYet s := by
  show execTimedStart s = _
  unfold execTimedStart
  dsimp only
  rw [if_neg, if_pos hheld]
  rintro (h | h | ⟨hready, hempty⟩)
  · omega
  · omega
  · exact hdue.elim hready fun hne => hne (List.isEmpty_iff.1 hempty)

end

/-- The registers with which a kernel starts (R389). -/
theorem Ctx.started_regs (pc v2 v3 v4 : Word) : let c := (((Ctx.fresh 2 pc).putG false 2 v2).putG false 3 v3).putG false 4 v4
    c.state = .live ∧ c.pc = pc ∧ c.readG 2 = v2 ∧ c.readG 3 = v3 ∧ c.readG 4 = v4 := by
  have hmon : ∀ x : Ctx, x.mon = false → ∀ r v, (x.putG false r v).mon = false := fun x h r v => (Ctx.putG_mon x false r v).trans h
  have hsame : ∀ x : Ctx, x.mon = false → ∀ r v, r ≠ 0 → (x.putG false r v).readG r = v := fun x h r v hr => by
    have := Ctx.readG_putG_same x v hr
    rwa [h] at this
  intro c
  have h2 := hmon (Ctx.fresh 2 pc) rfl 2 v2
  have h3 := hmon _ h2 3 v3
  refine ⟨rfl, rfl, ?_, ?_, hsame _ h3 4 v4 (by decide)⟩
  · rw [Ctx.readG_putG_ne _ _ _ (by decide), Ctx.readG_putG_ne _ _ _ (by decide), hsame _ rfl 2 v2 (by decide)]
  · rw [Ctx.readG_putG_ne _ _ _ (by decide), hsame _ h2 3 v3 (by decide)]

/-- A tile that starts runs context 0 from its program's entry, with its objects reset and what its queues have accepted kept. -/
theorem State.startTile_spec (s : State) (t n : Nat) (arg : Word) (p : Nat × FMap Word) (again : Bool) (hhalt : (s.tile t).halted = false) :
    let x := s.startTile t n arg p again
    ((x.tile t).ctx 0).state = .live ∧ ((x.tile t).ctx 0).pc = (s.tile t).addrOf p.1 ∧ ((x.tile t).ctx 0).readG 2 = (s.tile t).addrOf 0x170000 ∧
      ((x.tile t).ctx 0).readG 3 = arg ∧ ((x.tile t).ctx 0).readG 4 = BitVec.ofNat 64 (n + (if again then 2 ^ 32 else 0)) ∧
      (x.tile t).q.handlers = p.2 ∧ (x.tile t).q.dispatchQ = (s.tile t).q.dispatchQ ∧ (x.tile t).q.inq = (s.tile t).q.inq ∧ (x.tile t).mx.mcfg = 0 := by
  dsimp only
  unfold State.startTile
  rw [State.tile_setTile_same]
  obtain ⟨hlive, hpc, h2, h3, h4⟩ := Ctx.started_regs ((s.tile t).addrOf p.1) ((s.tile t).addrOf 0x170000) arg (BitVec.ofNat 64 (n + (if again then 2 ^ 32 else 0)))
  rw [hhalt, if_neg (by decide), Tile.ctx, fget_fset_same]
  exact ⟨hlive, hpc, h2, h3, h4, rfl, rfl, rfl, rfl⟩

/-! ### Ends (R384, R399) -/

section
variable {s : State}

/-- The record that a port has refused is written later. -/
theorem exec_kernelKill_record (h : s.ev.c = 2) : exec .kernelKill s =
    .next (s.writeRecord s.ev.a s.ev.b ((s.region s.ev.a).kernel s.ev.b).rrec s.ev.w.toNat (s.ev.i.toNat % 256) (s.ev.i.toNat / 256)) :=
  if_pos h

/-- What a kill answers for. -/
def State.killStatus (s : State) : Nat := if s.ev.flag then 4 else if ((s.region s.ev.a).kernel s.ev.b).gangFault then 5 else 1

section
variable (h1 : s.ev.c ≠ 1) (h2 : s.ev.c ≠ 2) (hending : ((s.region s.ev.a).kernel s.ev.b).ending = none)
include h1 h2 hending

/-- A kernel that is held, or saved, retires at once. -/
theorem exec_kernelKill_held (h : ((s.region s.ev.a).kernel s.ev.b).state = 5 ∨ ((s.region s.ev.a).kernel s.ev.b).state = 6) :
    exec .kernelKill s = .next (s.retireKernel s.ev.a s.ev.b s.killStatus 0) := by
  show execKernelKill s = _
  unfold execKernelKill
  dsimp only
  rw [if_neg h2, if_neg h1, if_neg (by rw [hending]; decide), if_pos h]
  rfl

/-- A resident one stops on its tiles, and retires where nothing runs there any more. -/
theorem exec_kernelKill_resident (h : ((s.region s.ev.a).kernel s.ev.b).state = 4)
    (hsettled : ((s.kernelSites s.ev.a ((s.region s.ev.a).kernel s.ev.b)).foldl (fun z p => z.stopTile s.ev.a s.ev.b p.2) s).kernelSettled s.ev.a s.ev.b = true) :
    exec .kernelKill s =
      .next (((s.kernelSites s.ev.a ((s.region s.ev.a).kernel s.ev.b)).foldl (fun z p => z.stopTile s.ev.a s.ev.b p.2) s).retireKernel s.ev.a s.ev.b s.killStatus 0) := by
  show execKernelKill s = _
  unfold execKernelKill
  dsimp only
  rw [if_neg h2, if_neg h1, if_neg (by rw [hending]; decide), if_neg (by omega), if_pos h, State.endKernel, if_pos hsettled]
  rfl

end

/-- A gang's PREPARE is submitted as a timed gang request, and waits for its deadline. -/
theorem exec_gangPrepare_runs (h : (s.region s.ev.a).state = 2 ∨ (s.region s.ev.a).state = 3) : exec .gangPrepare s =
    let q := s.submit s.ev.a (BitVec.ofNat 512 (s.memRead (sysKey s.ev.b) 64) ||| BitVec.ofNat 512 (0xA * 2 ^ (8 * 0x21))) 0 s.ev.c
    .next (if q.1.1 = 0 then q.2.later .gangDeadline { a := s.ev.a, b := q.1.2 } else q.2) := by
  refine (if_neg (by omega)).trans ?_
  exact (apply_ite Host.Outcome.next _ _ _).symm

theorem exec_gangAck_ready (hready : ((s.region s.ev.a).kernel s.ev.b).state = 3) (hgang : ((s.region s.ev.a).kernel s.ev.b).gang = true)
    (hfirst : ((s.region s.ev.a).kernel s.ev.b).acked = false) : exec .gangAck s =
    .next { s.updRegion s.ev.a (fun x => x.setKernel s.ev.b { (s.region s.ev.a).kernel s.ev.b with acked := true }) with
      gangOut := s.gangOut ++ [(((s.region s.ev.a).kernel s.ev.b).gangId, 0)] } :=
  if_neg (by rw [hready, hgang, hfirst]; decide)

theorem exec_gangAbort_waiting (hgang : ((s.region s.ev.a).kernel s.ev.b).gang = true) (h1 : 1 ≤ ((s.region s.ev.a).kernel s.ev.b).state)
    (h : ((s.region s.ev.a).kernel s.ev.b).state < 3 ∨
      ((s.region s.ev.a).kernel s.ev.b).state = 3 ∧ s.now (s.region s.ev.a).home < ((s.region s.ev.a).kernel s.ev.b).tgo) :
    exec .gangAbort s = .next (s.retireKernel s.ev.a s.ev.b 3 0) :=
  (if_neg (by rw [hgang]; decide)).trans (if_pos ⟨h1, by omega, h.imp_right And.right⟩)

/-- After the start tick an abort is a gang fault. -/
theorem exec_gangAbort_started (hgang : ((s.region s.ev.a).kernel s.ev.b).gang = true) (h6 : ((s.region s.ev.a).kernel s.ev.b).state ≤ 6)
    (h : 3 < ((s.region s.ev.a).kernel s.ev.b).state ∨
      ((s.region s.ev.a).kernel s.ev.b).state = 3 ∧ ((s.region s.ev.a).kernel s.ev.b).tgo ≤ s.now (s.region s.ev.a).home) :
    exec .gangAbort s = .next (s.gangFault s.ev.a s.ev.b 63) :=
  (if_neg (by rw [hgang]; decide)).trans ((if_neg (by omega)).trans (if_pos (by omega)))

theorem exec_gangDeadline_passed (h1 : 1 ≤ ((s.region s.ev.a).kernel s.ev.b).state) (h3 : ((s.region s.ev.a).kernel s.ev.b).state < 3)
    (hlate : ((s.region s.ev.a).kernel s.ev.b).deadline ≤ s.now (s.region s.ev.a).home) :
    exec .gangDeadline s = .next (s.retireKernel s.ev.a s.ev.b 3 0) :=
  (if_neg (by omega)).trans (if_neg (by omega))

end

/-- A bwait on a barrier of the gang that is not ready in time is a gang fault. -/
theorem exec_gangTimeout_late {s r : State} {w : BitVec 32} {since b : Nat} (hregion : (s.tile s.ev.a).region ≠ 0) (hkernel : (s.tile s.ev.a).kernel ≠ 0)
    (hgang : ((s.region (s.tile s.ev.a).region).kernel (s.tile s.ev.a).kernel).gang = true) (hlive : ((s.tile s.ev.a).ctx s.ev.b).state = .live)
    (hword : s.fetch s.ev.a s.ev.b ((s.tile s.ev.a).ctx s.ev.b).pc = .word w r) (hwaits : ((s.tile s.ev.a).ctx s.ev.b).waitAt = some since)
    (hbar : bwaitOf w = some b) (hmember : ((s.region (s.tile s.ev.a).region).kernel (s.tile s.ev.a).kernel).gbar.testBit b = true)
    (hclosed : ((s.tile s.ev.a).bar b).state ≠ 2)
    (hlate : since + ((s.region (s.tile s.ev.a).region).kernel (s.tile s.ev.a).kernel).gto ≤ s.nowAt s.ev.a) :
    exec .gangTimeout s = .next (s.gangFault (s.tile s.ev.a).region (s.tile s.ev.a).kernel b) := by
  show execGangTimeout s = _
  unfold execGangTimeout
  dsimp only
  rw [if_neg, hword, hwaits]
  · dsimp only
    rw [hbar]
    dsimp only
    rw [if_neg, if_neg (by omega)]
    rw [hmember]
    exact fun h => h.elim (by decide) hclosed
  · rw [hgang]
    rintro (h | h | h | h)
    · exact hregion h
    · exact hkernel h
    · cases h
    · exact h hlive

/-- Settles O30: each event of a kernel is what it answers in that case. -/
theorem kernelEvents : Obligations.KernelEvents := by
  refine ⟨fun s h => exec_launchRegisterWrite_runs h, fun s e d hfly hbody hseal hup hturn hstands => exec_kqRequest_home hfly hbody hseal hup hturn hstands,
    ?placed, ?loaded, ?rejected, ?starts, ?held, fun s t n arg p again hhalt => s.startTile_spec t n arg p again hhalt, ?kill,
    fun s h => exec_gangPrepare_runs h, ?ack, ?abort, ?deadline, ?timeout⟩
  case placed =>
    intro s n l t x hqueue hruns hborder hclosed hparent hskew hplaced
    exact exec_placement_placed hqueue hruns hborder hclosed hparent hskew hplaced
  case loaded =>
    intro s n g hone hload t hstill k now
    have ht : s.loadKernel s.ev.a n = (t, true) := Prod.ext rfl hload
    refine ⟨fun hdue htimed => exec_loadingDone_ready rfl hone ht hstill hdue htimed, ?_⟩
    intro hgang hlate q hlast
    exact exec_loadingDone_late rfl hone ht hstill hgang hlate hlast
  case rejected =>
    intro s n g hone hread hskew t hlast
    exact exec_loadingDone_rejected rfl hone hread hskew hlast
  case starts =>
    intro s x k all go due hready hruns hsome
    rw [exec_timedStart_starts hready hruns hsome, State.startTiles_ready hready hsome]
  case held =>
    intro s x k h3 h6 hdue hheld
    exact exec_timedStart_held h3 h6 hdue hheld
  case kill =>
    intro s k status
    refine ⟨exec_kernelKill_record, fun h1 h2 hending => ⟨fun h => exec_kernelKill_held h1 h2 hending h, ?_⟩⟩
    intro h t hsettled
    exact exec_kernelKill_resident h1 h2 hending h hsettled
  case ack =>
    intro s k hready hgang hfirst
    exact exec_gangAck_ready hready hgang hfirst
  case abort =>
    intro s k hgang
    exact ⟨fun h1 h => exec_gangAbort_waiting hgang h1 h, fun h6 h => exec_gangAbort_started hgang h6 h⟩
  case deadline =>
    intro s k h1 h3 hlate
    exact exec_gangDeadline_passed h1 h3 hlate
  case timeout =>
    intro s w r since b x y k hregion hkernel hgang hlive hword hwaits hbar hmember hclosed hlate
    exact exec_gangTimeout_late hregion hkernel hgang hlive hword hwaits hbar hmember hclosed hlate

end Sys2Proof.Machine
end

section
/-! SUPPORT. The commands of regions: what each answers when its checks pass and when one refuses it (R403, R404, R411, R415 to R421, R434). -/
namespace Sys2Proof.Machine

open Claims (Served accepted Answers)

/-! ### Serving -/

/-- A command served by `serve` that is next is answered as its run answers it (R434, R437). -/
theorem answers_of_serve {i : Instr} {code : Nat} {run : Cmd → State → Ran} {p : Nat → Cmd → State → Prop} {st : Status} {f : Nat → Cmd → State → State}
    (hexec : ∀ s, exec i s = s.serve s.ev.a code run) (hrun : ∀ e t, p t.ev.a e t → run e t = .done st 0 (f t.ev.a e t)) : Answers i code p st f := by
  rintro s e ⟨hpending, hfree, hturn, hcut, hcode, hdecide, hform⟩ hp
  rw [hexec]
  exact State.serve_done hpending hfree hturn hcut hcode hdecide hform (hrun e (accepted s s.ev.a e) hp)

/-- A command that a takeover has cut off has its effect and is answered so, with the flag (R421). -/
theorem State.serve_cut {s : State} {k c : Nat} {e : Cmd} {run : Cmd → State → Ran} {s' : State} (hpending : s.pending k = some e)
    (hfree : (s.cmdRing k).waiting = false) (hturn : s.ringsTurn k = true) (hcut : (s.cmdRing k).cut = true) (hcode : e.code = c)
    (hdecide : (s.cmdRing k).decide_ e = .ok) (hform : e.formOk k = true) (hrun : run e (accepted s k e) = .done .ok 0 s') :
    s.serve k c run = .next (s'.respond k e .interrupted 1) := by
  unfold State.serve
  unfold accepted at hrun
  rw [hpending]
  dsimp only
  rw [if_neg (by simp [hfree, hcode]), if_neg (by simp [hturn]), hdecide]
  dsimp only
  rw [if_neg (by simp [hform]), hrun]
  dsimp only
  rw [if_pos hcut]
  rfl

/-- A served command that goes on waits for its answer. -/
theorem State.serve_goesOn {s : State} {k c : Nat} {e : Cmd} {run : Cmd → State → Ran} {s' : State} (hs : Served s k c e) (hrun : run e (accepted s k e) = .later s') :
    s.serve k c run = .next (s'.setCmdRing k { s'.cmdRing k with waiting := true }) := by
  obtain ⟨hpending, hfree, hturn, -, hcode, hdecide, hform⟩ := hs
  exact State.serve_later hpending hfree hturn hcode hdecide hform hrun

/-! ### Hack and resume (R404) -/

/-- The run of a HACK: the host cause is added to a region that is running or hacked. -/
theorem hack_passes {t : State} {e : Cmd} (hform : e.p 2 6 = 0) (hname : t.mayName t.ev.a (t.region (e.p 0 2)).level (t.region (e.p 0 2)).parent = true)
    (hstate : (t.region (e.p 0 2)).state = 2 ∨ (t.region (e.p 0 2)).state = 3) :
    (if e.p 2 6 ≠ 0 ∨ !t.mayName t.ev.a (t.region (e.p 0 2)).level (t.region (e.p 0 2)).parent then Ran.done .format 0 t
      else if (t.region (e.p 0 2)).state ≠ 2 ∧ (t.region (e.p 0 2)).state ≠ 3 then .done .state 0 t
      else .done .ok 0 (t.addCause1 (e.p 0 2) 0 0)) = .done .ok 0 (t.addCause1 (e.p 0 2) 0 0) := by
  rw [if_neg (by simp [hform, hname]), if_neg (by omega)]

theorem answers_hackRegion : Answers .hackRegion 3 (fun k e s => e.p 2 6 = 0 ∧ s.mayName k (s.region (e.p 0 2)).level (s.region (e.p 0 2)).parent = true ∧
    ((s.region (e.p 0 2)).state = 2 ∨ (s.region (e.p 0 2)).state = 3)) .ok (fun _ e s => s.addCause1 (e.p 0 2) 0 0) :=
  answers_of_serve execHackRegion.eq_def fun _ _ ⟨hform, hname, hstate⟩ => hack_passes hform hname hstate

theorem answers_hackRegion_state : Answers .hackRegion 3 (fun k e s => e.p 2 6 = 0 ∧
    s.mayName k (s.region (e.p 0 2)).level (s.region (e.p 0 2)).parent = true ∧ (s.region (e.p 0 2)).state < 2) .state (fun _ _ s => s) :=
  answers_of_serve execHackRegion.eq_def fun _ _ ⟨hform, hname, hstate⟩ => by
    dsimp only
    rw [if_neg (by simp [hform, hname]), if_pos (by omega)]

theorem answers_resumeRegion : Answers .resumeRegion 4 (fun k e s => e.p 2 6 = 0 ∧
    s.mayName k (s.region (e.p 0 2)).level (s.region (e.p 0 2)).parent = true ∧ ((s.region (e.p 0 2)).state = 2 ∨ (s.region (e.p 0 2)).state = 3)) .ok
    (fun _ e s => [0, 1, 2, 3, 4, 6, 7].foldl (fun s c => s.removeCause (e.p 0 2) c) s) :=
  answers_of_serve execResumeRegion.eq_def fun _ _ ⟨hform, hname, hstate⟩ => by
    dsimp only
    rw [if_neg (by simp [hform, hname]), if_neg (by omega)]

/-! ### Commands that name a control block (R403, R411, R415 to R419) -/

/-- What makes a control block one that the ring may name (R403; log entry 119). -/
theorem State.namedBy_iff (s : State) (k addr r : Nat) (x : Region) : s.namedBy k addr = some (r, x) ↔ x = s.regionFrom addr ∧ r = x.number ∧ s.rcbOk x = true ∧
    s.mayName k x.level x.parent = true ∧ ((s.region r).exists_ = true → (s.region r).level = x.level ∧ (s.region r).parent = x.parent) := by
  unfold State.namedBy
  dsimp only
  constructor
  · intro h
    split at h
    next hok =>
      obtain ⟨rfl, rfl⟩ := Prod.mk.inj (Option.some.inj h)
      simp only [Bool.and_eq_true, Bool.or_eq_true, Bool.not_eq_true', beq_iff_eq] at hok
      obtain ⟨⟨hrcb, hsame⟩, hname⟩ := hok
      exact ⟨rfl, rfl, hrcb, hname, fun he => hsame.resolve_left (by simp [he])⟩
    next => cases h
  · rintro ⟨rfl, rfl, hrcb, hname, hsame⟩
    refine if_pos ?_
    simp only [Bool.and_eq_true, Bool.or_eq_true, Bool.not_eq_true', beq_iff_eq]
    refine ⟨⟨hrcb, ?_⟩, hname⟩
    cases he : (s.region (s.regionFrom addr).number).exists_ with
    | false => exact .inl rfl
    | true => exact .inr (hsame he)

theorem answers_destroyRegion (r : Nat) (x : Region) : Answers .destroyRegion 2 (fun k e s => s.namedBy k (e.p 0 8) = some (r, x) ∧ s.children r = [] ∧
    ((s.region r).state = 2 ∨ (s.region r).state = 3)) .ok (fun _ _ s => ((((s.noteRcb r x).killAll r).endMove r).abandon r .ok).dropRegion r) :=
  answers_of_serve execDestroyRegion.eq_def fun _ _ ⟨hnamed, hleaf, hstate⟩ => by
    rw [hnamed]
    dsimp only
    rw [if_neg (by simp only [hleaf, List.isEmpty_nil, Bool.not_true, Bool.false_eq_true, false_or]; omega)]

theorem answers_destroyRegion_children (r : Nat) (x : Region) : Answers .destroyRegion 2 (fun k e s => s.namedBy k (e.p 0 8) = some (r, x) ∧ s.children r ≠ []) .state
    (fun _ _ s => s) :=
  answers_of_serve execDestroyRegion.eq_def fun _ _ ⟨hnamed, hchildren⟩ => by
    rw [hnamed]
    dsimp only
    rw [if_pos (by simp [hchildren])]

theorem answers_regionReset (r : Nat) (x : Region) : Answers .regionReset 5 (fun k e s => s.namedBy k (e.p 0 8) = some (r, x) ∧
    ((s.region r).state = 2 ∨ (s.region r).state = 3)) .ok
    (fun _ _ s =>
      let s := ((s.noteRcb r x).killAll r).endMove r
      let s := (s.region r).lostDue.foldl (fun s t => s.loseTile r t) s
      let ts := s.ownTiles r
      let s := s.updRegion r (fun y => { y with state := 4, causes := 0, stopTick := none, resumeTick := none, stopped := false, lostDue := [] })
      let s := ts.foldl (fun s t => s.beginRelease t r) ((s.stateEvent r 3 .ok).adoptRoots r)
      if ts.isEmpty then s.later .regionResetDone { a := r } else s) :=
  answers_of_serve execRegionReset.eq_def fun _ _ ⟨hnamed, hstate⟩ => by
    rw [hnamed]
    exact if_neg (by omega)

theorem answers_shareRegion (r : Nat) (x : Region) : Answers .shareRegion 7 (fun k e s => s.namedBy k (e.p 0 8) = some (r, x) ∧ (s.region r).exists_ = true ∧
    s.budgetOk r { x with col0 := (s.region r).col0, row0 := (s.region r).row0, w := (s.region r).w, h := (s.region r).h } = true ∧
    s.childrenFit r x = true) .ok (fun _ _ s => (s.noteRcb r x).updRegion r (fun y => { y with shareDue := true })) :=
  answers_of_serve execShareRegion.eq_def fun _ _ ⟨hnamed, hexists, hbudget, hfit⟩ => by
    rw [hnamed]
    dsimp only
    rw [if_neg (by simp [hexists]), if_neg (by simp [hbudget, hfit])]

theorem answers_shareRegion_budget (r : Nat) (x : Region) : Answers .shareRegion 7 (fun k e s => s.namedBy k (e.p 0 8) = some (r, x) ∧
    (s.region r).exists_ = true ∧ s.childrenFit r x = false) .budget (fun _ _ s => s) :=
  answers_of_serve execShareRegion.eq_def fun _ _ ⟨hnamed, hexists, hfit⟩ => by
    rw [hnamed]
    dsimp only
    rw [if_neg (by simp [hexists]), if_pos (.inr (by simp [hfit]))]

theorem answers_moveBorder (r : Nat) (x : Region) (l : List Nat) : Answers .moveBorder 6 (fun k e s => s.namedBy k (e.p 0 8) = some (r, x) ∧ e.p 0xA 1 ≤ 3 ∧
    e.p 0xB 5 = 0 ∧ (s.region r).exists_ = true ∧ (s.noteRcb r x).moveOk r (e.p 8 2) (e.p 0xA 1) = .ok l) .ok
    (fun _ e s => (s.noteRcb r x).beginMove r (e.p 8 2) (e.p 0xA 1) l) :=
  answers_of_serve execMoveBorder.eq_def fun _ _ ⟨hnamed, hside, hzero, hexists, hmove⟩ => by
    rw [hnamed]
    dsimp only
    rw [if_neg (by simp [hside, hzero, hexists]), hmove]

/-! ### Creation below level 1 (R419) -/

/-- Region r is being created from the control block b. -/
def Creating (s : State) (r : Nat) (b : BitVec 2048) : Prop := (s.region r).state = 1 ∧ (s.region r).rcb = b

theorem Creating.of_regions {s t : State} {r : Nat} {b : BitVec 2048} (h : Creating s r b) (hregions : t.regions = s.regions) : Creating t r b := by
  have hregion : t.region r = s.region r := congrArg (fun l => fget ({} : Region) l r) hregions
  exact ⟨hregion ▸ h.1, hregion ▸ h.2⟩

@[simp] theorem Region.count_rcb (x : Region) (stamp : Nat) (add : FMap Nat → FMap Nat) : (x.count stamp add).rcb = x.rcb := rfl

theorem creating_reportTile {s : State} {r : Nat} {b : BitVec 2048} (h : Creating s r b) (t : Nat) : Creating (s.reportTile t) r b := by
  obtain ⟨hstate, hrcb⟩ := h
  refine ⟨(State.region_reportTile s t r).2.2.trans hstate, ?_⟩
  unfold State.reportTile
  dsimp only
  split
  · exact hrcb
  · rw [State.region_setRegion]
    split
    · rename_i hr; simpa [← hr] using hrcb
    · exact hrcb

theorem State.scrub_regions (s : State) (t : Nat) : (s.scrub t).regions = s.regions := rfl

/-- A release to another region changes the regions as the tile's last report does. -/
theorem State.beginRelease_regions (s : State) (t to_ : Nat) : (s.beginRelease t to_).regions = (s.reportTile t).regions := by
  unfold State.beginRelease
  dsimp only
  exact State.scrub_regions _ t

theorem creating_claimTiles {s : State} {r : Nat} {b : BitVec 2048} (h : Creating s r b) (l : List (Nat × Nat × Nat)) : Creating (s.claimTiles r l) r b := by
  unfold State.claimTiles
  dsimp only
  generalize (s.region r).w = w
  induction l generalizing s with
  | nil => exact h
  | cons q l ih =>
    rw [List.foldl_cons]
    refine ih ?_
    split
    · exact (creating_reportTile (h.of_regions (quiet_setSite _ _ _).regions) q.2.2).of_regions (State.beginRelease_regions _ _ _)
    · exact h.of_regions (State.scrub_regions _ _)

/-- The state that a CREATE below level 1 leaves when it goes on: the region with its rings, its tiles claimed, its key step done. -/
def State.creationBegun (s : State) (k : Nat) (x : Region) : State :=
  let r := x.number
  let now := s.now (s.homeIsland x)
  let y : Region := { x with
    state := 1, home := s.homeIsland x, ring := 0, lastBoundary := now / 10 ^ 9 * 10 ^ 9, framesTo := s.tick, heldRecs := (s.region r).heldRecs }
  let t := (((s.setRegion r y).nameRings r).stateEvent r 0 .ok).claimTiles r (s.rectSites x)
  (t.setCmdRing k { t.cmdRing k with creating := r }).gateKeyStep k r

theorem State.gateKeyStep_deep {s : State} {r : Nat} (k : Nat) (h : (s.region r).level ≠ 1) : s.gateKeyStep k r = s.later .regionCreated { a := r } :=
  if_pos (.inr h)

theorem Creating.level {s : State} {r : Nat} {x : Region} (h : Creating s r x.rcb) : (s.region r).level = x.level :=
  congrArg (fun b => fld b (8 * 6) (8 * 1)) h.2

theorem State.creationBegun_creating (s : State) (k : Nat) {x : Region} (hlevel : x.level ≠ 1) :
    Creating (s.creationBegun k x) x.number x.rcb ∧ ((s.creationBegun k x).cmdRing k).creating = x.number := by
  unfold State.creationBegun
  extract_lets r now y t
  have hnew : Creating (s.setRegion r y) r x.rcb := by
    unfold Creating
    rw [State.region_setRegion, if_pos rfl]
    exact ⟨rfl, rfl⟩
  have hclaimed : Creating t r x.rcb := creating_claimTiles ((hnew.of_regions (t := (s.setRegion r y).nameRings r) rfl).of_regions (quiet_event _ _ _ _ _ _ _ _ _ _).regions) _
  have hkept : Creating (t.setCmdRing k { t.cmdRing k with creating := r }) r x.rcb := hclaimed.of_regions rfl
  rw [State.gateKeyStep_deep k (hkept.level ▸ hlevel)]
  refine ⟨hkept.of_regions rfl, ?_⟩
  exact congrArg CmdRing.creating (fget_fset_same _ _ _ _)

theorem exec_createRegion_deep {s : State} {e : Cmd} (hs : Served s s.ev.a 1 e) {t : State} {x : Region} (ht : t = accepted s s.ev.a e) (hx : x = t.regionFrom (e.p 0 8))
    (hlevel : x.level ≠ 1) (hrest : e.p 8 48 = 0) (hrcb : t.rcbOk x = true) (hname : t.mayName s.ev.a x.level x.parent = true) (hfree : (t.region x.number).state = 0)
    (hparent : x.level < 2 ∨ (t.region x.parent).state = 2 ∨ (t.region x.parent).state = 3) (hbudget : t.budgetOk x.number x = true) (hkeys : t.keysFit x.number x = true)
    (hcount : (t.regions.filter (fun e => e.2.exists_)).length < 4096) (hsites : (t.rectSites x).length = x.w * x.h)
    (hclaim : ∀ q ∈ t.rectSites x, t.claimable x q.2.2 = true) (hidle : (t.region x.parent).noKernels = true) :
    exec .createRegion s = .next ((t.creationBegun s.ev.a x).setCmdRing s.ev.a { (t.creationBegun s.ev.a x).cmdRing s.ev.a with waiting := true }) := by
  refine (execCreateRegion.eq_def s).trans (State.serve_goesOn hs ?_)
  rw [← ht]
  dsimp only
  rw [← hx, if_neg hlevel, if_neg hlevel, if_neg hlevel, if_neg, if_neg, if_neg]
  · rfl
  · simp only [hsites, hidle]
    simpa using fun a b c hq => hclaim (a, b, c) hq
  · simpa [hbudget, hkeys] using hcount
  · simp only [hrcb, hname, hrest, hfree]
    simp
    omega

/-- Settles O31: each command by the branch of its run that its operands meet, and a creation by the steps that keep its region in the state of being created. -/
theorem regionCommands : Obligations.RegionCommands := by
  refine ⟨?cut, ?turn, answers_hackRegion, answers_hackRegion_state, answers_resumeRegion, answers_destroyRegion, answers_destroyRegion_children, answers_regionReset,
    answers_shareRegion, answers_shareRegion_budget, State.namedBy_iff, answers_moveBorder, ?create⟩
  case cut =>
    intro s e hpending hfree hturn hcut hcode hdecide hform t x hzero hname hstate
    exact (execHackRegion.eq_def s).trans (State.serve_cut hpending hfree hturn hcut hcode hdecide hform (hack_passes hzero hname hstate))
  case turn => exact fun s e hpending hfree hcode hturn => (execHackRegion.eq_def s).trans (State.serve_behind hpending hfree hcode hturn)
  case create =>
    intro s e hs t x hlevel hrest hrcb hname hfree hparent hbudget hkeys hcount hsites hclaim hidle
    refine ⟨_, exec_createRegion_deep hs rfl rfl hlevel hrest hrcb hname hfree hparent hbudget hkeys hcount hsites hclaim hidle, ?_⟩
    obtain ⟨hcreating, hring⟩ := t.creationBegun_creating s.ev.a hlevel
    refine ⟨hcreating.1, ?_, ?_⟩
    · exact congrArg CmdRing.waiting (fget_fset_same _ _ _ _)
    · exact (congrArg CmdRing.creating (fget_fset_same _ _ _ _)).trans hring

end Sys2Proof.Machine
end

section
/-! SUPPORT. A retag that is cut off: an answer is due only where the frame that is scrubbed does not hold the ring (R421, R433). -/
namespace Sys2Proof.Machine

/-! ### Memory that has been cleared -/

theorem Memory.byte_clear_inside {m : Memory} {lo n a : Nat} (h : lo ≤ a) (h1 : a < lo + n) : (m.clear lo n).byte a = 0#8 :=
  (fget_filter 0#8 (fun k => decide (k < lo ∨ lo + n ≤ k)) m a).trans (if_neg (by simp; omega))

theorem Memory.readLE_clear_inside {m : Memory} {lo n a k : Nat} (h : lo ≤ a) (h1 : a + k ≤ lo + n) : (m.clear lo n).readLE a k = 0 := by
  induction k generalizing a with
  | zero => rfl
  | succ k ih => rw [Memory.readLE, Memory.byte_clear_inside h (by omega), ih (by omega) (by omega)]; rfl

/-! ### What scrubbing and answering do to a ring -/

@[simp] theorem State.meterFrames_sec (s : State) (r : Nat) : (s.meterFrames r).sec = s.sec := by
  unfold State.meterFrames
  split <;> rfl

@[simp] theorem State.meterFrames_mem (s : State) (r : Nat) : (s.meterFrames r).mem = s.mem := by
  unfold State.meterFrames
  split <;> rfl

@[simp] theorem State.retagFrame_sec (s : State) (f kid owner : Nat) : (s.retagFrame f kid owner).sec = s.sec :=
  (State.meterFrames_sec _ _).trans (State.meterFrames_sec _ _)

@[simp] theorem State.retagFrame_cmdRing (s : State) (f kid owner k : Nat) : (s.retagFrame f kid owner).cmdRing k = s.cmdRing k :=
  congrArg (fun x : Sec => fget ({} : CmdRing) x.rings k) (s.retagFrame_sec f kid owner)

theorem State.retagFrame_mem (s : State) (f kid owner : Nat) :
    (s.retagFrame f kid owner).mem = Memory.clear s.mem (edgeKey (4096 * f)) (edgeKey (4096 * f + 4096) - edgeKey (4096 * f)) :=
  congrArg (fun m => Memory.clear m (edgeKey (4096 * f)) (edgeKey (4096 * f + 4096) - edgeKey (4096 * f))) ((State.meterFrames_mem _ _).trans (State.meterFrames_mem _ _))

theorem State.respond_ridx (s : State) (k : Nat) (e : Cmd) (st : Status) (w : Nat) : ((s.respond k e st w).cmdRing k).ridx = (s.cmdRing k).ridx + 1 :=
  congrArg CmdRing.ridx (fget_fset_same _ _ _ _)

/-- Software has written no further entry. -/
theorem State.pending_none {s : State} {k : Nat} (h : s.memRead (sysKey (s.cmdRing k).ctl) 8 ≤ (s.cmdRing k).ridx) : s.pending k = none :=
  if_neg fun ⟨_, _, _, _, hlt⟩ => absurd (hlt.trans_le (Nat.min_le_left _ _)) (by omega)

theorem State.interruptRing_none {s : State} {k : Nat} (n : Nat) (h : s.pending k = none) : s.interruptRing k n = s := by
  unfold State.interruptRing
  rw [h]

/-- What of a command under way goes with its core: its retry and its next frame (R421). -/
def State.withoutSteps (s : State) (k : Nat) : State := { s with
  agenda := s.agenda.filter (fun a => !((a.1 == Instr.entropyRetry && a.2.a == k) || (a.1 == Instr.retag && a.2.a == k && a.2.flag))) }

/-- A RETAG that is cut off has its locked frame done, and is answered as the ring then stands (R421, R433). -/
theorem State.cutOff_retag {s : State} {k : Nat} {e : Cmd} {f : Nat × FrameTag} (hpending : s.pending k = some e) (hwaiting : (s.cmdRing k).waiting = true)
    (hcreating : (s.cmdRing k).creating = 0) (hcode : e.code = 0x12)
    (hfind : s.tags.find? (fun f => f.2.locked && decide (e.frame ≤ f.1 ∧ f.1 < e.frame + e.count)) = some f) :
    s.cutOff k = ((s.withoutSteps k).retagFrame f.1 (e.p 12 2) (e.p 14 2)).interruptRing k (f.1 - e.frame + 1) := by
  unfold State.cutOff
  extract_lets x t u
  have ht : t.pending k = some e := hpending
  have hu : u = t := if_neg (not_not.mpr hcreating)
  rw [ht, hu]
  dsimp only
  rw [if_neg (by simp [x, hwaiting]), if_pos hcode, hfind]
  rfl

/-! ### A ring inside the frame -/

/-- A RETAG of one frame, at byte 2^60 of edge memory. -/
def farRetag : Cmd := ⟨0x12 * 2 ^ 64 + 2 ^ 60 * 2 ^ 128 + 2 ^ 192⟩

/-- Ring 0, of one entry at the start of the islands' memory, with its command under way. -/
def farRing : CmdRing := { isOpen := true, n := 1, waiting := true }

/-- The memory of the ring: its one entry at the islands' byte 0, and the index that software has written at its control block. -/
def farMem : Memory := Memory.writeLE (Memory.writeLE [] (sysKey 0x100) 8 1) (sysKey 0) 256 farRetag.v

theorem farMem_widx : farMem.readLE (sysKey 0x100) 8 = 1 := by
  unfold farMem
  rw [Memory.readLE_writeLE_ne _ _ _ _ _ _ (.inr (by unfold sysKey; omega)), Memory.readLE_writeLE]
  rfl

theorem farMem_entry : farMem.readLE (sysKey 0) 256 = farRetag.v := by
  unfold farMem
  rw [Memory.readLE_writeLE]
  exact Nat.mod_eq_of_lt (by norm_num [farRetag])

/-- A memory in a module of which the frame whose byte keys run into the islands' memory is locked: byte 2^60 of edge memory has the key of the
islands' byte 0. With `farMem` the entry under way on `farRing` is the RETAG of that frame. No run reaches the state, for `State.retagOk` bounds the frames. -/
def farState (m : Memory) : State := { State.reset with
  mem := m
  tags := [(2 ^ 48, { locked := true })]
  sec := { State.reset.sec with booted := true, rings := [(0, farRing)] } }

theorem farState_cmdRing (m : Memory) : (farState m).cmdRing 0 = farRing := rfl

theorem farState_pending {m : Memory} (hwidx : m.readLE (sysKey 0x100) 8 = 1) (hentry : m.readLE (sysKey 0) 256 = farRetag.v) :
    (farState m).pending 0 = some farRetag := by
  have hread : (farState m).memRead (sysKey ((farState m).cmdRing 0).ctl) 8 = 1 := hwidx
  unfold State.pending
  dsimp only
  rw [hread, farState_cmdRing, if_pos ⟨rfl, .inl rfl, rfl, by decide, by decide⟩]
  exact congrArg (fun v => some (Cmd.mk v)) hentry

/-- The state once the frame is scrubbed. -/
def farScrubbed (m : Memory) : State := (farState m).retagFrame (2 ^ 48) 0 0

theorem farScrubbed_cmdRing (m : Memory) : (farScrubbed m).cmdRing 0 = farRing := State.retagFrame_cmdRing _ _ _ _ _

/-- The scrub has wiped the ring: no entry is pending. -/
theorem farScrubbed_pending (m : Memory) : (farScrubbed m).pending 0 = none := by
  have hwidx : (farScrubbed m).memRead (sysKey 0x100) 8 = 0 := by
    unfold State.memRead farScrubbed
    rw [State.retagFrame_mem]
    exact Memory.readLE_clear_inside (by unfold edgeKey sysKey; omega) (by unfold edgeKey sysKey; omega)
  refine State.pending_none ?_
  rw [farScrubbed_cmdRing]
  exact hwidx.le

/-- Cut off, the command goes unanswered. -/
theorem farState_cutOff {m : Memory} (h : (farState m).pending 0 = some farRetag) : (farState m).cutOff 0 = farScrubbed m := by
  have hagenda : (farState m).withoutSteps 0 = farState m := rfl
  rw [State.cutOff_retag (f := (2 ^ 48, { locked := true })) h rfl rfl rfl rfl, hagenda]
  exact State.interruptRing_none _ (farScrubbed_pending m)

/-- Refutes O32: its last clause lets the retagged frame lie anywhere. In `farState` the frame holds the ring itself, so that scrubbing it leaves no entry
to answer, and the ring does not go on to the next. -/
theorem not_securityEvents : ¬ Obligations.SecurityEvents := by
  rintro ⟨-, -, -, -, -, -, -, -, -, -, -, -, -, -, -, -, -, -, hcutOff⟩
  have hpending := farState_pending farMem_widx farMem_entry
  generalize farMem = m at hpending
  have hanswered := hcutOff (farState m) 0 farRetag 0 { locked := true } hpending rfl rfl rfl (by decide) rfl
  rw [farState_cutOff hpending] at hanswered
  have hridx := congrArg (fun s : State => (s.cmdRing 0).ridx) hanswered
  rw [State.respond_ridx, State.retagFrame_cmdRing, farScrubbed_cmdRing] at hridx
  have hfar : farRing.ridx = farRing.ridx + 1 := hridx
  exact absurd hfar (by decide)

end Sys2Proof.Machine
end
